-- ==== Sys2Proof/Word.lean ====
section
/-! DEFINITION. The word types of the core (spec/02: 32-bit entries and registers, bytes, 64-bit accesses). -/

namespace Sys2Proof

/-- A 32-bit stack entry, coach register or control register. -/
abbrev Word := BitVec 32

/-- One byte of memory. -/
abbrev Byte := BitVec 8

/-- A 64-bit access or a milestone time. -/
abbrev DWord := BitVec 64

end Sys2Proof
end

