-- ==== Sys2Proof/Syntax.lean ====
section
/-! DEFINITION. The commands the block takes: one constructor per row of spec/opcode_table.json. -/

namespace Sys2Proof

/-- The operation of an atomic (R52, R100). -/
inductive AtomicOp where
  | cas | fadd | xchg | fand | for_
  deriving DecidableEq, Repr

/-- What the error code finds in a word that is read: no error beyond the marks the state holds, a fresh single-bit
error, or a fresh uncorrectable one (R283). -/
inductive Upset where
  | none | single | double
  deriving DecidableEq, Repr

/-- What an internal item of Mortar carries (R22). -/
inductive MtrLoad where
  /-- A wake of coach `c` with these wake-word bits (R93). -/
  | wake (c : BitVec 10) (bits : BitVec 4)
  /-- The stamp of a trigger of source `n` (R220). -/
  | stamp (n : BitVec 9)
  /-- A record on its way from the milestone island to the stele (R222). -/
  | ledger
  /-- A FAST delivery (R201). -/
  | fast
  /-- Traffic within an engine. -/
  | other
  deriving DecidableEq, Repr

/-- What a Mortar crossing carries (R22). -/
inductive MtrItem where
  /-- An open-traffic request or response of consignment entry `e`, of its second half when `half`. -/
  | open_ (e : Fin 3072) (half : Bool)
  /-- The sealed request or response of coach `c`. -/
  | sealed_ (c : BitVec 10)
  /-- Any other item: the sender keeps it and offers it again. -/
  | internal (d : MtrLoad)
  deriving DecidableEq, Repr

/-- A port of a bank, the maintenance port among them (R277, R278). -/
inductive Port where
  | c | e | h | maint
  deriving DecidableEq, Repr

/-- The standing of an access among those to its word in a bank cycle: that of R278, first after four BUSY results (R280),
or the second cycle of a locked pair or an atomic (R282). -/
inductive PortRank where
  | normal | first | locked
  deriving DecidableEq, Repr

/-- Another port's access to the same word in the same bank cycle (R278). -/
structure Rival where
  port : Port
  write : Bool
  rank : PortRank
  deriving DecidableEq, Repr

/-- An attempt of a bank's E port (R280): the word, the bytes and data of a write, the other port that it meets, and what
its read of the array finds. -/
structure EAccess where
  bank : Fin 32
  word : BitVec 13
  write : Option (BitVec 8 × DWord)
  rival : Option Rival
  upset : Upset
  deriving DecidableEq, Repr

/-- An access of the C port, or one that a timeout is running for: that of consignment entry `e`, in its second half when
`half`, or the one, a write or a read, that the core makes for coach `c` after `k` others, within an instruction or a miss
fill. -/
inductive CAccess where
  | entry (e : Fin 3072) (half : Bool)
  | own (c : BitVec 10) (k : Fin 64) (write : Bool)
  deriving DecidableEq, Repr

/-- An access of the C port and the other port's that it meets (R279). -/
structure Clash where
  access : CAccess
  rival : Rival
  deriving DecidableEq, Repr

/-- What one copy of the event controller sends and the other does not (R210): a wake of coach `c`, an offer of source `n` to
it, or a FAST delivery. -/
inductive CopySends where
  | wake (c : BitVec 10)
  | offer (c : BitVec 10) (n : BitVec 9)
  | fast
  deriving DecidableEq, Repr

/-- A difference between the two copies of the event controller (R210). -/
inductive CopyDiff where
  | dynamic (n : BitVec 9)
  | config (n : BitVec 9)
  /-- An outgoing wake, offer or delivery: sent if either copy would send it. -/
  | output (d : CopySends)
  /-- A register response to coach `c`: refused. -/
  | response (c : BitVec 10)
  deriving DecidableEq, Repr

/-- The steps of a dark pulse (R228): it begins, the sense pins are checked (bit i set: fault i of OPEN, SHV, SHG, REV,
STUCK), it ends. -/
inductive DarkPhase where
  | begin_
  | check (faults : BitVec 5)
  | end_
  deriving DecidableEq, Repr

/-- The 176 bus-output bits that positions A, B and C present in one lane-set cycle, de-skewed (R235); those of a position
that no lane occupies say nothing. -/
structure Outputs where
  a : BitVec 176
  b : BitVec 176
  c : BitVec 176
  deriving DecidableEq, Repr

/-- The enable line of a channel that a position drives (R227). -/
structure EnableLine where
  channel : Fin 4
  pos : Fin 3
  deriving DecidableEq, Repr

/-- What the start-up meets: the size code of the flash macro (R315), the lanes that pass their self-test (R245), the
lane ports that fail the comparator test with the injection that showed it, an injection that fails in all lanes (R250),
and the flash sectors that fail a margin read (R329). -/
structure StartUp where
  size : Fin 9
  pass : BitVec 4
  ports : List (Fin 4 × Fin 732)
  cmp : Option (Fin 732)
  bad : List (BitVec 14)
  deriving DecidableEq, Repr

/-- What the host answers to the reads that one step of MOVE or MCMP makes in the host window (R87, R374), one
aligned 64-bit word each, in the order of the step; `fail` names the read that fails and how: 0 no answer, 1 BUSY beyond
the limit, 2 ERROR, 3 DENIED. -/
structure HostWords where
  words : Vector DWord 18
  fail : Option (Fin 18 × BitVec 2)
  deriving DecidableEq, Repr

/-- Where an instruction issues: the lane set, and whether it borrows the lane cycle after a taken transfer of the coach
that runs there (R110). Lane set 0 is the voting set or compared pair, 1 and 2 are the free lanes (R137). -/
structure LaneUse where
  set : Fin 3
  borrowed : Bool
  deriving DecidableEq, Repr

/-- Where TAKE or TEST issues, and what the comparison of its ticket's entry copies finds (R149). -/
structure TicketUse where
  lane : LaneUse
  table : Upset
  deriving DecidableEq, Repr

/-- The commands: one constructor per row of spec/opcode_table.json, its docstring the row's rule.
An instruction row names the lane set `l` that issues it, and the rows of a lane set name it alone. A register row names the coach `c` whose access it is. -/
inductive Instr where
  /-- LIT, R70. -/
  | lit (l : LaneUse) (n : BitVec 4)
  /-- LIT8, R70. -/
  | lit8 (l : LaneUse) (imm : BitVec 8)
  /-- LIT16, R70. -/
  | lit16 (l : LaneUse) (imm : BitVec 16)
  /-- LIT32, R70. -/
  | lit32 (l : LaneUse) (imm : Word)
  /-- LIT16U, R70. -/
  | lit16u (l : LaneUse) (imm : BitVec 16)
  /-- DUP, R70. -/
  | dup (l : LaneUse)
  /-- DROP, R70. -/
  | drop (l : LaneUse)
  /-- SWAP, R70. -/
  | swap (l : LaneUse)
  /-- OVER, R70. -/
  | over (l : LaneUse)
  /-- ROT, R70. -/
  | rot (l : LaneUse)
  /-- NIP, R70. -/
  | nip (l : LaneUse)
  /-- TUCK, R70. -/
  | tuck (l : LaneUse)
  /-- PICK, R71. -/
  | pick (l : LaneUse)
  /-- DEPTH, R70. -/
  | depth (l : LaneUse)
  /-- TO_R, R70. -/
  | toR (l : LaneUse)
  /-- R_FROM, R70. -/
  | rFrom (l : LaneUse)
  /-- R_FETCH, R70. -/
  | rFetch (l : LaneUse)
  /-- TWO_DUP, R70. -/
  | twoDup (l : LaneUse)
  /-- TWO_DROP, R70. -/
  | twoDrop (l : LaneUse)
  /-- TWO_SWAP, R70. -/
  | twoSwap (l : LaneUse)
  /-- RDROP, R70. -/
  | rdrop (l : LaneUse)
  /-- ADD, R72. -/
  | add (l : LaneUse)
  /-- SUB, R72. -/
  | sub (l : LaneUse)
  /-- ADC, R72. -/
  | adc (l : LaneUse)
  /-- SBC, R72. -/
  | sbc (l : LaneUse)
  /-- NEG, R72. -/
  | neg (l : LaneUse)
  /-- MUL, R72. -/
  | mul (l : LaneUse)
  /-- MULH, R72. -/
  | mulh (l : LaneUse)
  /-- MULHU, R72. -/
  | mulhu (l : LaneUse)
  /-- DIV, R73. -/
  | div (l : LaneUse)
  /-- DIVU, R73. -/
  | divu (l : LaneUse)
  /-- MOD, R73. -/
  | mod (l : LaneUse)
  /-- MODU, R73. -/
  | modu (l : LaneUse)
  /-- DIVISION_COMPLETE, R73. -/
  | divisionComplete (l : Fin 3)
  /-- INC, R72. -/
  | inc (l : LaneUse)
  /-- DEC, R72. -/
  | dec (l : LaneUse)
  /-- ABS, R72. -/
  | abs (l : LaneUse)
  /-- AND, R74. -/
  | andOp (l : LaneUse)
  /-- OR, R74. -/
  | orOp (l : LaneUse)
  /-- XOR, R74. -/
  | xorOp (l : LaneUse)
  /-- NOT, R74. -/
  | notOp (l : LaneUse)
  /-- SHL, R74. -/
  | shl (l : LaneUse)
  /-- SHR, R74. -/
  | shr (l : LaneUse)
  /-- SAR, R74. -/
  | sar (l : LaneUse)
  /-- ROL, R74. -/
  | rol (l : LaneUse)
  /-- ROR, R74. -/
  | ror (l : LaneUse)
  /-- CLZ, R74. -/
  | clz (l : LaneUse)
  /-- FFS, R74. -/
  | ffs (l : LaneUse)
  /-- POPC, R74. -/
  | popc (l : LaneUse)
  /-- BSWAP, R74. -/
  | bswap (l : LaneUse)
  /-- SXB, R74. -/
  | sxb (l : LaneUse)
  /-- SXH, R74. -/
  | sxh (l : LaneUse)
  /-- ANDN, R74. -/
  | andn (l : LaneUse)
  /-- EQ, R75. -/
  | eq (l : LaneUse)
  /-- NE, R75. -/
  | ne (l : LaneUse)
  /-- LT, R75. -/
  | lt (l : LaneUse)
  /-- LE, R75. -/
  | le (l : LaneUse)
  /-- GT, R75. -/
  | gt (l : LaneUse)
  /-- GE, R75. -/
  | ge (l : LaneUse)
  /-- LTU, R75. -/
  | ltu (l : LaneUse)
  /-- LEU, R75. -/
  | leu (l : LaneUse)
  /-- GTU, R75. -/
  | gtu (l : LaneUse)
  /-- GEU, R75. -/
  | geu (l : LaneUse)
  /-- EQ0, R75. -/
  | eq0 (l : LaneUse)
  /-- NE0, R75. -/
  | ne0 (l : LaneUse)
  /-- LT0, R75. -/
  | lt0 (l : LaneUse)
  /-- GT0, R75. -/
  | gt0 (l : LaneUse)
  /-- WITHINU, R75. -/
  | withinu (l : LaneUse)
  /-- LDB, R76. -/
  | ldb (l : LaneUse)
  /-- LDBS, R76. -/
  | ldbs (l : LaneUse)
  /-- LDH, R76. -/
  | ldh (l : LaneUse)
  /-- LDHS, R76. -/
  | ldhs (l : LaneUse)
  /-- LD, R76. -/
  | ld (l : LaneUse)
  /-- LDD, R76. -/
  | ldd (l : LaneUse)
  /-- STB, R76. -/
  | stb (l : LaneUse)
  /-- STH, R76. -/
  | sth (l : LaneUse)
  /-- ST, R76. -/
  | st (l : LaneUse)
  /-- STD, R76. -/
  | std (l : LaneUse)
  /-- LD_A_INC, R76. -/
  | ldAInc (l : LaneUse)
  /-- ST_A_INC, R76. -/
  | stAInc (l : LaneUse)
  /-- LD_B_INC, R76. -/
  | ldBInc (l : LaneUse)
  /-- ST_B_INC, R76. -/
  | stBInc (l : LaneUse)
  /-- LDB_A_INC, R76. -/
  | ldbAInc (l : LaneUse)
  /-- STB_B_INC, R76. -/
  | stbBInc (l : LaneUse)
  /-- BR, R78. -/
  | br (l : LaneUse) (imm : BitVec 8)
  /-- BR16, R78. -/
  | br16 (l : LaneUse) (imm : BitVec 16)
  /-- BZ, R78. -/
  | bz (l : LaneUse) (imm : BitVec 8)
  /-- BZ16, R78. -/
  | bz16 (l : LaneUse) (imm : BitVec 16)
  /-- BNZ, R78. -/
  | bnz (l : LaneUse) (imm : BitVec 8)
  /-- BNZ16, R78. -/
  | bnz16 (l : LaneUse) (imm : BitVec 16)
  /-- CALL, R78. -/
  | call (l : LaneUse) (imm : BitVec 16)
  /-- CALL24, R78. -/
  | call24 (l : LaneUse) (imm : BitVec 24)
  /-- CALLX, R78. -/
  | callx (l : LaneUse)
  /-- JMP, R78. -/
  | jmp (l : LaneUse)
  /-- RET, R78. -/
  | ret (l : LaneUse)
  /-- LOOP, R79. -/
  | loopSet (l : LaneUse) (imm : BitVec 8)
  /-- LOOP16, R79. -/
  | loop16 (l : LaneUse) (imm : BitVec 16)
  /-- ENDL, R78. -/
  | endl (l : LaneUse)
  /-- NOP, R78. -/
  | nop (l : LaneUse)
  /-- TO_A, R80. -/
  | toA (l : LaneUse)
  /-- A_FROM, R80. -/
  | aFrom (l : LaneUse)
  /-- TO_B, R80. -/
  | toB (l : LaneUse)
  /-- B_FROM, R80. -/
  | bFrom (l : LaneUse)
  /-- A_PLUS, R80. -/
  | aPlus (l : LaneUse)
  /-- B_PLUS, R80. -/
  | bPlus (l : LaneUse)
  /-- LITA, R80. -/
  | lita (l : LaneUse) (imm : Word)
  /-- LITB, R80. -/
  | litb (l : LaneUse) (imm : Word)
  /-- PCREL, R80. -/
  | pcrel (l : LaneUse) (imm : BitVec 16)
  /-- LDP, R81. -/
  | ldp (l : LaneUse)
  /-- LDPD, R81. -/
  | ldpd (l : LaneUse)
  /-- TAKE, R84. -/
  | takeTicket (x : TicketUse)
  /-- TEST, R81. -/
  | testTicket (x : TicketUse)
  /-- FENCE, R49. -/
  | fence (l : LaneUse)
  /-- MOVE, R87. -/
  | moveMem (l : LaneUse) (k : Fin 65) (h : HostWords)
  /-- FILL, R87. -/
  | fillMem (l : LaneUse) (k : Fin 65)
  /-- MCMP, R87. -/
  | mcmp (l : LaneUse) (k : Fin 65) (h : HostWords)
  /-- YIELD, R92. -/
  | yield (l : LaneUse)
  /-- WAIT, R93. -/
  | waitWake (l : LaneUse)
  /-- WAKE, R94. -/
  | wake (l : LaneUse)
  /-- SPAWN, R133. -/
  | spawn (l : LaneUse)
  /-- KILL, R95. -/
  | kill (l : LaneUse)
  /-- PARK, R57. -/
  | park (l : LaneUse)
  /-- PARKC, R96. -/
  | parkc (l : LaneUse)
  /-- UNPARK, R58. -/
  | unpark (l : LaneUse)
  /-- GATE, R97. -/
  | gate (l : LaneUse) (imm : BitVec 16)
  /-- RETG, R98. -/
  | retg (l : LaneUse)
  /-- RETX, R176. -/
  | retx (l : LaneUse)
  /-- BRK, R92. -/
  | brk (l : LaneUse) (imm : BitVec 8)
  /-- ARM, R92. -/
  | arm (l : LaneUse)
  /-- CAS, R100. -/
  | cas (l : LaneUse)
  /-- FADD, R100. -/
  | fadd (l : LaneUse)
  /-- XCHG, R100. -/
  | xchg (l : LaneUse)
  /-- FAND, R100. -/
  | fand (l : LaneUse)
  /-- FOR, R100. -/
  | forOp (l : LaneUse)
  /-- IN_RAW, R59. -/
  | inRaw (l : LaneUse) (x y z : Word)
  /-- IN_AGREE, R60. -/
  | inAgree (l : LaneUse) (x y z : Word)
  /-- BNOP, R101. -/
  | bnop (l : LaneUse)
  /-- BNKEY, R101. -/
  | bnkey (l : LaneUse)
  /-- BNPOLL, R101. -/
  | bnpoll (l : LaneUse)
  /-- BNABORT, R103. -/
  | bnabort (l : LaneUse)
  /-- BNKLD, R353. -/
  | bnkld (l : LaneUse)
  /-- CSRR, R104. -/
  | csrr (l : LaneUse)
  /-- CSRW, R104. -/
  | csrw (l : LaneUse)
  /-- CSRRI, R104. -/
  | csrri (l : LaneUse) (imm : BitVec 24)
  /-- CSRWI, R104. -/
  | csrwi (l : LaneUse) (imm : BitVec 24)
  /-- GETR, R32. -/
  | getr (l : LaneUse) (n : BitVec 5)
  /-- SETR, R33. -/
  | setr (l : LaneUse) (n : BitVec 5)
  /-- ICINV, R106. -/
  | icinv (l : LaneUse)
  /-- ICINVA, R106. -/
  | icinva (l : LaneUse)
  /-- CUSTN, R270. -/
  | custn (l : LaneUse) (n : BitVec 4)
  /-- ILLEGAL, R65. -/
  | illegal (l : LaneUse) (op : BitVec 8) (escape : Bool)
  /-- CONSIGNMENT_COMPLETION, R48. -/
  | consignmentCompletion (e : Fin 3072) (count : BitVec 16) (upset table : Upset)
  /-- SEALED_RESPONSE, R24. -/
  | sealedResponse (c : BitVec 10) (retries : Fin 6) (upset : Upset)
  /-- CONSIGNMENT_TIMEOUT, R147. -/
  | consignmentTimeout (a : CAccess) (table : Upset)
  /-- MORTAR_RETRY, R20. -/
  | mortarRetry (src dst : BitVec 4) (item : MtrItem) (fails : Bool)
  /-- MORTAR_REOFFER, R22. -/
  | mortarReoffer (src dst : BitVec 4)
  /-- WAYBILL_ENTRY, R171. -/
  | waybillEntry (l : Fin 3)
  /-- FAST_ENTRY, R151. -/
  | fastEntry
  /-- STRONGBOX_ENTRY, R182. -/
  | strongboxEntry
  /-- QUANTUM_END, R136. -/
  | quantumEnd (l : Fin 3)
  /-- TIMER_FIRE, R139. -/
  | timerFire (c : BitVec 10)
  /-- EVENT_TRIGGER, R187. -/
  | eventTrigger (n : BitVec 9) (merged : Bool)
  /-- COALESCE_TIMEOUT, R190. -/
  | coalesceTimeout (n : BitVec 9)
  /-- STORM_WINDOW_END, R209. -/
  | stormWindowEnd
  /-- EVC_CLAIM, R204. -/
  | evcClaim (c : BitVec 10) (n : BitVec 9)
  /-- EVC_CLAIMTOP, R204. -/
  | evcClaimtop (c : BitVec 10)
  /-- EVC_CPL, R205. -/
  | evcCpl (c : BitVec 10) (v : Word)
  /-- EVC_PENDSET, R191. -/
  | evcPendset (c : BitVec 10) (k : Fin 16) (v : Word)
  /-- EVC_SCFG_WRITE, R212. -/
  | evcScfgWrite (c : BitVec 10) (n : BitVec 9) (v : Word)
  /-- EVC_FAST_WRITE, R202. -/
  | evcFastWrite (c : BitVec 10) (v : Word)
  /-- EVC_COPY_DIFFERENCE, R210. -/
  | evcCopyDifference (d : CopyDiff)
  /-- MLS_TIME_LO_READ, R215. -/
  | mlsTimeLoRead (c : BitVec 10)
  /-- MLS_LSTAMP_LO_READ, R215. -/
  | mlsLstampLoRead (c : BitVec 10) (n : BitVec 9)
  /-- STEP, R216. -/
  | stepTime (c : BitVec 10)
  /-- STEPPPS, R216. -/
  | steppps (c : BitVec 10)
  /-- ACQ, R217. -/
  | acq (c : BitVec 10)
  /-- PPS_EDGE, R217. -/
  | ppsEdge (width : BitVec 30)
  /-- PPS_HOLDOVER, R218. -/
  | ppsHoldover
  /-- TREF_REVERSED, R219. -/
  | trefReversed
  /-- TREF_OPEN_OR_SHORT, R219. -/
  | trefOpenOrShort (short : Bool)
  /-- MILESTONE_COUNTER_DIFFERENCE, R214. -/
  | milestoneCounterDifference
  /-- LEDGER_RECORD_WRITE, R222. -/
  | ledgerRecordWrite (tries : Vector (Fin 6) 4)
  /-- INIT, R225. -/
  | initLedger (c : BitVec 10)
  /-- MLS_LSOFT_WRITE, R221. -/
  | mlsLsoftWrite (c : BitVec 10) (v : Word)
  /-- SVO_CMD_WRITE, R227. -/
  | svoCmdWrite (c : BitVec 10) (v : Word)
  /-- SVO_RELEASE, R230. -/
  | svoRelease (c : BitVec 10)
  /-- DARK_PULSE, R228. -/
  | darkPulse (n : Fin 4) (p : DarkPhase)
  /-- ENABLE_DISAGREEMENT, R227. -/
  | enableDisagreement (x : EnableLine)
  /-- TAMPER_MESH_CHECK, R231. -/
  | tamperMeshCheck (bad short : BitVec 8)
  /-- OUTPUT_MISMATCH, R242, with the outputs that the positions present. -/
  | outputMismatch (a b c : BitVec 176)
  /-- UNRESOLVED_MISMATCH, R243. -/
  | unresolvedMismatch (a b c : BitVec 176)
  /-- CHECKPOINT, R237. -/
  | checkpoint (c : BitVec 10) (diff : Option (Fin 3 × Fin 64))
  /-- PARTIAL_RESYNC, R240. -/
  | partialResync
  /-- LANE_JOIN, R239. -/
  | laneJoin
  /-- LANE_SELF_TEST_END, R245. -/
  | laneSelfTestEnd (n : Fin 4) (pass : Bool)
  /-- ROTATION_DUE, R247. -/
  | rotationDue
  /-- COMPARATOR_INJECTION, R249. -/
  | comparatorInjection (pass : Bool)
  /-- OSCILLATOR_FAULT, R251. -/
  | oscillatorFault (n : Fin 3)
  /-- OSCILLATOR_REENABLE, R251. -/
  | oscillatorReenable (n : Fin 3)
  /-- HANDOVER_TO_PAIRED, R254. -/
  | handoverToPaired (c : BitVec 10)
  /-- HANDOVER_TO_VOTED, R255. -/
  | handoverToVoted (c : BitVec 10)
  /-- LNC_RETEST, R246. -/
  | lncRetest (c : BitVec 10) (v : Word)
  /-- LNC_ROTREQ, R247. -/
  | lncRotreq (c : BitVec 10)
  /-- POLICY_WINDOW_END, R256. -/
  | policyWindowEnd
  /-- MCS_STAGE_WRITE, R262. -/
  | mcsStageWrite (c : BitVec 10) (region : Bool) (index : BitVec 11)
  /-- MCS_STAGE_READ, R262. -/
  | mcsStageRead (c : BitVec 10) (region : Bool) (index : BitVec 11)
  /-- MCS_CLEAR, R263. -/
  | mcsClear (c : BitVec 10) (region : Bool)
  /-- MCS_STAGED_WRITE, R263. -/
  | mcsStagedWrite (c : BitVec 10) (region : Bool) (v : Word)
  /-- MCS_STAGED_DIGEST, R268. -/
  | mcsStagedDigest (c : BitVec 10) (region : Bool)
  /-- MCS_SWITCH, R264. -/
  | mcsSwitch (c : BitVec 10) (region : Bool)
  /-- MICROCODE_EXCHANGE, R265. -/
  | microcodeExchange
  /-- BANK_C_RETRY, R279. -/
  | bankCRetry (x : Clash)
  /-- BANK_E_RETRY, R280. -/
  | bankERetry (x : EAccess)
  /-- ECC_WRITEBACK, R283. -/
  | eccWriteback (n : Fin 33) (w : BitVec 13)
  /-- SCRUB_READ, R284. -/
  | scrubRead (n : Fin 33) (upset : Upset)
  /-- BNK_OWNER_WRITE, R288. -/
  | bnkOwnerWrite (c : BitVec 10) (n : Fin 32) (v : Word)
  /-- HANDING_END, R288. -/
  | handingEnd (n : Fin 32)
  /-- WIPE_END, R288. -/
  | wipeEnd (n : Fin 32)
  /-- BNK_PWR_WRITE, R292. -/
  | bnkPwrWrite (c : BitVec 10) (n : Fin 33) (v : Word)
  /-- BANK_POWER_TRANSITION_END, R290. -/
  | bankPowerTransitionEnd (n : Fin 33)
  /-- SPARE_GO, R294. -/
  | spareGo (c : BitVec 10) (n : Fin 32)
  /-- SPARE_ABORT, R294. -/
  | spareAbort (c : BitVec 10)
  /-- SPARE_COPY_WORD, R294. -/
  | spareCopyWord (upset : Upset)
  /-- SPARE_SWITCH, R294. -/
  | spareSwitch
  /-- ROW_REMAP, R304. -/
  | rowRemap
  /-- REMAP_COMMIT, R304. -/
  | remapCommit
  /-- SCAN, R309. -/
  | scanCfg (c : BitVec 10)
  /-- APPLY, R312. -/
  | applyCal (c : BitVec 10) (b : Bool)
  /-- RESTORE, R313. -/
  | restoreCal (c : BitVec 10) (tries : Vector (Fin 6) 11)
  /-- TRIM_STEP, R312. -/
  | trimStep
  /-- PROGRAM, R325. -/
  | programFlash (c : BitVec 10) (addr : BitVec 26) (size : Fin 4) (v : DWord)
  /-- SECTOR_ERASE, R326. -/
  | sectorErase (c : BitVec 10) (addr : BitVec 26)
  /-- SUSPEND, R332. -/
  | suspendErase (c : BitVec 10) (addr : BitVec 26)
  /-- RESUME, R332. -/
  | resumeErase (c : BitVec 10) (addr : BitVec 26)
  /-- SEQUENCE_TIMEOUT, R324. -/
  | sequenceTimeout
  /-- FLASH_LINE_READ, R318. -/
  | flashLineRead (line : BitVec 21) (target : Bool) (upset : Upset)
  /-- PREFETCH_READ, R320. -/
  | prefetchRead
  /-- SUSPEND_ISSUE, R332. -/
  | suspendIssue
  /-- READ_SUSPEND_RESUME, R332. -/
  | readSuspendResume
  /-- MACRO_DONE, R376. -/
  | macroDone (pass : Bool)
  /-- MACRO_STEP_TIMEOUT, R327. -/
  | macroStepTimeout
  /-- INV, R321. -/
  | invFlash (c : BitVec 10)
  /-- MODADD, R340. -/
  | modadd (b : Fin 8)
  /-- MODSUB, R340. -/
  | modsub (b : Fin 8)
  /-- MODMUL, R340. -/
  | modmul (b : Fin 8)
  /-- MODINV, R340. -/
  | modinv (b : Fin 8)
  /-- MODEXP, R340. -/
  | modexp (b : Fin 8)
  /-- RSACRT, R340. -/
  | rsacrt (b : Fin 8)
  /-- ECMUL, R340. -/
  | ecmul (b : Fin 8)
  /-- ECMULG, R340. -/
  | ecmulg (b : Fin 8)
  /-- ONCURVE, R340. -/
  | oncurve (b : Fin 8)
  /-- XMUL, R340. -/
  | xmul (b : Fin 8)
  /-- ECDSAVER, R340. -/
  | ecdsaver (b : Fin 8)
  /-- ECDSASIGN, R340. -/
  | ecdsasign (b : Fin 8)
  /-- ECDH, R340. -/
  | ecdh (b : Fin 8)
  /-- KEYGEN, R352. -/
  | keygen (b : Fin 8)
  /-- ECPUB, R340. -/
  | ecpub (b : Fin 8)
  /-- KEYCLR, R352. -/
  | keyclr (b : Fin 8)
  /-- ENGINE_OPERATION_COMPLETE, R339. -/
  | engineOperationComplete (b : Fin 8) (fault : Option (Fin 3)) (rng : Bool)
  /-- BNE_CLOAD_WRITE, R350. -/
  | bneCloadWrite (c : BitVec 10) (v : Word)
  /-- CURVE_CHECK_DONE, R350. -/
  | curveCheckDone
  /-- ZEROISATION, R353. -/
  | zeroisation
  /-- POWER_ON, R357. -/
  | powerOn
  /-- BROWNOUT, R357. -/
  | brownout
  /-- EARLY_WARNING, R357. -/
  | earlyWarning
  /-- EARLY_WARNING_CLEAR, R301. -/
  | earlyWarningClear
  /-- GLITCH, R357. -/
  | glitch
  /-- RAIL, R357. -/
  | railFault
  /-- LIGHT, R357. -/
  | lightAlarm
  /-- TEMPERATURE_CROSSING, R357. -/
  | temperatureCrossing (low : Bool)
  /-- REFCLK_FAULT, R361. -/
  | refclkFault
  /-- HOST_CLOCK_FAULT, R361. -/
  | hostClockFault (flash : Bool)
  /-- SECOND_OSCILLATOR_FAULT, R361. -/
  | secondOscillatorFault
  /-- RSTB_N, R362. -/
  | rstbN
  /-- SWRST, R362. -/
  | swrst (c : BitVec 10)
  /-- RESET_RELEASE, R364. -/
  | resetRelease (x : StartUp)
  /-- PWR_UNIT_WRITE, R370. -/
  | pwrUnitWrite (c : BitVec 10) (u : Fin 3) (v : Word)
  /-- UNIT_TRANSITION_END, R371. -/
  | unitTransitionEnd (u : Fin 3)
  /-- CLK_LANE_LSET, R360. -/
  | clkLaneLset (c : BitVec 10) (code : BitVec 3)
  /-- CLK_LANE_FREE, R360. -/
  | clkLaneFree (c : BitVec 10) (code : BitVec 3)
  /-- ZW_LIFECYCLE_WRITE, R377. -/
  | zwLifecycleWrite (c : BitVec 10) (v : Word)
  /-- HOST_READ, R375. -/
  | hostRead (addr : Word) (tag : BitVec 12) (r : Option Rival) (upset : Upset)
  /-- HOST_WRITE, R375. -/
  | hostWrite (addr : Word) (be : BitVec 8) (d : DWord) (tag : BitVec 12) (r : Option Rival) (upset : Upset)
  /-- RELEASE, R289. -/
  | releaseBank (addr : Word) (tag : BitVec 12)
  /-- DOORBELL, R375. -/
  | doorbell (d : DWord) (tag : BitVec 12)
  /-- HOST_RESPONSE, R374. -/
  | hostResponse (tag : BitVec 12) (stat : BitVec 2) (d : DWord)
  /-- HOST_BUSY_RESEND, R374. -/
  | hostBusyResend (tag : BitVec 12)
  /-- WS_BYPASS, R378, by the instruction code that is loaded: its own, or a reserved one. -/
  | wsBypass (code : BitVec 8 := 0)
  /-- WS_IDCODE, R378. -/
  | wsIdcode
  /-- WS_EXTEST, R378. -/
  | wsExtest
  /-- WS_INTEST, R378. -/
  | wsIntest
  /-- WS_MBIST, R378. -/
  | wsMbist
  /-- WS_STATUS, R378. -/
  | wsStatus
  /-- WS_L3, R378. -/
  | wsL3 (d : DWord)
  /-- WS_STELE, R378. -/
  | wsStele (w : BitVec 15) (d : Option (DWord × Fin 6))
  /-- WRSTN, R378. -/
  | wrstn
  /-- CSH_HALTREQ, R129. -/
  | cshHaltreq (c : BitVec 10) (v : Word)
  /-- CSH_RESUME, R132. -/
  | cshResume (c : BitVec 10) (v : Word)
  /-- CSH_FASTCFG_WRITE, R152. -/
  | cshFastcfgWrite (c : BitVec 10) (v : Word)
  /-- RNG_GCOMMIT, R160. -/
  | rngGcommit (c : BitVec 10) (v : Word)
  /-- SVC, R184. -/
  | svc (c : BitVec 10)
  /-- VTLOCK, R162. -/
  | vtlock (c : BitVec 10)
  /-- GTLOCK, R155. -/
  | gtlock (c : BitVec 10)
  /-- REGISTER_WRITE, R13. -/
  | registerWrite (c : BitVec 10) (addr v : Word)
  /-- MISS_FILL, R121. -/
  | missFill (l : Fin 3) (upset : Upset)
  /-- ABORT_COMPLETE, R347. -/
  | abortComplete (b : Fin 8)
  /-- ZEROISATION_DONE, R353. -/
  | zeroisationDone
  /-- DIGEST_DONE, R268. -/
  | digestDone
  /-- STAGED_CLEAR_DONE, R263. -/
  | stagedClearDone (region : Bool)
  /-- LEDGER_CLEAR_DONE, R225. -/
  | ledgerClearDone
  /-- SCAN_DONE, R309. -/
  | scanDone
  /-- JOURNAL_WRITE_DONE, R326. -/
  | journalWriteDone (retries : Fin 6)
  /-- LEDGER_SEARCH_DONE, R224. -/
  | ledgerSearchDone
  /-- REFCLK_RETURN, R361. -/
  | refclkReturn
  /-- HOST_CLOCK_RETURN, R361. -/
  | hostClockReturn (flash : Bool)
  /-- UNSELECTED_TRANSITION, R187. -/
  | unselectedTransition (n : BitVec 9)
  /-- OFF_SUPERVISION_FAULT, R228. -/
  | offSupervisionFault (n : Fin 4) (faults : BitVec 5)
  /-- RS_READ, R13. -/
  | rsRead (c : BitVec 10) (addr : Word)
  /-- ON_DEMAND_OSCILLATOR_STOP, R116. -/
  | onDemandOscillatorStop
  deriving DecidableEq, Repr

end Sys2Proof
end

