-- ==== Sys2Proof/Decode.lean ====
section
/-! DEFINITION. The commands that words spell. The rows of spec/opcode_table.json give no bits: a command reaches the
queue as it is, and no word spells one. -/

namespace Sys2Proof

/-- The command that a word of `nbits` bits spells by the bits of spec/opcode_table.json: none, since it gives none. -/
def decodeTableWord (_nbits _w : Nat) : Option Instr := none

end Sys2Proof
end

