-- ==== Sys2Proof/Config.lean ====
section
/-! DEFINITION. What the spec leaves to the device or leaves open: opaque constants, so that nothing can be proved
about their values (notes/assumptions 2 and 12). -/

namespace Sys2Proof.Config

/-- A value the spec leaves undefined under R9: the n-th draw. The machine goes on with it. -/
opaque freeWord : Nat → Word

/-- Undefined 64-bit data (R9), the n-th draw. -/
opaque freeDWord : Nat → DWord

/-- An undefined number (R9), the n-th draw: the result of an operation whose result the spec leaves without meaning. -/
opaque freeNat : Nat → Nat

/-- The engine's random generator, the n-th draw (R340). -/
opaque random : Nat → Nat

/-- The microwords of the vendor ROM, written at manufacture (R259), which the spec gives no words of: its routines do what the
instruction tables say (log entry 13). -/
opaque vendorRom : Fin 8192 → BitVec 112

/-- The content of the boot ROM, which the spec gives no bytes of (R27). -/
opaque bootRom : Nat → Byte

/-- The content of the Stele before any write: factory rows are given per device (spec/12). -/
opaque steleContent : Nat → Byte

/-- The silicon revision in ZW_REVISION[7:0] (R2), per device. -/
opaque fixRev : BitVec 8

end Sys2Proof.Config
end

