-- ==== Sys2Proof/Machine/State.lean ====
section
/-! DEFINITION. The state of the block as plain data, its reset value, and the outcomes a step can have. -/

namespace Sys2Proof.Machine

/-- A sparse table keyed by number: strictly rising keys, no entry equal to the default of the table. -/
abbrev SMap (α : Type) := List (Nat × α)

/-- Scheduling state of a coach (R127). -/
inductive CoachSt where
  | free | ready | run | wait | halt | parked
  deriving DecidableEq, Repr

/-- One entry of a stack head: a value, or a value that has not arrived yet (R68). -/
inductive Entry where
  | val (w : Word)
  /-- The word (`hi`: the high word) of the load in consignment entry `e`. -/
  | load (e : Nat) (hi : Bool)
  /-- The result of the divider of lane set `l` (R73). -/
  | div (l : Nat)
  deriving DecidableEq, Repr

/-- An exception: its vector (R161) and what CAUSE, FADDR and FINFO record of it (R163, R164). -/
structure XItem where
  vec : Nat
  reason : BitVec 8 := 0
  cstat : BitVec 3 := 0
  write : Bool := false
  torn : Bool := false
  addr : Word := 0
  info : Word := 0
  deriving DecidableEq, Repr

/-- Why a coach cannot issue (CSH_STATE.HELD, R68, R85, R49 to R52, R73, R95). -/
inductive Hold where
  /-- Waits for these pending stack entries (R68). -/
  | entries (es : List Entry)
  /-- Waits for these consignments, each by entry number and allocation count. -/
  | cons (es : List (Nat × Nat))
  | quota
  /-- Waits for an entry of the shared pool; a non-ticketed access takes the coach's own entry as well (R143). -/
  | pool (ticketed : Bool)
  | divider (l : Nat)
  /-- Waits until coach `c` reaches a boundary (R95, R96). -/
  | target (c : Nat)
  | sealedAcc
  /-- Waits for switchable unit `u` to finish OPENING (R26). -/
  | unit (u : Nat)
  /-- Waits for a bank that AUTOWAKE is waking (R291). -/
  | bank (n : Nat)
  /-- Waits for room in the outbound queue of island `i` (R117). -/
  | queue (i : Nat)
  /-- Waits for an outbound tag of the host port (R374). -/
  | tag
  /-- Waits for the flash macro, busy with a program or an erase (R332). -/
  | flash
  /-- Waits while a microstore region is being switched (R265). -/
  | switch
  /-- Stores that an instruction has made wait for entries (R143). -/
  | posting
  /-- PARKC waits on behalf of coach `c`, which it has stopped (R96). -/
  | parking (c : Nat) (h : Hold)
  deriving DecidableEq, Repr

/-- A store that the core has made for an instruction or an entry and that has no consignment entry yet (R143). -/
structure Posted where
  addr : Nat
  size : Nat
  data : DWord
  /-- The ring it is checked with (R286). -/
  ring : Nat
  /-- The lane set that issued it, as for a consignment. -/
  lset : Nat
  /-- A store of a waybill frame (R171). -/
  frame : Bool
  deriving DecidableEq, Repr

/-- A stele access waiting for its turn (R300). -/
structure SAcc where
  addr : Nat
  size : Nat
  write : Bool
  signed : Bool
  data : Nat
  deriving DecidableEq, Repr

/-- What a sealed access asks of its unit (R47, R101, R104): a register read or write, a key submission of consignment
entry `e`, the status or the abort of a slot, a key load. -/
inductive SealedOp where
  | read (a : Nat)
  | write (a : Nat) (v : Word)
  | submit (slot : Nat) (cmd : Word) (e : Nat)
  | poll (slot : Nat)
  | abort (slot : Nat)
  | load (a c : Nat)
  deriving DecidableEq, Repr

/-- A sealed access in progress (R47): what its response will do. -/
structure Stall where
  /-- Operand entries the instruction pops. -/
  pops : Nat
  /-- Values it pushes, first pushed first. -/
  push : List Word
  /-- Length of the instruction. -/
  len : Nat
  newA : Option Word := none
  newB : Option Word := none
  /-- The precise exception of a failed access. -/
  fail : Option XItem := none
  /-- What the unit has still to do. -/
  op : Option SealedOp := none
  /-- Place of the request among those that the Keystone has sent (R21). -/
  order : Nat := 0
  /-- The consignment whose completion ends the stall (atomics, R52); none: SEALED_RESPONSE. -/
  waits : Option Nat := none
  /-- A stele access still to be served (R300). -/
  stele : Option SAcc := none
  /-- The ticketed entry of a sealed LDP or LDPD (R47). -/
  tick : Option Nat := none
  /-- The stall ends with the division of this lane set (R42). -/
  divides : Option Nat := none
  /-- Entries that the instruction has filled into the head, which a precise exception leaves in memory. -/
  fills : Nat := 0
  deriving DecidableEq, Repr

/-- An open takeover window of a waybill entry (R174). -/
structure Window where
  frame : Nat
  item : XItem
  tier : Nat
  ring : Nat
  deriving DecidableEq, Repr

/-- A MOVE between two of its steps (R89): where it stands, the level of entry it runs at, the entries its last step
committed, and the overlap of its runs as they stood at its start (R91). -/
structure MoveRun where
  pc : Word
  level : Word × Nat
  src : Word
  dst : Word
  n : Word
  lo : Nat
  hi : Nat
  deriving DecidableEq, Repr

/-- A routine in the writable microstore (R260, R265): of the customer region or the vendor patch, resumable or not. -/
structure Routed where
  cmr : Bool
  res : Bool
  deriving DecidableEq, Repr

/-- A load of the step that a routine of the microstore is in (R273, R274): its consignment entry with its allocation count
while it is open, then its data or its failure. -/
inductive Loaded where
  | open_ (e g : Nat)
  | data (d : Nat)
  | bad (x : XItem)
  deriving DecidableEq, Repr

/-- What has been told of an access that the core is still to make: the BUSY results it has met at the C port, 9: it has
given up (R279), and that its timeout has fallen due (R146). -/
structure Told where
  busy : Nat := 0
  tmo : Bool := false
  deriving DecidableEq, Repr

/-- One coach (R32, R127), or the fast context (R150). -/
structure Coach where
  st : CoachSt := .free
  pc : Word := 0
  status : Word := 0
  dsp : Word := 0
  rsp : Word := 0
  ddepth : Word := 0
  rdepth : Word := 0
  dlim : Word := 0
  rlim : Word := 0
  xdsp : Word := 0
  xrsp : Word := 0
  a : Word := 0
  b : Word := 0
  lstart : Word := 0
  lend : Word := 0
  lcount : Word := 0
  wbp : Word := 0
  wblim : Word := 0
  keeper : Word := 0
  ccfg : Word := 0
  /-- Operand head, top first, at most 8. -/
  dhead : List Entry := []
  /-- Return head, top first, at most 4. -/
  rhead : List Entry := []
  wake : BitVec 4 := 0
  timer : Option DWord := none
  held : Option Hold := none
  stall : Option Stall := none
  /-- An instruction has issued and waits, a FENCE, a PARK or a routine of the microstore: no boundary comes before its end
  (R49, R57, R64, R273). -/
  drain : Bool := false
  /-- The routine inside which it waits (R265). -/
  routine : Option Routed := none
  /-- Imprecise exceptions delivered and not taken, oldest first (R48, R69, R252). -/
  imprecise : List XItem := []
  xcause : Word := 0
  xaddr : Word := 0
  xinfo : Word := 0
  hpc : Word := 0
  hcause : Word := 0
  haddr : Word := 0
  hinfo : Word := 0
  /-- A halt request waiting for the coach's boundary (R129). -/
  haltReq : Bool := false
  /-- An L3 entry requested through the wrapper (R181). -/
  l3Req : Bool := false
  window : Option Window := none
  /-- A precise exception for the coach's next boundary: that of a failed PARKC (R96), or one whose entry waits for pending
  head entries (R171 step 2). -/
  pexc : Option XItem := none
  /-- Stores still without an entry, oldest first (R143). -/
  out : List Posted := []
  /-- What has been told of the accesses that the core makes for the coach, by how many others come before. -/
  told : SMap Told := []
  /-- The coach waits within a step of a resumable instruction, which a yield point abandons (R88, R273). -/
  step : Bool := false
  /-- The wait of its instruction for the shared pool has been counted (R143). -/
  waited : Bool := false
  /-- Its instruction has spilled or filled a head entry, which the issue cost counts (R110, R119). -/
  shifted : Bool := false
  /-- Its last instruction was a taken transfer, or an entry has just been made: a miss fill carries the mark of a target
  (R319). -/
  jumped : Bool := false
  /-- Words of a line that was not kept, for the instruction whose fill delivered them (R121). -/
  fetched : List Nat := []
  /-- Loads of the step of a routine in which the coach waits, in the order of the routine (R273). -/
  got : List Loaded := []
  /-- MOVEs between two steps whose runs overlap (the model's own, R91). -/
  moves : List MoveRun := []
  /-- An offer that one copy of the event controller alone has sent, with the choice at that time (R210). -/
  offered : Option (Nat × Option Nat) := none
  /-- Class and attribute under which the coach is queued (R34, R138). -/
  qclass : Nat := 0
  qattr : Nat := 0
  /-- Capture of milestone time, and of the latest stamp of a source (R215). -/
  timeCap : Option DWord := none
  stampCap : Option (Nat × DWord) := none
  deriving DecidableEq, Repr

/-- The kind of access a consignment stands for (R141, R144). -/
inductive CKind where
  | load (signed : Bool)
  | store
  | atomic (op : AtomicOp) (v : Word) (e : Word)
  | ldp (wide : Bool)
  | engine (slot : Nat) (key : Bool)
  /-- A load of a routine of the microstore (R274). -/
  | micro
  deriving DecidableEq, Repr

/-- One entry of the consignment table (R141 to R149). -/
structure Cons where
  used : Bool := false
  /-- Count of the entry's allocations, 16 bits; its low 4 bits are GEN (R148). -/
  gen : Nat := 0
  coach : Nat := 0
  /-- Issued by the fast context on behalf of its designated coach (R152). -/
  fast : Bool := false
  kind : CKind := .store
  addr : Nat := 0
  size : Nat := 0
  data : DWord := 0
  ring : Nat := 0
  /-- Issued by a free lane in PAIRED mode (R25). -/
  unver : Bool := false
  /-- The lane set that issued it: 0, or that of a free lane. -/
  lset : Nat := 0
  /-- Place of the request among those of its coach, and among those that the Keystone has sent. -/
  order : Nat := 0
  /-- The status decided at acceptance, when it already fails (R26, R55). -/
  early : Option (BitVec 3) := none
  earlyInfo : Word := 0
  /-- Status, once completed; a ticketed entry stays until taken. -/
  done : Option (BitVec 3) := none
  info : Word := 0
  /-- The coach was killed: the completion is discarded (R95). -/
  orphan : Bool := false
  /-- C-port retries after BUSY (R279), in the second half of the access when `half`. -/
  tries : Nat := 0
  half : Bool := false
  /-- A store of a waybill frame (R171). -/
  frame : Bool := false
  /-- Accepted while its banks were ACTIVE (R290). -/
  live : Bool := false
  /-- A timeout that fell due during a Mortar retry (R147). -/
  tmo : Bool := false
  /-- The host port has sent the request: its tag (R373). -/
  tag : Option Nat := none
  /-- Data of the answered first half of a split host-window access (R54, R55). -/
  first : Option DWord := none
  deriving DecidableEq, Repr

/-- A division in the divider of a lane set (R73). -/
structure Divider where
  coach : Nat
  fast : Bool
  result : Word
  byZero : Bool
  pc : Word
  /-- Issued with PRE set: the coach stalls for it (R42). -/
  precise : Bool
  deriving DecidableEq, Repr

/-- A strongbox save set (R182). -/
structure SBox where
  pc : Word := 0
  status : Word := 0
  cause : Word := 0
  addr : Word := 0
  head : List Word := [0, 0, 0, 0, 0, 0, 0, 0]
  occ : Bool := false
  deriving DecidableEq, Repr

/-- Dynamic state of one event source (R187 to R209); its configuration words are in `csr`. -/
structure Src where
  /-- Level of the line. -/
  line : Bool := false
  /-- The detector takes the line as deasserted until the next interval (R187). -/
  fresh : Bool := true
  pend : Bool := false
  active : Bool := false
  claimant : Nat := 0
  ovr : Bool := false
  storm : Bool := false
  edgecnt : BitVec 16 := 0
  /-- Counted triggers towards the coalescing threshold; its time runs while it is not 0 (R190). -/
  coal : Nat := 0
  stormCnt : Nat := 0
  /-- The latest stamp (R220). -/
  stamp : DWord := 0
  deriving DecidableEq, Repr

/-- Hand-over state of a bank (R288). -/
inductive OwnSt where
  | owned | handing | wiping
  deriving DecidableEq, Repr

/-- What the E port of a bank has told its master last (R280, R283, R285). -/
inductive EAns where
  | data (d : DWord)
  | done
  | error
  deriving DecidableEq, Repr

/-- The E port of a bank (R277, R280): the access that has met BUSY, by word and direction, the consecutive BUSY results, and
the last answer. -/
structure EPort where
  acc : Option (Nat × Bool) := none
  busy : Nat := 0
  ans : Option EAns := none
  deriving DecidableEq, Repr

/-- A bank (R276 to R295), or the spare under number 32. -/
structure Bank where
  own : OwnSt := .owned
  /-- Owner in force. -/
  owner : Word := 0x00050040#32
  /-- Owner of the hand-over in progress. -/
  next : Word := 0x00050040#32
  /-- Owner before the last hand-over to HOST (R289). -/
  beforeHost : Word := 0x00050040#32
  /-- Power state code of BNK_STATE.PWR. -/
  pwr : Nat := 0
  /-- WAKING from OFF, with a RETAIN to follow (R290). -/
  fromOff : Bool := false
  thenRetain : Bool := false
  latched : Option Nat := none
  err : Bool := false
  hrel : Bool := false
  /-- For the spare: the bank that the running or last copy replaces (R294). -/
  copyOf : Nat := 0
  scrub : Nat := 0
  e : EPort := {}
  deriving DecidableEq, Repr

/-- Role of a lane (R233). -/
inductive Role where
  | voter | pair | free | test | spare | joining | retired
  deriving DecidableEq, Repr

/-- One lane (R233, R245, R246). -/
structure Lane where
  role : Role := .test
  /-- 0 A, 1 B, 2 C, 3 none. -/
  pos : Nat := 3
  perm : Bool := false
  retcnt : Nat := 0
  aborted : Bool := false
  suspect : Bool := false
  lastfail : Bool := false
  /-- Milestone cycles of the last passed and of the last completed self-test (R247). -/
  passed : Option Nat := none
  tested : Option Nat := none
  /-- The lane's enable copies of the supervised outputs (R227). -/
  enable : BitVec 4 := 0
  deriving DecidableEq, Repr

/-- State of the lanes together (R234). -/
inductive SetSt where
  | triplex | duplex | paired | handover | failstop
  deriving DecidableEq, Repr

/-- A join in progress (R239, R387). -/
structure Join where
  lane : Nat
  pos : Nat
  /-- The voter that leaves, for a rotation (R247). -/
  leaves : Option Nat
  /-- The lane the copy is taken from (R239 step 2). -/
  source : Option Nat
  deriving DecidableEq, Repr

/-- Lanes and Keystone (spec/09). -/
structure Lnc where
  set : SetSt := .triplex
  lanes : SMap Lane := []
  join : Option Join := none
  /-- Lane being partially resynchronised, and its position (R240). -/
  resync : Option (Nat × Nat) := none
  /-- Lanes marked for an input divergence, each with the coach concerned (R241). -/
  marks : List (Nat × Nat) := []
  /-- Marked lanes whose partial resynchronisation has come due (R241 step 4). -/
  due : List Nat := []
  /-- PAIRED requested, hand-over in progress, last request refused (R254). -/
  paired : Bool := false
  busy : Bool := false
  err : Bool := false
  /-- The partition applied at the last hand-over into PAIRED mode (R138). -/
  part0 : Word := 0
  part1 : Word := 0
  rotDue : Bool := false
  rotReq : Bool := false
  /-- Next injection of the comparator sweep, and whether a sweep runs (R249). -/
  sweep : Nat := 0
  sweeping : Bool := false
  /-- Signature of the last checkpoint (R237). -/
  sig : DWord := 0
  deriving DecidableEq, Repr

/-- A group of control registers: `count` of them from `base`, `stride` bytes apart, for rings 0 to `ring`; reset
value, stored bits, and write-1-to-clear bits. -/
structure Reg where
  base : Nat
  count : Nat
  stride : Nat
  ring : Nat
  reset : Nat
  rw : Nat
  w1c : Nat
  deriving DecidableEq, Repr

/-- An entry of the stamp queue (R221, R222). -/
structure Stamp where
  time : DWord
  /-- Milestone cycle in which the entry arises (the model's own, for the order of R221). -/
  cycle : Nat
  kind : Nat
  flags : Nat
  id : Nat
  data : DWord
  deriving DecidableEq, Repr

/-- A Mortar item in its retry sequence (R20): its channel, the item, and the retries made. -/
structure MtrRetry where
  src : Nat
  dst : Nat
  item : MtrItem
  tries : Nat
  /-- Requests from this place on were sent behind it (R21). -/
  since : Nat := 0
  /-- An internal item has set out; before, its row has only announced it. A stamp brings its entry along. -/
  arisen : Bool := false
  entry : Option Stamp := none
  deriving DecidableEq, Repr

/-- An internal item of Mortar that its sender has (R21, R22): exhausted and kept, or waiting behind an item in its retry
sequence. -/
structure MtrSent where
  src : Nat
  dst : Nat
  load : MtrLoad
  entry : Option Stamp
  /-- As for `MtrRetry`. -/
  arisen : Bool
  waits : Bool
  deriving DecidableEq, Repr

/-- Milestone island (spec/08). -/
structure Mls where
  time : DWord := 0
  /-- Phase error still to be slewed away, in ns; positive when the time is ahead (R217). -/
  slew : Int := 0
  /-- Part of a nanosecond by which the frequency correction is ahead of the steps made, in units of 10⁻⁹ of 5 ns (R217). -/
  frac : Int := 0
  /-- Time of the latest tick of the wheel, while no step has been made since (R139, R140). -/
  tick : Option DWord := none
  /-- Cycles since the last slewed cycle. -/
  gapCycles : Nat := 5000
  /-- The last accepted edge; none before the first. -/
  lastEdge : Option DWord := none
  acquiring : Bool := true
  /-- Consecutive accepted edges with an error within 40 ns. -/
  good : Nat := 0
  /-- Frequency corrections of the last 16 accepted edges, newest first (R218). -/
  corrs : List Int := []
  sq : List Stamp := []
  sqHigh : Nat := 0
  /-- Entries lost since the queue had room, and the stamp and FLAGS of the first (R221, R222). -/
  gap : Option (Nat × DWord × Nat) := none
  lhead : Nat := 0
  lseq : Nat := 0
  /-- Words that the ledger clear in progress has written (R225, R300). -/
  cleared : Nat := 0
  lchain : DWord := 0
  /-- Command latches of the channels (R227). -/
  latch : BitVec 4 := 0
  /-- The channel in a dark pulse (R228). -/
  dark : Option Nat := none
  /-- Failed checks in a row of each mesh pair (R231). -/
  mesh : SMap Nat := []
  deriving DecidableEq, Repr

/-- The open command sequence of the flash interface (R324): its owner, the cycles accepted, and its kind once the
third cycle gave it. -/
structure FSeq where
  owner : Nat
  stage : Nat
  erase : Bool
  deriving DecidableEq, Repr

/-- A running flash operation (R325, R326). -/
structure FOp where
  erase : Bool
  owner : Nat
  /-- Target word, or first byte of the sector. -/
  addr : Nat
  data : DWord
  /-- BEGIN is being written to the journal. -/
  begin_ : Bool
  /-- Journal slot and sequence number of an erase. -/
  slot : Nat
  seq : Nat
  retries : Nat
  /-- A recovery under R329. -/
  recover : Bool
  deriving DecidableEq, Repr

/-- Flash interface (spec/13). -/
structure Fli where
  /-- Size code of the fitted array (R315), a pin of the macro port. -/
  size : Nat := 0
  seq : Option FSeq := none
  /-- The running program, and the running or suspended erase. -/
  prog : Option FOp := none
  era : Option FOp := none
  susp : Bool := false
  swsus : Bool := false
  /-- A suspend is requested and not issued; one is issued and not done (R332). -/
  want : Bool := false
  going : Bool := false
  /-- RESUME waits for the running program. -/
  resume : Bool := false
  /-- Lines of the branch cache, most recently used first (R319), and of the prefetch buffer (R320). -/
  bcache : List Nat := []
  pbuf : List Nat := []
  last : Option Nat := none
  /-- Lines that prefetch has dropped since the last line served (R320). -/
  pskip : List Nat := []
  /-- Words programmed since their sector was erased. -/
  fprog : SMap Nat := []
  /-- Slot and sequence number of the newest journal entry; none when the journal is empty. -/
  jnew : Option (Nat × Nat) := none
  /-- KIND that the end of the erase is still to write to the journal (R326 step 5). -/
  fin : Option Nat := none
  /-- Slots still to be rewritten as DONE once the hold-up ends: journal slot, sequence number, sector (R301, R329). -/
  redo : List (Nat × Nat × Nat) := []
  /-- The erase has starved (R333). -/
  starved : Bool := false
  /-- Sectors still to be recovered: journal slot, sequence number, sector (R329). -/
  repair : List (Nat × Nat × Nat) := []
  deriving DecidableEq, Repr

/-- An operation that holds a slot group of the big-number engine (R334, R337). -/
structure EOp where
  /-- Slots of the group: 1, 2 or 4. -/
  slots : Nat
  cmd : Word
  coach : Nat
  /-- It came by BNKEY. -/
  key : Bool
  /-- Consignment entry and its allocation count. -/
  entry : Nat
  gen : Nat
  aborting : Bool
  deriving DecidableEq, Repr

/-- A loaded entry of the curve table (R348 to R350). -/
structure Curve where
  /-- 0 EMPTY, 1 CHECKING, 2 VALID, 3 INVALID. -/
  state : Nat := 0
  mont : Bool := false
  code : Nat := 0
  gen : Nat := 0
  pbits : Nat := 0
  p : Nat := 0
  a : Nat := 0
  b : Nat := 0
  gx : Nat := 0
  gy : Nat := 0
  n : Nat := 0
  deriving DecidableEq, Repr

/-- A key slot (R351): the two shares of its 72 key bytes and descriptor. -/
structure Key where
  share0 : BitVec 640 := 0
  share1 : BitVec 640 := 0
  deriving DecidableEq, Repr

/-- Big-number engine (spec/14). -/
structure Bne where
  /-- Running and aborting operations, by the lowest slot of their group. -/
  ops : SMap (Option EOp) := []
  curves : SMap Curve := []
  keys : SMap Key := []
  /-- Curve load in progress: entry and slot. -/
  cload : Option (Nat × Nat) := none
  /-- Slots of aborted curve loads whose operand memory is still to be cleared (R347). -/
  lab : List Nat := []
  zeroing : Bool := false
  rngerr : Bool := false
  deriving DecidableEq, Repr


/-- Stele store (spec/12). -/
structure Stl where
  /-- The calibration restore in progress (R313): the SRC code of the copy it writes, and the word writes it still owes. -/
  restore : Option (Nat × List (Nat × Nat)) := none
  /-- The retries of those writes, as far as the command that asked for the restore says (R299). -/
  tries : List Nat := []
  /-- User copies that a failed restore left invalid (R313), until a word of them is written. -/
  lost : List Nat := []
  /-- The Keystone had the last of the turns that it and the ledger writer share (R300). -/
  last : Bool := false
  /-- Words that the remap in progress has copied as uncorrectable (R304). -/
  bad : List Nat := []
  /-- Record being applied: its SRC code, SEQ and trim words 1 to 8 (R312). -/
  apply : Option (Nat × Nat × List DWord) := none
  /-- Writes that wait for their turn and whose requester does not: of a coach an L0 restart has freed (R183), of the
  wrapper (R378), and of the decommissioning (R377). -/
  late : List SAcc := []
  deriving DecidableEq, Repr

/-- Writable microstore regions (spec/10), equal in every lane: slots 0 to 1,023 are microwords, those from 1,024
dispatch entries. -/
structure Mcs where
  vact : SMap Nat := []
  vstg : SMap Nat := []
  cact : SMap Nat := []
  cstg : SMap Nat := []
  /-- The region being switched (R265): true for the CMR. -/
  sw : Option Bool := none
  /-- Digests being computed (R268), the first one now: 0 active vendor, 1 active CMR, 2 staged vendor, 3 staged CMR. -/
  dig : List Nat := [0, 1]
  deriving DecidableEq, Repr

/-- A request on the MQ channel: WRITE, MQ_ADDR, MQ_BE, MQ_DATA and MQ_UNVER (R373). -/
structure MqReq where
  write : Bool
  addr : Word
  be : BitVec 8
  data : DWord
  unver : Bool
  deriving DecidableEq, Repr

/-- An outbound request that holds a tag (R373, R374). -/
structure OutReq where
  entry : Nat
  gen : Nat
  /-- The request as it was sent; a resend repeats it. -/
  req : MqReq
  tries : Nat
  /-- Answered BUSY; waits to be sent again. -/
  busy : Bool
  /-- The unit was closed meanwhile: a response is ignored (R371). -/
  gone : Bool
  deriving DecidableEq, Repr

/-- A response on the SS channel: tag, STAT and data (R373). -/
structure Resp where
  tag : Nat
  stat : Nat
  data : DWord
  deriving DecidableEq, Repr

/-- Host port (spec/15). -/
structure Hpt where
  out : SMap (Option OutReq) := []
  /-- The last response sent on the SS channel. An inbound request is answered by the command that brings it. -/
  last : Option Resp := none
  deriving DecidableEq, Repr

/-- Power island, clocks and wrapper (spec/15). -/
structure Pwr where
  /-- CAUSE of the reset in progress, while `up` is false. -/
  cause : Nat := 1
  /-- VBLK has been above 1.60 V for 1 ms (R357): the power-on or brown-out cause has gone. -/
  good : Bool := false
  /-- BLK_FAIL is held through a reset of cause CLOCK (R363). -/
  failHeld : Bool := false
  /-- The boot ROM has still to run its steps after an L0 restart (R368). -/
  boot : Bool := false
  /-- The on-demand oscillator runs (R116). -/
  osc : Bool := false
  /-- Wrapper instruction in force (R378), and the WS_L3 data register. -/
  wir : Nat := 0
  wdr : DWord := 0
  deriving DecidableEq, Repr

/-- No command of the model faults: every abnormal event of the spec is an exception, a flag or a reset.
`halted` is the name kept for a machine without power; no meaning raises it (safe). -/
inductive Fault where
  | halted
  deriving DecidableEq, Repr

/-- A command without a meaning yet (safe: nothing follows from it). -/
inductive Refusal where
  | notModelled (mnemonic : String)
  deriving DecidableEq, Repr

/-- The whole machine. -/
structure State where
  /-- Commands waiting, first in, first out (the model's own). -/
  pending : List Instr
  /-- Memory: banks, Stele, flash array, operand memory; unlisted bytes read as `unlisted`. -/
  mem : List Host.Cell
  /-- ECC condition of words by byte address: 1 single-bit error, 2 uncorrectable. -/
  ecc : SMap Nat
  /-- Control registers by address; unlisted ones hold their reset value. -/
  csr : SMap Word
  /-- Response word of the last register row (the model's own). -/
  bus : Word
  /-- Free values drawn (the model's own). -/
  draws : Nat
  /-- Milestone cycles since reset. -/
  cycles : Nat
  /-- Power good and reset released: the lanes run (R364). -/
  up : Bool
  coach : SMap Coach
  fast : Coach
  /-- The FAST handler runs, over this interrupted coach (R151). -/
  fastOn : Option (Option Nat)
  /-- A FAST delivery waits in the Keystone (R201). -/
  fastPend : Bool
  /-- READY and RUN coaches in queue order (R134). -/
  queue : List Nat
  /-- Running coach of each lane set (R137). -/
  run0 : Option Nat
  run1 : Option Nat
  run2 : Option Nat
  /-- Lane sets whose coach has just taken a transfer, so that another may borrow a cycle (R110). -/
  gaps : List Nat
  div : SMap (Option Divider)
  cons : SMap Cons
  /-- Next program-order number. -/
  order : Nat
  sbox : SMap SBox
  /-- Occupied levels, most recently entered first (R182). -/
  sbOrder : List Nat
  l0cnt : Nat
  src : SMap Src
  bank : SMap Bank
  lnc : Lnc
  mls : Mls
  fli : Fli
  bne : Bne
  stl : Stl
  mcs : Mcs
  hpt : Hpt
  pwr : Pwr
  /-- Lines of the instruction cache of a lane set, by 128 × set + cache set, most recently used first (R121). -/
  icache : SMap (List Nat)
  /-- Internal items that their senders have, oldest first (R21, R22). -/
  mtr : List MtrSent
  /-- Mortar items in their retry sequences (R20). -/
  mret : List MtrRetry
  /-- Records of MOVEs between two steps in the image of a parked coach, by its address (the model's own, R91). -/
  moves : List (Nat × MoveRun)
  /-- Stores and atomics whose consignments completed before their unit performed them, with their entries (R148). -/
  lateAcc : List (Nat × Cons)
  deriving DecidableEq, Repr

/-- The machine as power-on reset leaves it, before reset is released. -/
def State.reset : State where
  pending := []
  mem := []
  ecc := []
  csr := []
  bus := 0
  draws := 0
  cycles := 0
  up := false
  coach := []
  fast := {}
  fastOn := none
  fastPend := false
  queue := []
  run0 := none
  run1 := none
  run2 := none
  gaps := []
  div := []
  cons := []
  order := 0
  sbox := []
  sbOrder := []
  l0cnt := 0
  src := []
  bank := []
  lnc := {}
  mls := {}
  fli := {}
  bne := {}
  stl := {}
  mcs := {}
  hpt := {}
  pwr := {}
  icache := []
  mtr := []
  mret := []
  moves := []
  lateAcc := []

end Sys2Proof.Machine
end

