-- ==== Sys2Proof/Machine/RegTable.lean ====
section
/-! DEFINITION. The control registers the spec names: address, number of instances, stride, the numerically highest
ring that may access them, reset value, the bits a write stores and the bits a write of 1 clears (R12 to R14; each
register's own table in the spec). A register whose write or read does more has its own operation in the file of its
unit; where the spec gives no reset value the entry holds 0 (notes/assumptions 12). -/

namespace Sys2Proof.Machine

/-- Address of ZW_IDENT. -/
abbrev aZwIdent : Nat := 0xE0000000
/-- Address of ZW_REVISION. -/
abbrev aZwRevision : Nat := 0xE0000004
/-- Address of ZW_MTR_RETRY. -/
abbrev aZwMtrRetry : Nat := 0xE0000020
/-- Address of ZW_MTR_FAIL. -/
abbrev aZwMtrFail : Nat := 0xE0000024
/-- Address of CSH_QUANTA_A. -/
abbrev aCshQuantaA : Nat := 0xE0010000
/-- Address of CSH_QUANTA_B. -/
abbrev aCshQuantaB : Nat := 0xE0010004
/-- Address of CSH_FREEPART0. -/
abbrev aCshFreepart0 : Nat := 0xE0010010
/-- Address of CSH_FREEPART1. -/
abbrev aCshFreepart1 : Nat := 0xE0010014
/-- Address of CSH_TMO_BANK. -/
abbrev aCshTmoBank : Nat := 0xE0010020
/-- Address of CSH_TMO_OPMEM. -/
abbrev aCshTmoOpmem : Nat := 0xE0010024
/-- Address of CSH_TMO_FLASH. -/
abbrev aCshTmoFlash : Nat := 0xE0010028
/-- Address of CSH_TMO_HOST. -/
abbrev aCshTmoHost : Nat := 0xE001002C
/-- Address of CSH_TMO_ENGINE. -/
abbrev aCshTmoEngine : Nat := 0xE0010030
/-- Address of CSH_TMOCNT. -/
abbrev aCshTmocnt : Nat := 0xE0010040
/-- Address of CSH_LATE. -/
abbrev aCshLate : Nat := 0xE0010044
/-- Address of CSH_TBLERR. -/
abbrev aCshTblerr : Nat := 0xE0010048
/-- Address of CSH_POOL. -/
abbrev aCshPool : Nat := 0xE001004C
/-- Address of CSH_POOLWAIT. -/
abbrev aCshPoolwait : Nat := 0xE0010050
/-- Address of CSH_FASTCFG. -/
abbrev aCshFastcfg : Nat := 0xE0010060
/-- Address of CSH_HALTREQ. -/
abbrev aCshHaltreq : Nat := 0xE0010070
/-- Address of CSH_RESUME. -/
abbrev aCshResume : Nat := 0xE0010074
/-- Address of CSH_STATE. -/
abbrev aCshState : Nat := 0xE0011000
/-- Address of CSH_QUOTA. -/
abbrev aCshQuota : Nat := 0xE0012000
/-- Address of CSH_PARKA. -/
abbrev aCshParka : Nat := 0xE0013000
/-- Address of CSH_HALTED. -/
abbrev aCshHalted : Nat := 0xE0014000
/-- Address of RNG_CTL. -/
abbrev aRngCtl : Nat := 0xE00D0000
/-- Address of RNG_LOCK. -/
abbrev aRngLock : Nat := 0xE00D0004
/-- Address of RNG_GATEBASE. -/
abbrev aRngGatebase : Nat := 0xE00D0010
/-- Address of RNG_GATECNT. -/
abbrev aRngGatecnt : Nat := 0xE00D0014
/-- Address of RNG_XCAP. -/
abbrev aRngXcap : Nat := 0xE00D0018
/-- Address of RNG_VRING0. -/
abbrev aRngVring0 : Nat := 0xE00D0020
/-- Address of RNG_VRING1. -/
abbrev aRngVring1 : Nat := 0xE00D0024
/-- Address of RNG_VPRI. -/
abbrev aRngVpri : Nat := 0xE00D0030
/-- Address of RNG_GSTAGE. -/
abbrev aRngGstage : Nat := 0xE00D0050
/-- Address of RNG_GCOMMIT. -/
abbrev aRngGcommit : Nat := 0xE00D0060
/-- Address of RNG_XCAUSE. -/
abbrev aRngXcause : Nat := 0xE00D0070
/-- Address of RNG_XADDR. -/
abbrev aRngXaddr : Nat := 0xE00D0074
/-- Address of RNG_XINFO. -/
abbrev aRngXinfo : Nat := 0xE00D0078
/-- Address of RNG_SBOX. -/
abbrev aRngSbox : Nat := 0xE00D0080
/-- Address of RNG_SBSEL. -/
abbrev aRngSbsel : Nat := 0xE00D0084
/-- Address of RNG_SBPC. -/
abbrev aRngSbpc : Nat := 0xE00D0088
/-- Address of RNG_SBSTATUS. -/
abbrev aRngSbstatus : Nat := 0xE00D008C
/-- Address of RNG_SBCAUSE. -/
abbrev aRngSbcause : Nat := 0xE00D0090
/-- Address of RNG_SBADDR. -/
abbrev aRngSbaddr : Nat := 0xE00D0094
/-- Address of RNG_SBHEAD. -/
abbrev aRngSbhead : Nat := 0xE00D00A0
/-- Address of RNG_HSEL. -/
abbrev aRngHsel : Nat := 0xE00D00C0
/-- Address of RNG_HPC. -/
abbrev aRngHpc : Nat := 0xE00D00C4
/-- Address of RNG_HCAUSE. -/
abbrev aRngHcause : Nat := 0xE00D00C8
/-- Address of RNG_HADDR. -/
abbrev aRngHaddr : Nat := 0xE00D00CC
/-- Address of RNG_HINFO. -/
abbrev aRngHinfo : Nat := 0xE00D00D0
/-- Address of RNG_ESCCNT. -/
abbrev aRngEsccnt : Nat := 0xE00D00E0
/-- Address of EVC_TIER. -/
abbrev aEvcTier : Nat := 0xE0020000
/-- Address of EVC_STORM_N. -/
abbrev aEvcStormN : Nat := 0xE0020004
/-- Address of EVC_FAST. -/
abbrev aEvcFast : Nat := 0xE0020008
/-- Address of EVC_CPL. -/
abbrev aEvcCpl : Nat := 0xE0020010
/-- Address of EVC_TOP. -/
abbrev aEvcTop : Nat := 0xE0020014
/-- Address of EVC_CLAIMTOP. -/
abbrev aEvcClaimtop : Nat := 0xE0020018
/-- Address of EVC_BADCPL. -/
abbrev aEvcBadcpl : Nat := 0xE0020020
/-- Address of EVC_BADCPL_LAST. -/
abbrev aEvcBadcplLast : Nat := 0xE0020024
/-- Address of EVC_SPUR. -/
abbrev aEvcSpur : Nat := 0xE0020028
/-- Address of EVC_FAULT. -/
abbrev aEvcFault : Nat := 0xE002002C
/-- Address of EVC_PEND. -/
abbrev aEvcPend : Nat := 0xE0020040
/-- Address of EVC_PENDALL. -/
abbrev aEvcPendall : Nat := 0xE0020080
/-- Address of EVC_ACT. -/
abbrev aEvcAct : Nat := 0xE00200C0
/-- Address of EVC_PENDSET. -/
abbrev aEvcPendset : Nat := 0xE0020100
/-- Address of EVC_LIVE. -/
abbrev aEvcLive : Nat := 0xE0020140
/-- Address of EVC_STORMSUM. -/
abbrev aEvcStormsum : Nat := 0xE0020180
/-- Address of EVC_LISTEN. -/
abbrev aEvcListen : Nat := 0xE0020200
/-- Address of EVC_SCFG. -/
abbrev aEvcScfg : Nat := 0xE0021000
/-- Address of EVC_STGT. -/
abbrev aEvcStgt : Nat := 0xE0021800
/-- Address of EVC_SCOAL. -/
abbrev aEvcScoal : Nat := 0xE0022000
/-- Address of EVC_SSTAT. -/
abbrev aEvcSstat : Nat := 0xE0022800
/-- Address of EVC_CLAIM. -/
abbrev aEvcClaim : Nat := 0xE0023000
/-- Address of MLS_TIME_LO. -/
abbrev aMlsTimeLo : Nat := 0xE0030000
/-- Address of MLS_TIME_HI. -/
abbrev aMlsTimeHi : Nat := 0xE0030004
/-- Address of MLS_SET_LO. -/
abbrev aMlsSetLo : Nat := 0xE0030008
/-- Address of MLS_SET_HI. -/
abbrev aMlsSetHi : Nat := 0xE003000C
/-- Address of MLS_CTL. -/
abbrev aMlsCtl : Nat := 0xE0030010
/-- Address of MLS_STATUS. -/
abbrev aMlsStatus : Nat := 0xE0030014
/-- Address of MLS_PPSERR. -/
abbrev aMlsPpserr : Nat := 0xE0030018
/-- Address of MLS_FREQ. -/
abbrev aMlsFreq : Nat := 0xE003001C
/-- Address of MLS_SQ. -/
abbrev aMlsSq : Nat := 0xE0030020
/-- Address of MLS_SQ_LOST. -/
abbrev aMlsSqLost : Nat := 0xE0030024
/-- Address of MLS_LCTL. -/
abbrev aMlsLctl : Nat := 0xE0030030
/-- Address of MLS_LSTAT. -/
abbrev aMlsLstat : Nat := 0xE0030034
/-- Address of MLS_LSEQ. -/
abbrev aMlsLseq : Nat := 0xE0030038
/-- Address of MLS_LSOFT. -/
abbrev aMlsLsoft : Nat := 0xE003003C
/-- Address of MLS_LSTAMP_LO. -/
abbrev aMlsLstampLo : Nat := 0xE0031000
/-- Address of MLS_LSTAMP_HI. -/
abbrev aMlsLstampHi : Nat := 0xE0031004
/-- Address of SVO_CMD. -/
abbrev aSvoCmd : Nat := 0xE0040000
/-- Address of SVO_CTL. -/
abbrev aSvoCtl : Nat := 0xE0040004
/-- Address of SVO_CFG. -/
abbrev aSvoCfg : Nat := 0xE0040010
/-- Address of SVO_STAT. -/
abbrev aSvoStat : Nat := 0xE0040020
/-- Address of SVO_FCNT. -/
abbrev aSvoFcnt : Nat := 0xE0040030
/-- Address of TMP_CTL. -/
abbrev aTmpCtl : Nat := 0xE0040100
/-- Address of TMP_STAT. -/
abbrev aTmpStat : Nat := 0xE0040104
/-- Address of TMP_FCNT. -/
abbrev aTmpFcnt : Nat := 0xE0040108
/-- Address of KEY_CTL. -/
abbrev aKeyCtl : Nat := 0xE0050000
/-- Address of KEY_ROT_PERIOD. -/
abbrev aKeyRotPeriod : Nat := 0xE0050004
/-- Address of KEY_STAT. -/
abbrev aKeyStat : Nat := 0xE0050008
/-- Address of KEY_MMCNT. -/
abbrev aKeyMmcnt : Nat := 0xE005000C
/-- Address of KEY_INCNT. -/
abbrev aKeyIncnt : Nat := 0xE0050010
/-- Address of KEY_MMLOG0. -/
abbrev aKeyMmlog0 : Nat := 0xE0050014
/-- Address of KEY_MMLOG1. -/
abbrev aKeyMmlog1 : Nat := 0xE0050018
/-- Address of KEY_POLICY. -/
abbrev aKeyPolicy : Nat := 0xE0050020
/-- Address of KEY_PCOUNT. -/
abbrev aKeyPcount : Nat := 0xE0050024
/-- Address of KEY_PCLASS. -/
abbrev aKeyPclass : Nat := 0xE0050028
/-- Address of KEY_ATTACK. -/
abbrev aKeyAttack : Nat := 0xE005002C
/-- Address of LNC_MODE. -/
abbrev aLncMode : Nat := 0xE0050100
/-- Address of LNC_STAT. -/
abbrev aLncStat : Nat := 0xE0050104
/-- Address of LNC_LANE. -/
abbrev aLncLane : Nat := 0xE0050110
/-- Address of LNC_RETEST. -/
abbrev aLncRetest : Nat := 0xE0050120
/-- Address of LNC_ROTREQ. -/
abbrev aLncRotreq : Nat := 0xE0050124
/-- Address of MCS_CTL. -/
abbrev aMcsCtl : Nat := 0xE0060000
/-- Address of MCS_STATUS. -/
abbrev aMcsStatus : Nat := 0xE0060004
/-- Address of MCS_VERSION. -/
abbrev aMcsVersion : Nat := 0xE0060010
/-- Address of MCS_STAGED. -/
abbrev aMcsStaged : Nat := 0xE0060014
/-- Address of MCS_CVERSION. -/
abbrev aMcsCversion : Nat := 0xE0060018
/-- Address of MCS_CSTAGED. -/
abbrev aMcsCstaged : Nat := 0xE006001C
/-- Address of MCS_SADDR. -/
abbrev aMcsSaddr : Nat := 0xE0060020
/-- Address of MCS_SDATA. -/
abbrev aMcsSdata : Nat := 0xE0060030
/-- Address of MCS_FAULT. -/
abbrev aMcsFault : Nat := 0xE0060040
/-- Address of MCS_MICROCNT. -/
abbrev aMcsMicrocnt : Nat := 0xE0060044
/-- Address of MCS_DIGEST. -/
abbrev aMcsDigest : Nat := 0xE0060100
/-- Address of MCS_CDIGEST. -/
abbrev aMcsCdigest : Nat := 0xE0060120
/-- Address of MCS_SDIGEST. -/
abbrev aMcsSdigest : Nat := 0xE0060140
/-- Address of BNK_OWNER. -/
abbrev aBnkOwner : Nat := 0xE0070000
/-- Address of BNK_STATE. -/
abbrev aBnkState : Nat := 0xE0070100
/-- Address of BNK_PWR. -/
abbrev aBnkPwr : Nat := 0xE0070200
/-- Address of BNK_SCRUB. -/
abbrev aBnkScrub : Nat := 0xE0070300
/-- Address of BNK_ECC. -/
abbrev aBnkEcc : Nat := 0xE0070304
/-- Address of BNK_ECCADDR. -/
abbrev aBnkEccaddr : Nat := 0xE0070308
/-- Address of BNK_BUSY. -/
abbrev aBnkBusy : Nat := 0xE007030C
/-- Address of BNK_COLL. -/
abbrev aBnkColl : Nat := 0xE0070310
/-- Address of BNK_DENY. -/
abbrev aBnkDeny : Nat := 0xE0070314
/-- Address of BNK_DENYLAST. -/
abbrev aBnkDenylast : Nat := 0xE0070318
/-- Address of BNK_SPARE. -/
abbrev aBnkSpare : Nat := 0xE0070400
/-- Address of BNK_MAP. -/
abbrev aBnkMap : Nat := 0xE0070404
/-- Address of STL_CFG. -/
abbrev aStlCfg : Nat := 0xE0080000
/-- Address of STL_STATUS. -/
abbrev aStlStatus : Nat := 0xE0080004
/-- Address of STL_SLOW. -/
abbrev aStlSlow : Nat := 0xE0080008
/-- Address of STL_ECC. -/
abbrev aStlEcc : Nat := 0xE008000C
/-- Address of STL_ECCADDR. -/
abbrev aStlEccaddr : Nat := 0xE0080010
/-- Address of STL_WRFAIL. -/
abbrev aStlWrfail : Nat := 0xE0080014
/-- Address of STL_ROWLAST. -/
abbrev aStlRowlast : Nat := 0xE0080018
/-- Address of STL_ROW. -/
abbrev aStlRow : Nat := 0xE0081000
/-- Address of CFG_STATUS. -/
abbrev aCfgStatus : Nat := 0xE0080100
/-- Address of CFG_SEQ. -/
abbrev aCfgSeq : Nat := 0xE0080104
/-- Address of CFG_CTL. -/
abbrev aCfgCtl : Nat := 0xE0080108
/-- Address of CAL_STATUS. -/
abbrev aCalStatus : Nat := 0xE0080200
/-- Address of CAL_SEQ. -/
abbrev aCalSeq : Nat := 0xE0080204
/-- Address of CAL_CTL. -/
abbrev aCalCtl : Nat := 0xE0080208
/-- Address of CAL_TRIM_LO. -/
abbrev aCalTrimLo : Nat := 0xE0080240
/-- Address of CAL_TRIM_HI. -/
abbrev aCalTrimHi : Nat := 0xE0080244
/-- Address of FLI_CFG. -/
abbrev aFliCfg : Nat := 0xE0090000
/-- Address of FLI_MINRUN. -/
abbrev aFliMinrun : Nat := 0xE0090004
/-- Address of FLI_STARVE_N. -/
abbrev aFliStarveN : Nat := 0xE0090008
/-- Address of FLI_CTL. -/
abbrev aFliCtl : Nat := 0xE009000C
/-- Address of FLI_STATUS. -/
abbrev aFliStatus : Nat := 0xE0090010
/-- Address of FLI_ERR. -/
abbrev aFliErr : Nat := 0xE0090014
/-- Address of FLI_SUSCNT. -/
abbrev aFliSuscnt : Nat := 0xE0090018
/-- Address of FLI_ECC. -/
abbrev aFliEcc : Nat := 0xE009001C
/-- Address of FLI_ECCADDR. -/
abbrev aFliEccaddr : Nat := 0xE0090020
/-- Address of FLI_DENY. -/
abbrev aFliDeny : Nat := 0xE0090024
/-- Address of FLI_OPT. -/
abbrev aFliOpt : Nat := 0xE0090028
/-- Address of FLI_PROT. -/
abbrev aFliProt : Nat := 0xE0090030
/-- Address of FLI_HALF. -/
abbrev aFliHalf : Nat := 0xE0090040
/-- Address of FLI_JNEXT. -/
abbrev aFliJnext : Nat := 0xE0090044
/-- Address of BNE_SLOTCFG. -/
abbrev aBneSlotcfg : Nat := 0xE00A0000
/-- Address of BNE_RESULT. -/
abbrev aBneResult : Nat := 0xE00A0020
/-- Address of BNE_CLOAD. -/
abbrev aBneCload : Nat := 0xE00A0040
/-- Address of BNE_KLD. -/
abbrev aBneKld : Nat := 0xE00A0044
/-- Address of BNE_ZERO. -/
abbrev aBneZero : Nat := 0xE00A0048
/-- Address of BNE_FAULT. -/
abbrev aBneFault : Nat := 0xE00A004C
/-- Address of BNE_STATUS. -/
abbrev aBneStatus : Nat := 0xE00A0050
/-- Address of BNE_CSTAT. -/
abbrev aBneCstat : Nat := 0xE00A0080
/-- Address of BNE_KDESC. -/
abbrev aBneKdesc : Nat := 0xE00A1000
/-- Address of ZW_LIFECYCLE. -/
abbrev aZwLifecycle : Nat := 0xE0000008
/-- Address of ZW_GCAUSE. -/
abbrev aZwGcause : Nat := 0xE000000C
/-- Address of PWR_UNIT. -/
abbrev aPwrUnit : Nat := 0xE00B0000
/-- Address of PWR_ALARM. -/
abbrev aPwrAlarm : Nat := 0xE00B0010
/-- Address of PWR_GLITCH. -/
abbrev aPwrGlitch : Nat := 0xE00B0014
/-- Address of PWR_VBLK. -/
abbrev aPwrVblk : Nat := 0xE00B0018
/-- Address of PWR_TEMP. -/
abbrev aPwrTemp : Nat := 0xE00B001C
/-- Address of PWR_TLIM. -/
abbrev aPwrTlim : Nat := 0xE00B0020
/-- Address of CLK_LANE. -/
abbrev aClkLane : Nat := 0xE00B0100
/-- Address of CLK_STATUS. -/
abbrev aClkStatus : Nat := 0xE00B0104
/-- Address of HPT_CFG. -/
abbrev aHptCfg : Nat := 0xE00C0000
/-- Address of HPT_STAT. -/
abbrev aHptStat : Nat := 0xE00C0004
/-- Address of HPT_ERR. -/
abbrev aHptErr : Nat := 0xE00C0008
/-- Address of HPT_DBELL. -/
abbrev aHptDbell : Nat := 0xE00C000C

/-- Registers of unit 0xE000_0000. -/
def regs0 : List Reg := [
  ⟨0xE0000000, 1, 4, 3, 0xD6A1024, 0x0, 0x0⟩ /- ZW_IDENT -/,
  ⟨0xE0000004, 1, 4, 3, 0x20100, 0x0, 0x0⟩ /- ZW_REVISION -/,
  ⟨0xE0000020, 1, 4, 1, 0x0, 0x0, 0x0⟩ /- ZW_MTR_RETRY -/,
  ⟨0xE0000024, 1, 4, 1, 0x0, 0x0, 0x80000000⟩ /- ZW_MTR_FAIL -/,
  ⟨0xE0000008, 1, 4, 0, 0x0, 0x7, 0x40000000⟩ /- ZW_LIFECYCLE -/,
  ⟨0xE000000C, 1, 4, 1, 0x0, 0x0, 0x0⟩ /- ZW_GCAUSE -/]

/-- Registers of unit 0xE001_0000. -/
def regs1 : List Reg := [
  ⟨0xE0010000, 1, 4, 0, 0x10000000, 0xFFFFFFFF, 0x0⟩ /- CSH_QUANTA_A -/,
  ⟨0xE0010004, 1, 4, 0, 0x4000400, 0xFFFFFFFF, 0x0⟩ /- CSH_QUANTA_B -/,
  ⟨0xE0010010, 1, 4, 0, 0x0, 0xFFFFFFFF, 0x0⟩ /- CSH_FREEPART0 -/,
  ⟨0xE0010014, 1, 4, 0, 0x0, 0xFFFFFFFF, 0x0⟩ /- CSH_FREEPART1 -/,
  ⟨0xE0010020, 1, 4, 0, 0x64, 0xFFFFFF, 0x0⟩ /- CSH_TMO_BANK -/,
  ⟨0xE0010024, 1, 4, 0, 0x64, 0xFFFFFF, 0x0⟩ /- CSH_TMO_OPMEM -/,
  ⟨0xE0010028, 1, 4, 0, 0x2710, 0xFFFFFF, 0x0⟩ /- CSH_TMO_FLASH -/,
  ⟨0xE001002C, 1, 4, 0, 0x3E8, 0xFFFFFF, 0x0⟩ /- CSH_TMO_HOST -/,
  ⟨0xE0010030, 1, 4, 0, 0xF4240, 0xFFFFFF, 0x0⟩ /- CSH_TMO_ENGINE -/,
  ⟨0xE0010040, 1, 4, 1, 0x0, 0x0, 0x0⟩ /- CSH_TMOCNT -/,
  ⟨0xE0010044, 1, 4, 1, 0x0, 0x0, 0x0⟩ /- CSH_LATE -/,
  ⟨0xE0010048, 1, 4, 1, 0x0, 0x0, 0x0⟩ /- CSH_TBLERR -/,
  ⟨0xE001004C, 1, 4, 1, 0x8000800, 0x0, 0x0⟩ /- CSH_POOL -/,
  ⟨0xE0010050, 1, 4, 1, 0x0, 0x0, 0x0⟩ /- CSH_POOLWAIT -/,
  ⟨0xE0010060, 1, 4, 0, 0x3FF, 0x80FF33FF, 0x0⟩ /- CSH_FASTCFG -/,
  ⟨0xE0010070, 1, 4, 0, 0x0, 0x0, 0x0⟩ /- CSH_HALTREQ -/,
  ⟨0xE0010074, 1, 4, 1, 0x0, 0x0, 0x0⟩ /- CSH_RESUME -/,
  ⟨0xE0011000, 1024, 4, 1, 0x0, 0x0, 0x0⟩ /- CSH_STATE -/,
  ⟨0xE0012000, 1024, 4, 0, 0x10, 0x7F, 0x0⟩ /- CSH_QUOTA -/,
  ⟨0xE0013000, 1024, 4, 1, 0x0, 0xFFFFFFC0, 0x0⟩ /- CSH_PARKA -/,
  ⟨0xE0014000, 32, 4, 1, 0x0, 0x0, 0x0⟩ /- CSH_HALTED -/]

/-- Registers of unit 0xE002_0000. -/
def regs2 : List Reg := [
  ⟨0xE0020000, 1, 4, 0, 0x8, 0xF, 0x0⟩ /- EVC_TIER -/,
  ⟨0xE0020004, 1, 4, 0, 0x3E8, 0xFFFF, 0x0⟩ /- EVC_STORM_N -/,
  ⟨0xE0020008, 1, 4, 0, 0x0, 0x800001FF, 0x0⟩ /- EVC_FAST -/,
  ⟨0xE0020010, 1, 4, 3, 0x0, 0x0, 0x0⟩ /- EVC_CPL -/,
  ⟨0xE0020014, 1, 4, 3, 0x3FF, 0x0, 0x0⟩ /- EVC_TOP -/,
  ⟨0xE0020018, 1, 4, 3, 0x3FF, 0x0, 0x0⟩ /- EVC_CLAIMTOP -/,
  ⟨0xE0020020, 1, 4, 1, 0x0, 0x0, 0x0⟩ /- EVC_BADCPL -/,
  ⟨0xE0020024, 1, 4, 1, 0x0, 0x0, 0x0⟩ /- EVC_BADCPL_LAST -/,
  ⟨0xE0020028, 1, 4, 1, 0x0, 0x0, 0x0⟩ /- EVC_SPUR -/,
  ⟨0xE002002C, 1, 4, 1, 0x0, 0x0, 0x0⟩ /- EVC_FAULT -/,
  ⟨0xE0020040, 16, 4, 3, 0x0, 0x0, 0x0⟩ /- EVC_PEND -/,
  ⟨0xE0020080, 16, 4, 1, 0x0, 0x0, 0x0⟩ /- EVC_PENDALL -/,
  ⟨0xE00200C0, 16, 4, 1, 0x0, 0x0, 0x0⟩ /- EVC_ACT -/,
  ⟨0xE0020100, 16, 4, 2, 0x0, 0x0, 0x0⟩ /- EVC_PENDSET -/,
  ⟨0xE0020140, 16, 4, 2, 0x0, 0x0, 0x0⟩ /- EVC_LIVE -/,
  ⟨0xE0020180, 16, 4, 1, 0x0, 0x0, 0x0⟩ /- EVC_STORMSUM -/,
  ⟨0xE0020200, 32, 4, 1, 0x0, 0xFFFFFFFF, 0x0⟩ /- EVC_LISTEN -/,
  ⟨0xE0021000, 512, 4, 1, 0x2FF0000, 0xF7FF0000, 0x0⟩ /- EVC_SCFG -/,
  ⟨0xE0021800, 512, 4, 1, 0x0, 0xFFFFFFFF, 0x0⟩ /- EVC_STGT -/,
  ⟨0xE0022000, 512, 4, 1, 0x0, 0xFFFFFF, 0x0⟩ /- EVC_SCOAL -/,
  ⟨0xE0022800, 512, 4, 1, 0x0, 0x0, 0xB0000000⟩ /- EVC_SSTAT -/,
  ⟨0xE0023000, 512, 4, 3, 0x3FF, 0x0, 0x0⟩ /- EVC_CLAIM -/]

/-- Registers of unit 0xE003_0000. -/
def regs3 : List Reg := [
  ⟨0xE0030000, 1, 4, 3, 0x0, 0x0, 0x0⟩ /- MLS_TIME_LO -/,
  ⟨0xE0030004, 1, 4, 3, 0x0, 0x0, 0x0⟩ /- MLS_TIME_HI -/,
  ⟨0xE0030008, 1, 4, 0, 0x0, 0xFFFFFFFF, 0x0⟩ /- MLS_SET_LO -/,
  ⟨0xE003000C, 1, 4, 0, 0x0, 0xFFFFFFFF, 0x0⟩ /- MLS_SET_HI -/,
  ⟨0xE0030010, 1, 4, 0, 0x4, 0x4, 0x0⟩ /- MLS_CTL -/,
  ⟨0xE0030014, 1, 4, 3, 0x0, 0x0, 0x20⟩ /- MLS_STATUS -/,
  ⟨0xE0030018, 1, 4, 3, 0x0, 0x0, 0x0⟩ /- MLS_PPSERR -/,
  ⟨0xE003001C, 1, 4, 1, 0x0, 0x0, 0x0⟩ /- MLS_FREQ -/,
  ⟨0xE0030020, 1, 4, 1, 0x0, 0x0, 0x0⟩ /- MLS_SQ -/,
  ⟨0xE0030024, 1, 4, 1, 0x0, 0x0, 0x0⟩ /- MLS_SQ_LOST -/,
  ⟨0xE0030030, 1, 4, 0, 0x0, 0x0, 0x0⟩ /- MLS_LCTL -/,
  ⟨0xE0030034, 1, 4, 3, 0x0, 0x0, 0x60000000⟩ /- MLS_LSTAT -/,
  ⟨0xE0030038, 1, 4, 3, 0x0, 0x0, 0x0⟩ /- MLS_LSEQ -/,
  ⟨0xE003003C, 1, 4, 1, 0x0, 0x0, 0x0⟩ /- MLS_LSOFT -/,
  ⟨0xE0031000, 512, 8, 2, 0x0, 0x0, 0x0⟩ /- MLS_LSTAMP_LO -/,
  ⟨0xE0031004, 512, 8, 2, 0x0, 0x0, 0x0⟩ /- MLS_LSTAMP_HI -/]

/-- Registers of unit 0xE004_0000. -/
def regs4 : List Reg := [
  ⟨0xE0040000, 1, 4, 3, 0x0, 0xF, 0x0⟩ /- SVO_CMD -/,
  ⟨0xE0040004, 1, 4, 0, 0x0, 0x0, 0x0⟩ /- SVO_CTL -/,
  ⟨0xE0040010, 4, 4, 0, 0x1, 0xF, 0x0⟩ /- SVO_CFG -/,
  ⟨0xE0040020, 4, 4, 2, 0x0, 0x0, 0x7E⟩ /- SVO_STAT -/,
  ⟨0xE0040030, 1, 4, 1, 0x0, 0x0, 0x0⟩ /- SVO_FCNT -/,
  ⟨0xE0040100, 1, 4, 0, 0xFF, 0x1FF, 0x0⟩ /- TMP_CTL -/,
  ⟨0xE0040104, 1, 4, 1, 0x0, 0x0, 0xFFFF⟩ /- TMP_STAT -/,
  ⟨0xE0040108, 1, 4, 1, 0x0, 0x0, 0x0⟩ /- TMP_FCNT -/]

/-- Registers of unit 0xE005_0000. -/
def regs5 : List Reg := [
  ⟨0xE0050000, 1, 4, 0, 0x1, 0x7, 0x0⟩ /- KEY_CTL -/,
  ⟨0xE0050004, 1, 4, 0, 0x3E8, 0x3FFF, 0x0⟩ /- KEY_ROT_PERIOD -/,
  ⟨0xE0050008, 1, 4, 1, 0x0, 0x0, 0x2E00⟩ /- KEY_STAT -/,
  ⟨0xE005000C, 1, 4, 1, 0x0, 0x0, 0x0⟩ /- KEY_MMCNT -/,
  ⟨0xE0050010, 1, 4, 1, 0x0, 0x0, 0x0⟩ /- KEY_INCNT -/,
  ⟨0xE0050014, 1, 4, 1, 0x0, 0x0, 0x0⟩ /- KEY_MMLOG0 -/,
  ⟨0xE0050018, 1, 4, 1, 0x0, 0x0, 0x0⟩ /- KEY_MMLOG1 -/,
  ⟨0xE0050020, 1, 4, 0, 0x0, 0xFFFFFFF, 0x0⟩ /- KEY_POLICY -/,
  ⟨0xE0050024, 1, 4, 1, 0x0, 0x0, 0x0⟩ /- KEY_PCOUNT -/,
  ⟨0xE0050028, 1, 4, 1, 0x0, 0x0, 0x0⟩ /- KEY_PCLASS -/,
  ⟨0xE005002C, 1, 4, 0, 0x0, 0x0, 0x80000000⟩ /- KEY_ATTACK -/,
  ⟨0xE0050100, 1, 4, 0, 0x0, 0x1, 0x0⟩ /- LNC_MODE -/,
  ⟨0xE0050104, 1, 4, 3, 0x0, 0x0, 0x0⟩ /- LNC_STAT -/,
  ⟨0xE0050110, 4, 4, 1, 0x3C0FFFF, 0x0, 0x0⟩ /- LNC_LANE -/,
  ⟨0xE0050120, 1, 4, 0, 0x0, 0x0, 0x0⟩ /- LNC_RETEST -/,
  ⟨0xE0050124, 1, 4, 0, 0x0, 0x0, 0x0⟩ /- LNC_ROTREQ -/]

/-- Registers of unit 0xE006_0000. -/
def regs6 : List Reg := [
  ⟨0xE0060000, 1, 4, 0, 0x0, 0x0, 0x0⟩ /- MCS_CTL -/,
  ⟨0xE0060004, 1, 4, 1, 0x40000000, 0x0, 0x0⟩ /- MCS_STATUS -/,
  ⟨0xE0060010, 1, 4, 3, 0x0, 0x0, 0x0⟩ /- MCS_VERSION -/,
  ⟨0xE0060014, 1, 4, 0, 0x0, 0x0, 0x0⟩ /- MCS_STAGED -/,
  ⟨0xE0060018, 1, 4, 3, 0x0, 0x0, 0x0⟩ /- MCS_CVERSION -/,
  ⟨0xE006001C, 1, 4, 0, 0x0, 0x0, 0x0⟩ /- MCS_CSTAGED -/,
  ⟨0xE0060020, 1, 4, 0, 0x0, 0x800107FF, 0x0⟩ /- MCS_SADDR -/,
  ⟨0xE0060030, 4, 4, 0, 0x0, 0xFFFFFFFF, 0x0⟩ /- MCS_SDATA -/,
  ⟨0xE0060040, 1, 4, 1, 0x0, 0x0, 0x0⟩ /- MCS_FAULT -/,
  ⟨0xE0060044, 1, 4, 1, 0x0, 0x0, 0x0⟩ /- MCS_MICROCNT -/,
  ⟨0xE0060100, 8, 4, 3, 0x0, 0x0, 0x0⟩ /- MCS_DIGEST -/,
  ⟨0xE0060120, 8, 4, 3, 0x0, 0x0, 0x0⟩ /- MCS_CDIGEST -/,
  ⟨0xE0060140, 8, 4, 0, 0x0, 0x0, 0x0⟩ /- MCS_SDIGEST -/]

/-- Registers of unit 0xE007_0000. -/
def regs7 : List Reg := [
  ⟨0xE0070000, 32, 4, 0, 0x50040, 0x800D1F73, 0x0⟩ /- BNK_OWNER -/,
  ⟨0xE0070100, 33, 4, 1, 0x0, 0x0, 0xC0000000⟩ /- BNK_STATE -/,
  ⟨0xE0070200, 33, 4, 1, 0x0, 0x13, 0x0⟩ /- BNK_PWR -/,
  ⟨0xE0070300, 1, 4, 0, 0x80000000, 0x80000000, 0x0⟩ /- BNK_SCRUB -/,
  ⟨0xE0070304, 1, 4, 1, 0x0, 0x0, 0x0⟩ /- BNK_ECC -/,
  ⟨0xE0070308, 1, 4, 1, 0x0, 0x0, 0x0⟩ /- BNK_ECCADDR -/,
  ⟨0xE007030C, 1, 4, 1, 0x0, 0x0, 0x0⟩ /- BNK_BUSY -/,
  ⟨0xE0070310, 1, 4, 1, 0x0, 0x0, 0x0⟩ /- BNK_COLL -/,
  ⟨0xE0070314, 1, 4, 1, 0x0, 0x0, 0x0⟩ /- BNK_DENY -/,
  ⟨0xE0070318, 1, 4, 1, 0x0, 0x0, 0x0⟩ /- BNK_DENYLAST -/,
  ⟨0xE0070400, 1, 4, 0, 0x0, 0x1F0000, 0x0⟩ /- BNK_SPARE -/,
  ⟨0xE0070404, 1, 4, 3, 0x0, 0x0, 0x0⟩ /- BNK_MAP -/]

/-- Registers of unit 0xE008_0000. -/
def regs8 : List Reg := [
  ⟨0xE0080000, 1, 4, 0, 0x1080020, 0x33FFFFF, 0x0⟩ /- STL_CFG -/,
  ⟨0xE0080004, 1, 4, 1, 0x40, 0x0, 0x0⟩ /- STL_STATUS -/,
  ⟨0xE0080008, 1, 4, 1, 0x0, 0x0, 0x0⟩ /- STL_SLOW -/,
  ⟨0xE008000C, 1, 4, 1, 0x0, 0x0, 0x0⟩ /- STL_ECC -/,
  ⟨0xE0080010, 1, 4, 1, 0x0, 0x0, 0x0⟩ /- STL_ECCADDR -/,
  ⟨0xE0080014, 1, 4, 1, 0x0, 0x0, 0x0⟩ /- STL_WRFAIL -/,
  ⟨0xE0080018, 1, 4, 1, 0x0, 0x0, 0x0⟩ /- STL_ROWLAST -/,
  ⟨0xE0081000, 1024, 4, 1, 0x0, 0x0, 0x0⟩ /- STL_ROW -/,
  ⟨0xE0080100, 1, 4, 1, 0x0, 0x0, 0x0⟩ /- CFG_STATUS -/,
  ⟨0xE0080104, 1, 4, 1, 0x0, 0x0, 0x0⟩ /- CFG_SEQ -/,
  ⟨0xE0080108, 1, 4, 0, 0x0, 0x0, 0x0⟩ /- CFG_CTL -/,
  ⟨0xE0080200, 1, 4, 1, 0x0, 0x0, 0x0⟩ /- CAL_STATUS -/,
  ⟨0xE0080204, 1, 4, 1, 0x0, 0x0, 0x0⟩ /- CAL_SEQ -/,
  ⟨0xE0080208, 1, 4, 0, 0x0, 0x0, 0x0⟩ /- CAL_CTL -/,
  ⟨0xE0080248, 8, 8, 1, 0x0, 0x0, 0x0⟩ /- CAL_TRIM_LO -/,
  ⟨0xE008024C, 8, 8, 1, 0x0, 0x0, 0x0⟩ /- CAL_TRIM_HI -/]

/-- Registers of unit 0xE009_0000. -/
def regs9 : List Reg := [
  ⟨0xE0090000, 1, 4, 0, 0x0, 0x331, 0x0⟩ /- FLI_CFG -/,
  ⟨0xE0090004, 1, 4, 0, 0x0, 0xFFFF, 0x0⟩ /- FLI_MINRUN -/,
  ⟨0xE0090008, 1, 4, 0, 0x0, 0xFFFF, 0x0⟩ /- FLI_STARVE_N -/,
  ⟨0xE009000C, 1, 4, 0, 0x0, 0x0, 0x0⟩ /- FLI_CTL -/,
  ⟨0xE0090010, 1, 4, 2, 0x0, 0x0, 0xC0000000⟩ /- FLI_STATUS -/,
  ⟨0xE0090014, 1, 4, 2, 0x0, 0x0, 0x0⟩ /- FLI_ERR -/,
  ⟨0xE0090018, 1, 4, 2, 0x0, 0x0, 0x0⟩ /- FLI_SUSCNT -/,
  ⟨0xE009001C, 1, 4, 1, 0x0, 0x0, 0x0⟩ /- FLI_ECC -/,
  ⟨0xE0090020, 1, 4, 1, 0x0, 0x0, 0x0⟩ /- FLI_ECCADDR -/,
  ⟨0xE0090024, 1, 4, 1, 0x0, 0x0, 0x0⟩ /- FLI_DENY -/,
  ⟨0xE0090028, 1, 4, 3, 0x0, 0x0, 0x0⟩ /- FLI_OPT -/,
  ⟨0xE0090030, 4, 4, 1, 0x0, 0x0, 0x0⟩ /- FLI_PROT -/,
  ⟨0xE0090040, 1, 4, 1, 0x0, 0x0, 0x0⟩ /- FLI_HALF -/,
  ⟨0xE0090044, 1, 4, 1, 0x0, 0x0, 0x0⟩ /- FLI_JNEXT -/]

/-- Registers of unit 0xE00A_0000. -/
def regsA : List Reg := [
  ⟨0xE00A0000, 8, 4, 0, 0x380000, 0x33803FF, 0x0⟩ /- BNE_SLOTCFG -/,
  ⟨0xE00A0020, 8, 4, 1, 0x0, 0x0, 0x0⟩ /- BNE_RESULT -/,
  ⟨0xE00A0040, 1, 4, 0, 0x0, 0x0, 0x0⟩ /- BNE_CLOAD -/,
  ⟨0xE00A0044, 1, 4, 0, 0x0, 0x0, 0x0⟩ /- BNE_KLD -/,
  ⟨0xE00A0048, 1, 4, 0, 0x0, 0x0, 0x0⟩ /- BNE_ZERO -/,
  ⟨0xE00A004C, 1, 4, 1, 0x0, 0x0, 0x0⟩ /- BNE_FAULT -/,
  ⟨0xE00A0050, 1, 4, 3, 0x0, 0x0, 0x0⟩ /- BNE_STATUS -/,
  ⟨0xE00A0080, 16, 4, 3, 0xA0000100, 0x0, 0x0⟩ /- BNE_CSTAT -/,
  ⟨0xE00A1000, 1024, 4, 1, 0x0, 0x0, 0x0⟩ /- BNE_KDESC -/]

/-- Registers of unit 0xE00B_0000. -/
def regsB : List Reg := [
  ⟨0xE00B0000, 3, 4, 0, 0x21, 0x1, 0x0⟩ /- PWR_UNIT -/,
  ⟨0xE00B0010, 1, 4, 1, 0x0, 0x0, 0x7E⟩ /- PWR_ALARM -/,
  ⟨0xE00B0014, 1, 4, 1, 0x0, 0x0, 0x0⟩ /- PWR_GLITCH -/,
  ⟨0xE00B0018, 1, 4, 2, 0x0, 0x0, 0x0⟩ /- PWR_VBLK -/,
  ⟨0xE00B001C, 1, 4, 2, 0x0, 0x0, 0x0⟩ /- PWR_TEMP -/,
  ⟨0xE00B0020, 1, 4, 0, 0x7D0FD80, 0xFFFFFFFF, 0x0⟩ /- PWR_TLIM -/,
  ⟨0xE00B0100, 1, 4, 0, 0x0, 0x77, 0x0⟩ /- CLK_LANE -/,
  ⟨0xE00B0104, 1, 4, 1, 0x0, 0x0, 0x7⟩ /- CLK_STATUS -/]

/-- Registers of unit 0xE00C_0000. -/
def regsC : List Reg := [
  ⟨0xE00C0000, 1, 4, 0, 0x40000081, 0xF00000F1, 0x0⟩ /- HPT_CFG -/,
  ⟨0xE00C0004, 1, 4, 1, 0x0, 0x0, 0x0⟩ /- HPT_STAT -/,
  ⟨0xE00C0008, 1, 4, 1, 0x0, 0x0, 0x0⟩ /- HPT_ERR -/,
  ⟨0xE00C000C, 1, 4, 2, 0x0, 0x0, 0xFFFFFFFF⟩ /- HPT_DBELL -/]

/-- Registers of unit 0xE00D_0000. -/
def regsD : List Reg := [
  ⟨0xE00D0000, 1, 4, 0, 0x0, 0x0, 0x0⟩ /- RNG_CTL -/,
  ⟨0xE00D0004, 1, 4, 0, 0x0, 0x0, 0x0⟩ /- RNG_LOCK -/,
  ⟨0xE00D0010, 1, 4, 0, 0x0, 0xFFFFFFF0, 0x0⟩ /- RNG_GATEBASE -/,
  ⟨0xE00D0014, 1, 4, 0, 0x0, 0x7FF, 0x0⟩ /- RNG_GATECNT -/,
  ⟨0xE00D0018, 1, 4, 0, 0x400100, 0xFFFFFFFF, 0x0⟩ /- RNG_XCAP -/,
  ⟨0xE00D0020, 1, 4, 0, 0x0, 0x6DFFE, 0x0⟩ /- RNG_VRING0 -/,
  ⟨0xE00D0024, 1, 4, 0, 0x0, 0x1, 0x0⟩ /- RNG_VRING1 -/,
  ⟨0xE00D0030, 5, 4, 0, 0x0, 0x0, 0x0⟩ /- RNG_VPRI -/,
  ⟨0xE00D0050, 4, 4, 0, 0x0, 0xFFFFFFFF, 0x0⟩ /- RNG_GSTAGE -/,
  ⟨0xE00D0060, 1, 4, 0, 0x0, 0x0, 0x0⟩ /- RNG_GCOMMIT -/,
  ⟨0xE00D0070, 1, 4, 3, 0x0, 0x0, 0x0⟩ /- RNG_XCAUSE -/,
  ⟨0xE00D0074, 1, 4, 3, 0x0, 0x0, 0x0⟩ /- RNG_XADDR -/,
  ⟨0xE00D0078, 1, 4, 3, 0x0, 0x0, 0x0⟩ /- RNG_XINFO -/,
  ⟨0xE00D0080, 1, 4, 0, 0x0, 0x0, 0x0⟩ /- RNG_SBOX -/,
  ⟨0xE00D0084, 1, 4, 0, 0x0, 0x3, 0x0⟩ /- RNG_SBSEL -/,
  ⟨0xE00D0088, 1, 4, 0, 0x0, 0xFFFFFFFF, 0x0⟩ /- RNG_SBPC -/,
  ⟨0xE00D008C, 1, 4, 0, 0x0, 0xFFFFFFFF, 0x0⟩ /- RNG_SBSTATUS -/,
  ⟨0xE00D0090, 1, 4, 0, 0x0, 0xFFFFFFFF, 0x0⟩ /- RNG_SBCAUSE -/,
  ⟨0xE00D0094, 1, 4, 0, 0x0, 0xFFFFFFFF, 0x0⟩ /- RNG_SBADDR -/,
  ⟨0xE00D00A0, 8, 4, 0, 0x0, 0xFFFFFFFF, 0x0⟩ /- RNG_SBHEAD -/,
  ⟨0xE00D00C0, 1, 4, 1, 0x0, 0x3FF, 0x0⟩ /- RNG_HSEL -/,
  ⟨0xE00D00C4, 1, 4, 1, 0x0, 0x0, 0x0⟩ /- RNG_HPC -/,
  ⟨0xE00D00C8, 1, 4, 1, 0x0, 0x0, 0x0⟩ /- RNG_HCAUSE -/,
  ⟨0xE00D00CC, 1, 4, 1, 0x0, 0x0, 0x0⟩ /- RNG_HADDR -/,
  ⟨0xE00D00D0, 1, 4, 1, 0x0, 0x0, 0x0⟩ /- RNG_HINFO -/,
  ⟨0xE00D00E0, 1, 4, 1, 0x0, 0x0, 0x0⟩ /- RNG_ESCCNT -/]

/-- The registers of a unit, by bits [19:16] of the address (R30). -/
def unitRegs (u : Nat) : List Reg :=
  match u with
  | 0 => regs0
  | 1 => regs1
  | 2 => regs2
  | 3 => regs3
  | 4 => regs4
  | 5 => regs5
  | 6 => regs6
  | 7 => regs7
  | 8 => regs8
  | 9 => regs9
  | 10 => regsA
  | 11 => regsB
  | 12 => regsC
  | 13 => regsD
  | _ => []

/-- Does register group `r` hold the register at address `a`? -/
def Reg.has (r : Reg) (a : Nat) : Bool :=
  decide (r.base ≤ a) && decide (a < r.base + r.count * r.stride) && decide ((a - r.base) % r.stride = 0)

/-- The register group at a control-space address; none where the unit's chapter assigns nothing (R30). -/
def regOf (a : Nat) : Option Reg :=
  if a / 0x100000 = 0xE00 then (unitRegs (a / 0x10000 % 16)).find? (·.has a) else none

/-- Reset value of the register at an address; unassigned offsets read 0 (R30). -/
def csrReset (a : Nat) : Word :=
  match regOf a with
  | some r =>
    if aEvcScfg + 160 ≤ a ∧ a < aEvcScfg + 256 then 0
    else if aBneCstat ≤ a ∧ a < aBneCstat + 16 then
      (if a = aBneCstat then 0xA0000100#32 else if a = aBneCstat + 4 then 0xA0000180#32
        else if a = aBneCstat + 8 then 0xA0000209#32 else 0xB00000FF#32)
    else BitVec.ofNat 32 r.reset
  | none => 0

end Sys2Proof.Machine
end

