-- ==== Sys2Proof/Machine/Ops.lean ====
section
/-! DEFINITION. The named operations over the state: sparse tables, bit fields, control registers, memory,
coaches, free values, and what an instruction's body may answer. -/

namespace Sys2Proof.Machine

/-! ### Sparse tables -/

/-- The entry of key `k`, or the default `d`. -/
def SMap.get {α : Type} (d : α) : SMap α → Nat → α
  | [], _ => d
  | (j, v) :: r, k => if j = k then v else SMap.get d r k

/-- Remove every entry of key `k`. -/
def SMap.erase {α : Type} : SMap α → Nat → SMap α
  | [], _ => []
  | (j, v) :: r, k => if j = k then SMap.erase r k else (j, v) :: SMap.erase r k

/-- Insert an entry at its place in the order of keys. -/
def SMap.insert {α : Type} : SMap α → Nat → α → SMap α
  | [], k, v => [(k, v)]
  | (j, w) :: r, k, v => if k < j then (k, v) :: (j, w) :: r else (j, w) :: SMap.insert r k v

/-- Write `v` at key `k`; writing the default removes the entry. -/
def SMap.set {α : Type} [DecidableEq α] (d : α) (m : SMap α) (k : Nat) (v : α) : SMap α :=
  if v = d then m.erase k else (m.erase k).insert k v

/-- Keep the entries whose key satisfies `p`. -/
def SMap.keep {α : Type} (p : Nat → Bool) (m : SMap α) : SMap α := m.filter (fun e => p e.1)

/-- The canonical form: strictly rising keys from above `lo`, no entry equal to the default of its key. -/
def SMap.wfFrom {α : Type} [DecidableEq α] (d : Nat → α) : Nat → SMap α → Bool
  | _, [] => true
  | lo, (k, v) :: r => decide (lo ≤ k) && decide (v ≠ d k) && SMap.wfFrom d (k + 1) r

/-! ### Bit fields -/

/-- Bits [lo+n-1:lo] of a word as a number. -/
def fld (w : Word) (lo n : Nat) : Nat := w.toNat / 2 ^ lo % 2 ^ n

/-- Bit `i` of a word. -/
def bit (w : Word) (i : Nat) : Bool := w.getLsbD i

/-- `w` with bits [lo+n-1:lo] replaced by the low bits of `v`. -/
def setFld (w : Word) (lo n v : Nat) : Word :=
  let m : Word := BitVec.ofNat 32 ((2 ^ n - 1) * 2 ^ lo)
  (w &&& ~~~m) ||| (BitVec.ofNat 32 (v % 2 ^ n * 2 ^ lo))

/-- `w` with bit `i` set or cleared. -/
def setBit (w : Word) (i : Nat) (b : Bool) : Word := setFld w i 1 (if b then 1 else 0)

/-- A number as a word. -/
def u32 (n : Nat) : Word := BitVec.ofNat 32 n

/-- A Bool as 0 or 1. -/
def b2n (b : Bool) : Nat := if b then 1 else 0

/-- Low and high words of 64 bits. -/
def loW (x : DWord) : Word := x.truncate 32
def hiW (x : DWord) : Word := (x >>> 32).truncate 32

/-- 64 bits from high and low words. -/
def mkD (hi lo : Word) : DWord := (hi.zeroExtend 64) <<< 32 ||| lo.zeroExtend 64

/-- Add to a count that saturates at `m`. -/
def satAdd (m n k : Nat) : Nat := if n + k ≤ m then n + k else m

/-! ### Control registers -/

/-- The stored value of the register at address `a`. -/
def getR (s : State) (a : Nat) : Word := s.csr.get (csrReset a) a

/-- Store a register value. -/
def setR (s : State) (a : Nat) (v : Word) : State := { s with csr := s.csr.set (csrReset a) a v }

/-- Add `k` to the saturating count in bits [lo+n-1:lo] of a register. -/
def bumpR (s : State) (a lo n k : Nat) : State :=
  let w := getR s a
  setR s a (setFld w lo n (satAdd (2 ^ n - 1) (fld w lo n) k))

/-- Set bits of a register. -/
def orR (s : State) (a : Nat) (m : Word) : State := setR s a (getR s a ||| m)

/-- Clear bits of a register. -/
def clrR (s : State) (a : Nat) (m : Word) : State := setR s a (getR s a &&& ~~~m)

/-- Service mode (R184). -/
def svc (s : State) : Bool := bit (getR s aRngCtl) 0

/-- The service vector table is locked (R162). -/
def vtlock (s : State) : Bool := bit (getR s aRngLock) 0

/-! ### Free values -/

/-- Draw an undefined word (R9). -/
def freeWord (s : State) : Word × State := (Config.freeWord s.draws, { s with draws := s.draws + 1 })

/-- Draw undefined 64-bit data (R9). -/
def freeD (s : State) : DWord × State := (Config.freeDWord s.draws, { s with draws := s.draws + 1 })

/-! ### Address map (R27) -/

/-- The ranges of R27. -/
inductive Region where
  | rom | vtAlias | bank | stele | flash | host | csr | opmem
  deriving DecidableEq, Repr

/-- First address of the array of the spare bank, which the address map does not reach (R276): the model's own keys. -/
def spareBase : Nat := 0x100000000

/-- The range an address lies in; none where R27 maps nothing. -/
def region (a : Nat) : Option Region :=
  if a < 0x10000 then some .rom
  else if a < 0x10400 then some .vtAlias
  else if 0x10000000 ≤ a ∧ a < 0x10200000 then some .bank
  else if 0x20000000 ≤ a ∧ a < 0x20040000 then some .stele
  else if 0x30000000 ≤ a ∧ a < 0x34000000 then some .flash
  else if 0x40000000 ≤ a ∧ a < 0x50000000 then some .host
  else if 0xE0000000 ≤ a ∧ a < 0xE00E0000 then some .csr
  else if 0xF0000000 ≤ a ∧ a < 0xF0004000 then some .opmem
  else none

/-- The range that holds all `n` bytes from `a`; none when they lie in no single range (R28, R47). -/
def regionN (a n : Nat) : Option Region :=
  match region a with
  | some r => if region (a + n - 1) = some r then some r else none
  | none => none

/-- Bits [19:16] of a control-space address: its unit (R30). -/
def csrUnit (a : Nat) : Nat := a / 0x10000 % 16

/-- The island that holds a unit of the control space (R30; codes of ZW_MTR_FAIL). -/
def unitIsland (u : Nat) : Nat := [4, 4, 6, 7, 7, 4, 4, 5, 9, 10, 8, 12, 11].getD u 4

/-- Island behind an address. -/
def islandOf (a : Nat) : Nat :=
  match region a with
  | some .flash => 10
  | some .opmem => 8
  | some .host => 11
  | some .stele => 9
  | some .csr => unitIsland (csrUnit a)
  | some .rom => 4
  | _ => 5

/-- The entry of a sealed LDP or LDPD, which its coach's stall completes (R47). -/
def sealedEntry (k : Cons) : Bool := region k.addr == some .stele || region k.addr == some .csr

/-- Island that consignment `k` goes to. -/
def islandAt (k : Cons) : Nat := match k.kind with | .engine _ _ => 8 | _ => islandOf k.addr

/-- Island that the sealed access of a stall goes to; none when the stall is another's. -/
def sealedIsland (st : Stall) : Option Nat :=
  match st.stele, st.op with
  | some _, _ => some 9
  | none, some (.read a) => some (islandOf a)
  | none, some (.write a _) => some (islandOf a)
  | none, some _ => some 8
  | none, none => none

/-- The bank address behind an address: the vector-table alias reaches bank 0 (R29). -/
def phys (a : Nat) : Nat := if 0x10000 ≤ a ∧ a < 0x10400 then a - 0x10000 + 0x10000000 else a

/-- Number of the bank that holds a physical address. -/
def bankOf (a : Nat) : Nat := (a - 0x10000000) / 0x10000

/-- Does `[a, a+n)` touch the 1,024 bytes of the service vector table, through either address (R29)? -/
def inVectors (a n : Nat) : Bool :=
  let p := phys a
  decide (p < 0x10000400) && decide (0x10000000 < p + n)

/-- Do all `n` bytes from `a` lie in banks 0 to 31? -/
def inBanks (a n : Nat) : Bool := decide (0x10000000 ≤ a) && decide (a + n ≤ 0x10200000)

/-- Do all `n` bytes from `a` lie in the banks, or in the vector table's other address, which reaches bank 0 (R29)? -/
def bankRange (a n : Nat) : Bool := inBanks a n || (decide (0x10000 ≤ a) && decide (a + n ≤ 0x10400))

/-! ### Memory -/

/-- What a byte that nothing has written reads as: boot ROM and FACTORY region by device, the erased flash array 0xFF,
every other array 0 (R276, R290, R296). -/
def unlisted (a : Nat) : Byte :=
  if a < 0x10000 then Config.bootRom a
  else if 0x20000000 ≤ a ∧ a < 0x20002000 then Config.steleContent (a - 0x20000000)
  else if 0x30000000 ≤ a ∧ a < 0x34000000 then 0xFF
  else 0

/-- One byte of memory. -/
def rdB (s : State) (a : Nat) : Byte := SMap.get (unlisted a) s.mem a

/-- Write one byte, keeping the canonical form. -/
def wrMem (m : List Host.Cell) (a : Nat) (v : Byte) : List Host.Cell := SMap.set (unlisted a) m a v

/-- Write one byte of memory. -/
def wrB (s : State) (a : Nat) (v : Byte) : State := { s with mem := wrMem s.mem a v }

/-- Memory is in its canonical form. -/
def Memory.wf (m : List Host.Cell) : Bool := SMap.wfFrom unlisted 0 m

/-- `n` bytes from `a`, little-endian. -/
def rdN (s : State) (a : Nat) : Nat → Nat
  | 0 => 0
  | n + 1 => (rdB s a).toNat + 256 * rdN s (a + 1) n

/-- Write the low `n` bytes of `v` at `a`, little-endian. -/
def wrN (s : State) (a : Nat) : Nat → Nat → State
  | 0, _ => s
  | n + 1, v => wrN (wrB s a (BitVec.ofNat 8 v)) (a + 1) n (v / 256)

def rd32 (s : State) (a : Nat) : Word := u32 (rdN s a 4)
def rd64 (s : State) (a : Nat) : DWord := BitVec.ofNat 64 (rdN s a 8)
def wr32 (s : State) (a : Nat) (v : Word) : State := wrN s a 4 v.toNat
def wr64 (s : State) (a : Nat) (v : DWord) : State := wrN s a 8 v.toNat

/-- Return `[lo, hi)` to what unlisted bytes read as. -/
def clrRange (s : State) (lo hi : Nat) : State :=
  let out := fun k => decide (k < lo) || decide (hi ≤ k)
  { s with mem := SMap.keep out s.mem, ecc := SMap.keep out s.ecc }

/-- ECC condition of the word at `a`: 0 good, 1 single-bit error, 2 uncorrectable. -/
def eccAt (s : State) (a : Nat) : Nat := SMap.get 0 s.ecc a

def setEcc (s : State) (a k : Nat) : State := { s with ecc := SMap.set 0 s.ecc a k }

/-- The ECC condition after a fresh upset of the word (R283). -/
def upsetEcc (s : State) (a : Nat) (u : Upset) : State :=
  match u with
  | .none => s
  | .single => setEcc s a (if eccAt s a = 0 then 1 else 2)
  | .double => setEcc s a 2

/-! ### Coaches -/

/-- Who issues: a coach, or the fast context (R150). -/
inductive Who where
  | coach (n : Nat)
  | fast
  deriving DecidableEq, Repr

/-- Coach `n`. -/
def coachOf (s : State) (n : Nat) : Coach := s.coach.get {} n

/-- Replace coach `n`. -/
def setCoach (s : State) (n : Nat) (c : Coach) : State := { s with coach := s.coach.set {} n c }

/-- The registers and heads of who issues. -/
def getC (s : State) : Who → Coach
  | .coach n => coachOf s n
  | .fast => s.fast

def setC (s : State) (w : Who) (c : Coach) : State :=
  match w with
  | .coach n => setCoach s n c
  | .fast => { s with fast := c }

/-- Change one coach. -/
def modC (s : State) (w : Who) (f : Coach → Coach) : State := setC s w (f (getC s w))

/-- The designated fast coach (R152). -/
def fastCoach (s : State) : Nat := fld (getR s aCshFastcfg) 0 10

/-- CSH_FASTCFG.EN (R152). -/
def fastEn (s : State) : Bool := bit (getR s aCshFastcfg) 31

/-- The coach number under which `w` issues (R152). -/
def numOf (s : State) : Who → Nat
  | .coach n => n
  | .fast => fastCoach s

/-- Who a coach number stands for: the running fast context for its designated coach (R152). -/
def whoOf (s : State) (n : Nat) : Who :=
  if s.fastOn.isSome && n == fastCoach s then .fast else .coach n

/-- STATUS fields (R41). -/
def ringOf (c : Coach) : Nat := fld c.status 0 2
def preOf (c : Coach) : Bool := bit c.status 2
def maskOf (c : Coach) : Nat := fld c.status 8 8
def holdOf (c : Coach) : Bool := bit c.status 16
def inexOf (c : Coach) : Bool := bit c.status 17

/-- A coach that holds a thread (R127, R128). -/
def CoachSt.live : CoachSt → Bool
  | .free => false
  | .parked => false
  | _ => true

/-- State codes of R127. -/
def CoachSt.code : CoachSt → Nat
  | .free => 0
  | .ready => 1
  | .run => 2
  | .wait => 3
  | .halt => 4
  | .parked => 5

/-- The stack consists of its head alone: strongbox mode and the fast context (R384). -/
def headOnly (s : State) (w : Who) : Bool := w == .fast || !svc s

/-- Running coach of a lane set. -/
def runOf (s : State) (l : Nat) : Option Nat :=
  if l = 0 then s.run0 else if l = 1 then s.run1 else s.run2

def setRun (s : State) (l : Nat) (r : Option Nat) : State :=
  if l = 0 then { s with run0 := r } else if l = 1 then { s with run1 := r } else { s with run2 := r }

/-- The lane cycle after a taken transfer in lane set `l` is past, or comes now (R110). -/
def setGap (s : State) (l : Nat) (b : Bool) : State :=
  { s with gaps := if b then l :: s.gaps.filter (· ≠ l) else s.gaps.filter (· ≠ l) }

/-- The coach is the designated fast coach while EN is 1 (R152). -/
def isFastCoach (s : State) (n : Nat) : Bool := fastEn s && n == fastCoach s

def divOf (s : State) (l : Nat) : Option Divider := s.div.get none l
def setDiv (s : State) (l : Nat) (d : Option Divider) : State := { s with div := s.div.set none l d }

def consOf (s : State) (e : Nat) : Cons := s.cons.get {} e
def setCons (s : State) (e : Nat) (c : Cons) : State := { s with cons := s.cons.set {} e c }

def srcOf (s : State) (n : Nat) : Src := s.src.get {} n
def setSrc (s : State) (n : Nat) (x : Src) : State := { s with src := s.src.set {} n x }

def bankN (s : State) (n : Nat) : Bank := s.bank.get {} n
def setBank (s : State) (n : Nat) (b : Bank) : State := { s with bank := s.bank.set {} n b }
def modBank (s : State) (n : Nat) (f : Bank → Bank) : State := setBank s n (f (bankN s n))

def laneOf (s : State) (n : Nat) : Lane := s.lnc.lanes.get {} n
def setLane (s : State) (n : Nat) (x : Lane) : State :=
  { s with lnc := { s.lnc with lanes := s.lnc.lanes.set {} n x } }
def modLane (s : State) (n : Nat) (f : Lane → Lane) : State := setLane s n (f (laneOf s n))
def modLnc (s : State) (f : Lnc → Lnc) : State := { s with lnc := f s.lnc }

def sboxOf (s : State) (l : Nat) : SBox := s.sbox.get {} l
def setSbox (s : State) (l : Nat) (b : SBox) : State := { s with sbox := s.sbox.set {} l b }

/-- PAIRED mode (R234). -/
def isPaired (s : State) : Bool := s.lnc.set == .paired

/-- A set is formed that votes or compares outputs (R234). -/
def issuing (s : State) : Bool :=
  s.up && (s.lnc.set == .triplex || s.lnc.set == .duplex || s.lnc.set == .paired)

/-- The free lanes, lowest number first (R137). -/
def freeLanes (s : State) : List Nat := [0, 1, 2, 3].filter (fun n => (laneOf s n).role == .free)

/-- Lane set `l` runs coaches (R137). -/
def lsRuns (s : State) (l : Nat) : Bool :=
  issuing s && (l == 0 || (isPaired s && decide (l ≤ (freeLanes s).length)))

/-! ### What a body answers -/

/-- Why an instruction does not complete: a precise exception, with what the failed access left in its unit (counts and
records), or its coach is held, inside a routine of the microstore or not (R265), with what it has already done. -/
inductive Stop where
  | trap (x : XItem) (left : State → State)
  | hold (h : Hold) (inside : Option Routed) (left : State → State)

/-- An instruction's body: it changes the state, or stops with nothing changed (R37). -/
abbrev M := StateT State (Except Stop)

def trap {α : Type} (x : XItem) (left : State → State := id) : M α := throw (.trap x left)
def holdFor {α : Type} (h : Hold) (left : State → State := id) : M α := throw (.hold h none left)

/-- A wait of `m` is one inside routine `r`. -/
def inside {α : Type} (r : Routed) (m : M α) : M α := fun s =>
  match m s with
  | .error (.hold h _ left) => .error (.hold h (some r) left)
  | y => y

def raise {α : Type} (vec : Nat) (reason : Nat := 0) (addr : Word := 0) (write : Bool := false) : M α :=
  trap { vec := vec, reason := BitVec.ofNat 8 reason, addr := addr, write := write }

/-- Size field of FINFO (R164); 0 where the size is not yet known. -/
def sizeCode (n : Nat) : Nat := if n = 8 then 3 else if n = 4 then 2 else if n = 2 then 1 else 0

/-- A precise exception of an access of `n` bytes at `addr` that its unit never received (R164, R385). -/
def raiseAt {α : Type} (vec : Nat) (addr : Word) (n : Nat) (write : Bool) : M α :=
  trap { vec := vec, addr := addr, write := write, info := u32 (sizeCode n * 2 ^ 14) }

/-- Where control goes after an instruction. -/
inductive Flow where
  /-- To the next instruction, or round the loop (R44). -/
  | seq
  /-- The body has set PC. -/
  | jump
  /-- The instruction is not finished; PC stays. -/
  | stay
  /-- The coach has left the lane. -/
  | gone
  deriving DecidableEq, Repr

/-- Vectors of R161. -/
abbrev vILLEGAL : Nat := 1
abbrev vNOEXEC : Nat := 2
abbrev vACCESS : Nat := 3
abbrev vALIGN : Nat := 4
abbrev vDSTACK : Nat := 5
abbrev vRSTACK : Nat := 6
abbrev vARITH : Nat := 7
abbrev vGATE : Nat := 8
abbrev vPRIV : Nat := 9
abbrev vBUSERR : Nat := 10
abbrev vECCERR : Nat := 11
abbrev vTIMEOUT : Nat := 12
abbrev vESCALATE : Nat := 13
abbrev vWAYBILL : Nat := 14
abbrev vBREAK : Nat := 15
abbrev vMICRO : Nat := 17
abbrev vKEYSTONE : Nat := 18
abbrev vEVENT : Nat := 32
abbrev vFAST : Nat := 33

/-- The exception of a failing status (R38, R145). -/
def vecOfStatus (st : BitVec 3) : Nat :=
  if st = 3 then vACCESS else if st = 2 then vECCERR else if st = 4 then vTIMEOUT else vBUSERR

end Sys2Proof.Machine
end

