-- ==== Sys2Proof/Machine/Flags.lean ====
section
/-! DEFINITION. Results and flags of the arithmetic, logic, shift and compare instructions (spec/03 R72 to R75, R43). -/

namespace Sys2Proof.Machine

/-- A result with carry (or borrow) and signed overflow. -/
structure Arith where
  r : Word
  c : Bool
  v : Bool
  deriving DecidableEq, Repr

/-- A signed number lies outside the range of 32 bits. -/
def outside (x : Int) : Bool := decide (x < -(2 ^ 31)) || decide (2 ^ 31 ≤ x)

/-- a + b + c (R72): carry out of bit 31, and signed overflow. -/
def addWith (a b : Word) (c : Bool) : Arith where
  r := BitVec.ofNat 32 (a.toNat + b.toNat + b2n c)
  c := decide (2 ^ 32 ≤ a.toNat + b.toNat + b2n c)
  v := outside (a.toInt + b.toInt + b2n c)

/-- a − b − c (R72): borrow, and signed overflow. -/
def subWith (a b : Word) (c : Bool) : Arith where
  r := a - b - BitVec.ofNat 32 (b2n c)
  c := decide (a.toNat < b.toNat + b2n c)
  v := outside (a.toInt - b.toInt - b2n c)

/-- 0 − a (R72). -/
def negate (a : Word) : Arith := ⟨0 - a, decide (a ≠ 0), decide (a = 0x80000000#32)⟩

/-- Low word of the product, and whether the signed product overflows (R72). -/
def mulLow (a b : Word) : Word × Bool := (a * b, outside (a.toInt * b.toInt))

/-- High words of the signed and of the unsigned product. -/
def mulHigh (a b : Word) : Word := BitVec.ofInt 32 (a.toInt * b.toInt / 2 ^ 32)
def mulHighU (a b : Word) : Word := BitVec.ofNat 32 (a.toNat * b.toNat / 2 ^ 32)

def absolute (a : Word) : Word := if a.getLsbD 31 then 0 - a else a

/-- Quotient and remainder of R73. Signed division truncates toward zero. -/
def divide (signed : Bool) (a b : Word) : Word × Word :=
  if b = 0 then (0xFFFFFFFF#32, a)
  else if signed then
    if a = 0x80000000#32 ∧ b = 0xFFFFFFFF#32 then (0x80000000#32, 0)
    else (BitVec.ofInt 32 (a.toInt.tdiv b.toInt), BitVec.ofInt 32 (a.toInt.tmod b.toInt))
  else (a / b, a % b)

/-- A shift count: n[4:0]. -/
def count (n : Word) : Nat := n.toNat % 32

def shiftL (a n : Word) : Word := a <<< count n
def shiftR (a n : Word) : Word := a >>> count n
def shiftA (a n : Word) : Word := a.sshiftRight (count n)
def rotL (a n : Word) : Word := (a <<< count n) ||| (a >>> (32 - count n))
def rotR (a n : Word) : Word := (a >>> count n) ||| (a <<< (32 - count n))

/-- Leading zero bits of the low `k` bits. -/
def clzFrom (a : Word) : Nat → Nat
  | 0 => 0
  | k + 1 => if a.getLsbD k then 0 else clzFrom a k + 1

/-- Number of leading zero bits; 32 for 0. -/
def clz (a : Word) : Word := BitVec.ofNat 32 (clzFrom a 32)

/-- Index of the least significant 1 from bit `32 − k`. -/
def ffsFrom (a : Word) : Nat → Nat
  | 0 => 32
  | k + 1 => if a.getLsbD (31 - k) then 31 - k else ffsFrom a k

/-- Bit index of the least significant 1; 32 for 0. -/
def ffs (a : Word) : Word := BitVec.ofNat 32 (ffsFrom a 32)

/-- Number of 1 bits. -/
def popc (a : Word) : Word := BitVec.ofNat 32 ((List.range 32).countP (fun i => a.getLsbD i))

/-- Bytes in reverse order. -/
def bswap (a : Word) : Word :=
  (a <<< 24) ||| ((a <<< 8) &&& 0x00FF0000#32) ||| ((a >>> 8) &&& 0x0000FF00#32) ||| (a >>> 24)

def sextB (a : Word) : Word := (a.truncate 8).signExtend 32
def sextH (a : Word) : Word := (a.truncate 16).signExtend 32

/-- A flag of R43. -/
def flag (b : Bool) : Word := if b then 0xFFFFFFFF#32 else 0

/-- Carry-less product of 32-bit words, 64 bits (R272). -/
def clmul (a b : Word) : DWord :=
  (List.range 32).foldl (fun acc i => if b.getLsbD i then acc ^^^ ((a.zeroExtend 64) <<< i) else acc) 0

end Sys2Proof.Machine
end

