-- ==== Sys2Proof/Machine/Sha.lean ====
section
/-! DEFINITION. SHA-256 and SHA-384 (FIPS 180-4), which the ledger chain (R223), the microstore digests (R268) and the
boot header (R365) use. The constants are computed from the primes that the standard takes them from. -/

namespace Sys2Proof.Machine

/-- The primes below `n`, in order. -/
def primesBelow : Nat → List Nat
  | 0 => []
  | n + 1 =>
    let ps := primesBelow n
    if 2 ≤ n ∧ ps.all (fun p => n % p != 0) = true then ps ++ [n] else ps

/-- The integer `k`-th root of `x` among the numbers from `r` to `r + 2 ^ b - 1`, found bit by bit. -/
def rootBits (k x : Nat) : Nat → Nat → Nat
  | 0, r => r
  | b + 1, r => rootBits k x b (if (r + 2 ^ b) ^ k ≤ x then r + 2 ^ b else r)

/-- The first `w` bits of the fractional part of the `k`-th root of `p`. -/
def rootFraction (w k p : Nat) : BitVec w := BitVec.ofNat w (rootBits k (p * 2 ^ (k * w)) (w + 5) 0)

/-- What a hash of the family fixes: the amounts of its two mixing functions of the working words and of its two of the
message words (the last a shift), the number of rounds, and which primes give its initial words. -/
structure ShaForm where
  up : Nat × Nat × Nat
  down : Nat × Nat × Nat
  near : Nat × Nat × Nat
  far : Nat × Nat × Nat
  rounds : Nat
  first : Nat
  deriving DecidableEq, Repr

def form256 : ShaForm := ⟨(2, 13, 22), (6, 11, 25), (7, 18, 3), (17, 19, 10), 64, 0⟩
def form384 : ShaForm := ⟨(28, 34, 39), (14, 18, 41), (1, 8, 7), (19, 61, 6), 80, 8⟩

/-- A word mixed with two rotations of itself and a third term. -/
def mixWord {w : Nat} (x : BitVec w) (r : Nat × Nat × Nat) (third : BitVec w) : BitVec w :=
  third ^^^ x.rotateRight r.1 ^^^ x.rotateRight r.2.1

/-- One round with the constant `k`: the eight working words, and the window of the next sixteen message words, which
moves on by one. -/
def shaStep {w : Nat} (m : ShaForm) (st : List (BitVec w) × List (BitVec w)) (k : BitVec w) :
    List (BitVec w) × List (BitVec w) :=
  match st with
  | ([a, b, c, d, e, f, g, h], win) =>
    let at_ := fun i => win.getD i 0
    let choice := g ^^^ (e &&& (f ^^^ g))
    let most := (a &&& b) ||| (c &&& (a ||| b))
    let t := at_ 0 + k + h + choice + mixWord e m.down (e.rotateRight m.down.2.2)
    let new := at_ 0 + at_ 9 + mixWord (at_ 1) m.near (at_ 1 >>> m.near.2.2) + mixWord (at_ 14) m.far (at_ 14 >>> m.far.2.2)
    ([most + mixWord a m.up (a.rotateRight m.up.2.2) + t, a, b, c, d + t, e, f, g], win.drop 1 ++ [new])
  | _ => st

/-- The working words after the block `blk`. -/
def shaBlock {w : Nat} (m : ShaForm) (v blk : List (BitVec w)) : List (BitVec w) :=
  let ks := ((primesBelow 410).take m.rounds).map (rootFraction w 3)
  List.zipWith (· + ·) v (ks.foldl (shaStep m) (v, blk)).1

/-- A big-endian number from bytes. -/
def beNat (bs : List Byte) : Nat := bs.foldl (fun n b => n * 256 + b.toNat) 0

/-- `n` bytes, big-endian. -/
def beBytes (n v : Nat) : List Byte := (List.range n).reverse.map (fun i => BitVec.ofNat 8 (v / 256 ^ i))

/-- The blocks of a padded message, `n` words of `k` bytes each. -/
def shaBlocks (w k : Nat) : Nat → List Byte → List (List (BitVec w))
  | 0, _ => []
  | n + 1, bs =>
    ((List.range 16).map (fun i => BitVec.ofNat w (beNat ((bs.drop (i * k)).take k)))) ::
      shaBlocks w k n (bs.drop (16 * k))

/-- Pad to whole blocks of `b` bytes, with the bit length in the last `l` bytes. -/
def shaPad (b l : Nat) (bs : List Byte) : List Byte :=
  let n := bs.length
  let z := (2 * b - 1 - l - n % b) % b
  bs ++ (0x80#8 :: List.replicate z 0#8) ++ beBytes l (8 * n)

/-- The working words after a whole message, padded with an `l`-byte length. -/
def shaRun (w : Nat) (m : ShaForm) (l : Nat) (bs : List Byte) : List (BitVec w) :=
  let p := shaPad (2 * w) l bs
  let start := (((primesBelow 54).drop m.first).take 8).map (rootFraction w 2)
  (shaBlocks w (w / 8) (p.length / (2 * w)) p).foldl (shaBlock m) start

/-- SHA-256 as 32 bytes. -/
def sha256 (bs : List Byte) : List Byte := (shaRun 32 form256 8 bs).flatMap (fun v => beBytes 4 v.toNat)

/-- SHA-384 as a number, its first byte most significant (FIPS 186). -/
def sha384Nat (bs : List Byte) : Nat :=
  beNat (((shaRun 64 form384 16 bs).take 6).flatMap (fun v => beBytes 8 v.toNat))

/-- `n` little-endian bytes of a number. -/
def leBytes (n v : Nat) : List Byte := (List.range n).map (fun i => BitVec.ofNat 8 (v / 256 ^ i))

/-- A little-endian number from bytes. -/
def leNat (bs : List Byte) : Nat := bs.foldr (fun b n => b.toNat + 256 * n) 0

end Sys2Proof.Machine
end

