-- ==== Sys2Proof/Machine/Sched.lean ====
section
/-! DEFINITION. The scheduler (spec/05 R127 to R138): queues, wakes, holds, and the choice of each lane set. -/

namespace Sys2Proof.Machine

/-- Put a coach at the tail of the queue (R135). -/
def toTail (s : State) (n : Nat) : State := { s with queue := s.queue.filter (· ≠ n) ++ [n] }

/-- Put a coach at the head of its class queue (R135). -/
def toHead (s : State) (n : Nat) : State := { s with queue := n :: s.queue.filter (· ≠ n) }

/-- Take a coach out of the queue. -/
def unqueue (s : State) (n : Nat) : State := { s with queue := s.queue.filter (· ≠ n) }

/-- The coach becomes READY at the tail of its class queue. -/
def makeReady (s : State) (n : Nat) : State :=
  toTail (modC s (.coach n) (fun c => { c with st := .ready })) n

/-- The coach leaves the queues and every lane set for state `st` (R129). -/
def leave (s : State) (n : Nat) (st : CoachSt) : State :=
  let s1 := unqueue (modC s (.coach n) (fun c => { c with st := st })) n
  { s1 with
    run0 := if s1.run0 = some n then none else s1.run0
    run1 := if s1.run1 = some n then none else s1.run1
    run2 := if s1.run2 = some n then none else s1.run2 }

/-- Set bits of a coach's wake word (R93, R130, R152): a coach in WAIT becomes READY, one in HALT records them, one
that holds no thread and the designated fast coach get none. -/
def wake (s : State) (n : Nat) (b : BitVec 4) : State :=
  let c := coachOf s n
  if c.st.live && !isFastCoach s n then
    let s1 := setCoach s n { c with wake := c.wake ||| b }
    if c.st = .wait then makeReady s1 n else s1
  else s

/-- Wake-word bits of R93. -/
abbrev wkEVENT : BitVec 4 := 1
abbrev wkCONSIGN : BitVec 4 := 2
abbrev wkTIMER : BitVec 4 := 4
abbrev wkWAKE : BitVec 4 := 8

/-- Priority class and integrity attribute of CCFG (R32). -/
def classOf (c : Coach) : Nat := fld c.ccfg 0 2
def attrOf (c : Coach) : Nat := fld c.ccfg 4 2

/-- Lane set that the partition gives the FREE-OK coaches of a coach's group (R137, R138). -/
def partOf (s : State) (n : Nat) : Nat :=
  let g := n / 32
  if g < 16 then fld s.lnc.part0 (2 * g) 2 else fld s.lnc.part1 (2 * (g - 16)) 2

/-- A PARKC that waits has stopped the coach (R96). -/
def stopped (s : State) (n : Nat) : Bool :=
  let parks := fun (c : Coach) => match c.held with
    | some (.parking d _) => d == n
    | _ => false
  parks s.fast || s.coach.any (fun e => parks e.2)

/-- Lane set `l` runs, and may run a coach of this attribute and group (R137). -/
def admitsCoach (s : State) (l n : Nat) : Bool :=
  let c := coachOf s n
  lsRuns s l &&
  (if isPaired s then
    (if c.qattr = 1 then l == 0 else if c.qattr = 2 then l == partOf s n else false)
   else l == 0)

/-- Lane set `l` may select the coach: in strongbox mode only coach 0 is selected (R180), and none that a PARKC has stopped
(R96). -/
def eligible (s : State) (l n : Nat) : Bool := admitsCoach s l n && (svc s || n == 0) && !stopped s n

/-- The coach may be selected by lane set `l` (R134). -/
def selectable (s : State) (l n : Nat) : Bool :=
  let c := coachOf s n
  c.st == .ready && c.held.isNone && eligible s l n

/-- The first of the highest class among the candidates (R134). -/
def bestOf (s : State) : List Nat → Option Nat
  | [] => none
  | n :: r =>
    match bestOf s r with
    | none => some n
    | some m => if (coachOf s n).qclass ≤ (coachOf s m).qclass then some n else some m

/-- The coach lane set `l` would select. -/
def best (s : State) (l : Nat) : Option Nat := bestOf s (s.queue.filter (selectable s l))

/-- Lane set `l` selects its coach (R134, R135): a higher class takes the lane, and a held coach gives it up. A changed
class or attribute applies at switch-in: a new class, or an attribute that excludes the lane set, sends the coach to the
tail (R34, R138). A takeover window does not outlast the coach's time in the lane (R174). -/
def pick (l : Nat) : Nat → State → State
  | 0, s => s
  | f + 1, s =>
    match runOf s l with
    | some r =>
      let c := coachOf s r
      if c.st ≠ .run then pick l f (setRun s l none)
      else if !eligible s l r then pick l f (setRun (setCoach s r { c with st := .ready }) l none)
      else
        match best s l with
        | none => s
        | some n =>
          if c.held.isSome then pick l f (setRun (setCoach s r { c with st := .ready }) l none)
          else if (coachOf s n).qclass < c.qclass then
            pick l f (setRun (toHead (setCoach s r { c with st := .ready }) r) l none)
          else s
    | none =>
      match best s l with
      | none => s
      | some n =>
        let c := coachOf s n
        let c1 : Coach := { c with qclass := classOf c, qattr := attrOf c }
        let s1 := setCoach s n c1
        if classOf c ≠ c.qclass ∨ !eligible s1 l n then pick l f (toTail s1 n)
        else setRun (setCoach s n { c1 with st := .run, window := none }) l (some n)

/-- The lane set keeps no coach that is not in RUN. -/
def fixRun (s : State) (l : Nat) : State :=
  match runOf s l with
  | some r => if (coachOf s r).st = .run then s else setRun s l none
  | none => s

/-! ### Visible sources and offers (R192 to R201) -/

/-- Configuration words of a source (R212). -/
def scfg (s : State) (n : Nat) : Word := getR s (aEvcScfg + 4 * n)
def stgt (s : State) (n : Nat) : Word := getR s (aEvcStgt + 4 * n)
def scoal (s : State) (n : Nat) : Word := getR s (aEvcScoal + 4 * n)

def srcEn (s : State) (n : Nat) : Bool := bit (scfg s n) 31
def srcStamp (s : State) (n : Nat) : Bool := bit (scfg s n) 30
def srcPre (s : State) (n : Nat) : Bool := bit (scfg s n) 29
def srcClaimMode (s : State) (n : Nat) : Bool := bit (scfg s n) 28
def srcSense (s : State) (n : Nat) : Nat := fld (scfg s n) 24 3
def srcPrio (s : State) (n : Nat) : Nat := fld (scfg s n) 16 8

/-- The FAST source (R201). -/
def isFastSrc (s : State) (n : Nat) : Bool := bit (getR s aEvcFast) 31 && fld (getR s aEvcFast) 0 9 == n

/-- R192: visible while PEND and EN are 1 and ACTIVE is 0. -/
def visible (s : State) (n : Nat) : Bool := (srcOf s n).pend && srcEn s n && !(srcOf s n).active

/-- Coach `c` belongs to the delivery set of source `n` (R196). -/
def inDelivery (s : State) (n c : Nat) : Bool :=
  if srcClaimMode s n then bit (stgt s n) (c / 32) else fld (stgt s n) 0 10 == c

/-- Coach `c` belongs to the listening set (R196). -/
def inListening (s : State) (n c : Nat) : Bool :=
  inDelivery s n c && (!srcClaimMode s n || bit (getR s (aEvcListen + 4 * (c / 32))) (c % 32))

/-- The first-ranked of a list of sources: lowest PRIO, then lowest number (R194). -/
def firstRanked (s : State) : List Nat → Option Nat
  | [] => none
  | n :: r =>
    match firstRanked s r with
    | none => some n
    | some m => if srcPrio s n < srcPrio s m ∨ (srcPrio s n = srcPrio s m ∧ n ≤ m) then some n else some m

/-- The offer that the controller makes to coach `c`: the first-ranked visible PRE source whose listening set includes it,
while it is READY or RUN (R198, R199). -/
def offerChoice (s : State) (c : Nat) : Option Nat :=
  if (coachOf s c).st = .ready ∨ (coachOf s c).st = .run then
    firstRanked s ((s.src.map (·.1)).filter
      (fun n => visible s n && srcPre s n && inListening s n c && !isFastSrc s n))
  else none

/-- The offer coach `c` holds. One that a single copy has sent stands until the controller's choice changes (R210). -/
def offerOf (s : State) (c : Nat) : Option Nat :=
  match (coachOf s c).offered with
  | some (n, was) => if offerChoice s c = was then some n else offerChoice s c
  | none => offerChoice s c

/-- The coach without an offer of one copy that has ended: the choice has changed, or it is neither READY nor RUN. -/
def dropOffer (s : State) (n : Nat) (c : Coach) : Coach :=
  match c.offered with
  | some (_, was) =>
    if (c.st = .ready ∨ c.st = .run) ∧ offerChoice s n = was then c else { c with offered := none }
  | none => c

/-! ### Holds -/

/-- Consignment entries a coach holds (R142). -/
def entriesHeld (s : State) (n : Nat) : Nat :=
  (s.cons.filter (fun e => e.2.used && e.2.coach == n)).length

/-- Free entries of the shared pool (R141). -/
def poolFree (s : State) : Nat :=
  2048 - (s.cons.filter (fun e => e.2.used && decide (1024 ≤ e.1))).length

/-- CSH_QUOTA of a coach (R142). -/
def quotaOf (s : State) (n : Nat) : Nat := fld (getR s (aCshQuota + 4 * n)) 0 7

/-- State of switchable unit `u` (R369): 0 OFF, 1 OPENING, 2 ON, 3 CLOSING. -/
def unitSt (s : State) (u : Nat) : Nat := fld (getR s (aPwrUnit + 4 * u)) 4 2

/-- The entry that a non-ticketed store of coach `n` would take now (R141 to R143). -/
def storeEntry (s : State) (n : Nat) : Option Nat :=
  if quotaOf s n ≤ entriesHeld s n then none
  else if !(consOf s n).used then some n
  else (List.range 2048).findSome? (fun i => if (consOf s (1024 + i)).used then none else some (1024 + i))

/-- One of these consignments is still open. -/
def anyOpen (s : State) (es : List (Nat × Nat)) : Bool :=
  es.any (fun e => let k := consOf s e.1; k.used && k.gen == e.2 && k.done.isNone)

/-- Stalls of sealed accesses: who waits, and for what. -/
def stalls (s : State) : List (Who × Stall) :=
  (s.coach.filterMap (fun e => e.2.stall.map (fun st => (Who.coach e.1, st)))) ++ (s.fast.stall.map (fun st => (Who.fast, st))).toList

/-- Requests in the Keystone's outbound queue for island `i` (R117): while a request retries its crossing, those sent behind
it. -/
def queued (s : State) (i : Nat) : Nat :=
  match s.mret.find? (fun m => m.src == 4 && m.dst == i) with
  | some m =>
    (s.cons.filter (fun e => e.2.used && e.2.done.isNone && e.2.early.isNone && !sealedEntry e.2 && islandAt e.2 == i
      && decide (m.since ≤ e.2.order))).length
      + ((stalls s).filter (fun e => sealedIsland e.2 == some i && decide (m.since ≤ e.2.order))).length
  | none => 0

/-- The outbound request that holds tag `t`. -/
def outOf (s : State) (t : Nat) : Option OutReq := s.hpt.out.get none t

/-- The lowest free outbound tag. -/
def freeTag (s : State) : Option Nat := (List.range 4096).find? (fun t => (outOf s t).isNone)

/-- The reason why a coach cannot issue still holds. -/
def stillHeld (s : State) : Nat → Coach → Hold → Bool
  | _, c, .entries es => es.any (fun e => c.dhead.contains e || c.rhead.contains e)
  | _, _, .cons es => anyOpen s es
  | n, _, .quota => decide (quotaOf s n ≤ entriesHeld s n)
  | n, _, .pool t => poolFree s == 0 && (t || (consOf s n).used)
  | _, _, .divider l => (divOf s l).isSome
  | _, _, .target t => (coachOf s t).stall.isSome || (coachOf s t).drain
  | _, c, .sealedAcc => c.stall.isSome
  | _, _, .unit u => unitSt s u == 1
  | _, _, .bank b => (bankN s b).pwr == 1 || (bankN s b).pwr == 2 || (bankN s b).pwr == 3
  | _, _, .queue i => decide (8 ≤ queued s i)
  | _, _, .tag => (freeTag s).isNone
  | _, _, .flash => s.fli.prog.isSome || (match s.fli.era with | some o => !o.begin_ && !s.fli.susp | none => false)
  | _, _, .switch => s.mcs.sw.isSome
  | n, c, .posting => !c.out.isEmpty && (storeEntry s n).isNone
  | _, _, .parking d h => stillHeld s d (coachOf s d) h

/-- The coach with HELD cleared once its reason is gone, and without an ended offer. -/
def unhold (s : State) (n : Nat) (c : Coach) : Coach :=
  let d := dropOffer s n c
  match c.held with
  | some h => if stillHeld s n c h then d else { d with held := none }
  | none => d

/-- Clear HELD wherever its reason is gone. -/
def refreshHeld (s : State) : State :=
  { s with coach := s.coach.map (fun e => (e.1, unhold s e.1 e.2)), fast := unhold s (fastCoach s) s.fast }

/-- A deferred halt request takes effect at the coach's boundary (R129): PC and a zero CAUSE in its halt record. -/
def haltNow (s : State) (n : Nat) : State :=
  let s1 := modC s (.coach n) (fun c =>
    { c with haltReq := false, held := none, hpc := c.pc, hcause := 0, haddr := 0, hinfo := 0 })
  leave s1 n .halt

def applyHalts (s : State) : State :=
  (s.queue.filter (fun n => (coachOf s n).haltReq && (coachOf s n).stall.isNone && !(coachOf s n).drain)).foldl haltNow s

/-- What the Keystone and the schedulers do with the state a command leaves: holds end, requested halts take place,
and each lane set selects its coach. -/
def settle (s : State) : State :=
  let s1 := applyHalts (refreshHeld s)
  let f := 2 * s1.queue.length + 4
  fixRun (fixRun (fixRun (pick 2 f (pick 1 f (pick 0 f s1))) 0) 1) 2

/-- Who issues in lane set `l`: the FAST handler runs in the voting set or the compared pair (R150). -/
def issuer (s : State) (l : Nat) : Option Who :=
  if l = 0 ∧ s.fastOn.isSome then some .fast else (runOf s l).map .coach

end Sys2Proof.Machine
end

