-- ==== Sys2Proof/Machine/Events.lean ====
section
/-! DEFINITION. Stamps and the stamp queue (spec/08 R220, R221), and the event controller's operations: triggers,
pending bits, delivery, claims, completion, storms (spec/07). -/

namespace Sys2Proof.Machine

/-! ### Internal items of Mortar (R21, R22) -/

/-- A retry sequence holds the channel from island `src` to `dst`. -/
def channelBusy (s : State) (src dst : Nat) : Bool := s.mret.any (fun m => m.src == src && m.dst == dst)

/-- An internal item with load `l` sets out from island `src` to `dst` and does not cross at once: it is the item whose retries a
row has announced, or one that its sender then kept, or it waits behind another's retries. None: it crosses. -/
def heldItem (s : State) (src dst : Nat) (l : MtrLoad) (e : Option Stamp) : Option State :=
  let itsRetry := fun (m : MtrRetry) => m.src == src && m.dst == dst && m.item == .internal l && !m.arisen
  let kept := fun (k : MtrSent) => k.src == src && k.dst == dst && k.load == l && !k.arisen
  if s.mret.any itsRetry then
    some { s with mret := s.mret.map (fun m => if itsRetry m then { m with arisen := true, entry := e } else m) }
  else if channelBusy s src dst then some { s with mtr := s.mtr ++ [⟨src, dst, l, e, true, true⟩] }
  else match s.mtr.find? kept with
    | some k => some { s with mtr := s.mtr.map (fun x => if x = k then { k with arisen := true, entry := e } else x) }
    | none => none

/-- A wake crosses from island `src` to the Keystone. -/
def sendWake (s : State) (src n : Nat) (b : BitVec 4) : State :=
  (heldItem s src 4 (.wake (BitVec.ofNat 10 n) b) none).getD (wake s n b)

/-- The FAST delivery crosses to the Keystone (R201). -/
def sendFast (s : State) : State := (heldItem s 6 4 .fast none).getD { s with fastPend := true }

/-! ### Stamps -/

/-- FLAGS of a record: LOCK and HOLDOVER at the stamp (R222), and the kind's own bit 0. -/
def stampFlags (s : State) (b0 : Bool) : Nat :=
  128 * b2n (bit (getR s aMlsStatus) 0) + 64 * b2n (bit (getR s aMlsStatus) 1) + b2n b0

/-- Place of an entry among those of one milestone cycle (R221): STEP, events by source, outputs by channel, SOFT. -/
def stampPlace (e : Stamp) : Nat :=
  if e.kind = 3 then 0 else if e.kind = 1 then 1 + e.id else if e.kind = 2 then 513 + e.id else 517

/-- Enter `e` in a queue given newest first: behind every entry of an earlier cycle and every GAP record. -/
def enterQueue (e : Stamp) : List Stamp → List Stamp
  | [] => [e]
  | x :: r =>
    if x.cycle = e.cycle ∧ x.kind ≠ 4 ∧ stampPlace e < stampPlace x then x :: enterQueue e r else e :: x :: r

def modMls (s : State) (f : Mls → Mls) : State := { s with mls := f s.mls }

/-- Append one entry to a queue with room, keeping the high-water mark. -/
def sqPush (s : State) (e : Stamp) : State :=
  modMls s (fun m => { m with sq := (enterQueue e m.sq.reverse).reverse, sqHigh := max m.sqHigh (m.sq.length + 1) })

/-- A discarded entry (R221); the answer says whether it is the first since the queue had room. -/
def sqLose (s : State) (e : Stamp) : State × Bool :=
  let s1 := bumpR s aMlsSqLost 0 32 1
  match s1.mls.gap with
  | none => (modMls s1 (fun m => { m with gap := some (1, e.time, e.flags &&& 0xC0) }), true)
  | some (n, t) => (modMls s1 (fun m => { m with gap := some (n + 1, t) }), false)

/-- An entry enters the stamp queue, behind a GAP record when entries were lost (R221). The answer says whether
source 27 is triggered. -/
def sqEnter (s : State) (e : Stamp) : State × Bool :=
  if 4096 ≤ s.mls.sq.length then sqLose s e
  else
    match s.mls.gap with
    | none => (sqPush s e, false)
    | some (n, t, f) =>
      let g : Stamp := ⟨t, s.cycles, 4, f, 0, BitVec.ofNat 64 n⟩
      let s1 := modMls (sqPush s g) (fun m => { m with gap := none })
      if 4096 ≤ s1.mls.sq.length then sqLose s1 e else (sqPush s1 e, false)

/-! ### Sources -/

/-- Sources 40 to 63 are reserved (R185). -/
def srcReserved (n : Nat) : Bool := decide (40 ≤ n) && decide (n < 64)

/-- A level source (R187). -/
def isLevel (s : State) (n : Nat) : Bool := decide (64 ≤ n) && decide (srcSense s n ≤ 1)

/-- Tier of a priority (R194). -/
def tierOf (s : State) (p : Nat) : Nat :=
  let r := 2 ^ (8 - fld (getR s aEvcTier) 0 4)
  p / r * r

/-- One delivery of a source that became visible: wakes (R197), or the FAST claim and delivery (R201). -/
def deliver (s : State) (n : Nat) : State :=
  if isFastSrc s n then
    if fastEn s then
      sendFast (setSrc s n { srcOf s n with pend := false, active := true, claimant := fastCoach s })
    else s
  else
    (s.coach.map (·.1)).foldl (fun t c => if inListening s n c then sendWake t 6 c wkEVENT else t) s

/-- Place source `n` in a list of sources in rank order: lowest PRIO, then lowest number (R194). -/
def rankInsert (s : State) (n : Nat) : List Nat → List Nat
  | [] => [n]
  | m :: r =>
    if n = m then m :: r
    else if srcPrio s n < srcPrio s m ∨ (srcPrio s n = srcPrio s m ∧ n < m) then n :: m :: r
    else m :: rankInsert s n r

/-- Sources in rank order, each once. -/
def inRank (s : State) (ns : List Nat) : List Nat := ns.foldr (rankInsert s) []

/-- The deliveries that end an event cycle which led from `s` to `t` (R193): one of each of the sources `ns` that became
visible, in rank order (R197). -/
def deliveries (s t : State) (ns : List Nat) : State :=
  (inRank t (ns.filter (fun n => !visible s n && visible t n))).foldl deliver t

/-- Replace a source's dynamic state, delivering it when it becomes visible (R192). -/
def putSrc (s : State) (n : Nat) (x : Src) : State := deliveries s (setSrc s n x) [n]

/-- Write a source's configuration word, delivering it when it becomes visible (R192). -/
def putScfg (s : State) (n : Nat) (w : Word) : State :=
  let v := visible s n
  let t := setR s (aEvcScfg + 4 * n) w
  if !v && visible t n then deliver t n else t

/-- PEND is set: the storm count grows (R209) and the coalescing count restarts (R190). The answer says whether a storm
was declared, as it is again at every further setting of the same window: DESIGN CHOICE, log entry 81. -/
def setPend (s : State) (n : Nat) : State × Bool :=
  let x := srcOf s n
  let k := x.stormCnt + 1
  let lim := fld (getR s aEvcStormN) 0 16
  if n ≠ 7 ∧ lim ≠ 0 ∧ lim < k then
    let t := setSrc s n { x with pend := true, coal := 0, stormCnt := k, storm := true }
    (setR t (aEvcScfg + 4 * n) (setBit (scfg t n) 31 false), true)
  else (setSrc s n { x with pend := true, coal := 0, stormCnt := k }, false)

/-- A trigger is counted towards the coalescing threshold or sets PEND (R190); one that finds PEND set is absorbed
with OVR (R188). -/
def countTrigger (s : State) (n : Nat) : State × Bool :=
  let x := srcOf s n
  if x.pend then (setSrc s n { x with ovr := true }, false)
  else if isLevel s n || isFastSrc s n || decide (fld (scoal s n) 16 8 ≤ x.coal) then setPend s n
  else (setSrc s n { x with coal := x.coal + 1 }, false)

/-- Take the stamp of a source's trigger (R189, R220): the latest stamp is kept whether or not the record is, which crosses to
the milestone island. -/
def stampSrc (s : State) (n : Nat) (soft : Bool) : State × Bool :=
  if srcStamp s n then
    let s1 := setSrc s n { srcOf s n with stamp := s.mls.time }
    let x := srcOf s1 n
    let e : Stamp := ⟨s.mls.time, s.cycles, 1, stampFlags s false, n,
      BitVec.ofNat 64 (x.edgecnt.toNat + 65536 * b2n x.ovr + 131072 * b2n soft)⟩
    match heldItem s1 6 7 (.stamp (BitVec.ofNat 9 n)) (some e) with
    | some t => (t, false)
    | none => sqEnter s1 e
  else (s, false)

/-- How a trigger arises. -/
inductive Origin where
  /-- A line's transition or an internal occurrence; `merged`: several transitions in one interval (R188). -/
  | hardware (merged : Bool)
  /-- EVC_PENDSET (R191). -/
  | pendset
  /-- A re-fire at completion (R206). -/
  | refire
  deriving DecidableEq, Repr

/-- One trigger without its consequences for sources 7 and 27: the answers say whether a storm was declared and
whether the stamp queue overflowed. -/
def triggerRaw (s : State) (n : Nat) (o : Origin) : State × Bool × Bool :=
  if srcReserved n then (s, false, false)
  else
    let x := srcOf s n
    let s1 := match o with
      | .hardware m => setSrc s n { x with edgecnt := x.edgecnt + 1, ovr := x.ovr || m }
      | _ => s
    let (s2, storm) := countTrigger s1 n
    let (s3, full) := match o with
      | .hardware _ => stampSrc s2 n false
      | .pendset => stampSrc s2 n true
      | .refire => (s2, false)
    (s3, storm, full)

/-- One trigger of a source before the deliveries of its event cycle (R186 to R191), with source 7 for a storm and
source 27 for an overflow of the stamp queue, which these two may cause in their turn. -/
def triggerQuiet (s : State) (n : Nat) (o : Origin) : State :=
  let (t, storm, full) := triggerRaw s n o
  let (t1, _, full1) := if storm then triggerRaw t 7 (.hardware false) else (t, false, false)
  if full || full1 then
    let (t2, storm2, _) := triggerRaw t1 27 (.hardware false)
    if storm2 then (triggerRaw t2 7 (.hardware false)).1 else t2
  else t1

/-- One trigger of a source and the deliveries that end its event cycle. -/
def triggerBy (s : State) (n : Nat) (o : Origin) : State := deliveries s (triggerQuiet s n o) [n, 7, 27]

/-- An occurrence of an internal source's condition (R186). -/
def trigger (s : State) (n : Nat) : State := triggerBy s n (.hardware false)

/-- An entry enters the stamp queue, and an overflow triggers source 27 (R221). -/
def queueStamp (s : State) (e : Stamp) : State :=
  let (t, full) := sqEnter s e
  if full then trigger t 27 else t

/-! ### Claims and completion -/

/-- The claim word of R204. -/
def claimWord (s : State) (n : Nat) : Word :=
  u32 (srcPrio s n * 2 ^ 24 + b2n (decide (64 ≤ n) && (srcOf s n).line) * 2 ^ 16 + n)

/-- A claim of source `n` by coach `c` in ring `r` succeeds (R204). -/
def claimable (s : State) (n c r : Nat) : Bool :=
  visible s n && !isFastSrc s n && (inDelivery s n c || r == 0)

/-- The claim word of a failed claim. -/
def noClaim : Word := 0x000003FF#32

/-- Claim source `n` for coach `c`. -/
def doClaim (s : State) (n c : Nat) : State :=
  setSrc s n { srcOf s n with pend := false, active := true, claimant := c }

/-- Read of EVC_CLAIM[n] (R204). -/
def claim (s : State) (n c r : Nat) : State × Word :=
  if claimable s n c r then (doClaim s n c, claimWord s n) else (bumpR s aEvcSpur 0 32 1, noClaim)

/-- Source `n` is in the view of coach `c` (R203). -/
def inView (s : State) (n c : Nat) : Bool := visible s n && inDelivery s n c && !isFastSrc s n

/-- The first-ranked source in the view of coach `c`. -/
def topOf (s : State) (c : Nat) : Option Nat := firstRanked s ((s.src.map (·.1)).filter (fun n => inView s n c))

/-- Read of EVC_TOP (R204). -/
def topWord (s : State) (c : Nat) : Word :=
  match topOf s c with
  | some n => claimWord s n
  | none => noClaim

/-- Read of EVC_CLAIMTOP (R204). -/
def claimTop (s : State) (c : Nat) : State × Word :=
  match topOf s c with
  | some n => (doClaim s n c, claimWord s n)
  | none => (bumpR s aEvcSpur 0 32 1, noClaim)

/-- The line of a level source is at its asserted level. -/
def asserted (s : State) (n : Nat) : Bool := if srcSense s n = 0 then (srcOf s n).line else !(srcOf s n).line

/-- ACTIVE and CLAIMANT of a source clear (R205). -/
def clearActive (s : State) (n : Nat) : State := setSrc s n { srcOf s n with active := false, claimant := 0 }

/-- A completed level source that is still asserted re-fires (R206). -/
def refire (s : State) (n : Nat) : State := if isLevel s n && asserted s n then triggerQuiet s n .refire else s

/-- Complete ACTIVE sources in one event cycle: the completions, the re-fires, then the deliveries (R193, R205, R206). -/
def completeSrcs (s : State) (ns : List Nat) : State :=
  deliveries s (ns.foldl refire (ns.foldl clearActive s)) (ns ++ [7, 27])

/-- Complete one ACTIVE source. -/
def completeSrc (s : State) (n : Nat) : State := completeSrcs s [n]

/-- Write of EVC_CPL by coach `c` in ring `r` (R205, R207). -/
def writeCpl (s : State) (v : Word) (c r : Nat) : State :=
  let n := fld v 0 10
  let x := srcOf s n
  if n < 512 ∧ x.active = true ∧ (x.claimant = c ∨ r ≤ 1) then completeSrc s n
  else
    let s1 := bumpR s aEvcBadcpl 0 16 1
    let foreign := decide (n < 512) && x.active && x.claimant != c
    setR s1 aEvcBadcplLast (u32 (b2n foreign * 2 ^ 31 + c * 2 ^ 16 + n))

/-- Implicit completion of every source a coach holds ACTIVE (R208). -/
def completeAllOf (s : State) (c : Nat) : State :=
  let ns := (s.src.filter (fun e => e.2.active && e.2.claimant == c)).map (·.1)
  bumpR (completeSrcs s ns) aEvcBadcpl 16 16 ns.length

/-! ### Configuration writes -/

/-- Write of EVC_SCFG[n] (R212, R209, R187). -/
def writeScfg (s : State) (n : Nat) (v : Word) : State :=
  if srcReserved n then s
  else
    let old := scfg s n
    let x := srcOf s n
    if bit old 31 && bit v 31 then s
    else
      let sense := if n < 64 then 2 else if fld v 24 3 ≤ 4 then fld v 24 3 else fld old 24 3
      let w := setFld (v &&& 0xF0FF0000#32) 24 3 sense
      let w1 := setBit w 31 (bit v 31 && !x.storm)
      let s1 := if sense ≠ fld old 24 3 then setSrc s n { x with fresh := true } else s
      putScfg s1 n w1

/-- Write of EVC_STGT[n] (R212): locked while EN is 1; STATIC keeps [9:0]. -/
def writeStgt (s : State) (n : Nat) (v : Word) : State :=
  if srcReserved n || srcEn s n then s
  else
    let vis := visible s n
    let t := setR s (aEvcStgt + 4 * n) v
    if !vis && visible t n then deliver t n else t

/-- Write of EVC_SCOAL[n] (R212). -/
def writeScoal (s : State) (n : Nat) (v : Word) : State :=
  if srcReserved n || srcEn s n then s else setR s (aEvcScoal + 4 * n) (v &&& 0x00FFFFFF#32)

/-- Write of EVC_FAST (R202). -/
def writeFastSrc (s : State) (v : Word) : State :=
  let old := getR s aEvcFast
  let idle := fun n => !srcEn s n && !(srcOf s n).active
  let new := fld v 0 9
  let same := bit v 31 == bit old 31 && new == fld old 0 9
  let okOld := !bit old 31 || idle (fld old 0 9)
  let okNew := !bit v 31 || (idle new && !srcReserved new)
  if same then setR s aEvcFast (setBit old 30 false)
  else if okOld && okNew && !srcReserved new then setR s aEvcFast (v &&& 0x800001FF#32)
  else setR s aEvcFast (setBit old 30 true)

/-- Write of EVC_SSTAT[n]: PEND, STORM and OVR clear on 1 (spec/07). -/
def writeSstat (s : State) (n : Nat) (v : Word) : State :=
  if srcReserved n then s
  else
    let x := srcOf s n
    setSrc s n { x with
      pend := x.pend && !bit v 31
      coal := if bit v 31 then 0 else x.coal
      storm := x.storm && !bit v 29
      ovr := x.ovr && !bit v 28 }

/-- Write of EVC_PENDSET[k]: one trigger of each source whose bit is set, in increasing number, in one event cycle
(R191, R193). -/
def writePendset (s : State) (k : Nat) (v : Word) : State :=
  let ns := ((List.range 32).filter (fun i => bit v i)).map (32 * k + ·)
  deliveries s (ns.foldl (fun t n => triggerQuiet t n .pendset) s) (ns ++ [7, 27])

/-- A word with bit `i` from `f (32 k + i)`. -/
def bitmap (f : Nat → Bool) (k : Nat) : Word :=
  u32 ((List.range 32).foldl (fun acc i => acc + b2n (f (32 * k + i)) * 2 ^ i) 0)

/-- EVC_SSTAT[n] as read. -/
def sstatWord (s : State) (n : Nat) : Word :=
  if srcReserved n then 0
  else
    let x := srcOf s n
    u32 (b2n x.pend * 2 ^ 31 + b2n x.active * 2 ^ 30 + b2n x.storm * 2 ^ 29 + b2n x.ovr * 2 ^ 28
      + b2n (decide (64 ≤ n) && x.line) * 2 ^ 27 + (if x.active then x.claimant else 0) * 2 ^ 16 + x.edgecnt.toNat)

end Sys2Proof.Machine
end

