-- ==== Sys2Proof/Machine/Banks.lean ====
section
/-! DEFINITION. Accesses to the banks (spec/11): ownership, power states, the error code, and the bank registers. -/

namespace Sys2Proof.Machine

/-- What an access does (R285). -/
inductive Access where
  | load | store | atomic
  deriving DecidableEq, Repr

def Access.reads : Access → Bool
  | .store => false
  | _ => true

def Access.writes : Access → Bool
  | .load => false
  | _ => true

/-- On whose behalf an access is made (R286). -/
structure Req where
  coach : Nat
  ring : Nat
  unver : Bool
  deriving DecidableEq, Repr

/-- What a bank answers to a request on a port. -/
inductive BankAns where
  | ok
  | refuse (st : BitVec 3) (why : Nat)
  /-- The bank is being woken and the access waits (R291). -/
  | waits
  deriving DecidableEq, Repr

/-- CORE ownership admits a C-port access (R285). -/
def coreAdmits (o : Word) (r : Req) (a : Access) : Bool :=
  fld o 18 2 == 1 &&
  (bit o 16 || fld o 8 5 == r.coach / 32 || r.ring == 0) &&
  (!a.reads || decide (r.ring ≤ fld o 4 2)) &&
  (!a.writes || decide (r.ring ≤ fld o 0 2)) &&
  (!r.unver || !bit o 6)

/-- AUTOWAKE of bank `n` (R291). -/
def autowake (s : State) (n : Nat) : Bool := bit (getR s (aBnkPwr + 4 * n)) 4

/-- What the power state of a bank does to an admitted access (R291). -/
def powerAns (s : State) (n : Nat) : BankAns :=
  let b := bankN s n
  if b.pwr = 0 then .ok
  else if b.pwr = 4 ∨ b.pwr = 5 ∨ (b.pwr = 3 ∧ b.fromOff = true) then .refuse 3 2
  else if autowake s n then .waits
  else .refuse 7 2

/-- The answer of bank `n` to a request whose owner check gave `adm`: ownership first, then the power state. -/
def bankAns (s : State) (n : Nat) (adm : Bool) : BankAns :=
  if (bankN s n).own ≠ .owned then .refuse 3 1
  else if !adm then .refuse 3 0
  else powerAns s n

/-- The answer on the C port (R285, R288, R291). -/
def cPort (s : State) (n : Nat) (r : Req) (a : Access) : BankAns :=
  bankAns s n (coreAdmits (bankN s n).owner r a)

/-- Count and record a refusal made at a port (R285); `port` 0 C, 1 E, 2 H. -/
def recordDeny (s : State) (port addr : Nat) (r : Req) (wr : Bool) (why : Nat) : State :=
  let s1 := bumpR s aBnkDeny 0 32 1
  setR s1 aBnkDenylast (u32 (port * 2 ^ 30 + b2n wr * 2 ^ 29 + b2n r.unver * 2 ^ 28
    + (if port = 0 then r.ring else 0) * 2 ^ 24 + why * 2 ^ 22 + bankOf addr * 2 ^ 16 + addr % 0x10000 / 8))

/-- AUTOWAKE wakes a retained bank; REQ then reads ACTIVE (R291). A bank that is WAKING already needs no request. -/
def wakeBank (s : State) (n : Nat) : State :=
  let a := aBnkPwr + 4 * n
  let b := bankN s n
  if b.pwr = 1 ∨ b.pwr = 2 then
    setBank (setR s a (setFld (getR s a) 0 2 0)) n
      (if b.pwr = 2 then { b with pwr := 3, fromOff := false, latched := none } else { b with latched := some 0 })
  else s

/-! ### Collisions (R278, R280, R282) -/

/-- Place of a port in the order of R278. -/
def portOrder : Port → Nat
  | .c => 0
  | .e => 1
  | .h => 2
  | .maint => 3

/-- An access of port `p` loses the word to another port's access: a reader to any write, a writer to a write of an earlier
port; `first` after four BUSY results at the E port, when only the second cycle of a locked pair or an atomic comes
before it. -/
def loses (p : Port) (write first : Bool) (r : Rival) : Bool :=
  if r.port = p then false
  else if r.rank = .locked ∧ r.port = .c then true
  else if first then false
  else if r.rank = .first ∧ r.port = .e then write || r.write
  else r.write && (!write || decide (portOrder r.port < portOrder p))

/-! ### The error code (R283) -/

/-- A word as the bank registers number it: bank 32 is the spare. -/
def eccPlace (a : Nat) : Nat × Nat :=
  if spareBase ≤ a then (32, (a - spareBase) / 8) else (bankOf a, a % 0x10000 / 8)

/-- Count, record and report a finding in the word at `a`. -/
def eccFinding (s : State) (a : Nat) (unc maint : Bool) : State :=
  let (b, w) := eccPlace a
  let s1 := bumpR s aBnkEcc (if unc then 16 else 0) 16 1
  let s2 := setR s1 aBnkEccaddr (u32 (b2n unc * 2 ^ 31 + b2n maint * 2 ^ 30 + b * 2 ^ 16 + w))
  trigger s2 (if unc then 5 else 4)

/-- Read check of the word at `a` (8-byte aligned): answers false when it is uncorrectable. A corrected word keeps its
mark until its write-back. -/
def checkWord (s : State) (a : Nat) (maint : Bool) : State × Bool :=
  match eccAt s a with
  | 0 => (s, true)
  | 1 => (eccFinding s a false maint, true)
  | _ => (eccFinding s a true maint, false)

/-- The bank words that `[a, a+n)` touches: one, or two. -/
def wordsOf (a n : Nat) : List Nat :=
  let w := a / 8 * 8
  if a + n ≤ w + 8 then [w] else [w, w + 8]

/-- Read-check a list of words; false when one is uncorrectable. -/
def checkWords (maint : Bool) : List Nat → State → State × Bool
  | [], s => (s, true)
  | w :: r, s =>
    let (s1, ok) := checkWord s w maint
    if ok then checkWords maint r s1 else (s1, false)

/-- A spare copy is in progress. -/
def copyRuns (s : State) : Bool := fld (getR s aBnkSpare) 24 2 == 1

/-- A spare copy of bank `n` is in progress (R294). -/
def copying (s : State) (n : Nat) : Bool := copyRuns s && (bankN s 32).copyOf == n

/-- Bring a write into the spare while a copy runs. A spare that is no longer ACTIVE has no stated content: its word takes
an open value. -/
def spareWrite (s : State) (a n v : Nat) : State :=
  if (bankN s 32).pwr = 0 then wrN s (spareBase + a % 0x10000) n v
  else let (d, s1) := freeD s; wrN s1 (spareBase + a % 0x10000) n d.toNat

/-- Write `n` bytes into a bank, and into the spare while a copy of the bank runs (R294). -/
def bankPut (s : State) (a n v : Nat) : State :=
  let s1 := wrN s a n v
  if copying s (bankOf a) then spareWrite s1 a n v else s1

/-- The words a write leaves with fresh check bits carry no error, in the spare's copy neither. -/
def cleanWords (s : State) (ws : List Nat) : State :=
  ws.foldl (fun t w =>
    let t1 := setEcc t w 0
    if copying t (bankOf w) then setEcc t1 (spareBase + w % 0x10000) 0 else t1) s

/-- Words of `ws` that `[a, a+n)` covers only in part: their old content is read and merged (R283). -/
def partialWords (a n : Nat) (ws : List Nat) : List Nat :=
  ws.filter (fun w => !(decide (a ≤ w) && decide (w + 8 ≤ a + n)))

/-- The second of the words read is the one that is uncorrectable (R164). -/
def secondBad (s : State) : List Nat → Bool
  | [x, y] => decide (eccAt s x < 2) && decide (2 ≤ eccAt s y)
  | _ => false

/-- A read of at most 8 bytes within one bank: status and data. -/
def bankRead (s : State) (a n : Nat) : State × BitVec 3 × Nat :=
  let (s1, ok) := checkWords false (wordsOf a n) s
  if ok then (s1, 0, rdN s a n) else (s1, 2, 0)

/-- A write of at most 8 bytes within one bank: an uncorrectable word that must be merged stops it (R283). -/
def bankWrite (s : State) (a n v : Nat) : State × BitVec 3 :=
  let ws := wordsOf a n
  let (s1, ok) := checkWords false (partialWords a n ws) s
  if ok then (cleanWords (bankPut s1 a n v) ws, 0) else (s1, 2)

/-! ### Registers -/

/-- Refuse a write to BNK_OWNER or BNK_PWR (R288, R292). -/
def bankErr (s : State) (n : Nat) : State := modBank s n (fun b => { b with err := true })

/-- Start a hand-over of bank `n` to owner word `v` (R288). -/
def startHand (s : State) (n : Nat) (v : Word) : State :=
  modBank s n (fun b => { b with
    own := .handing, next := v, beforeHost := if fld v 18 2 = 3 then b.owner else b.beforeHost })

/-- Write of BNK_OWNER[n] (R288). -/
def writeOwner (s : State) (n : Nat) (v : Word) : State :=
  let b := bankN s n
  if b.own ≠ .owned || (bit v 31 && b.pwr != 0) || (n == 0 && vtlock s) || copying s n then bankErr s n
  else startHand (setR s (aBnkOwner + 4 * n) (v &&& 0x800D1F73#32)) n (v &&& 0x800D1F73#32)

/-- The number whose array is the one in use for power requests (R293). -/
def spareUsed (s : State) : Bool := bit (getR s aBnkMap) 31

/-- Begin the transition that a request asks for (R290). -/
def startPwr (b : Bank) (req : Nat) : Bank :=
  if b.pwr = 0 then (if req = 1 then { b with pwr := 1 } else if req = 2 then { b with pwr := 4 } else b)
  else if b.pwr = 2 then
    (if req = 0 then { b with pwr := 3, fromOff := false } else if req = 2 then { b with pwr := 4 } else b)
  else if b.pwr = 5 then
    (if req = 0 then { b with pwr := 3, fromOff := true, thenRetain := false }
     else if req = 1 then { b with pwr := 3, fromOff := true, thenRetain := true } else b)
  else b

/-- Target of the transition in progress, as a request code. -/
def pwrTarget (b : Bank) : Nat :=
  if b.pwr = 1 then 1 else if b.pwr = 4 then 2 else if b.pwr = 3 ∧ b.thenRetain = true then 1 else 0

/-- Write of BNK_PWR[n] (R292, R293): a request during a transition is latched, one for its target clears the
latch. REQ 3 is ignored, with AUTOWAKE stored. -/
def writeBnkPwr (s : State) (n : Nat) (v : Word) : State :=
  let req := fld v 0 2
  let a := aBnkPwr + 4 * n
  let b := bankN s n
  if n = 32 ∧ spareUsed s = true then s
  else if (n == 0 && vtlock s && req != 0 && req != 3) || copying s n
      || (b.own == .wiping && (req == 1 || req == 2)) then bankErr s n
  else
    let s1 := setR s a (setBit (getR s a) 4 (bit v 4))
    if req = 3 then s1
    else
      let s2 := setR s1 a (setFld (getR s1 a) 0 2 req)
      if b.pwr = 1 ∨ b.pwr = 3 ∨ b.pwr = 4 then
        modBank s2 n (fun b => { b with latched := if req = pwrTarget b then none else some req })
      else modBank s2 n (fun b => startPwr b req)

/-- BNK_STATE[n] as read. -/
def bankStateWord (s : State) (n : Nat) : Word :=
  let b := bankN s n
  let pwr := if n = 32 ∧ spareUsed s = true then 5 else b.pwr
  let own := if n = 32 then 0 else match b.own with | .owned => 0 | .handing => 1 | .wiping => 2
  u32 (b2n b.err * 2 ^ 31 + b2n b.hrel * 2 ^ 30 + b2n b.latched.isSome * 2 ^ 12 + pwr * 2 ^ 8 + own * 2 ^ 4)

/-- Write of BNK_STATE[n]: ERR and HREL clear on 1. -/
def writeBankState (s : State) (n : Nat) (v : Word) : State :=
  modBank s n (fun b => { b with err := b.err && !bit v 31, hrel := b.hrel && !bit v 30 })

/-- Write of BNK_SPARE with GO (R294): refused, or the mirror and copy start. -/
def spareGo (s : State) (n : Nat) : State :=
  let w := getR s aBnkSpare
  let b := bankN s n
  if spareUsed s || copyRuns s || (bankN s 32).pwr != 0 || b.pwr != 0 || b.own != .owned then
    setR s aBnkSpare (setBit w 29 true)
  else modBank (setR s aBnkSpare (u32 (2 ^ 24 + n * 2 ^ 16))) 32 (fun x => { x with copyOf := n })

/-- Write of BNK_SPARE with ABORT during a copy (R294): the spare's content is discarded. -/
def spareAbort (s : State) : State :=
  let w := getR s aBnkSpare
  if fld w 24 2 = 1 then
    clrRange (setR s aBnkSpare (setFld (setFld w 24 2 0) 0 14 0)) spareBase (spareBase + 0x10000)
  else s

/-- Write of BNK_SPARE: TARGET can be written at any time, and a copy in progress keeps its bank. -/
def writeSpare (s : State) (v : Word) : State :=
  let s1 := if bit v 30 then spareAbort s else s
  if bit v 31 then spareGo s1 (fld v 16 5)
  else setR s1 aBnkSpare (setFld (getR s1 aBnkSpare) 16 5 (fld v 16 5))

end Sys2Proof.Machine
end

