-- ==== Sys2Proof/Machine/Flash.lean ====
section
/-! DEFINITION. The flash interface (spec/13): line reads, command sequences, program, erase, suspend and the journal. -/

namespace Sys2Proof.Machine

def flashBase : Nat := 0x30000000

/-- Bytes of the fitted array (R315). -/
def flashBytes (s : State) : Nat := 0x40000 * 2 ^ s.fli.size

def modFli (s : State) (f : Fli → Fli) : State := { s with fli := f s.fli }

/-- A line: an address divided by 32. -/
def lineOf (a : Nat) : Nat := a / 32

/-- First byte of the sector that holds an address. -/
def sectorOf (a : Nat) : Nat := a / 4096 * 4096

/-- First bytes of the sectors whose reads are refused: being erased, suspended in erase, or half-erased and still to be
recovered (R322, R329). -/
def erasedSectors (s : State) : List Nat :=
  (match s.fli.era with
    | some o => if o.begin_ then [] else [o.addr]
    | none => []) ++ s.fli.repair.map (fun e => flashBase + 4096 * e.2.2)

/-- Address `a` lies in such a sector (R322). -/
def inErase (s : State) (a : Nat) : Bool := (erasedSectors s).contains (sectorOf a)

/-- The erase runs in the macro: it waits for no journal entry and is not suspended. -/
def eraseRunning (s : State) : Bool :=
  match s.fli.era with
  | some o => !o.begin_ && !s.fli.susp && s.fli.fin.isNone
  | none => false

/-- Record a code in FLI_ERR. -/
def fliCode (s : State) (code a : Nat) : State := setR s aFliErr (u32 (code * 2 ^ 28 + (a - flashBase) % 2 ^ 26))

/-- Record an error in FLI_ERR and FLI_STATUS.ERR, and trigger source 14 (R324, R326). -/
def fliError (s : State) (code a : Nat) : State := trigger (orR (fliCode s code a) aFliStatus 0x80000000#32) 14

/-! ### Reads -/

/-- What the interface answers to a line request. -/
inductive FlashAns where
  | ok
  | refuse (st : BitVec 3)
  /-- The read waits for a program to end or for the erase to be suspended. -/
  | waits
  deriving DecidableEq, Repr

/-- Record a read finding of the word at `a` (R316). -/
def flashFinding (s : State) (a : Nat) (unc : Bool) : State :=
  let s1 := bumpR s aFliEcc (if unc then 16 else 0) 16 1
  let s2 := setR s1 aFliEccaddr (u32 (b2n unc * 2 ^ 31 + (a - flashBase)))
  if unc then trigger s2 14 else s2

/-- Check the words of a line, counting each finding; false when one is uncorrectable (R316). An erased word has no
error. -/
def flashCheck : List Nat → State → State × Bool
  | [], s => (s, true)
  | w :: r, s =>
    match eccAt s w with
    | 0 => flashCheck r s
    | 1 => flashCheck r (flashFinding s w false)
    | _ => ((flashCheck r (flashFinding s w true)).1, false)

def lineWords (l : Nat) : List Nat := [32 * l, 32 * l + 8, 32 * l + 16, 32 * l + 24]

/-- Serving line `l` from the macro or the buffer: the buffer keeps those of the next four lines it holds, and a
marked line enters the branch cache (R319, R320). -/
def served (s : State) (l : Nat) (target : Bool) : State :=
  modFli s (fun f => { f with
    pbuf := f.pbuf.filter (fun k => decide (l < k) && decide (k ≤ l + 4))
    last := some l, pskip := []
    bcache := if target && bit (getR s aFliCfg) 9 then ((l :: f.bcache.filter (· ≠ l)).take 16) else f.bcache })

/-- Request a read suspend of the running erase (R332): issued at once in FREE mode. -/
def wantSuspend (s : State) : State :=
  modFli s (fun f =>
    if f.susp || f.going then f
    else if bit (getR s aFliCfg) 0 then { f with going := true, want := false } else { f with want := true })

/-- Serve a demand read of line `l` (R317 to R322). -/
def flashServe (s : State) (l : Nat) (target : Bool) : State × FlashAns :=
  let a := 32 * l
  if flashBytes s ≤ a - flashBase ∨ inErase s a = true then (bumpR s aFliDeny 0 32 1, .refuse 3)
  else if bit (getR s aFliCfg) 9 && s.fli.bcache.contains l then
    (modFli s (fun f => { f with bcache := l :: f.bcache.filter (· ≠ l) }), .ok)
  else if s.fli.pbuf.contains l then (served s l target, .ok)
  else if s.fli.prog.isSome then (s, .waits)
  else if eraseRunning s then (wantSuspend s, .waits)
  else
    let (s1, good) := flashCheck (lineWords l) s
    if good then (served s1 l target, .ok) else (s1, .refuse 2)

/-- Drop lines from both stores (R321). -/
def dropLines (s : State) (p : Nat → Bool) : State :=
  modFli s (fun f => { f with bcache := f.bcache.filter (fun k => !p k), pbuf := f.pbuf.filter (fun k => !p k) })

/-- FLI_CTL.INV (R321). -/
def flashInv (s : State) : State := dropLines s (fun _ => true)

/-- The next line a prefetch would read (R320): it goes on past a line that it has dropped. -/
def nextPrefetch (s : State) : Option Nat :=
  match s.fli.last with
  | none => none
  | some l =>
    let stop := fun k => decide (flashBytes s ≤ 32 * k - flashBase) || inErase s (32 * k)
    let run := [l + 1, l + 2, l + 3, l + 4].takeWhile (fun k => !stop k)
    run.find? (fun k => !s.fli.pbuf.contains k && !s.fli.pskip.contains k)

/-- A prefetch read while the macro is idle: an uncorrectable line is dropped and counted nowhere (R320); the single-bit
errors of a line that is kept are counted (R316). -/
def prefetchRead (s : State) : State :=
  if bit (getR s aFliCfg) 8 && s.fli.prog.isNone && !eraseRunning s then
    match nextPrefetch s with
    | some k =>
      if (lineWords k).any (fun w => decide (2 ≤ eccAt s w)) then modFli s (fun f => { f with pskip := f.pskip ++ [k] })
      else modFli (flashCheck (lineWords k) s).1 (fun f => { f with pbuf := f.pbuf ++ [k] })
    | none => s
  else s

/-! ### Command sequences (R323, R324) -/

/-- Who stores into the window, and what. -/
structure FStore where
  coach : Nat
  ring : Nat
  unver : Bool
  addr : Nat
  size : Nat
  data : Nat
  deriving DecidableEq, Repr

/-- Refuse a store with an FLI_ERR code; a refusal of the owner's store closes the sequence (R324). -/
def flashRefuse (s : State) (q : FStore) (code : Nat) : State × BitVec 3 :=
  let own := match s.fli.seq with | some x => x.owner == q.coach | none => false
  let s1 := if own then modFli s (fun f => { f with seq := none }) else s
  (fliError s1 code q.addr, 3)

/-- A recovery runs (R329). -/
def recovering (s : State) : Bool :=
  !s.fli.repair.isEmpty || (match s.fli.era with | some o => o.recover | none => false)

/-- A program or erase is running and not suspended, or a recovery runs (R324 code 4, R329). -/
def macroBusy (s : State) : Bool :=
  s.fli.prog.isSome || (s.fli.era.isSome && !s.fli.susp) || recovering s

/-- The target lies in a protected range, or in the option sector where the lifecycle protects it (R330). -/
def flashProtected (s : State) (a : Nat) : Bool :=
  let sec := (a - flashBase) / 4096
  let range := fun k => let w := getR s (aFliProt + 4 * k)
    bit w 31 && decide (fld w 0 14 ≤ sec) && decide (sec ≤ fld w 16 14)
  let life := fld (getR s aZwLifecycle) 0 2
  range 0 || range 1 || range 2 || range 3
    || (sec + 1 == flashBytes s / 4096 && decide (2 ≤ life))

/-- A flash word whose 72 bits are all 1 (R316): nothing has programmed it since its erase, and none of its bits is upset. -/
def flashErased (s : State) (w : Nat) : Bool := s.fli.fprog.get 0 w == 0 && eccAt s w == 0

/-- The stele holds back new writes (R301). -/
def holdup (s : State) : Bool := bit (getR s aStlStatus) 31

/-- Slot and sequence number of the next erase (R328). -/
def nextJournal (s : State) : Nat × Nat :=
  match s.fli.jnew with
  | none => (0, 1)
  | some (k, q) => ((k + 1) % 128, (q + 1) % 2 ^ 32)

/-- A journal word (R328). -/
def journalWord (kind seq sector : Nat) : Nat := kind * 2 ^ 56 + seq * 2 ^ 16 + sector

/-- Address of a journal slot (R328). -/
def journalAddr (k : Nat) : Nat := 0x20005000 + 8 * k

/-- The final cycle of PROGRAM (R324 codes 5 to 7, R325). -/
def programFinal (s : State) (q : FStore) : State × BitVec 3 :=
  let w := q.addr / 8 * 8
  if q.addr + q.size > w + 8 then flashRefuse s q 1
  else if flashProtected s q.addr then flashRefuse s q 5
  else if !flashErased s w || inErase s q.addr then flashRefuse s q 6
  else if holdup s then flashRefuse s q 7
  else
    let ones := 2 ^ 64 - 1 - (2 ^ (8 * q.size) - 1) * 2 ^ (8 * (q.addr - w))
    let d := ones + (q.data % 2 ^ (8 * q.size)) * 2 ^ (8 * (q.addr - w))
    let s1 := dropLines s (· == lineOf w)
    (modFli s1 (fun f => { f with
      seq := none, prog := some ⟨false, q.coach, w, BitVec.ofNat 64 d, false, 0, 0, 0, false⟩ }), 0)

/-- The confirm cycle of SECTOR ERASE (R324, R326 step 1): BEGIN is then written to the journal. -/
def eraseFinal (s : State) (q : FStore) : State × BitVec 3 :=
  let sec := sectorOf q.addr
  if flashProtected s q.addr then flashRefuse s q 5
  else if holdup s then flashRefuse s q 7
  else
    let (slot, seq) := nextJournal s
    let s1 := dropLines s (fun l => sectorOf (32 * l) == sec)
    (modFli (setR s1 aFliSuscnt 0) (fun f => { f with
      seq := none, era := some ⟨true, q.coach, sec, 0, true, slot, seq, 0, false⟩
      susp := false, swsus := false, want := false, going := false, resume := false, fin := none, starved := false }), 0)

/-- SUSPEND (R332): a software suspend is requested. An erase that is suspended for a read then stays suspended. -/
def suspendCmd (s : State) : State := wantSuspend (modFli s (fun f => { f with swsus := true, resume := false }))

/-- The erase goes on; it waits for a running program (R332). -/
def eraseResume (s : State) : State :=
  if s.fli.prog.isSome then modFli s (fun f => { f with resume := true })
  else modFli s (fun f => { f with susp := false, resume := false, want := false })

/-- RESUME (R332). -/
def resumeCmd (s : State) : State := eraseResume (modFli s (fun f => { f with swsus := false }))

/-- A store into the flash window (R317, R323, R324): its status. -/
def flashStore (s : State) (q : FStore) : State × BitVec 3 :=
  let off := q.addr - flashBase
  let byte := fun v => q.size == 1 && q.data % 256 == v
  if flashBytes s < off + q.size then (s, 3)
  else if fld (getR s aFliCfg) 4 2 < q.ring ∨ q.unver = true then flashRefuse s q 2
  else
    match s.fli.seq with
    | some x =>
      if x.owner ≠ q.coach then flashRefuse s q 3
      else if x.stage = 1 then
        (if byte 0x3C && off == 0x552 then (modFli s (fun f => { f with seq := some { x with stage := 2 } }), 0)
         else flashRefuse s q 1)
      else if x.stage = 2 then
        (if byte 0xA5 && off == 0xAAC then
          (modFli s (fun f => { f with seq := some { x with stage := 3, erase := false } }), 0)
         else if byte 0x5A && off == 0xAAC then
          (if s.fli.era.isSome then flashRefuse s q 4
           else (modFli s (fun f => { f with seq := some { x with stage := 3, erase := true } }), 0))
         else flashRefuse s q 1)
      else if x.erase then (if byte 0x30 then eraseFinal s q else flashRefuse s q 1)
      else programFinal s q
    | none =>
      if byte 0xC3 && off == 0xAAC then
        (if macroBusy s then flashRefuse s q 4
         else (modFli s (fun f => { f with seq := some ⟨q.coach, 1, false⟩ }), 0))
      else if byte 0xB0 then (if eraseRunning s ∨ s.fli.susp = true then (suspendCmd s, 0) else flashRefuse s q 4)
      else if byte 0x3D then (if s.fli.susp then (resumeCmd s, 0) else flashRefuse s q 4)
      else flashRefuse s q 1

/-! ### Ends of operations -/

/-- A word that the macro leaves undefined (R9): erased, or any bytes; `faulty` where reads of it may fail (R325). -/
def openWord (faulty : Bool) (s : State) (a : Nat) : State :=
  let (d, s1) := freeD s
  let (e, s2) := freeD s1
  let blank := e.getLsbD 0
  let s3 := wrN s2 a 8 (if blank then 2 ^ 64 - 1 else d.toNat)
  modFli (setEcc s3 a (if faulty && !blank then e.toNat / 2 % 3 else 0))
    (fun f => { f with fprog := f.fprog.set 0 a (if blank then 0 else 1) })

/-- The first `n` words of a sector from `a` are undefined (R9). -/
def openWords (s : State) (a : Nat) : Nat → State
  | 0 => s
  | n + 1 => openWords (openWord false s a) (a + 8) n

/-- A program ends (R325): the resume that waited for it takes place. -/
def endProgram (s : State) : State :=
  let s1 := modFli s (fun f => { f with prog := none })
  let s2 := if s1.fli.resume then eraseResume s1 else s1
  trigger s2 13

/-- The erase of the next half-erased sector starts, once no other runs and the hold-up allows it (R327, R329). -/
def nextRepair (s : State) : State :=
  match s.fli.repair with
  | [] => s
  | (k, q, sec) :: r =>
    if s.fli.era.isSome || holdup s then s
    else modFli (setR s aFliSuscnt 0) (fun f => { f with
      repair := r, era := some ⟨true, 0, flashBase + 4096 * sec, 0, false, k, q, 0, true⟩, susp := false
      fin := none, starved := false })

/-- An erase ends (R326). -/
def endErase (s : State) : State :=
  nextRepair (trigger (modFli s (fun f => { f with
    era := none, susp := false, swsus := false, want := false, going := false, resume := false, fin := none })) 13)

/-- A journal write has completed. BEGIN starts the macro erase, or on WRFAIL ends it (R326 step 2); DONE or FAILED ends
the erase (step 5). -/
def journalDone (s : State) (ok : Bool) : State :=
  match s.fli.era with
  | some o =>
    if o.begin_ then
      if ok then modFli s (fun f => { f with era := some { o with begin_ := false }, jnew := some (o.slot, o.seq) })
      else endErase (fliError s 10 o.addr)
    else
      match s.fli.fin with
      | some kind => endErase (if kind = 0x5F then fliError s 8 o.addr else if ok then s else fliError s 10 o.addr)
      | none => s
  | none => s

/-- A program pulse was verified (R325): up to 3 more pulses, then VERIFY with the word undefined. -/
def programDone (s : State) (o : FOp) (pass : Bool) : State :=
  if pass then
    endProgram (modFli (setEcc (wr64 s o.addr o.data) o.addr 0) (fun f => { f with fprog := f.fprog.set 0 o.addr 1 }))
  else if o.retries < 3 then modFli s (fun f => { f with prog := some { o with retries := o.retries + 1 } })
  else
    endProgram (fliError (openWord true s o.addr) 8 o.addr)

/-- An erase pulse was verified (R326 steps 4 and 5): the entry of the journal is then rewritten. -/
def eraseDone (s : State) (o : FOp) (pass : Bool) : State :=
  if pass then
    let s1 := clrRange s o.addr (o.addr + 4096)
    let s2 := modFli s1 (fun f => { f with
      fprog := SMap.keep (fun k => decide (k < o.addr) || decide (o.addr + 4096 ≤ k)) f.fprog })
    modFli s2 (fun f => { f with fin := some 0x5D, want := false })
  else if o.retries < 3 then modFli s (fun f => { f with era := some { o with retries := o.retries + 1 } })
  else modFli (openWords s o.addr 512) (fun f => { f with fin := some 0x5F, want := false })

/-- The suspend step is done (R332, R333). -/
def suspendDone (s : State) : State :=
  let s1 := modFli s (fun f => { f with susp := true, going := false, want := false })
  let s2 := bumpR s1 aFliSuscnt 0 16 1
  let n := fld (getR s2 aFliSuscnt) 0 16
  if bit (getR s2 aFliCfg) 0 && decide (fld (getR s2 aFliStarveN) 0 16 ≤ n) && !s2.fli.starved then
    trigger (orR (modFli s2 (fun f => { f with starved := true })) aFliStatus 0x40000000#32) 15
  else s2

/-- FM_DONE ends the macro step in progress: a suspend, a program pulse, or an erase pulse. -/
def macroDone (s : State) (pass : Bool) : State :=
  if s.fli.going then suspendDone s
  else
    match s.fli.prog with
    | some o => programDone s o pass
    | none =>
      match s.fli.era with
      | some o => if eraseRunning s then eraseDone s o pass else s
      | none => s

/-- A macro step exceeds its limit (R327): the operation ends with MACRO; an erase keeps its BEGIN entry. -/
def macroTimeout (s : State) : State :=
  match s.fli.prog with
  | some o =>
    if s.fli.going then s
    else endProgram (fliError (openWord false s o.addr) 9 o.addr)
  | none =>
    match s.fli.era with
    | some o => if eraseRunning s then endErase (fliError (openWords s o.addr 512) 9 o.addr) else s
    | none => s

/-- FLI_STATUS as read. -/
def fliStatusWord (s : State) : Word :=
  let f := s.fli
  let owner := match f.seq with
    | some x => x.owner
    | none => match f.prog with
      | some o => o.owner
      | none => match f.era with | some o => o.owner | none => 0
  (getR s aFliStatus &&& 0xC0000000#32) ||| u32 (b2n (recovering s) * 2 ^ 29 + b2n f.seq.isSome * 2 ^ 28 + b2n f.susp * 2 ^ 27
    + b2n f.swsus * 2 ^ 26 + (if f.prog.isSome then 1 else if f.era.isSome then 2 else 0) * 2 ^ 24 + owner * 2 ^ 10)

/-! ### Reset (R327, R329, R331) -/

/-- What a reset leaves of a running operation: the word being programmed is undefined, and whether the sector being erased
holds anything but erased words is what the next margin read of it finds (R327, R329, R333). -/
def lostFlash (s : State) : State :=
  let s1 := match s.fli.prog with
    | some o => openWord false s o.addr
    | none => s
  match s.fli.era with
  | some o =>
    if o.begin_ || s.fli.fin.isSome then s1
    else modFli (clrRange s1 o.addr (o.addr + 4096)) (fun f => { f with
      fprog := SMap.keep (fun k => decide (k < o.addr) || decide (o.addr + 4096 ≤ k)) f.fprog })
  | none => s1

/-- No word from `a` to `a + n` is uncorrectable or lies in a sector whose reads are refused. -/
def flashReads (s : State) (a n : Nat) : Bool :=
  s.ecc.all (fun e => decide (e.1 < a) || decide (a + n ≤ e.1) || decide (e.2 < 2))
    && (erasedSectors s).all (fun b => decide (b + 4096 ≤ a) || decide (a + n ≤ b))

/-- CRC-32 of IEEE 802.3, one bit at a time over a reflected register. -/
def crc32Bit (c : BitVec 32) : BitVec 32 := if c.getLsbD 0 then (c >>> 1) ^^^ 0xEDB88320#32 else c >>> 1
def crc32Byte (c : BitVec 32) (b : Byte) : BitVec 32 :=
  let x := c ^^^ b.zeroExtend 32
  crc32Bit (crc32Bit (crc32Bit (crc32Bit (crc32Bit (crc32Bit (crc32Bit (crc32Bit x)))))))
def crc32 (bs : List Byte) : BitVec 32 := ~~~(bs.foldl crc32Byte 0xFFFFFFFF#32)

/-- `n` bytes of memory from `a`. -/
def bytesAt (s : State) (a : Nat) : Nat → List Byte
  | 0 => []
  | n + 1 => rdB s a :: bytesAt s (a + 1) n

/-- Load the option area by two line reads: its fields when MAGIC and CRC match, otherwise the defaults (R330, R331). -/
def loadOptions (s0 : State) : State :=
  let base := flashBase + flashBytes s0 - 4096
  let s := (flashCheck (lineWords (lineOf base) ++ lineWords (lineOf base + 1)) s0).1
  let w := fun off => rd32 s (base + off)
  let ok := w 0 == 0x0F110A7A#32 && w 0x24 == crc32 (bytesAt s base 0x24) && flashReads s base 0x28
  let rdlat := if ok then max 2 (fld (w 4) 0 4) else 15
  let sus := if ok then fld (w 8) 0 1 else 0
  let minrun := if ok then max 10 (fld (w 8) 16 16) else 400
  let starve := if ok then max 1 (fld (w 0xC) 0 16) else 64
  let ring := if ok then fld (w 0x20) 4 2 else 0
  let s1 := setR s aFliCfg (u32 (0x300 + ring * 16 + sus))
  let s2 := setR (setR s1 aFliMinrun (u32 minrun)) aFliStarveN (u32 starve)
  let s3 := setR s2 aFliOpt (u32 (b2n (!ok) * 2 ^ 31 + s.fli.size * 256 + rdlat))
  [0, 1, 2, 3].foldl (fun t k => setR t (aFliProt + 4 * k) (if ok then w (0x10 + 4 * k) &&& 0xBFFF3FFF#32 else 0)) s3

/-- KIND, SEQ and SECTOR of a journal slot; an uncorrectable one delivers nothing and counts as empty (R298; log entry 56). -/
def journalSlot (s : State) (k : Nat) : Nat × Nat × Nat :=
  let w := if 2 ≤ eccAt s (journalAddr k) then 0 else rdN s (journalAddr k) 8
  (w / 2 ^ 56, w / 2 ^ 16 % 2 ^ 32, w % 2 ^ 14)

/-- `a` is newer than `b` in the serial arithmetic of R307. -/
def newerSeq (a b : Nat) : Bool := let d := (a + 2 ^ 32 - b) % 2 ^ 32; decide (0 < d) && decide (d < 2 ^ 31)

/-- The newest entry of the journal (R328). -/
def newestJournal (s : State) : Option (Nat × Nat) :=
  (List.range 128).foldl (fun acc k =>
    let (kind, q, _) := journalSlot s k
    if kind = 0 then acc
    else match acc with
      | none => some (k, q)
      | some (_, q0) => if newerSeq q q0 then some (k, q) else acc) none

/-- Every word of the sector reads erased. -/
def sectorErased (s : State) (sec : Nat) : Bool :=
  let a := flashBase + 4096 * sec
  s.fli.fprog.all (fun e => decide (e.1 < a) || decide (a + 4096 ≤ e.1))

/-- FLI_JNEXT as read. -/
def jnextWord (s : State) : Word := let (k, q) := nextJournal s; u32 (k * 2 ^ 18 + q % 2 ^ 18)

end Sys2Proof.Machine
end

