-- ==== Sys2Proof/Machine/Consign.lean ====
section
/-! DEFINITION. The consignment table's own operations (spec/05 R141 to R149): allocation, completion, tickets. -/

namespace Sys2Proof.Machine

def setStatusBit (c : Coach) (i : Nat) (b : Bool) : Coach := { c with status := setBit c.status i b }

/-- STATUS.IMPRC shows whether an imprecise exception waits (R41, R169). -/
def syncImprc (c : Coach) : Coach := setStatusBit c 18 (!c.imprecise.isEmpty)

/-- An imprecise exception is delivered to a coach (R48). The takeover window of a coach that has left the lane is past. -/
def deliverItem (s : State) (w : Who) (x : XItem) : State :=
  modC s w (fun c => syncImprc { c with
    imprecise := c.imprecise ++ [x], window := if c.st = .run then c.window else none })

/-- FINFO of an access: its size and consignment entry (R164). -/
def finfo (size entry : Nat) : Word := u32 (sizeCode size * 2 ^ 14 + entry)

/-- FINFO with the second half of a split access named (R55, R164). -/
def finfoHalf2 (i : Word) (st : BitVec 3) : Word := i ||| u32 (2 ^ 22 + st.toNat * 2 ^ 19)

/-- FINFO of an exhausted Mortar crossing (R22, R164). -/
def finfoMortar (i : Word) (src dst : BitVec 4) : Word := i ||| u32 (src.toNat * 2 ^ 28 + dst.toNat * 2 ^ 24 + 2 ^ 23)

/-- The exception of a consignment that failed with status `st` (R38, R48). -/
def consItem (k : Cons) (st : BitVec 3) (info : Word) : XItem :=
  { vec := vecOfStatus st, cstat := st, torn := st == 5, addr := u32 k.addr, info := info
    write := match k.kind with | .store => true | .atomic _ _ _ => true | _ => false }

def CKind.ticketed : CKind → Bool
  | .ldp _ => true
  | .engine _ _ => true
  | _ => false

/-- Who issued a consignment. -/
def consWho (k : Cons) : Who := if k.fast then .fast else .coach k.coach

/-- Free an entry; its allocation count stays (R148). -/
def freeCons (s : State) (e : Nat) : State := setCons s e { gen := (consOf s e).gen }

/-- Entries still to complete of one issuer. -/
def openOf (s : State) (w : Who) (p : Cons → Bool) : List (Nat × Nat) :=
  (s.cons.filter (fun e => e.2.used && !e.2.orphan && e.2.done.isNone && consWho e.2 == w && p e.2)).map
    (fun e => (e.1, e.2.gen))

/-- Hold until the named consignments have completed; go on when there is none. -/
def awaitCons (es : List (Nat × Nat)) : M Unit := if es.isEmpty then pure () else holdFor (.cons es)

/-- The byte ranges of two accesses overlap. -/
def overlaps (a n b m : Nat) : Bool := decide (phys a < phys b + m) && decide (phys b < phys a + n)

/-- The accesses of an issuer, still to complete, that overlap a range. -/
def openOver (s : State) (w : Who) (a n : Nat) (p : Cons → Bool) : List (Nat × Nat) :=
  openOf s w (fun k => overlaps k.addr k.size a n && p k && !(match k.kind with | .engine _ _ => true | _ => false))

def isStore (k : Cons) : Bool := match k.kind with | .store => true | _ => false

/-- Ticketed entries a coach holds (R142). -/
def ticketsHeld (s : State) (n : Nat) : Nat :=
  (s.cons.filter (fun e => e.2.used && e.2.coach == n && e.2.kind.ticketed)).length

/-- The lowest free entry of the shared pool. -/
def poolEntry (s : State) : Option Nat :=
  (List.range 2048).findSome? (fun i => if (consOf s (1024 + i)).used then none else some (1024 + i))

/-- Lowest FREE since the last read of CSH_POOL (R143 and the register's table). -/
def notePool (s : State) : State :=
  let w := getR s aCshPool
  setR s aCshPool (setFld w 16 12 (min (fld w 16 12) (poolFree s)))

/-- Choose the entry for an access of the coach (R141 to R143, R85). -/
def chooseEntry (n : Nat) (ticketed : Bool) : M Nat := do
  let s ← get
  let held := entriesHeld s n
  let q := quotaOf s n
  if ticketed && decide (q - 1 ≤ ticketsHeld s n) then raise vILLEGAL 8
  else if q ≤ held then
    if ticketsHeld s n = held then raise vILLEGAL 8 else holdFor .quota
  else if !ticketed && !(consOf s n).used then pure n
  else
    match poolEntry s with
    | some e => pure e
    | none => holdFor (.pool ticketed)

/-- Enter an access in the table: the entry's allocation count grows by one (R148). -/
def allocateAt (s : State) (e : Nat) (k : Cons) : State :=
  let g := ((consOf s e).gen + 1) % 65536
  notePool { setCons s e { k with used := true, gen := g, order := s.order } with order := s.order + 1 }

def allocate (e : Nat) (k : Cons) : M Unit := modify (fun s => allocateAt s e k)

/-- Replace the pending entries of a load by its words. -/
def fillHead (e : Nat) (lo hi : Word) (h : List Entry) : List Entry :=
  h.map (fun x => match x with
    | .load f b => if f = e then .val (if b then hi else lo) else x
    | _ => x)

def fillLoad (s : State) (w : Who) (e : Nat) (lo hi : Word) : State :=
  modC s w (fun c => { c with dhead := fillHead e lo hi c.dhead, rhead := fillHead e lo hi c.rhead })

/-- The open load of a routine in entry `e` has its result (R273). -/
def fillGot (s : State) (w : Who) (e g : Nat) (x : Loaded) : State :=
  modC s w (fun c => { c with got := c.got.map (fun y => if y = .open_ e g then x else y) })

/-- The loads of the step that `w` abandons are discarded when they complete (R88, R265, R274). -/
def abandonLoads (s : State) (w : Who) : State :=
  let got := (getC s w).got
  if got.isEmpty then s
  else modC { s with cons := s.cons.map (fun e =>
    (e.1, if got.contains (.open_ e.1 e.2.gen) then { e.2 with orphan := true } else e.2)) } w (fun c => { c with got := [] })

/-- A load's data extended to a stack entry (R76). -/
def extend (signed : Bool) (size : Nat) (d : DWord) : Word :=
  if size = 1 then (if signed then (d.truncate 8).signExtend 32 else (d.truncate 8).zeroExtend 32)
  else if size = 2 then (if signed then (d.truncate 16).signExtend 32 else (d.truncate 16).zeroExtend 32)
  else loW d

/-- The completion of entry `e` is delivered with status `st`, data `d` and FINFO `info` (R48, R83, R93, R144). A
failing load leaves an undefined value; a ticketed entry stays until its TAKE; an atomic ends its coach's stall. -/
def deliverCons (s : State) (e : Nat) (st : BitVec 3) (d : DWord) (info : Word) : State :=
  let k := consOf s e
  let w := consWho k
  let away := k.fast && s.fastOn.isNone
  let fail := fun t => if st = 0 ∨ away = true then t else deliverItem t w (consItem k st info)
  if k.orphan then freeCons s e
  else
    match k.kind with
    | .load sg =>
      let (v, s1) := if st = 0 then (d, s) else freeD s
      fail (freeCons (fillLoad s1 w e (extend sg k.size v) (hiW v)) e)
    | .store => fail (freeCons s e)
    | .micro => fillGot (freeCons s e) w e k.gen (if st = 0 then .data d.toNat else .bad (consItem k st info))
    | .atomic _ _ _ =>
      let s1 := freeCons s e
      modC s1 w (fun c => { c with stall := c.stall.map (fun t =>
        { t with waits := none, push := [loW d], fail := if st = 0 then none else some (consItem k st info) }) })
    | .ldp _ => wake (setCons s e { k with done := some st, data := d, info := info }) k.coach wkCONSIGN
    | .engine _ _ => wake (setCons s e { k with done := some st, data := d, info := info }) k.coach wkCONSIGN

/-- A late completion (R148). -/
def lateCons (s : State) : State := trigger (bumpR s aCshLate 0 32 1) 9

end Sys2Proof.Machine
end

