-- ==== Sys2Proof/Machine/Curves.lean ====
section
/-! DEFINITION. The arithmetic of the big-number engine (spec/14 R340 to R342, R348): modular arithmetic, short
Weierstrass and Montgomery curves, ECDSA. All of it is exact arithmetic on naturals. -/

namespace Sys2Proof.Machine

/-- Number of bits of `n`. -/
def bitLen (n : Nat) : Nat := if n = 0 then 0 else n.log2 + 1

/-- `b ^ e mod n` over the low `k` bits of `e`. -/
def powMod (n b e : Nat) : Nat → Nat
  | 0 => 1 % n
  | k + 1 =>
    let h := powMod n b (e / 2) k
    let q := h * h % n
    if e % 2 = 1 then q * b % n else q

/-- Extended Euclid with fuel: the greatest common divisor of `r0` and `r1`, and the cofactor of the second. -/
def egcd : Nat → Int → Int → Int → Int → Int × Int
  | 0, r0, _, t0, _ => (r0, t0)
  | f + 1, r0, r1, t0, t1 =>
    if r1 = 0 then (r0, t0) else egcd f r1 (r0 - r0 / r1 * r1) t1 (t0 - r0 / r1 * t1)

/-- The inverse of `a` modulo `n`, where there is one. -/
def invMod (n a : Nat) : Option Nat :=
  let (g, t) := egcd (2 * bitLen n + 4) n (a % n : Nat) 0 1
  if g = 1 then some (t % n).toNat else none

/-- Subtraction modulo `n` of reduced values. -/
def subMod (n a b : Nat) : Nat := (a % n + n - b % n) % n

/-- A curve of the table (R348, R349). -/
structure CurveP where
  pbits : Nat
  mont : Bool
  p : Nat
  a : Nat
  b : Nat
  gx : Nat
  gy : Nat
  n : Nat
  deriving DecidableEq, Repr

/-- Addition of affine points of a short Weierstrass curve; `none` is the point at infinity. -/
def wAdd (c : CurveP) (u v : Option (Nat × Nat)) : Option (Nat × Nat) :=
  match u, v with
  | none, q => q
  | q, none => q
  | some (x1, y1), some (x2, y2) =>
    let l := if x1 = x2 then
        (if y1 = y2 then (invMod c.p (2 * y1)).map (fun i => (3 * x1 * x1 + c.a) * i % c.p) else none)
      else (invMod c.p (subMod c.p x2 x1)).map (fun i => subMod c.p y2 y1 * i % c.p)
    l.map (fun l =>
      let x3 := subMod c.p (subMod c.p (l * l) x1) x2
      (x3, subMod c.p (l * subMod c.p x1 x3) y1))

/-- `k · P` over the low `f` bits of `k`. -/
def wMul (c : CurveP) (k : Nat) (q : Option (Nat × Nat)) : Nat → Option (Nat × Nat)
  | 0 => none
  | f + 1 =>
    let h := wMul c (k / 2) q f
    let d := wAdd c h h
    if k % 2 = 1 then wAdd c d q else d

/-- A scalar times a point, the scalar reduced modulo n and the coordinates modulo p (R342). -/
def wScalar (c : CurveP) (k x y : Nat) : Option (Nat × Nat) :=
  wMul c (k % c.n) (some (x % c.p, y % c.p)) (bitLen c.n)

/-- The point lies on the short Weierstrass curve. -/
def wOn (c : CurveP) (x y : Nat) : Bool := y * y % c.p == (x * x * x + c.a * x + c.b) % c.p

/-- One step of the Montgomery ladder on (X2:Z2), (X3:Z3) with input u, for bit `b`. -/
def ladderStep (c : CurveP) (u : Nat) (b : Bool) (s : (Nat × Nat) × (Nat × Nat)) : (Nat × Nat) × (Nat × Nat) :=
  let p := c.p
  let ((x2, z2), (x3, z3)) := if b then (s.2, s.1) else s
  let aa := (x2 + z2) * (x2 + z2) % p
  let bb := subMod p x2 z2 * subMod p x2 z2 % p
  let e := subMod p aa bb
  let da := subMod p x3 z3 * (x2 + z2) % p
  let cb := (x3 + z3) * subMod p x2 z2 % p
  let nx3 := (da + cb) * (da + cb) % p
  let nz3 := u * (subMod p da cb * subMod p da cb % p) % p
  let nx2 := aa * bb % p
  let a24 := match invMod p 4 with | some i => (c.a + 2) * i % p | none => 0
  let nz2 := e * (bb + a24 * e) % p
  if b then ((nx3, nz3), (nx2, nz2)) else ((nx2, nz2), (nx3, nz3))

/-- The ladder over the low `f` bits of `k`, most significant first. -/
def ladder (c : CurveP) (u k : Nat) : Nat → (Nat × Nat) × (Nat × Nat) → (Nat × Nat) × (Nat × Nat)
  | 0, s => s
  | f + 1, s => ladder c u k f (ladderStep c u (k.testBit f) s)

/-- u of k·P on a Montgomery curve; `none` at infinity. The point with u = 0 has order 2. -/
def mMul (c : CurveP) (k u : Nat) : Option Nat :=
  let u0 := u % c.p
  if u0 = 0 then (if k % 2 = 1 then some 0 else none)
  else
    let ((x, z), _) := ladder c u0 k (bitLen c.n) ((1, 0), (u0, 1))
    if z = 0 then none else (invMod c.p z).map (fun i => x * i % c.p)

/-- The same with the scalar reduced modulo n (R342). -/
def mScalar (c : CurveP) (k u : Nat) : Option Nat := mMul c (k % c.n) u

/-- `v` is a square modulo the prime p (Euler). -/
def isSquare (p v : Nat) : Bool := v % p == 0 || powMod p v ((p - 1) / 2) (bitLen p) == 1

/-- A point with coordinate u lies on the Montgomery curve. -/
def mOn (c : CurveP) (u : Nat) : Bool :=
  match invMod c.p c.b with
  | some i => isSquare c.p ((u * u * u + c.a * u * u + u) * i)
  | none => false

/-- Least quadratic non-residue from `z`. -/
def nonResidue (p : Nat) : Nat → Nat → Nat
  | 0, z => z
  | f + 1, z => if isSquare p z then nonResidue p f (z + 1) else z

/-- Odd part and 2-adic order of `q`. -/
def oddPart : Nat → Nat → Nat → Nat × Nat
  | 0, q, e => (q, e)
  | f + 1, q, e => if q % 2 = 0 then oddPart f (q / 2) (e + 1) else (q, e)

/-- Least `i` with `t ^ (2 ^ i) = 1`. -/
def orderOf2 (p : Nat) : Nat → Nat → Nat → Nat
  | 0, _, i => i
  | f + 1, t, i => if t = 1 then i else orderOf2 p f (t * t % p) (i + 1)

/-- The rounds of Tonelli and Shanks. -/
def tonelli (p : Nat) : Nat → Nat → Nat → Nat → Nat → Nat
  | 0, _, _, _, r => r
  | f + 1, m, c, t, r =>
    if t = 1 then r
    else
      let i := orderOf2 p m t 0
      let b := powMod p c (2 ^ (m - i - 1)) (m + 1)
      tonelli p f i (b * b % p) (t * (b * b % p) % p) (r * b % p)

/-- A square root of `v` modulo the prime p, where there is one. -/
def sqrtMod (p v : Nat) : Option Nat :=
  if v % p = 0 then some 0
  else if !isSquare p v then none
  else
    let (q, e) := oddPart (bitLen p) (p - 1) 0
    let z := nonResidue p 1000 2
    some (tonelli p (e + 1) e (powMod p z q (bitLen p)) (powMod p v q (bitLen p)) (powMod p v ((q + 1) / 2) (bitLen p)))

/-- The y of the point with coordinate x and the given parity (R340 ECPUB). -/
def decompress (c : CurveP) (x : Nat) (odd : Bool) : Option Nat :=
  (sqrtMod c.p (x * x * x + c.a * x + c.b)).map (fun y => if (y % 2 == 1) == odd then y else (c.p - y) % c.p)

/-- ECDSA verification of (r, s) over hash h with public point (x, y) (FIPS 186; scalars reduced as R342 says). -/
def ecdsaCheck (c : CurveP) (h r s : Nat) (q : Option (Nat × Nat)) : Bool :=
  let r := r % c.n
  let s := s % c.n
  if r = 0 ∨ s = 0 then false
  else
    match invMod c.n s with
    | none => false
    | some w =>
      match wAdd c (wScalar c (h % c.n * w) c.gx c.gy) (q.bind (fun p => wScalar c (r * w) p.1 p.2)) with
      | some (vx, _) => vx % c.n == r
      | none => false

/-- The same for a public key given by its coordinates. -/
def ecdsaOk (c : CurveP) (h r s x y : Nat) : Bool := ecdsaCheck c h r s (some (x, y))

/-- ECDSA signature over h with key d, trying the nonces in turn. -/
def ecdsaSign (c : CurveP) (h d : Nat) : List Nat → Option (Nat × Nat)
  | [] => none
  | k :: ks =>
    match wScalar c k c.gx c.gy, invMod c.n k with
    | some (x, _), some i =>
      let r := x % c.n
      let s := i * ((h + r * d) % c.n) % c.n
      if r = 0 ∨ s = 0 then ecdsaSign c h d ks else some (r, s)
    | _, _ => ecdsaSign c h d ks

/-- The preloaded entries (R348). -/
def curveP256 : CurveP where
  pbits := 256
  mont := false
  p := 0xffffffff00000001000000000000000000000000ffffffffffffffffffffffff
  a := 0xffffffff00000001000000000000000000000000fffffffffffffffffffffffc
  b := 0x5ac635d8aa3a93e7b3ebbd55769886bc651d06b0cc53b0f63bce3c3e27d2604b
  gx := 0x6b17d1f2e12c4247f8bce6e563a440f277037d812deb33a0f4a13945d898c296
  gy := 0x4fe342e2fe1a7f9b8ee7eb4a7c0f9e162bce33576b315ececbb6406837bf51f5
  n := 0xffffffff00000000ffffffffffffffffbce6faada7179e84f3b9cac2fc632551

def curveP384 : CurveP where
  pbits := 384
  mont := false
  p := 2 ^ 384 - 2 ^ 128 - 2 ^ 96 + 2 ^ 32 - 1
  a := 2 ^ 384 - 2 ^ 128 - 2 ^ 96 + 2 ^ 32 - 4
  b := 0xb3312fa7e23ee7e4988e056be3f82d19181d9c6efe8141120314088f5013875ac656398d8a2ed19d2a85c8edd3ec2aef
  gx := 0xaa87ca22be8b05378eb1c71ef320ad746e1d3b628ba79b9859f741e082542a385502f25dbf55296c3a545e3872760ab7
  gy := 0x3617de4a96262c6f5d9e98bf9292dc29f8f41dbd289a147ce9da3113b5f0b8c00a60b1ce1d7e819d7a431d7c90ea0e5f
  n := 0xffffffffffffffffffffffffffffffffffffffffffffffffc7634d81f4372ddf581a0db248b0a77aecec196accc52973

def curveP521 : CurveP where
  pbits := 521
  mont := false
  p := 2 ^ 521 - 1
  a := 2 ^ 521 - 4
  b := 0x51953eb9618e1c9a1f929a21a0b68540eea2da725b99b315f3b8b489918ef109e156193951ec7e937b1652c0bd3bb1bf073573df883d2c34f1ef451fd46b503f00
  gx := 0xc6858e06b70404e9cd9e3ecb662395b4429c648139053fb521f828af606b4d3dbaa14b5e77efe75928fe1dc127a2ffa8de3348b3c1856a429bf97e7e31c2e5bd66
  gy := 0x11839296a789a3bc0045c8a5fb42c7d1bd998f54449579b446817afbd17273e662c97ee72995ef42640c550b9013fad0761353c7086a272c24088be94769fd16650
  n := 0x1fffffffffffffffffffffffffffffffffffffffffffffffffffffffffffffffffa51868783bf2f966b7fcc0148f709a5d03bb5c9b8899c47aebb6fb71e91386409

def curve25519 : CurveP where
  pbits := 255
  mont := true
  p := 2 ^ 255 - 19
  a := 486662
  b := 1
  gx := 9
  gy := 0x20ae19a1b8a086b4e01edd2c7748d14c923d4d7e6d7c61b229e9c5a27eced3d9
  n := 2 ^ 252 + 0x14def9dea2f79cd65812631a5cf5d3ed

/-- The first failed check of a curve record, or 0 (R350). -/
def curveCheck (c : CurveP) (reserved : Bool) (h : Nat) : Nat :=
  let p := c.p
  let disc := if c.mont then c.b * subMod p (c.a * c.a) 4 % p else (4 * c.a ^ 3 + 27 * c.b ^ 2) % p
  let onG := if c.mont then c.b * c.gy * c.gy % p == (c.gx ^ 3 + c.a * c.gx ^ 2 + c.gx) % p else wOn c c.gx c.gy
  let inf := if c.mont then (mMul c c.n c.gx).isNone
    else (wMul c c.n (some (c.gx % p, c.gy % p)) (bitLen c.n)).isNone
  if c.pbits < 160 || 571 < c.pbits || reserved || bitLen p != c.pbits then 1
  else if p % 2 = 0 then 2
  else if p ≤ c.a ∨ p ≤ c.b then 3
  else if disc = 0 then 4
  else if !onG then 5
  else if c.n % 2 = 0 ∨ bitLen c.n + 3 < c.pbits then 6
  else if h = 0 ∨ 8 < h then 7
  else if !inf then 8
  else 0

end Sys2Proof.Machine
end

