-- ==== Sys2Proof/Machine/Bignum.lean ====
section
/-! DEFINITION. The big-number engine (spec/14): slots, submissions, operations, aborts, curve loads, key slots. -/

namespace Sys2Proof.Machine

def modBne (s : State) (f : Bne → Bne) : State := { s with bne := f s.bne }
def eopOf (s : State) (b : Nat) : Option EOp := s.bne.ops.get none b
def setEop (s : State) (b : Nat) (o : Option EOp) : State := modBne s (fun e => { e with ops := e.ops.set none b o })
def keyOf (s : State) (c : Nat) : Key := s.bne.keys.get {} c

/-- The value of a key slot: the XOR of its shares (R351). -/
def Key.value (k : Key) : BitVec 640 := k.share0 ^^^ k.share1

/-- A slot value of 72 key bytes and a descriptor. -/
def slotValue (bytes desc : Nat) : BitVec 640 := BitVec.ofNat 640 (bytes % 2 ^ 576 + desc * 2 ^ 576)

/-- Write key slot `c`, with a fresh pair of shares (R351). -/
def setKey (s : State) (c : Nat) (v : BitVec 640) : State :=
  let m := BitVec.ofNat 640 (Config.random s.draws)
  modBne { s with draws := s.draws + 1 } (fun e => { e with keys := e.keys.set {} c ⟨m, v ^^^ m⟩ })

/-- The group that holds slot `i`: its lowest slot and operation. -/
def groupOf (s : State) (i : Nat) : Option (Nat × EOp) :=
  (List.range 8).findSome? (fun b =>
    match eopOf s b with
    | some o => if b ≤ i ∧ i < b + o.slots then some (b, o) else none
    | none => none)

/-- State code of a slot (R334). -/
def slotState (s : State) (i : Nat) : Nat :=
  match groupOf s i with
  | some (_, o) => if o.aborting then 2 else 1
  | none => match s.bne.cload with
    | some (_, j) => if i = j then 1 else if s.bne.lab.contains i then 2 else 0
    | none => if s.bne.lab.contains i then 2 else 0

/-- Slot `i` admits the requester (R335). -/
def admits (s : State) (i : Nat) (r : Req) : Bool :=
  let w := getR s (aBneSlotcfg + 4 * i)
  let mode := fld w 24 2
  let who := fld w 0 10
  (r.ring == 0 || (decide (r.ring ≤ fld w 20 2) &&
    (mode == 0 || (mode == 1 && who % 32 == r.coach / 32) || (mode == 2 && who == r.coach)))) &&
  (!r.unver || !bit w 19)

def opBase : Nat := 0xF0000000

/-- Status of an access of `n` bytes to operand memory before it is performed (R335). -/
def opmemStatus (s : State) (a : Nat) (r : Req) : BitVec 3 :=
  let i := (a - opBase) / 0x800
  if !admits s i r || slotState s i != 0 then 3 else 0

/-- A read of operand memory by a coach: an uncorrectable word gives status 2 (R335). -/
def opmemRead (s : State) (a n : Nat) : BitVec 3 × Nat :=
  if (wordsOf a n).any (fun w => decide (2 ≤ eccAt s w)) then (2, 0) else (0, rdN s a n)

/-- A write of operand memory; a partial write of an uncorrectable word is not performed. -/
def opmemWrite (s : State) (a n v : Nat) : State × BitVec 3 :=
  let ws := wordsOf a n
  if (partialWords a n ws).any (fun w => decide (2 ≤ eccAt s w)) then (s, 2)
  else (ws.foldl (fun t w => setEcc t w 0) (wrN s a n v), 0)

/-- The engine's own read of operand memory outside an operation: the rules state nothing of an uncorrectable word there, so
what it gives is a free value, draw `k` of the command (log entry 43). -/
def engineRead (s : State) (a n k : Nat) : Nat :=
  if (wordsOf a n).any (fun w => decide (2 ≤ eccAt s w)) then Config.freeNat (s.draws + k) % 256 ^ n else rdN s a n

/-! ### The curve table -/

/-- A curve of the table as its parameters. -/
def Curve.params (c : Curve) : CurveP := ⟨c.pbits, c.mont, c.p, c.a, c.b, c.gx, c.gy, c.n⟩

/-- The parameters of a VALID entry (R348). -/
def curveAt (s : State) (k : Nat) : Option CurveP :=
  if k = 0 then some curveP256 else if k = 1 then some curveP384 else if k = 2 then some curveP521
  else if k = 3 then some curve25519
  else let c := s.bne.curves.get {} k; if c.state = 2 then some c.params else none

/-- GEN of an entry; the preloaded entries hold 0. -/
def curveGen (s : State) (k : Nat) : Nat := (s.bne.curves.get {} k).gen

/-- BNE_CSTAT[k] as read. -/
def cstatWord (s : State) (k : Nat) : Word :=
  if k < 4 then getR s (aBneCstat + 4 * k)
  else
    let c := s.bne.curves.get {} k
    u32 (c.state * 2 ^ 30 + b2n c.mont * 2 ^ 28 + c.code * 2 ^ 24 + c.gen * 2 ^ 16 + c.pbits)

/-! ### Submission (R336, R337) -/

def cmdOp (w : Word) : Nat := fld w 24 8
def cmdWidth (w : Word) : Nat := fld w 22 2
def cmdCurve (w : Word) : Nat := fld w 16 4
def cmdSize (w : Word) : Nat := fld w 0 14

/-- Slots of a group; WIDTH 3 is reserved and counted as one slot for the admission check. -/
def cmdSlots (w : Word) : Nat := if cmdWidth w = 1 then 2 else if cmdWidth w = 2 then 4 else 1

def isModular (op : Nat) : Bool := decide (1 ≤ op) && decide (op ≤ 6)
def isCurveOp (op : Nat) : Bool := decide (0x10 ≤ op) && decide (op ≤ 0x19)
/-- Operations that need a key slot (R340). -/
def keyOnly (op : Nat) : Bool := decide (0x15 ≤ op) && decide (op ≤ 0x19)
/-- Operations that use the key already in the slot when they come by BNKEY (R337 order 6). -/
def usesKey (op : Nat) : Bool := op == 0x14 || op == 0x15 || op == 0x16 || op == 0x18

/-- The curve's form suits the operation (R340). -/
def formSuits (op : Nat) (c : CurveP) : Bool :=
  if op = 0x14 ∨ op = 0x15 then !c.mont else if op = 0x13 then c.mont else true

/-- Cell length in bytes for `b` bits (R340). -/
def cellLen (b : Nat) : Nat := 8 * ((b + 63) / 64)

/-- Offset of cell `k`. -/
def cellOff (l k : Nat) : Nat := 8 + k * l

/-- A modulus of exactly `size` bits that is odd. -/
def goodMod (size m : Nat) : Bool := m % 2 == 1 && bitLen m == size

/-- The parameters of a modular operation pass check 4 of R337. -/
def modOk (s : State) (base : Nat) (cmd : Word) : Bool :=
  let size := cmdSize cmd
  let a := opBase + base * 0x800
  if size < 128 ∨ 8192 < size then false
  else if cmdOp cmd = 6 then
    let h := cellLen (size / 2)
    let e := engineRead s (a + 4) 4 0
    size % 2 == 0 && goodMod (size / 2) (engineRead s (a + 8) h 1) && goodMod (size / 2) (engineRead s (a + 8 + h) h 2)
      && e % 2 == 1 && decide (3 ≤ e)
  else goodMod size (engineRead s (a + 8) (cellLen size) 0)

/-- The key bytes and the descriptor of a key slot, and the KIND, YODD, CURVE and GEN of the latter (R351). -/
def kBytes (k : Key) : Nat := k.value.toNat % 2 ^ 576
def kDesc (k : Key) : Nat := k.value.toNat / 2 ^ 576
def kKind (k : Key) : Nat := kDesc k % 16
def kYodd (k : Key) : Bool := (kDesc k).testBit 4
def kCurve (k : Key) : Nat := kDesc k / 2 ^ 8 % 16
def kGen (k : Key) : Nat := kDesc k / 2 ^ 16 % 256

/-- The key slot suits the operation (R352). -/
def keySuits (s : State) (c : Nat) (cmd : Word) : Bool :=
  let k := keyOf s c
  let op := cmdOp cmd
  let kind := if op = 0x15 ∨ op = 0x16 then kKind k == 1
    else if op = 0x18 then kKind k == 1 || kKind k == 2 else kKind k == 2
  kind && kCurve k == cmdCurve cmd && kGen k == curveGen s (cmdCurve cmd) && !s.bne.zeroing

/-- What the engine decides on a submission (R337). -/
inductive Submit where
  | refused
  | atOnce (code : Nat)
  | runs
  deriving DecidableEq, Repr

/-- The checks of R337 in their order. -/
def decideSubmit (s : State) (cmd : Word) (i : Nat) (r : Req) (key : Bool) : Submit :=
  let op := cmdOp cmd
  let g := cmdSlots cmd
  let slots := (List.range g).map (i + ·)
  if slots.any (fun j => decide (8 ≤ j) || !admits s j r) then .refused
  else if slots.any (fun j => slotState s j != 0) then .atOnce 1
  else if !(isModular op || isCurveOp op) || cmdWidth cmd == 3 || i % g != 0 || fld cmd 20 2 != 0 || fld cmd 14 2 != 0
      || (keyOnly op && !key) then .atOnce 2
  else if isModular op then (if !modOk s i cmd then .atOnce 3 else if s.bne.rngerr then .atOnce 7 else .runs)
  else
    match curveAt s (cmdCurve cmd) with
    | none => .atOnce 4
    | some c =>
      if !formSuits op c then .atOnce 4
      else if key && usesKey op && !keySuits s r.coach cmd then .atOnce 5
      else if s.bne.rngerr then .atOnce 7
      else .runs

/-- Write BNE_RESULT of every slot of a group (R338). -/
def setResult (s : State) (i g : Nat) (w : Word) : State :=
  (List.range g).foldl (fun t j => setR t (aBneResult + 4 * (i + j)) w) s

/-- The submission in consignment entry `e` reaches the engine (R337): it is refused, completes at once, or runs. -/
def submit (s0 : State) (cmd : Word) (i : Nat) (r : Req) (key : Bool) (e : Nat) : State :=
  let s := { s0 with draws := s0.draws + 3 }
  match decideSubmit s0 cmd i r key with
  | .refused => deliverCons s e 3 0 (finfo 0 e)
  | .atOnce code =>
    let w := u32 (code * 2 ^ 24)
    let s1 := if code = 1 then s else setResult s i (cmdSlots cmd) w
    deliverCons s1 e 0 (w.zeroExtend 64) 0
  | .runs => setEop s i (some ⟨cmdSlots cmd, cmd, r.coach, key, e, (consOf s e).gen, false⟩)

/-! ### Running an operation -/

/-- The outcome of an operation: cells to write (offset, length, value), the flags of the result word, the key slot's
new content, and the cause of a FAULT. -/
structure EResult where
  cells : List (Nat × Nat × Nat) := []
  flags : Nat := 0
  newKey : Option (BitVec 640) := none
  fault : Option Nat := none
  deriving DecidableEq, Repr

/-- Write one cell, whole words with valid check bits. -/
def writeCell (s : State) (a n v : Nat) : State :=
  { wrN s a n v with ecc := SMap.keep (fun k => decide (k < a) || decide (a + n ≤ k)) s.ecc }

/-- Write cells within the operand area (R341). -/
def writeCells (s : State) (base size : Nat) (cs : List (Nat × Nat × Nat)) : State :=
  cs.foldl (fun t c => if c.1 < size then writeCell t (base + c.1) (min c.2.1 (size - c.1)) c.2.2 else t) s

/-- A cell of the operand area. -/
def cell (s : State) (base l k : Nat) : Nat := rdN s (base + cellOff l k) l

/-- A point as two cells, with INF for the point at infinity (R338, R342). -/
def pointCells (l k : Nat) (q : Option (Nat × Nat)) : EResult :=
  match q with
  | some (x, y) => { cells := [(cellOff l k, l, x), (cellOff l (k + 1), l, y)] }
  | none => { cells := [(cellOff l k, l, 0), (cellOff l (k + 1), l, 0)], flags := 2 }

/-- A coordinate u as one cell. -/
def uCell (l k : Nat) (u : Option Nat) : EResult :=
  match u with
  | some x => { cells := [(cellOff l k, l, x)] }
  | none => { cells := [(cellOff l k, l, 0)], flags := 2 }

/-- k·P on a Montgomery curve as one cell; of a u that no point of the curve has, the result is without meaning (R342). -/
def mCell (c : CurveP) (l i k u d : Nat) : EResult :=
  if k % c.n ≠ 0 ∧ mOn c (u % c.p) = false then
    { cells := [(cellOff l i, l, Config.freeNat d)], flags := Config.freeNat (d + 1) % 2 * 2 }
  else uCell l i (mScalar c k u)

/-- The modular operations (R340). -/
def runModular (s : State) (base : Nat) (cmd : Word) (d : Nat) : EResult :=
  let size := cmdSize cmd
  let l := cellLen size
  let n := cell s base l 0
  let x := cell s base l 1 % n
  let y := cell s base l 2
  let out := fun v => { cells := [(cellOff l 1, l, v)] : EResult }
  match cmdOp cmd with
  | 1 => out ((x + y) % n)
  | 2 => out (subMod n x y)
  | 3 => out (x * y % n)
  | 4 => match invMod n x with
    | some i => out i
    | none => { cells := [(cellOff l 1, l, 0)], flags := 4 }
  | 5 =>
    let elen := rdN s base 4
    if elen = 0 ∨ size < elen then out (Config.freeNat d)
    else out (powMod n x y elen)
  | _ =>
    let h := cellLen (size / 2)
    let c := fun k => rdN s (base + 8 + k * h) h
    let p := c 0
    let q := c 1
    let off := 8 + 5 * h
    let m := rdN s (base + off) l
    let m1 := powMod p (m % p) (c 2) (8 * h)
    let m2 := powMod q (m % q) (c 3) (8 * h)
    let r := (m2 + subMod p m1 m2 * c 4 % p * q) % (p * q)
    let e := rdN s (base + 4) 4
    if powMod (p * q) r e 32 = m % (p * q) then { cells := [(off, l, r)] }
    else { cells := [(off, l, 0)], fault := some 1 }

/-- The elliptic-curve operations (R340, R342, R346); `d` numbers the free and random draws. A signature for which none of four
nonces serves is a free value: the spec does not say how many the engine tries: DESIGN CHOICE, log entry 43. -/
def runCurve (s : State) (base : Nat) (cmd : Word) (c : CurveP) (k : Key) (gen d : Nat) (key : Bool) : EResult :=
  let l := cellLen c.pbits
  let v := cell s base l
  let lost := fun (i : Nat) => { cells := [(cellOff l i, l, Config.freeNat d), (cellOff l (i + 1), l, Config.freeNat (d + 1))]
                                 flags := Config.freeNat (d + 2) % 2 * 2 : EResult }
  let priv := kBytes k % c.n
  let pub := wScalar c priv c.gx c.gy
  match cmdOp cmd with
  | 0x10 =>
    if c.mont then mCell c l 1 (v 0) (v 1) d
    else if v 0 % c.n = 0 then pointCells l 1 none
    else if wOn c (v 1) (v 2) then pointCells l 1 (wScalar c (v 0) (v 1) (v 2)) else lost 1
  | 0x11 => if c.mont then uCell l 1 (mScalar c (v 0) c.gx) else pointCells l 1 (wScalar c (v 0) c.gx c.gy)
  | 0x12 => { flags := b2n (if c.mont then mOn c (v 0 % c.p) else wOn c (v 0) (v 1)) }
  | 0x13 => mCell c l 1 (v 0) (v 1) d
  | 0x14 =>
    let q := if key then (decompress c (kBytes k) (kYodd k)).map (fun y => (kBytes k, y))
      else if wOn c (v 3) (v 4) then some (v 3, v 4) else none
    (match q with
    | some (x, y) => { flags := b2n (ecdsaOk c (v 0) (v 1) (v 2) x y) }
    | none => { flags := Config.freeNat d % 2 })
  | 0x15 =>
    let ns := (List.range 4).map (fun i => 1 + Config.random (d + i) % (c.n - 1))
    (match ecdsaSign c (v 0) priv ns with
    | some (r, t) =>
      if ecdsaCheck c (v 0) r t pub then { cells := [(cellOff l 1, l, r), (cellOff l 2, l, t)] }
      else { cells := [(cellOff l 1, l, 0), (cellOff l 2, l, 0)], fault := some 1 }
    | none => { cells := [(cellOff l 1, l, Config.freeNat d), (cellOff l 2, l, Config.freeNat (d + 1))] })
  | 0x16 =>
    if c.mont then mCell c l 0 priv (v 0) d
    else if priv = 0 then pointCells l 0 none
    else if wOn c (v 0) (v 1) then pointCells l 0 (wScalar c priv (v 0) (v 1))
    else lost 0
  | 0x17 =>
    let r := 1 + Config.random d % (c.n - 1)
    let out := if c.mont then uCell l 0 (mScalar c r c.gx) else pointCells l 0 (wScalar c r c.gx c.gy)
    { out with newKey := some (slotValue r (1 + cmdCurve cmd * 2 ^ 8 + gen * 2 ^ 16)) }
  | 0x18 =>
    if kKind k = 1 then
      (if c.mont then uCell l 0 (mScalar c priv c.gx) else pointCells l 0 pub)
    else if c.mont then uCell l 0 (some (kBytes k % c.p))
    else
      (match decompress c (kBytes k) (kYodd k) with
      | some y => pointCells l 0 (some (kBytes k % c.p, y))
      | none => lost 0)
  | 0x19 => { newKey := some 0 }
  | _ => {}

/-- Cells an operation uses (R340). -/
def cellsUsed (op : Nat) (key : Bool) : Nat :=
  match op with
  | 4 => 2
  | 0x11 => 3
  | 0x12 => 2
  | 0x13 => 2
  | 0x14 => if key then 3 else 5
  | 0x16 => 2
  | 0x17 => 2
  | 0x18 => 2
  | 0x19 => 0
  | _ => 3

/-- Bytes of the operand area an operation uses, from its base. -/
def bytesUsed (s : State) (o : EOp) : Nat :=
  let op := cmdOp o.cmd
  if op = 6 then 8 + 5 * cellLen (cmdSize o.cmd / 2) + cellLen (cmdSize o.cmd)
  else
    let b := if isModular op then cmdSize o.cmd
      else match curveAt s (cmdCurve o.cmd) with | some c => c.pbits | none => 0
    8 + cellsUsed op o.key * cellLen b

/-- Cells an operation reads, from cell 0; Montgomery form works on u alone (R340). -/
def cellsRead (op : Nat) (mont key : Bool) : Nat :=
  match op with
  | 4 => 2
  | 0x10 => if mont then 2 else 3
  | 0x11 => 1
  | 0x12 => if mont then 1 else 2
  | 0x13 => 2
  | 0x14 => if key then 3 else 5
  | 0x15 => 1
  | 0x16 => if mont then 1 else 2
  | 0x17 => 0
  | 0x18 => 0
  | 0x19 => 0
  | _ => 3

/-- First and end offset of what an operation reads: PARAM only where the operation names it (R340). -/
def rangeRead (s : State) (o : EOp) : Nat × Nat :=
  let op := cmdOp o.cmd
  if op = 6 then (0, bytesUsed s o)
  else if isModular op then (if op = 5 then 0 else 8, 8 + cellsRead op false o.key * cellLen (cmdSize o.cmd))
  else match curveAt s (cmdCurve o.cmd) with
    | some c => (8, 8 + cellsRead op c.mont o.key * cellLen c.pbits)
    | none => (8, 8)

/-- An uncorrectable word lies among those the operation of group `b` reads (R341, R346). -/
def badOperand (s : State) (b : Nat) (o : EOp) : Bool :=
  let base := opBase + b * 0x800
  let r := rangeRead s o
  s.ecc.any (fun e => decide (base + r.1 ≤ e.1) && decide (e.1 < base + min r.2 (o.slots * 0x800)) && decide (2 ≤ e.2))

/-- The outcome of the operation in a group (R340, R341, R346). -/
def runOp (s : State) (b : Nat) (o : EOp) : EResult :=
  let base := opBase + b * 0x800
  let r := if isModular (cmdOp o.cmd) then runModular s base o.cmd s.draws
    else
      match curveAt s (cmdCurve o.cmd) with
      | some c => runCurve s base o.cmd c (keyOf s o.coach) (curveGen s (cmdCurve o.cmd)) s.draws o.key
      | none => {}
  let r1 := if o.slots * 0x800 < bytesUsed s o then
      { r with cells := r.cells.map (fun c => (c.1, c.2.1, Config.freeNat s.draws)), flags := Config.freeNat (s.draws + 1) % 8,
               fault := none }
    else r
  if badOperand s b o then { r1 with fault := some 2 } else r1

/-- Record a FAULT (R346). -/
def bneFault (s : State) (b op cause : Nat) : State :=
  let s1 := bumpR s aBneFault 16 16 1
  setR s1 aBneFault (setFld (getR s1 aBneFault) 0 16 (cause * 2 ^ 14 + b * 2 ^ 8 + op))

/-- The completion of a group's operation goes to the Keystone, unless its consignment is no longer the same (R148). -/
def engineDeliver (s : State) (b : Nat) (o : EOp) (w : Word) : State :=
  let s1 := setEop (setResult s b o.slots w) b none
  let k := consOf s1 o.entry
  let s2 := if k.used && k.gen == o.gen && k.done.isNone then deliverCons s1 o.entry 0 (w.zeroExtend 64) 0
    else lateCons s1
  trigger s2 (16 + b)

/-- The running operation of group `b` ends with outcome `r` (R339, R346). A key that it used has fresh shares (R351). -/
def engineFinish (s : State) (b : Nat) (o : EOp) (r : EResult) : State :=
  let base := opBase + b * 0x800
  let s1 := { s with draws := s.draws + 4 }
  let s0 := if o.key && usesKey (cmdOp o.cmd) then setKey s1 o.coach (keyOf s1 o.coach).value else s1
  match r.fault with
  | some cause =>
    let s1 := writeCells s0 base (o.slots * 0x800) (r.cells.map (fun c => (c.1, c.2.1, 0)))
    engineDeliver (bneFault s1 b (cmdOp o.cmd) cause) b o 0x06000000#32
  | none =>
    let s1 := writeCells s0 base (o.slots * 0x800) r.cells
    let s2 := match r.newKey with | some v => setKey s1 o.coach v | none => s1
    engineDeliver s2 b o (u32 r.flags)

/-- The operation with code `op` that runs in group `b` ends; nothing happens when the group does not run it. -/
def engineEnd (s : State) (b op : Nat) : State :=
  match eopOf s b with
  | some o => if o.aborting || cmdOp o.cmd != op then s else engineFinish s b o (runOp s b o)
  | none => s

/-- Whatever operation runs in group `b` ends, with a FAULT of the given cause or correctly. -/
def engineEndAny (s : State) (b : Nat) (fault : Option Nat) : State :=
  match eopOf s b with
  | some o =>
    if o.aborting then s
    else
      let r := runOp s b o
      engineFinish s b o (match fault with | some c => { r with fault := some c } | none => r)
  | none => s

/-! ### Aborts, curve loads, key slots -/

/-- Abort the group of slot `i`: ABORTING at once (R347). -/
def abortGroup (s : State) (i : Nat) : State :=
  match groupOf s i with
  | some (b, o) => setEop s b (some { o with aborting := true })
  | none => s

/-- Abort a curve load in slot `i`: its entry is INVALID with CODE 9 and the slot is ABORTING (R347). -/
def abortLoad (s : State) (i : Nat) : State :=
  match s.bne.cload with
  | some (k, j) =>
    if i = j then
      let c := s.bne.curves.get {} k
      modBne s (fun e => { e with
        cload := none, lab := e.lab ++ [i], curves := e.curves.set {} k { c with state := 3, code := 9 } })
    else s
  | none => s

/-- The overwrite of an aborted group, or of the slot of an aborted curve load, ends (R347 steps 2 to 4). -/
def abortDone (s : State) (b : Nat) : State :=
  match eopOf s b with
  | some o =>
    if o.aborting then
      engineDeliver (clrRange s (opBase + b * 0x800) (opBase + (b + o.slots) * 0x800)) b o 0x0BAD0BAD#32
    else s
  | none =>
    if s.bne.lab.contains b then
      let s1 := modBne (clrRange s (opBase + b * 0x800) (opBase + (b + 1) * 0x800)) (fun e => { e with lab := e.lab.filter (· ≠ b) })
      trigger (setResult s1 b 1 0x0BAD0BAD#32) (16 + b)
    else s

/-- Abort every operation that satisfies `p`. -/
def abortWhere (s : State) (p : EOp → Bool) : State :=
  (List.range 8).foldl (fun t b =>
    match eopOf t b with
    | some o => if p o then setEop t b (some { o with aborting := true }) else t
    | none => t) s

/-- Zeroisation begins (R353). -/
def zeroise (s : State) : State :=
  if s.bne.zeroing then s
  else modBne (orR (abortWhere s (·.key)) aBneZero 1) (fun e => { e with zeroing := true })

/-- Zeroisation ends (R353): every key slot is EMPTY. -/
def zeroiseDone (s : State) : State :=
  if s.bne.zeroing then
    bumpR (clrR (modBne s (fun e => { e with zeroing := false, keys := [] })) aBneZero 1) aBneZero 16 16 1
  else s

/-- A running operation names curve entry `k`. -/
def curveInUse (s : State) (k : Nat) : Bool :=
  s.bne.ops.any (fun e => match e.2 with
    | some o => !o.aborting && isCurveOp (cmdOp o.cmd) && cmdCurve o.cmd == k
    | none => false)

/-- Write of BNE_CLOAD (R350). -/
def writeCload (s : State) (v : Word) : State :=
  let k := fld v 16 4
  let i := fld v 0 3
  let c := s.bne.curves.get {} k
  if k < 4 || s.bne.cload.isSome || c.state == 1 || curveInUse s k || slotState s i != 0 then
    orR s aBneCload 0x80000000#32
  else
    let c1 := { c with state := 1, code := 0, gen := (c.gen + 1) % 256 }
    modBne (clrR s aBneCload 0x80000000#32) (fun e => { e with cload := some (k, i), curves := e.curves.set {} k c1 })

/-- The checks of a curve load end (R350). -/
def curveDone (s : State) : State :=
  match s.bne.cload with
  | none => s
  | some (k, i) =>
    let a := opBase + i * 0x800
    let w := engineRead s a 8 0
    let f := fun k => engineRead s (a + 8 + 72 * k) 72 (k + 1)
    let p : CurveP := ⟨w % 2 ^ 10, w / 2 ^ 12 % 2 == 1, f 0, f 1, f 2, f 3, f 4, f 5⟩
    let h := w / 2 ^ 16 % 16
    let reserved := w != w % 2 ^ 10 + w / 2 ^ 12 % 2 * 2 ^ 12 + h * 2 ^ 16
    let code := curveCheck p reserved h
    let c := s.bne.curves.get {} k
    let c1 : Curve := ⟨if code = 0 then 2 else 3, p.mont, code, c.gen, p.pbits, p.p, p.a, p.b, p.gx, p.gy, p.n⟩
    trigger (modBne { s with draws := s.draws + 7 } (fun e => { e with cload := none, curves := e.curves.set {} k c1 })) 24

/-- A running operation uses key slot `c`. -/
def keyInUse (s : State) (c : Nat) : Bool :=
  s.bne.ops.any (fun e => match e.2 with
    | some o => !o.aborting && o.key && (usesKey (cmdOp o.cmd) || keyOnly (cmdOp o.cmd)) && o.coach == c
    | none => false)

/-- BNKLD: load key slot `c` from the 80 bytes at `a`, or refuse (R353). -/
def loadKey (s0 : State) (a c : Nat) : State :=
  let s := { s0 with draws := s0.draws + 2 }
  let d := BitVec.ofNat 64 (engineRead s0 (a + 72) 8 0)
  let bad : Bool := decide (2 < d.toNat % 16) || (d &&& 0xFFFFFFFFFF00F0E0#64) != 0
  let i := (a - opBase) / 0x800
  let j := (a + 79 - opBase) / 0x800
  let why := if bad then 1 else if keyInUse s c then 2 else if slotState s i ≠ 0 ∨ slotState s j ≠ 0 then 3
    else if s.bne.zeroing then 4 else 0
  if why ≠ 0 then setR s aBneKld (u32 (2 ^ 31 + why * 2 ^ 28 + c))
  else
    clrRange (setR (setKey s c (slotValue (engineRead s0 a 72 1) d.toNat)) aBneKld (u32 c)) a (a + 80)

/-- Slot status word of BNPOLL: the state code of R334 in [1:0]. -/
def pollWord (s : State) (i : Nat) : Word := u32 (slotState s i)

/-- Operations and curve loads that run (BNE_STATUS.RUN). -/
def runCount (s : State) : Nat :=
  (s.bne.ops.filter (fun e => match e.2 with | some o => !o.aborting | none => false)).length + b2n s.bne.cload.isSome

/-- BNE_KDESC[c] as read (R351). -/
def kdescWord (s : State) (c : Nat) : Word := u32 (kDesc (keyOf s c))

/-- An L0 restart aborts every operation and discards its completion (R354). -/
def abortAll (s : State) : State := abortWhere s (fun _ => true)

end Sys2Proof.Machine
end

