-- ==== Sys2Proof/Machine/Policy.lean ====
section
/-! DEFINITION. The supervised outputs (spec/08 R226 to R231) and the attack policy (spec/09 R256, R257). -/

namespace Sys2Proof.Machine

/-! ### Lanes at positions -/

/-- The lane that votes or compares at position `p` (R234). -/
def laneAt (s : State) (p : Nat) : Option Nat :=
  [0, 1, 2, 3].find? (fun n => ((laneOf s n).role == .voter || (laneOf s n).role == .pair) && (laneOf s n).pos == p)

/-- The enable lines are driven: a lane set exists (R227). -/
def driven (s : State) : Bool := s.up && s.lnc.set != .failstop

/-- The positions that a lane occupies (R234). -/
def occupied (s : State) : List Nat := [0, 1, 2].filter (fun p => (laneAt s p).isSome)

/-! ### Outputs -/

/-- Command latch of channel `n` (R227). -/
def latchOf (s : State) (n : Nat) : Bool := s.mls.latch.getLsbD n

/-- Enable line of channel `n` at position `p` (SVO_STAT.EN): the enable copy of the lane there; a position that no lane
occupies drives none. -/
def enLine (s : State) (n p : Nat) : Bool :=
  driven s && (match laneAt s p with
    | some l => (laneOf s l).enable.getLsbD n
    | none => false)

/-- The pad vote of channel `n` (R227): 2 of 3 enable lines in TRIPLEX, both lines of a set or pair of two lanes. -/
def padVote (s : State) (n : Nat) : Bool := decide (2 ≤ ((occupied s).filter (enLine s n)).length)

/-- The pad of channel `n` is ON: latch ON, pad vote passed, no dark pulse (R226 to R228). -/
def padOn (s : State) (n : Nat) : Bool := latchOf s n && padVote s n && s.mls.dark != some n

/-- Enable copies with bit `n` set or cleared. -/
def withEnable (e : BitVec 4) (n : Nat) (on : Bool) : BitVec 4 :=
  if on then e ||| BitVec.ofNat 4 (2 ^ n) else e &&& ~~~(BitVec.ofNat 4 (2 ^ n))

/-- Every lane of the set or pair sets its enable copy of channel `n` (R227). -/
def enableAll (s : State) (n : Nat) (on : Bool) : State :=
  [0, 1, 2, 3].foldl (fun t l =>
    if (laneOf t l).role == .voter || (laneOf t l).role == .pair then
      modLane t l (fun x => { x with enable := withEnable x.enable n on })
    else t) s

/-- Set a command latch and the lanes' enable copies of it (R227, R229): a change gives an OUTPUT record, and OFF ends a dark pulse of the channel. -/
def setLatch (s : State) (n : Nat) (on : Bool) (cause coach : Nat) : State :=
  let s0 := enableAll (if !on && s.mls.dark == some n then modMls s (fun m => { m with dark := none }) else s) n on
  if latchOf s0 n = on then s0
  else
    let s1 := modMls s0 (fun x => { x with latch := withEnable x.latch n on })
    queueStamp s1 ⟨s1.mls.time, s1.cycles, 2, stampFlags s1 false, n, BitVec.ofNat 64 (b2n on + 2 * cause + coach * 2 ^ 16)⟩

/-- The outputs are held safe (R230). -/
def holdOutputs (s : State) : State :=
  let s1 := [0, 1, 2, 3].foldl
    (fun t n => if bit (getR t (aSvoCfg + 4 * n)) 1 then t else setLatch t n false 1 0) s
  orR s1 aSvoCtl 1

/-- The outputs are held safe now. -/
def held (s : State) : Bool := bit (getR s aSvoCtl) 0

/-- Some channel that a SVO_CMD value selects refuses the ring (SVO_CMD's field table). -/
def svoDenied (s : State) (v : Word) (ring : Nat) : Bool :=
  [0, 1, 2, 3].any (fun n => bit v (16 + n) && decide (fld (getR s (aSvoCfg + 4 * n)) 2 2 < ring))

/-- A write of SVO_CMD that passed the MINRING check (R227, R230). -/
def svoCommand (s : State) (v : Word) (coach : Nat) : State :=
  if held s then s
  else [0, 1, 2, 3].foldl (fun t n => if bit v (16 + n) then setLatch t n (bit v n) 0 coach else t) s

/-- SVO_CTL.RELEASE (R230). -/
def svoRelease (s : State) : State :=
  if held s then
    [0, 1, 2, 3].foldl (fun t n =>
      if latchOf t n then
        queueStamp t ⟨t.mls.time, t.cycles, 2, stampFlags t false, n, BitVec.ofNat 64 5⟩ else t) (clrR s aSvoCtl 1)
  else s

/-- Write of SVO_CFG[n]: MINRING and SAFE are kept while the latch is ON. -/
def writeSvoCfg (s : State) (n : Nat) (v : Word) : State :=
  let a := aSvoCfg + 4 * n
  if latchOf s n then setR s a (setBit (getR s a) 0 (bit v 0)) else setR s a (v &&& 0xF#32)

/-- SVO_STAT[n] as read. -/
def svoStatWord (s : State) (n : Nat) : Word :=
  getR s (aSvoStat + 4 * n) ||| u32 (b2n (enLine s n 2) * 2 ^ 10 + b2n (enLine s n 1) * 2 ^ 9
    + b2n (enLine s n 0) * 2 ^ 8 + b2n (padOn s n) * 2 ^ 7 + b2n (latchOf s n))

/-- SVO_CMD as read. -/
def svoCmdWord (s : State) : Word := s.mls.latch.zeroExtend 32

/-- One loop fault of channel `n` (R228): flag bit `i` of SVO_STAT, 1 OPEN to 5 STUCK. -/
def loopFault (s : State) (n i : Nat) : State :=
  trigger (bumpR (orR s (aSvoStat + 4 * n) (u32 (2 ^ i))) aSvoFcnt 0 32 1) (29 + n)

/-- The loop faults a check found: bit i of `f` is flag i + 1 (R228). -/
def loopFaults (s : State) (n : Nat) (f : BitVec 5) : State :=
  [0, 1, 2, 3, 4].foldl (fun t i => if f.getLsbD i then loopFault t n (i + 1) else t) s

/-! ### Attack policy -/

/-- The actions of an attack declaration (R257). -/
def attack (s : State) : State :=
  let p := getR s aKeyPolicy
  let acts := fld p 24 4
  let w := getR s aKeyAttack
  let n := satAdd 65535 (fld w 0 16) 1
  let s1 := setR s aKeyAttack (u32 (2 ^ 31 + acts * 2 ^ 24 + n))
  let s2 := if bit p 24 then zeroise s1 else s1
  let s3 := if bit p 26 then holdOutputs s2 else s2
  let s4 := if bit p 25 then trigger s3 2 else s3
  if bit p 27 then orR s4 aZwLifecycle 0x80000000#32 else s4

/-- An attack is declared when the count of the window exceeds THRESH, with THRESH not 0 and DECL 0 (R257). -/
def attackDue (s : State) : State :=
  let lim := fld (getR s aKeyPolicy) 0 12
  if lim ≠ 0 ∧ lim < fld (getR s aKeyPcount) 0 12 ∧ bit (getR s aKeyAttack) 31 = false then attack s else s

/-- Add 1 to the policy count under class `k` of KEY_PCLASS (R256), and declare an attack when the count exceeds THRESH
(R257). -/
def policy (s : State) (k : Nat) : State :=
  let w := getR s aKeyPcount
  let c := satAdd 0xFFF (fld w 0 12) 1
  let s1 := setR s aKeyPcount (setFld (setFld w 0 12 c) 16 12 (max c (fld w 16 12)))
  attackDue (bumpR s1 aKeyPclass (4 * k) 4 1)

/-- Classes of KEY_PCLASS. -/
abbrev pcLANE : Nat := 0
abbrev pcMORTAR : Nat := 1
abbrev pcTABLE : Nat := 2
abbrev pcEVC : Nat := 3
abbrev pcMLS : Nat := 4
abbrev pcSVO : Nat := 5
abbrev pcMESH : Nat := 6
abbrev pcSENSOR : Nat := 7

/-- A policy window ends (R256). -/
def policyWindow (s : State) : State := setR s aKeyPcount (setFld (getR s aKeyPcount) 0 12 0)

/-- Write of KEY_POLICY: the other fields first, then PLOCK; a WINDOW of 0 stores 1. A lower THRESH may declare an attack
(R257). -/
def writePolicy (s : State) (v : Word) : State :=
  if bit (getR s aKeyPolicy) 31 then s
  else
    let w := v &&& 0x8FFFFFFF#32
    attackDue (setR s aKeyPolicy (if fld w 12 12 = 0 then setFld w 12 12 1 else w))

/-- The enable line of channel `n` at position `p` changes without a command (R227): VDIS and the policy count when it now
disagrees with the line of another position. -/
def enableDisagreement (s : State) (n p : Nat) : State :=
  match laneAt s p with
  | none => s
  | some l =>
    let s1 := modLane s l (fun x => { x with enable := withEnable x.enable n (!x.enable.getLsbD n) })
    if (occupied s1).any (fun q => enLine s1 n q != enLine s1 n p) then
      policy (orR s1 (aSvoStat + 4 * n) 0x40#32) pcSVO
    else s1

/-- A fault of mesh pair `k` (R231): `short` or open. -/
def meshFault (s : State) (k : Nat) (short : Bool) : State :=
  let s1 := orR s aTmpStat (u32 (2 ^ (k + if short then 8 else 0)))
  let s2 := trigger (bumpR s1 aTmpFcnt 0 32 1) 33
  if bit (getR s2 aTmpCtl) 8 then policy s2 pcMESH else s2

/-- One check of mesh pair `k` (R231): two failing checks in a row set OPEN, an input that follows another line sets
SHORT. -/
def meshPair (s : State) (bad short : BitVec 8) (k : Nat) : State :=
  if bit (getR s aTmpCtl) k then
    let n := s.mls.mesh.get 0 k
    let s1 := modMls s (fun m => { m with mesh := m.mesh.set 0 k (if bad.getLsbD k then 1 else 0) })
    let s2 := if bad.getLsbD k && n == 1 then meshFault s1 k false else s1
    if short.getLsbD k then meshFault s2 k true else s2
  else modMls s (fun m => { m with mesh := m.mesh.set 0 k 0 })

/-- One check of the mesh: `bad` and `short` are what the comparison of each pair finds (R231). -/
def meshCheck (s : State) (bad short : BitVec 8) : State :=
  (List.range 8).foldl (fun t k => meshPair t bad short k) s

end Sys2Proof.Machine
end

