-- ==== Sys2Proof/Machine/Stele.lean ====
section
/-! DEFINITION. The stele (spec/12): regions, reads and writes of words, wear and remapping, configuration and
calibration records. -/

namespace Sys2Proof.Machine

def steleBase : Nat := 0x20000000

/-! ### Admission (R297) -/

/-- Highest ring that may load at an address of the stele. -/
def steleLoadRing (a : Nat) : Nat :=
  let o := a - steleBase
  if o < 0x5400 then 1 else if o < 0x9400 then 0 else 3

/-- May a ring store at an address of the stele? -/
def steleStoreOk (s : State) (a ring : Nat) : Bool :=
  let o := a - steleBase
  if o < 0x2000 then false
  else if o < 0x5000 then ring == 0
  else if o < 0x5400 then false
  else if o < 0x9400 then ring == 0
  else if o < 0x19400 then false
  else decide (ring ≤ fld (getR s aStlCfg) 24 2)

/-! ### Words (R298, R299) -/

/-- Count and record a read finding (R298); `copy` for one of a remap (R304). -/
def steleFinding (s : State) (w : Nat) (unc copy : Bool) : State :=
  let s1 := bumpR s aStlEcc (if unc then 16 else 0) 16 1
  setR s1 aStlEccaddr (u32 (b2n unc * 2 ^ 31 + b2n copy * 2 ^ 30 + (w - steleBase) / 8))

/-- Read check of the word at `w`; false when it is uncorrectable. The stored word is not rewritten. -/
def steleCheck (s : State) (w : Nat) : State × Bool :=
  match eccAt s w with
  | 0 => (s, true)
  | 1 => (steleFinding s w false false, true)
  | _ => (steleFinding s w true false, false)

/-- A naturally aligned read: status and data. -/
def steleRead (s : State) (a n : Nat) : State × BitVec 3 × Nat :=
  let (s1, ok) := steleCheck s (a / 8 * 8)
  if ok then (s1, 0, rdN s a n) else (s1, 2, 0)

/-- A row is marked weak (R303). -/
def markWeak (s : State) (r : Nat) : State :=
  trigger (setR (orR s (aStlRow + 4 * r) 0x80000000#32) aStlRowlast (u32 (2 ^ 30 + r))) 10

/-- The row's retry count exceeds WEAKN and it is not marked yet. -/
def newlyWeak (s : State) (r : Nat) : Bool :=
  let w := getR s (aStlRow + 4 * r)
  !bit w 31 && decide (fld (getR s aStlCfg) 0 16 < fld w 0 16)

/-- Mark every row whose count exceeds WEAKN, in increasing row number. -/
def markRows (s : State) : State :=
  ((s.csr.map (·.1)).filter (fun a => decide (aStlRow ≤ a) && decide (a < aStlRow + 4096))).foldl
    (fun t a => let r := (a - aStlRow) / 4; if newlyWeak t r then markWeak t r else t) s

/-- Account for the retries of a word write (R299 step 2). -/
def slowWrite (s : State) (w retries : Nat) : State :=
  if retries = 0 then s
  else
    let r := (w - steleBase) / 256
    let s1 := bumpR (bumpR s aStlSlow 0 32 1) (aStlRow + 4 * r) 0 16 1
    if newlyWeak s1 r then markWeak s1 r else s1

/-- A write of the word at `w` ends what an earlier failure or copy had said of it (R304, R313). -/
def rewritten (s : State) (w : Nat) : State :=
  { s with stl := { s.stl with
    bad := s.stl.bad.filter (· != w)
    lost := s.stl.lost.filter (fun c => w / 0x800 != (if c = 1 then 0x40008 else 0x40009)) } }

/-- Write the word at `w`: it needed `retries` retries, and fails when that is more than 4 (R299). The answer says
whether it was verified. -/
def steleWord (s : State) (w : Nat) (v : Nat) (retries : Nat) : State × Bool :=
  let s1 := rewritten (slowWrite s w retries) w
  if 4 < retries then
    let (d, s2) := freeD s1
    let s3 := bumpR (setEcc (wr64 s2 w d) w 0) aStlWrfail 16 16 1
    (setR s3 aStlWrfail (setFld (getR s3 aStlWrfail) 0 15 ((w - steleBase) / 8)), false)
  else (setEcc (wrN s1 w 8 v) w 0, true)

/-- A naturally aligned store (R299): status 2 on WRFAIL, and on a merge with an uncorrectable word. -/
def steleStore (s : State) (a n v retries : Nat) : State × BitVec 3 :=
  let w := a / 8 * 8
  if n = 8 then
    let (s1, ok) := steleWord s w v retries
    (s1, if ok then 0 else 2)
  else
    let (s1, good) := steleCheck s w
    if good then
      let sh := 2 ^ (8 * (a - w))
      let old := rdN s1 w 8
      let m := (old / sh) % 2 ^ (8 * n)
      let (s2, ok) := steleWord s1 w (old - m * sh + v % 2 ^ (8 * n) * sh) retries
      (s2, if ok then 0 else 2)
    else (s1, 2)

/-- Word writes in order, each with its number of retries, stopping at the first that fails. -/
def steleSeq : List (Nat × Nat) → List Nat → State → State × Bool
  | [], _, s => (s, true)
  | (w, v) :: r, ts, s =>
    let (s1, ok) := steleWord s w v (ts.headD 0)
    if ok then steleSeq r ts.tail s1 else (s1, false)

/-- A store whose number of retries no command states: it is a free value (R299). -/
def steleLater (s : State) (a : SAcc) : State :=
  let (d, s1) := freeD s
  (steleStore s1 a.addr a.size a.data (d.toNat % 6)).1

/-- The interface rewrites slot `k` of the journal as DONE (R329 step 2), once no hold-up lasts (R301); WRFAIL ends as R326 has
it of a slot. -/
def recoverDone (s : State) (k q sec : Nat) : State :=
  if holdup s then modFli s (fun f => { f with redo := f.redo ++ [(k, q, sec)] })
  else
    let (d, s1) := freeD s
    let (s2, ok) := steleWord s1 (journalAddr k) (journalWord 0x5D q sec) (d.toNat % 6)
    if ok then s2 else fliError s2 10 (flashBase + 4096 * sec)

/-- The slots that a hold-up kept from being rewritten are. -/
def redoSlots (s : State) : State :=
  if holdup s then s
  else s.fli.redo.foldl (fun t k => recoverDone t k.1 k.2.1 k.2.2) (modFli s (fun f => { f with redo := [] }))

/-- Recover one BEGIN slot (R329): DONE when the sector passes, otherwise it is half-erased and queued for its
re-erase. `bad` says that the margin read of the sector fails. -/
def recoverSlot (bad : Nat → Bool) (s : State) (k : Nat) : State :=
  let (kind, q, sec) := journalSlot s k
  if kind ≠ 0x5B then s
  else if sectorErased s sec && !bad sec then recoverDone s k q sec
  else
    let s1 := bumpR s aFliHalf 16 16 1
    let s2 := setR s1 aFliHalf (setFld (getR s1 aFliHalf) 0 14 sec)
    let s3 := trigger (fliCode s2 11 (flashBase + 4096 * sec)) 14
    modFli s3 (fun f => { f with repair := f.repair ++ [(k, q, sec)] })

/-- The reads of `n` words from `a` (R298): what each finds is counted and recorded. -/
def readWords (s : State) (a n : Nat) : State :=
  (s.ecc.filter (fun e => decide (a ≤ e.1) && decide (e.1 < a + 8 * n))).foldl
    (fun t e => steleFinding t e.1 (decide (2 ≤ e.2)) false) s

/-- The journal is read at reset, and half-erased sectors are erased again (R298, R329). -/
def scanJournal (bad : Nat → Bool) (s0 : State) : State :=
  let s := readWords s0 0x20005000 128
  let s1 := modFli s (fun f => { f with jnew := newestJournal s })
  nextRepair ((List.range 128).foldl (recoverSlot bad) s1)

/-! ### Turns (R300, R301)

One command performs one operation of the stele, or those that its row of the table joins: a record of the ledger, the
clear, a row copy. DESIGN CHOICE, log entry 74. A command for a requester whose turn it is not changes nothing. -/

def ledgerReady (s : State) : Bool := bit (getR s aMlsLstat) 31
def ledgerClearing (s : State) : Bool := bit (getR s aMlsLctl) 0

/-- The erase-journal writer waits for a write that may start. -/
def journalWaits (s : State) : Bool :=
  !holdup s && (match s.fli.era with | some o => o.begin_ || s.fli.fin.isSome | none => false)

/-- Stele accesses that stalled coaches wait for, in the order of issue. -/
def steleQueue (s : State) : List (Who × SAcc) :=
  ((stalls s).mergeSort (fun a b => decide (a.2.order ≤ b.2.order))).filterMap (fun e => e.2.stele.map (fun a => (e.1, a)))

/-- The access the Keystone has served next: during the hold-up the first read. -/
def keystoneNext (s : State) : Option (Who × SAcc) := (steleQueue s).find? (fun e => !(e.2.write && holdup s))

/-- The ledger writer waits for a write that may start. -/
def ledgerWaits (s : State) : Bool := !holdup s && ledgerReady s && (ledgerClearing s || !s.mls.sq.isEmpty)

/-- A record of the ledger has the next turn: the Keystone had the last, and the two alternate. The words of a clear take such
turns with the Keystone's accesses (`clearTurn`). -/
def ledgerFirst (s : State) : Bool := ledgerWaits s && s.stl.last && !ledgerClearing s

/-- The next turn is the Keystone's: after the journal, and in turn with the ledger writer. -/
def mayKeystone (s : State) : Bool :=
  !journalWaits s && (s.stl.late.isEmpty || holdup s) && !ledgerFirst s

/-- The next turn is the ledger writer's. -/
def mayLedger (s : State) : Bool :=
  !journalWaits s && ledgerWaits s && (((keystoneNext s).isNone && s.stl.late.isEmpty) || s.stl.last)

/-- The next turn is the calibration restore's. -/
def mayRestore (s : State) : Bool :=
  !holdup s && !journalWaits s && (keystoneNext s).isNone && !ledgerWaits s

/-- The next turn is the row copy's. -/
def mayCopy (s : State) : Bool := mayRestore s && s.stl.restore.isNone

/-- Who of the two had the last turn. -/
def tookTurn (s : State) (keystone : Bool) : State := { s with stl := { s.stl with last := keystone } }

def ledgerAddr (k : Nat) : Nat := 0x20009400 + 32 * k

/-- The next `n` words of the ledger clear are written with 0 (R225). After the last the writer restarts. -/
def clearWords (s : State) (n : Nat) : State :=
  let k := s.mls.cleared
  let s1 := ((List.range' k (min n (8192 - k))).map (fun i => ⟨ledgerAddr 0 + 8 * i, 8, true, false, 0⟩)).foldl steleLater
    (tookTurn s false)
  if k + n < 8192 then modMls s1 (fun m => { m with cleared := k + n })
  else modMls (clrR s1 aMlsLctl 1) (fun m => { m with cleared := 0, lhead := 0, lseq := 1, lchain := 0 })

/-- The clear has the turn before an access of the Keystone that follows another (R300). -/
def clearTurn (s : State) : State :=
  if ledgerWaits s && ledgerClearing s && s.stl.last then clearWords s 1 else s

/-- The first `n` waiting writes without a waiting requester take place, as far as it is their turn. -/
def flushSome : Nat → State → State
  | 0, s => s
  | n + 1, s =>
    match s.stl.late with
    | [] => s
    | a :: r =>
      if ledgerFirst s then s
      else
        let t := clearTurn s
        flushSome n (steleLater (tookTurn { t with stl := { t.stl with late := r } } true) a)

/-- The waiting writes without a waiting requester take their turns, after a journal write that waits and once no hold-up
lasts. -/
def flushLate (s : State) : State := if holdup s || journalWaits s then s else flushSome s.stl.late.length s

/-- A write whose requester does not wait for it. -/
def lateWrite (s : State) (a : SAcc) : State :=
  if a.write then flushLate { s with stl := { s.stl with late := s.stl.late ++ [a] } } else s

/-! ### Remapping (R303 to R305) -/

def spareRows (s : State) : Nat := fld (getR s aStlStatus) 0 7
def remapping (s : State) : Bool := bit (getR s aStlStatus) 30

/-- The weak row that is remapped next. -/
def nextWeak (s : State) : Option Nat :=
  (List.range 1024).find? (fun r => bit (getR s (aStlRow + 4 * r)) 31)

/-- The copy of the next weak row into a free spare (R304 steps 1 to 3): uncorrectable words stay so and are counted. -/
def remapCopy (s : State) : State :=
  if remapping s || spareRows s == 0 || !mayCopy s then s
  else
    match nextWeak s with
    | none => s
    | some r =>
      let s1 := setR s aStlStatus (setFld (setBit (getR s aStlStatus) 30 true) 16 10 r)
      (List.range 32).foldl (fun t i =>
        let w := steleBase + 256 * r + 8 * i
        if 2 ≤ eccAt t w then
          let u := steleFinding t w true true
          { u with stl := { u.stl with bad := u.stl.bad ++ [w] } }
        else t) { s1 with stl := { s1.stl with bad := [] } }

/-- The commit of a remap (R304 step 4, R305). The row then holds what the spare does: each word good, but for those copied
as uncorrectable and not written since. -/
def remapCommit (s : State) : State :=
  if remapping s && mayCopy s then
    let st := getR s aStlStatus
    let r := fld st 16 10
    let free := fld st 0 7
    let s1 := setR s (aStlRow + 4 * r) (u32 (2 ^ 30 + (64 - free) % 64 * 2 ^ 24))
    let s2 := setR s1 aStlStatus (setFld (setFld (setBit st 30 false) 16 10 0) 0 7 (free - 1))
    let s3 := (List.range 32).foldl (fun t i =>
      let w := steleBase + 256 * r + 8 * i
      if s2.stl.bad.contains w then t else setEcc t w 0) s2
    let s4 := trigger (setR s3 aStlRowlast (u32 (2 ^ 31 + r))) 11
    if free - 1 ≤ fld (getR s4 aStlCfg) 16 6 then trigger s4 12 else s4
  else s

/-- Write of STL_CFG: a WEAKN of 0 stores 1. The marks that a lower WEAKN makes are writes, which the hold-up holds back. -/
def writeStlCfg (s : State) (v : Word) : State :=
  let w := v &&& 0x033FFFFF#32
  let t := setR s aStlCfg (if fld w 0 16 = 0 then setFld w 0 16 1 else w)
  if holdup t then t else markRows t

/-! ### Configuration (R306 to R309) -/

def cfgAddr (b : Bool) : Nat := if b then 0x20003000 else 0x20002000

/-- No word of the record is uncorrectable. -/
def steleClean (s : State) (a n : Nat) : Bool :=
  s.ecc.all (fun e => decide (e.1 < a) || decide (a + n ≤ e.1) || decide (e.2 < 2))

/-- The checks of R307 on a record with the given MAGIC, length limits and COMMIT offset. -/
def recordOk (s : State) (a magic lo hi commit : Nat) : Bool :=
  let h := rdN s a 8
  let c := rdN s (a + commit) 8
  let len := h / 2 ^ 32 % 2 ^ 16
  h / 2 ^ 48 == magic && decide (lo ≤ len) && decide (len ≤ hi) && c / 2 ^ 32 == h % 2 ^ 32
    && c % 2 ^ 32 == (crc32 (bytesAt s a (8 * len + 8))).toNat && steleClean s a (8 * len + 8) && eccAt s (a + commit) != 2

/-- The words that the checks of a record read: its header, and the rest when MAGIC and LEN are right. Which words are read
once one of these is wrong the spec does not say: DESIGN CHOICE, log entry 75. -/
def readRecord (s : State) (a magic lo hi commit : Nat) : State :=
  let h := rdN s a 8
  let len := h / 2 ^ 32 % 2 ^ 16
  let s1 := readWords s a 1
  if h / 2 ^ 48 == magic && decide (lo ≤ len) && decide (len ≤ hi) then readWords (readWords s1 (a + 8) len) (a + commit) 1
  else s1

/-- SEQ of the record at `a`. -/
def recordSeq (s : State) (a : Nat) : Nat := rdN s a 4

/-- Copy B or A of the configuration is valid (R307). -/
def cfgValid (s : State) (b : Bool) : Bool :=
  let w := rdN s (cfgAddr b + 8) 8
  recordOk s (cfgAddr b) 0xC0F6 1 510 0xFF8 && w / 2 ^ 32 == 0 && w / 2 ^ 21 % 2 ^ 10 == 0 && w / 2 % 2 ^ 15 == 0

/-- The choice between two copies (R308): copy B is used. -/
def chooseB (va vb : Bool) (sa sb : Nat) : Bool := vb && (!va || newerSeq sb sa)

/-- The reads of a validation of the configuration copies. -/
def readCfg (s : State) : State :=
  readRecord (readRecord s (cfgAddr false) 0xC0F6 1 510 0xFF8) (cfgAddr true) 0xC0F6 1 510 0xFF8

/-- VALIDA, VALIDB and NEXT of CFG_STATUS (R309). -/
def scanConfig (s0 : State) : State :=
  let s := readCfg s0
  let va := cfgValid s false
  let vb := cfgValid s true
  let nb := chooseB va vb (recordSeq s (cfgAddr false)) (recordSeq s (cfgAddr true))
  let w := getR s aCfgStatus
  setR s aCfgStatus (setBit (setBit (setBit w 30 vb) 29 va) 27 nb)

/-- The selection at reset (R308): the HW0 word applied. -/
def selectConfig (s : State) : State × Nat :=
  let s1 := scanConfig s
  let w := getR s1 aCfgStatus
  let b := bit w 27
  if bit w 29 || bit w 30 then
    let s2 := setR s1 aCfgStatus (setBit (setBit w 31 false) 28 b)
    (setR s2 aCfgSeq (u32 (recordSeq s (cfgAddr b))), rdN s (cfgAddr b + 8) 4)
  else
    (trigger (setR (setR s1 aCfgStatus (setBit (setBit w 31 true) 28 false)) aCfgSeq 0) 37, 0)

/-- CFG_CTL.SCAN, and its end (R309). -/
def scanStart (s : State) : State := orR s aCfgCtl 1
def scanDone (s : State) : State := if bit (getR s aCfgCtl) 0 then clrR (scanConfig s) aCfgCtl 1 else s

/-! ### Calibration (R310 to R314) -/

/-- The fields of trim words 1 to 8 (R310): low bit, width, signed. -/
def trimFields : Nat → List (Nat × Nat × Bool)
  | 1 => [(0, 8, false), (8, 8, false), (16, 8, false), (24, 8, false), (32, 8, false)]
  | 2 => (List.range 13).map (fun c => (4 * c, 4, false))
  | 3 => [(0, 8, false), (8, 8, false), (16, 8, false)]
  | 4 => [(0, 16, true), (16, 16, false)]
  | 5 => [(0, 8, false), (8, 8, false)]
  | 6 => [(0, 8, false), (8, 8, false)]
  | 7 => [(0, 6, false)]
  | 8 => [(0, 8, false)]
  | _ => []

/-- A field's code. -/
def trimCode (w : DWord) (f : Nat × Nat × Bool) : Int :=
  let n := w.toNat / 2 ^ f.1 % 2 ^ f.2.1
  if f.2.2 && decide (2 ^ (f.2.1 - 1) ≤ n) then (n : Int) - 2 ^ f.2.1 else n

/-- Place a code in a trim word. -/
def putTrim (w : DWord) (f : Nat × Nat × Bool) (c : Int) : DWord :=
  let old := w.toNat / 2 ^ f.1 % 2 ^ f.2.1
  BitVec.ofNat 64 (w.toNat - old * 2 ^ f.1 + (c % 2 ^ f.2.1).toNat * 2 ^ f.1)

/-- Mid-range code of a field. -/
def midCode (f : Nat × Nat × Bool) : Int := if f.2.2 then 0 else 2 ^ (f.2.1 - 1)

/-- One word with every field at its mid-range code. -/
def midWord (k : Nat) : DWord := (trimFields k).foldl (fun w f => putTrim w f (midCode f)) 0

/-- Only the listed fields of a trim word. -/
def trimOnly (k : Nat) (w : DWord) : DWord := (trimFields k).foldl (fun x f => putTrim x f (trimCode w f)) 0

def trimIdx : List Nat := [1, 2, 3, 4, 5, 6, 7, 8]

def calAddr (src : Nat) : Nat := if src = 0 then 0x20001000 else if src = 1 then 0x20004000 else 0x20004800

/-- Trim words of the record with SRC code `src`. -/
def calWords (s : State) (src : Nat) : List DWord := trimIdx.map (fun k => trimOnly k (rd64 s (calAddr src + 8 * k)))

def factoryOk (s : State) : Bool := recordOk s (calAddr 0) 0xCA1B 8 8 0xFF8

/-- Every field lies within 16 codes of the factory record's (R311). -/
def nearFactory (s : State) (src : Nat) : Bool :=
  trimIdx.all (fun k => (trimFields k).all (fun f =>
    decide ((trimCode (rd64 s (calAddr src + 8 * k)) f - trimCode (rd64 s (calAddr 0 + 8 * k)) f).natAbs ≤ 16)))

/-- A user copy is valid (R311), and is not one that a failed restore left invalid (R313). -/
def userOk (s : State) (src : Nat) : Bool :=
  recordOk s (calAddr src) 0xCA1B 8 8 0x7F8 && factoryOk s && nearFactory s src && !s.stl.lost.contains src

/-- The reads of a validation of the calibration record `src`. -/
def readCal (s : State) (src : Nat) : State := readRecord s (calAddr src) 0xCA1B 8 8 (if src = 0 then 0xFF8 else 0x7F8)

/-- Trim word `k` in force. -/
def trimNow (s : State) (k : Nat) : DWord := mkD (getR s (aCalTrimHi + 8 * k)) (getR s (aCalTrimLo + 8 * k))

def setTrim (s : State) (k : Nat) (w : DWord) : State :=
  setR (setR s (aCalTrimLo + 8 * k) (loW w)) (aCalTrimHi + 8 * k) (hiW w)

/-- Put all trim words in force at once. -/
def setTrims (s : State) (ws : List DWord) : State := (trimIdx.zip ws).foldl (fun t e => setTrim t e.1 e.2) s

/-- VALIDA and VALIDB of CAL_STATUS. -/
def noteValid (s : State) : State :=
  setR s aCalStatus (setBit (setBit (getR s aCalStatus) 26 (userOk s 1)) 25 (userOk s 2))

/-- VALIDA or VALIDB after the validation of one copy. -/
def noteOne (s : State) (src : Nat) : State :=
  setR s aCalStatus (setBit (getR s aCalStatus) (if src = 1 then 26 else 25) (userOk s src))

/-- SRC and CAL_SEQ name a record. -/
def nameCal (s : State) (src seq : Nat) : State :=
  setR (setR s aCalStatus (setFld (getR s aCalStatus) 27 2 src)) aCalSeq (u32 (if src = 0 then 0 else seq))

/-- The selection at reset (R311). -/
def selectCal (s0 : State) : State :=
  let s := readCal (readCal (readCal s0 0) 1) 2
  let s1 := noteValid s
  let va := userOk s 1
  let vb := userOk s 2
  let src := if va || vb then (if chooseB va vb (recordSeq s (calAddr 1)) (recordSeq s (calAddr 2)) then 2 else 1) else 0
  let s2 := nameCal s1 src (recordSeq s (calAddr src))
  if src = 0 && !factoryOk s then
    setTrims (setR s2 aCalStatus (setBit (getR s2 aCalStatus) 29 true)) (trimIdx.map midWord)
  else setTrims s2 (calWords s src)

/-- A field one code nearer to its target. -/
def stepCode (now to_ : Int) : Int := if now < to_ then now + 1 else if to_ < now then now - 1 else now

/-- May field `f` of word `k` move (R312)? The lane-set oscillators move one at a time, oscillator 0 first. -/
def mayMove (k : Nat) (f : Nat × Nat × Bool) (now to_ : DWord) : Bool :=
  k != 1 || decide (24 ≤ f.1) ||
    ((trimFields 1).filter (fun g => decide (g.1 < f.1))).all (fun g => trimCode now g == trimCode to_ g)

/-- One 10 µs step of a trim word. -/
def stepWord (k : Nat) (now to_ : DWord) : DWord :=
  (trimFields k).foldl (fun w f =>
    if mayMove k f now to_ then putTrim w f (stepCode (trimCode now f) (trimCode to_ f)) else w) now

/-- The apply ends when every field has arrived (R312). -/
def applyEnd (s : State) : State :=
  match s.stl.apply with
  | some (src, seq, ws) =>
    if (trimIdx.zip ws).all (fun e => trimNow s e.1 == e.2) then
      let s1 := { s with stl := { s.stl with apply := none } }
      nameCal (setR s1 aCalStatus (setBit (getR s1 aCalStatus) 31 false)) src seq
    else s
  | none => s

def calBusy (s : State) : Bool := bit (getR s aCalStatus) 31
def calErr (s : State) : State := orR s aCalStatus 0x40000000#32

/-- Begin to apply a valid record; ERR clears. -/
def calApply (s : State) (src : Nat) : State :=
  let s1 := setR s aCalStatus (setBit (setBit (getR s aCalStatus) 30 false) 31 true)
  applyEnd { s1 with stl := { s1.stl with apply := some (src, recordSeq s (calAddr src), calWords s src) } }

/-- APPLYA or APPLYB (R312, R314). -/
def applyRequest (s : State) (src : Nat) : State :=
  if calBusy s then calErr s
  else
    let s1 := noteOne (readCal (readCal s 0) src) src
    if userOk s src then calApply s1 src else calErr s1

/-- The user copy a restore writes (R313 step 1). -/
def restoreTarget (s : State) : Nat :=
  let src := fld (getR s aCalStatus) 27 2
  if src = 1 then 2 else if src = 2 then 1
  else if userOk s 1 && (!userOk s 2 || !newerSeq (recordSeq s (calAddr 2)) (recordSeq s (calAddr 1))) then 2 else 1

/-- SEQ of the restored record (R313 step 2). -/
def restoreSeq (s : State) : Nat :=
  let va := userOk s 1
  let vb := userOk s 2
  if va || vb then
    (recordSeq s (calAddr (if chooseB va vb (recordSeq s (calAddr 1)) (recordSeq s (calAddr 2)) then 2 else 1)) + 1) % 2 ^ 32
  else 1

/-- The words of a restore in their order (R313 step 2). -/
def restoreWrites (s : State) : List (Nat × Nat) :=
  let a := calAddr (restoreTarget s)
  let q := restoreSeq s
  let ws := trimIdx.map (fun k => (rd64 s (calAddr 0 + 8 * k)).toNat)
  let h := 0xCA1B * 2 ^ 48 + 8 * 2 ^ 32 + q
  let crc := (crc32 ((leBytesN 8 h) ++ ws.flatMap (leBytesN 8))).toNat
  (a, 0) :: ((trimIdx.map (fun k => a + 8 * k)).zip ws ++ [(a, h), (a + 0x7F8, q * 2 ^ 32 + crc)])
where
  leBytesN (n v : Nat) : List Byte := (List.range n).map (fun i => BitVec.ofNat 8 (v / 256 ^ i))

/-- The retries of the restore's next word write: stated with its request, else a free value (R299). -/
def restoreTries (s : State) : Nat := s.stl.tries.headD ((freeD s).1.toNat % 6)

/-- The restore ends without its last word (R313): nothing is applied and the copy is invalid. -/
def restoreStop (s : State) (src : Nat) : State :=
  let s1 := { s with stl := { s.stl with restore := none, tries := [], lost := src :: s.stl.lost } }
  calErr (setR s1 aCalStatus (setBit (setBit (getR s1 aCalStatus) 31 false) (if src = 1 then 26 else 25) false))

/-- The record of a restore stands, and is applied under R312. -/
def restoreEnd (s : State) (src : Nat) : State :=
  let s1 := noteOne (readCal (readCal { s with stl := { s.stl with restore := none, tries := [] } } 0) src) src
  if userOk s1 src then calApply s1 src
  else calErr (setR s1 aCalStatus (setBit (getR s1 aCalStatus) 31 false))

/-- One turn of the restore (R300, R313): its next word write. -/
def restoreTurn (s : State) (src w v : Nat) (r : List (Nat × Nat)) : State :=
  if mayRestore s then
    let t := { s with draws := s.draws + 1, stl := { s.stl with tries := s.stl.tries.tail } }
    let (s1, ok) := steleWord t w v (restoreTries s)
    if !ok then restoreStop s1 src
    else if r.isEmpty then restoreEnd s1 src
    else { s1 with stl := { s1.stl with restore := some (src, r) } }
  else s

/-- RESTORE (R313, R314): its writes then take the restore's turns. -/
def restoreRequest (s0 : State) : State :=
  let s := readCal (readCal (readCal s0 0) 1) 2
  if calBusy s0 then calErr s0
  else if !factoryOk s then calErr s
  else
    let s1 := setR s aCalStatus (setBit (setBit (getR s aCalStatus) 30 false) 31 true)
    { s1 with stl := { s1.stl with restore := some (restoreTarget s, restoreWrites s) } }

/-- TRIM_STEP: the next step of the calibration in progress. An apply moves its fields (R312). A restore that is still
writing has its next turn: DESIGN CHOICE, log entry 74. -/
def trimStep (s : State) : State :=
  match s.stl.restore, s.stl.apply with
  | some (src, (w, v) :: r), _ => restoreTurn s src w v r
  | _, some (_, _, ws) => applyEnd ((trimIdx.zip ws).foldl (fun t e => setTrim t e.1 (stepWord e.1 (trimNow t e.1) e.2)) s)
  | _, none => s

end Sys2Proof.Machine
end

