-- ==== Sys2Proof/Machine/Milestone.lean ====
section
/-! DEFINITION. Milestone time, its discipline, the wake-timer wheel and the ledger writer (spec/08 R213 to R225). -/

namespace Sys2Proof.Machine

/-! ### Time (R213) -/

def secOf (t : DWord) : Nat := t.toNat / 2 ^ 30
def nsOf (t : DWord) : Nat := t.toNat % 2 ^ 30
def mkTime (sec ns : Nat) : DWord := BitVec.ofNat 64 (sec * 2 ^ 30 + ns)

/-- Time plus `d` ns, carrying into the seconds; the seconds wrap. -/
def addNs (t : DWord) (d : Nat) : DWord :=
  let n := nsOf t + d
  mkTime (secOf t + n / 1000000000) (n % 1000000000)

/-- Time in ns. -/
def totalNs (t : DWord) : Int := (secOf t : Int) * 1000000000 + nsOf t

/-- Nanoseconds from one time to a later one; the seconds wrap (R213). -/
def spanNs (now since : DWord) : Int := (totalNs now - totalNs since) % (2 ^ 34 * 1000000000)

/-- The time `x` ns from 0, wrapped. -/
def ofNs (x : Int) : DWord :=
  let n := (x % (2 ^ 34 * 1000000000)).toNat
  mkTime (n / 1000000000) (n % 1000000000)

/-- A tick of the wheel: the armed timers whose deadline has come fire (R139). -/
def fireTimers (s : State) : State :=
  ((s.coach.filter (fun e => match e.2.timer with
    | some d => decide (d.toNat ≤ s.mls.time.toNat)
    | none => false)).map (·.1)).foldl
    (fun t n => sendWake (modC t (.coach n) (fun c => { c with timer := none })) 7 n wkTIMER)
    (modMls s (fun m => { m with tick := some m.time }))

/-- The time has moved to a value that the wheel ticks at, or not (R139). -/
def wheel (s : State) : State := if nsOf s.mls.time % 1000 = 0 then fireTimers s else s

/-- The increment of one milestone cycle (R213, R217), and the phase error still to be removed after it. -/
def cycleStep (m : Mls) : Nat × Int :=
  let n := nsOf m.time % 1000
  if m.gapCycles < 5000 ∨ m.slew = 0 then (5, m.slew)
  else if 0 < m.slew then (if n = 0 then (5, m.slew) else (0, if m.slew ≤ 5 then 0 else m.slew - 5))
  else if n = 995 then (5, m.slew) else (10, if -5 ≤ m.slew then 0 else m.slew + 5)

/-- The frequency correction `f`, in units of 0.001 ppm, for one cycle (R217): each 5 ns that it amounts to becomes phase
error to be slewed away. -/
def correctFreq (m : Mls) (f : Int) : Mls :=
  let x := m.frac + f
  if 1000000000 ≤ x then { m with frac := x - 1000000000, slew := m.slew - 5 }
  else if x ≤ -1000000000 then { m with frac := x + 1000000000, slew := m.slew + 5 }
  else { m with frac := x }

/-- The time is disciplined by the PPS, and not free-running (MLS_CTL.DISC). -/
def disciplined (s : State) : Bool := bit (getR s aMlsCtl) 2

/-- One milestone cycle: the time advances, slewed while it is disciplined, and the wheel ticks at multiples of 1,000 ns. -/
def milestoneCycle (s : State) : State :=
  let m := if disciplined s then correctFreq s.mls (getR s aMlsFreq).toInt else s.mls
  let (d, left) := if disciplined s then cycleStep m else (5, m.slew)
  let s1 := { s with
    mls := { m with
      time := addNs m.time d, slew := left
      gapCycles := if d = 5 then satAdd 5000 m.gapCycles 1 else 0 }
    cycles := s.cycles + 1 }
  if d = 0 then s1 else wheel s1

/-! ### Steps (R216, R217) -/

/-- Set the time, queueing a STEP record; the reference to the last edge moves with it. What was still to be slewed away is
dropped: DESIGN CHOICE, log entry 79. -/
def stepTo (s : State) (t : DWord) (phase : Bool) : State :=
  let old := s.mls.time
  let s1 := modMls s (fun m => { m with
    time := t, slew := 0, tick := none
    lastEdge := m.lastEdge.map (fun e => ofNs (totalNs e + totalNs t - totalNs old)) })
  wheel (queueStamp s1 ⟨t, s1.cycles, 3, stampFlags s1 phase, 0, old⟩)

/-- The value of MLS_SET, its nanoseconds rounded down to 5. -/
def setValue (s : State) : DWord :=
  let t := mkD (getR s aMlsSetHi) (getR s aMlsSetLo)
  mkTime (secOf t) (nsOf t / 5 * 5)

/-- The set value is refused (R216). -/
def setBad (s : State) : Bool := decide (1000000000 ≤ fld (getR s aMlsSetLo) 0 30)

/-- Set or clear a bit of MLS_STATUS that reports the reference; a change of LOCK or HOLDOVER, and every setting of
INVERTED, OPEN or SHORT, triggers source 26 (R218). -/
def setRef (s : State) (i : Nat) (v : Bool) : State :=
  if bit (getR s aMlsStatus) i = v then s
  else
    let s1 := setR s aMlsStatus (setBit (getR s aMlsStatus) i v)
    if i ≤ 1 ∨ v = true then trigger s1 26 else s1

/-- LOCK clears, and acquiring it starts over. -/
def loseLock (s : State) : State := modMls (setRef s 0 false) (fun m => { m with good := 0 })

/-- The mean of the last 16 corrections (R218). -/
def meanCorr (cs : List Int) : Int := if cs = [] then 0 else cs.sum / (cs.length : Int)

/-- Holdover begins (R218): LOCK clears, HOLDOVER sets, the mean correction is kept. -/
def holdover (s : State) : State :=
  let s1 := setRef (loseLock s) 1 true
  setR s1 aMlsFreq (BitVec.ofInt 32 (meanCorr s1.mls.corrs))

/-- Write of MLS_CTL (R216, R217): a refused step changes nothing but ERR; otherwise ACQ, DISC, then STEP or STEPPPS. The
time free-runs from a write of DISC 0: what was still to be slewed away stays in it. -/
def writeMlsCtl (s : State) (v : Word) : State :=
  let set := fun (t : State) (i : Nat) (b : Bool) => setR t aMlsCtl (setBit (getR t aMlsCtl) i b)
  if (bit v 0 && bit v 1) || ((bit v 0 || bit v 1) && setBad s) then set s 31 true
  else
    let s1 := if bit v 3 then modMls (loseLock s) (fun m => { m with acquiring := true }) else s
    let s2 := set s1 2 (bit v 2)
    let s3 := if bit v 2 then s2 else modMls s2 (fun m => { m with slew := 0, frac := 0 })
    if bit v 0 then stepTo (set s3 31 false) (setValue s3) false
    else if bit v 1 then set (set s3 31 false) 1 true
    else s3

/-! ### The reference (R217 to R219) -/

/-- Signed offset of the nanosecond field from 0. -/
def phaseError (t : DWord) : Int := if nsOf t ≤ 500000000 then nsOf t else (nsOf t : Int) - 1000000000

/-- The edge is accepted (R217): its width, and its distance from the last accepted one unless acquisition has just
started or the unit is in holdover. -/
def edgeOk (s : State) (width : Nat) : Bool :=
  decide (1000 ≤ width) && decide (width ≤ 500000000) &&
  (s.mls.acquiring || bit (getR s aMlsStatus) 1 ||
    match s.mls.lastEdge with
    | some e => decide ((spanNs s.mls.time e - 1000000000).natAbs ≤ 100000)
    | none => true)

/-- A frequency correction within ±200 ppm; the spec does not give the loop that finds it (R217). -/
def freeCorr (s : State) : Int × State :=
  ((Config.freeNat s.draws % 400001 : Nat) - 200000, { s with draws := s.draws + 1 })

/-- Correct the time at an accepted edge with phase error `e` (R217 step 3). A set value that has become one that is
refused steps nothing (R216). -/
def discipline (s : State) (e : Int) (first : Bool) : State :=
  let t := s.mls.time
  if bit (getR s aMlsCtl) 1 then
    let s1 := setR s aMlsCtl (setBit (getR s aMlsCtl) 1 false)
    if setBad s then setR s1 aMlsCtl (setBit (getR s1 aMlsCtl) 31 true) else stepTo s1 (setValue s) false
  else if !bit (getR s aMlsCtl) 2 then s
  else if first || decide (1000 < e.natAbs) then stepTo s (mkTime (if 500000000 < nsOf t then secOf t + 1 else secOf t) 0) true
  else
    let (c, s1) := freeCorr s
    modMls (setR s1 aMlsFreq (BitVec.ofInt 32 c)) (fun m => { m with slew := e })

/-- LOCK after an accepted edge with error `e` (R217, R218). -/
def lockEdge (s : State) (e : Int) : State :=
  let g := if e.natAbs ≤ 40 then satAdd 4 s.mls.good 1 else 0
  let s1 := modMls s (fun m => { m with good := g })
  if 200 < e.natAbs then loseLock s1 else if g = 4 then setRef s1 0 true else s1

/-- An active edge of the time reference whose active level lasted `width` ns (R217). -/
def ppsEdge (s : State) (width : Nat) : State :=
  if edgeOk s width then
    let e := phaseError s.mls.time
    let first := s.mls.acquiring
    let s1 := trigger (setR s aMlsPpserr (BitVec.ofInt 32 e)) 25
    let s2 := setRef (setRef (setRef s1 1 false) 3 false) 4 false
    let s3 := lockEdge (discipline s2 e first) e
    modMls s3 (fun m => { m with
      lastEdge := some m.time, acquiring := false
      corrs := ((getR s3 aMlsFreq).toInt :: m.corrs).take 16 })
  else s

/-- Reversed polarity is detected, or found gone (R219). -/
def refReversed (s : State) : State := setRef s 2 (!bit (getR s aMlsStatus) 2)

/-- The reference is open, or shorted to a rail (R219). -/
def refLost (s : State) (short : Bool) : State := holdover (setRef s (if short then 4 else 3) true)

/-- The counters differ (R214): both take the consistent value, which is the time. -/
def counterDifference (s : State) : State :=
  trigger (policy (loseLock (orR s aMlsStatus 0x20#32)) pcMLS) 0

/-! ### Captures (R215) -/

/-- Read of MLS_TIME_LO by coach `c`. -/
def readTimeLo (s : State) (c : Nat) : State × Word :=
  (modC s (.coach c) (fun x => { x with timeCap := some s.mls.time }), loW s.mls.time)

/-- Read of MLS_TIME_HI by coach `c`. -/
def readTimeHi (s : State) (c : Nat) : Word := hiW ((coachOf s c).timeCap.getD s.mls.time)

/-- Read of MLS_LSTAMP_LO[n] by coach `c`. -/
def readStampLo (s : State) (c n : Nat) : State × Word :=
  (modC s (.coach c) (fun x => { x with stampCap := some (n, (srcOf s n).stamp) }), loW (srcOf s n).stamp)

/-- Read of MLS_LSTAMP_HI[n] by coach `c`. -/
def readStampHi (s : State) (c n : Nat) : Word :=
  match (coachOf s c).stampCap with
  | some (m, t) => if m = n then hiW t else hiW (srcOf s n).stamp
  | none => hiW (srcOf s n).stamp

/-! ### The ledger (R222 to R225) -/

/-- CHAIN of a record (R223). -/
def chainOf (prev time head data : Nat) : Nat :=
  leNat ((sha256 (leBytes 8 prev ++ leBytes 8 time ++ leBytes 8 head ++ leBytes 8 data)).take 8)

/-- HEAD word of a record (R222). -/
def recordHead (seq : Nat) (e : Stamp) : Nat := seq % 2 ^ 32 * 2 ^ 32 + e.kind * 2 ^ 24 + e.flags * 2 ^ 16 + e.id

/-- The next slot becomes the head; passing from slot 2,047 to 0 triggers source 28 (R225). -/
def nextSlot (s : State) : State :=
  let k := s.mls.lhead
  let s1 := modMls s (fun m => { m with lhead := (k + 1) % 2048 })
  if k = 2047 then trigger s1 28 else s1

/-- A ledger transfer to the stele retries its crossing, or is kept (R22): the writer, which takes its entries in order, waits. -/
def ledgerHeld (s : State) : Bool :=
  channelBusy s 7 9 || s.mtr.any (fun k => k.src == 7 && k.dst == 9 && k.load == .ledger)

/-- The ledger writer writes the front entry as a record; `tries` are the retries of its four words (R222, R223). The entry of
a record whose write fails is not written again: DESIGN CHOICE, log entry 81. -/
def ledgerWrite (s : State) (tries : List Nat) : State :=
  match s.mls.sq with
  | [] => s
  | e :: r =>
    if ledgerClearing s || !mayLedger s || ledgerHeld s then s
    else
      let a := ledgerAddr s.mls.lhead
      let h := recordHead s.mls.lseq e
      let c := chainOf s.mls.lchain.toNat e.time.toNat h e.data.toNat
      let s1 := tookTurn (modMls s (fun m => { m with sq := r })) false
      let (s2, ok) := steleSeq [(a, e.time.toNat), (a + 8, h), (a + 16, e.data.toNat), (a + 24, c)] tries s1
      flushLate (if ok then
        nextSlot (modMls s2 (fun m => { m with lseq := (m.lseq + 1) % 2 ^ 32, lchain := BitVec.ofNat 64 c }))
      else nextSlot (orR s2 aMlsLstat 0x20000000#32))

/-- MLS_LCTL.INIT (R225). -/
def ledgerInit (s : State) : State := orR s aMlsLctl 1

/-- The clear goes on (R225): its last words, or, while an access of the Keystone waits for its turn, one word. -/
def ledgerClearDone (s : State) : State :=
  if ledgerClearing s && mayLedger s && !ledgerHeld s then
    clearWords s (if (keystoneNext s).isSome then 1 else 8192 - s.mls.cleared)
  else s

/-- The words of slot `k`: TIME, HEAD, DATA, CHAIN. -/
def slotWords (s : State) (k : Nat) : Nat × Nat × Nat × Nat :=
  let a := ledgerAddr k
  (rdN s a 8, rdN s (a + 8) 8, rdN s (a + 16) 8, rdN s (a + 24) 8)

/-- The record of slot `k` verifies against some record whose SEQ is one less (R224). -/
def slotVerifies (s : State) (k : Nat) : Bool :=
  let (t, h, d, c) := slotWords s k
  steleClean s (ledgerAddr k) 32 && (List.range 2048).any (fun j =>
    let (_, h', _, c') := slotWords s j
    steleClean s (ledgerAddr j + 8) 8 && steleClean s (ledgerAddr j + 24) 8 &&
    (h' / 2 ^ 32 + 1) % 2 ^ 32 == h / 2 ^ 32 && c == chainOf c' t h d)

/-- The verifying record with the highest SEQ: its slot and SEQ. -/
def newestRecord (s : State) : Option (Nat × Nat) :=
  (List.range 2048).foldl (fun acc k =>
    let q := (slotWords s k).2.1 / 2 ^ 32
    let better := match acc with | some (_, q0) => decide (q0 < q) | none => true
    if better && slotVerifies s k then some (k, q) else acc) none

/-- The reset search ends (R224). -/
def ledgerSearchDone (s : State) : State :=
  if ledgerReady s then s
  else
    let s1 := orR (readWords s (ledgerAddr 0) 8192) aMlsLstat 0x80000000#32
    match newestRecord s with
    | some (k, q) => modMls s1 (fun m => { m with
        lhead := (k + 1) % 2048, lseq := (q + 1) % 2 ^ 32, lchain := BitVec.ofNat 64 (slotWords s k).2.2.2 })
    | none => modMls (orR s1 aMlsLstat 0x40000000#32) (fun m => { m with lhead := 0, lseq := 1, lchain := 0 })

/-- Write of MLS_LSOFT (R221). -/
def softRecord (s : State) (v : Word) (coach : Nat) : State :=
  queueStamp s ⟨s.mls.time, s.cycles, 5, stampFlags s false, coach, v.zeroExtend 64⟩

/-- Read of MLS_SQ: HIGH becomes LEVEL. -/
def readSq (s : State) : State × Word :=
  let n := s.mls.sq.length
  (modMls s (fun m => { m with sqHigh := n }), u32 (s.mls.sqHigh * 2 ^ 16 + n))

end Sys2Proof.Machine
end

