-- ==== Sys2Proof/Machine/Lanes.lean ====
section
/-! DEFINITION. Lanes, voting and mismatches, joins, rotation, comparator tests and lane modes (spec/09). -/

namespace Sys2Proof.Machine

/-! ### Reports -/

def Role.code : Role → Nat
  | .voter => 0
  | .pair => 1
  | .free => 2
  | .test => 3
  | .spare => 4
  | .joining => 5
  | .retired => 6

def SetSt.code : SetSt → Nat
  | .triplex => 0
  | .duplex => 1
  | .paired => 2
  | .handover => 3
  | .failstop => 4

def allLanes : List Nat := [0, 1, 2, 3]

/-- The lowest-numbered lane with a role. -/
def laneIn (s : State) (r : Role) : Option Nat := allLanes.find? (fun n => (laneOf s n).role == r)

/-- Lanes that are not retired. -/
def unretired (s : State) : List Nat := allLanes.filter (fun n => (laneOf s n).role != .retired)

/-- The outrider that would join next (LNC_STAT.LO, R244). -/
def outrider (s : State) : Option Nat :=
  match laneIn s .joining with
  | some n => some n
  | none => match laneIn s .spare with
    | some n => some n
    | none => laneIn s .test

/-- LNC_STAT as read. -/
def lncStatWord (s : State) : Word :=
  let p := isPaired s
  let fr := freeLanes s
  let a := laneAt s 0
  let b := if p then fr.head? else laneAt s 1
  let c := laneAt s 2
  let o := if p then fr.getLast? else outrider s
  let v := fun (x : Option Nat) => b2n x.isSome
  u32 (s.lnc.set.code * 2 ^ 29 + b2n (match s.lnc.join with | some j => j.leaves.isSome | none => false) * 2 ^ 28
    + b2n s.lnc.resync.isSome * 2 ^ 27 + v o * 2 ^ 11 + v c * 2 ^ 10 + v b * 2 ^ 9 + v a * 2 ^ 8
    + o.getD 0 * 64 + c.getD 0 * 16 + b.getD 0 * 4 + a.getD 0)

/-- LNC_LANE[n] as read; TESTAGE counts units of 10 ms. -/
def laneWord (s : State) (n : Nat) : Word :=
  let x := laneOf s n
  let age := match x.passed with
    | some t => min 0xFFFF ((s.cycles - t) / 2000000)
    | none => 0xFFFF
  u32 (b2n x.perm * 2 ^ 31 + b2n x.aborted * 2 ^ 30 + b2n x.suspect * 2 ^ 29 + x.retcnt * 2 ^ 27
    + x.role.code * 2 ^ 24 + x.pos * 2 ^ 22 + b2n x.lastfail * 2 ^ 21 + age)

/-- LNC_MODE as read. -/
def lncModeWord (s : State) : Word :=
  u32 (b2n s.lnc.err * 2 ^ 31 + b2n s.lnc.busy * 2 ^ 30 + b2n s.lnc.paired)

/-! ### Joins (R239, R244, R387) -/

/-- A position that a lane occupies, or that is kept for the lane under partial resynchronisation (R387). -/
def taken (s : State) (p : Nat) : Bool :=
  (laneAt s p).isSome || (match s.lnc.resync with | some (_, q) => q == p | none => false)

/-- Lanes at B and C are relabelled A and B (R239 step 1), and so is the position kept for a lane under partial
resynchronisation. -/
def relabel (s : State) : State :=
  let mv := fun (t : State) (p : Nat) => match laneAt s p with
    | some n => modLane t n (fun x => { x with pos := p - 1 })
    | none => t
  modLnc (mv (mv s 1) 2) (fun l => { l with resync := l.resync.map (fun r => (r.1, r.2 - 1)) })

/-- The vacant position a joining lane takes, after relabelling when A is vacant. -/
def makeRoom (s : State) : State × Nat :=
  let s1 := if taken s 0 then s else relabel s
  (s1, if taken s1 1 then 2 else 1)

/-- The source lane of a join (R239 step 2): the lane at the lowest position that stays in the set. -/
def sourceOf (s : State) (leaves : Option Nat) : Option Nat :=
  ([0, 1, 2].filterMap (laneAt s)).find? (fun n => some n != leaves)

/-- The copy of a join restarts from a new source when its source has left the set (R239). -/
def resource (s : State) : State :=
  modLnc s (fun l => { l with join := l.join.map (fun j =>
    if ([0, 1, 2].filterMap (laneAt s)).any (fun n => some n == j.source) then j
    else { j with source := sourceOf s j.leaves }) })

/-- Lane `n` starts to join at a vacant position. -/
def startJoin (s : State) (n : Nat) : State :=
  let (s1, p) := makeRoom s
  modLnc (modLane s1 n (fun x => { x with role := .joining, aborted := x.aborted || x.role == .test }))
    (fun l => { l with join := some ⟨n, p, none, sourceOf s1 none⟩ })

/-- The outrider joins for a position that has become vacant (R242 step 4, R244). -/
def outriderJoins (s : State) (odd : Nat) : State :=
  match s.lnc.join with
  | some j =>
    let (s1, p) := makeRoom s
    resource (modLnc s1 (fun l => { l with join := some { j with pos := p, leaves := none } }))
  | none =>
    match laneIn s .spare with
    | some n => startJoin s n
    | none =>
      match allLanes.find? (fun n => (laneOf s n).role == .test && n != odd) with
      | some n => startJoin s n
      | none => s

/-- A position of the voting set is vacant, and nothing keeps it (R387). -/
def vacant (s : State) : Bool :=
  s.lnc.set == .duplex && s.lnc.join.isNone && !(([0, 1, 2] : List Nat).all (taken s))

/-- The voter that a rotation takes out (R247): a SUSPECT one, else the one whose last completed test is oldest. -/
def outgoing (s : State) : Option Nat :=
  let vs := allLanes.filter (fun n => (laneOf s n).role == .voter && decide ((laneOf s n).pos < 3))
  match vs.find? (fun n => (laneOf s n).suspect) with
  | some n => some n
  | none =>
    let age : Nat → Nat := fun n => match (laneOf s n).tested with | some t => t + 1 | none => 0
    vs.foldl (fun acc n => match acc with
      | some m => if age n < age m then some n else some m
      | none => some n) none

/-- A rotation that is due starts when its conditions hold (R247, R248). -/
def tryRotate (s : State) : State :=
  if (s.lnc.rotDue || s.lnc.rotReq) && bit (getR s aKeyCtl) 0 && svc s && s.lnc.set == .triplex
      && s.lnc.join.isNone && s.lnc.resync.isNone then
    match laneIn s .spare, outgoing s with
    | some n, some v =>
      let p := (laneOf s v).pos
      modLnc (modLane s n (fun x => { x with role := .joining }))
        (fun l => { l with rotDue := false, join := some ⟨n, if p = 0 then 2 else p, some v, sourceOf s (some v)⟩ })
    | _, _ => s
  else s

/-- A lane that becomes SPARE joins a DUPLEX set at once, or serves a rotation that waits (R244, R247). -/
def spareReady (s : State) : State :=
  if vacant s then (match laneIn s .spare with | some n => startJoin s n | none => s) else tryRotate s

/-- The leaving voter drops out of the set at a rotation's join (R247): it becomes TEST and clears SUSPECT. A partial
resynchronisation of it ends with that. Where it held A, the lanes at B and C are relabelled at the join, since A is held until
then: DESIGN CHOICE, log entry 81. -/
def dropOut (s : State) (v : Nat) : State :=
  let pos := match s.lnc.resync with | some (n, p) => if n = v then p else (laneOf s v).pos | none => (laneOf s v).pos
  let s1 := modLnc (modLane s v (fun x => { x with role := .test, pos := 3, suspect := false })) (fun l => { l with
    resync := l.resync.filter (fun r => r.1 != v), marks := l.marks.filter (·.1 ≠ v), due := l.due.filter (· ≠ v) })
  if pos = 0 then relabel s1 else s1

/-- The set state that the occupied positions form. -/
def formSet (s : State) : State :=
  let k := ([0, 1, 2].filter (fun p => (laneAt s p).isSome)).length
  modLnc s (fun l => { l with set := if k = 3 then .triplex else .duplex })

/-- The joining lane begins to issue at its position with its source's enable copies (R239 step 5), and with no mark
(R241). A rotation's join starts the comparator sweep. -/
def joinDone (s : State) : State :=
  match s.lnc.join with
  | none => s
  | some j =>
    let s1 := match j.leaves with | some v => dropOut s v | none => s
    let s2 := modLane s1 j.lane (fun x => { x with
      role := .voter, pos := j.pos, enable := match j.source with | some n => (laneOf s n).enable | none => x.enable })
    let s3 := modLnc s2 (fun l => { l with
      join := none, marks := l.marks.filter (·.1 ≠ j.lane), due := l.due.filter (· ≠ j.lane)
      rotReq := l.rotReq && j.leaves.isNone
      sweep := if j.leaves.isSome then 0 else l.sweep
      sweeping := l.sweeping || j.leaves.isSome })
    trigger (formSet s3) 1

/-! ### Mismatches (R236, R238, R242) -/

/-- Record a mismatch in KEY_MMLOG0 and KEY_MMLOG1. -/
def logMismatch (s : State) (kind pos coach bit : Nat) : State :=
  let l := (laneAt s pos).getD 0
  setR (setR s aKeyMmlog0 (u32 (kind * 2 ^ 30 + pos * 2 ^ 28 + l * 2 ^ 26 + coach * 2 ^ 16 + bit * 2 ^ 8)))
    aKeyMmlog1 (loW s.mls.time)

/-- While XEN is 1, a masked mismatch raises KEYSTONE in the coach it names (R252). -/
def keystoneItem (s : State) (coach : Nat) : State :=
  if bit (getR s aKeyCtl) 1 then deliverItem s (whoOf s coach) { vec := vKEYSTONE } else s

/-- A lane leaves the vote for a partial resynchronisation (R240). -/
def startResync (s : State) (n : Nat) : State :=
  resource (modLnc (modLane s n (fun x => { x with pos := 3 })) (fun l => { l with
    resync := some (n, (laneOf s n).pos), set := .duplex
    marks := l.marks.filter (·.1 ≠ n), due := l.due.filter (· ≠ n) }))

/-- The lane is marked for an input divergence (R241). -/
def isMarked (s : State) (n : Nat) : Bool := s.lnc.marks.any (fun m => m.1 == n)

/-- While no partial resynchronisation runs, that of the lane at the lowest position among those due begins (R241
step 4): out of the vote in TRIPLEX, in place in a set of two lanes, where its mark stays until the end. -/
def resyncDue (s : State) : State :=
  if s.lnc.resync.isSome then s
  else match ((occupied s).filterMap (laneAt s)).find? (fun n => s.lnc.due.contains n) with
    | some n =>
      if s.lnc.set == .triplex then startResync s n
      else modLnc s (fun l => { l with resync := some (n, (laneOf s n).pos), due := l.due.filter (· ≠ n) })
    | none => modLnc s (fun l => { l with due := [] })

/-- The partial resynchronisations of the lanes `ls` come due (R241 step 4). -/
def resyncMarked (s : State) (ls : List Nat) : State :=
  resyncDue (modLnc s (fun l => { l with due := l.due ++ ls.filter (fun n => !l.due.contains n) }))

/-- The set after a partial resynchronisation: one removed from the vote forms again, a pair stays as it was. -/
def reform (s : State) : State := if isPaired s then s else formSet s

/-- A partial resynchronisation ends (R240), its lane's mark with it, and the next one that is due begins (R241); a
rotation that waits may begin (R247). -/
def partialResync (s : State) : State :=
  match s.lnc.resync with
  | some (n, p) =>
    let s1 := modLnc (modLane s n (fun x => { x with pos := p })) (fun l => { l with
      resync := none, marks := l.marks.filter (·.1 ≠ n) })
    spareReady (resyncDue (reform s1))
  | none => s

/-- An OUTPUT mismatch of the lane at a position of a TRIPLEX set (R242). -/
def oddLane (s : State) (pos bit coach : Nat) : State :=
  match laneAt s pos with
  | none => s
  | some n =>
    let s1 := logMismatch s 0 pos coach bit
    let s2 := policy (bumpR s1 aKeyMmcnt 16 16 1) pcLANE
    let s3 := modLane s2 n (fun x => { x with role := .test, pos := 3, suspect := false })
    let s4 := modLnc s3 (fun l => { l with
      set := .duplex, marks := l.marks.filter (·.1 ≠ n), due := l.due.filter (· ≠ n) })
    keystoneItem (outriderJoins (trigger (trigger s4 0) 1) n) coach

/-- A LATENT mismatch in a TRIPLEX set (R238). -/
def latent (s : State) (pos sigBit coach : Nat) : State :=
  match laneAt s pos with
  | none => s
  | some n =>
    let s1 := logMismatch s 1 pos coach (176 + sigBit)
    let s2 := trigger (policy (bumpR s1 aKeyMmcnt 0 16 1) pcLANE) 0
    keystoneItem (startResync (modLane s2 n (fun x => { x with suspect := true })) n) coach

/-! ### Checkpoint signatures (R237) -/

def crc64Bit (c : BitVec 64) : BitVec 64 :=
  if c.getLsbD 63 then (c <<< 1) ^^^ 0x42F0E1EBA9EA3693#64 else c <<< 1

def crc64Byte (c : BitVec 64) (b : Byte) : BitVec 64 :=
  let x := c ^^^ ((b.zeroExtend 64) <<< 56)
  crc64Bit (crc64Bit (crc64Bit (crc64Bit (crc64Bit (crc64Bit (crc64Bit (crc64Bit x)))))))

def crc64 (bs : List Byte) : BitVec 64 := bs.foldl crc64Byte 0

/-- A head entry as the signature takes it; one that has not arrived yet has no stated value. -/
def sigEntry (s : State) : Entry → Word
  | .val w => w
  | _ => Config.freeWord s.draws

/-- Coach registers 0 to 19 in the order of R32. -/
def regList (c : Coach) : List Word :=
  [c.pc, c.status, c.dsp, c.rsp, c.ddepth, c.rdepth, c.dlim, c.rlim, c.xdsp, c.xrsp, c.a, c.b, c.lstart, c.lend,
    c.lcount, c.wbp, c.wblim, c.keeper, c.ccfg]

/-- The checkpoint signature of a coach. -/
def signature (s : State) (n : Nat) : DWord :=
  let c := coachOf s n
  let ws := regList c ++ [u32 n, c.wake.zeroExtend 32] ++ (c.dhead ++ c.rhead).map (sigEntry s)
  crc64 (ws.flatMap (fun w => leBytes 4 w.toNat))

/-! ### Self-tests and retirement (R245, R246) -/

/-- Fewer than two lanes are left: every lane stops, and none holds a position (R234, R246). -/
def failstop (s : State) : State :=
  if (unretired s).length < 2 ∧ s.lnc.set ≠ .failstop then
    let s1 := modLnc (holdOutputs s) (fun l => { l with
      set := .failstop, join := none, resync := none, marks := [], due := [] })
    (unretired s1).foldl (fun t n => modLane t n (fun x => { x with role := .test, pos := 3 })) s1
  else s

/-- A lane that failed its self-test is retired. -/
def retire (s : State) (n : Nat) : State :=
  let s1 := modLane s n (fun x => { x with
    role := .retired, pos := 3, retcnt := satAdd 3 x.retcnt 1, perm := x.perm || decide (1 ≤ x.retcnt) })
  failstop (trigger (policy s1 pcLANE) 1)

/-- A lane's self-test ends. -/
def selfTestEnd (s : State) (n : Nat) (pass : Bool) : State :=
  if (laneOf s n).role = .test then
    if pass then
      spareReady (modLane s n (fun x => { x with
        role := .spare, lastfail := false, aborted := false, passed := some s.cycles, tested := some s.cycles }))
    else retire (modLane s n (fun x => { x with lastfail := true, aborted := false, tested := some s.cycles })) n
  else s

/-- LNC_RETEST (R246). -/
def retest (s : State) (n : Nat) : State :=
  let x := laneOf s n
  if x.role = .retired ∧ x.perm = false then setLane s n { x with role := .test } else s

/-! ### Comparator tests and the clock voter (R249, R251) -/

/-- Position and bit of injection `i` of the sweep. R249 gives the set of injections and no order: DESIGN CHOICE, log entry
81. -/
def sweepPlace (i : Nat) : Nat × Nat :=
  if i < 528 then (i / 176, i % 176)
  else if i < 720 then ((i - 528) / 64, 176 + (i - 528) % 64)
  else ((i - 720) / 4, 240 + (i - 720) % 4)

/-- A comparator failure at a position and bit, recorded as in R249; `common` sets CMPFAIL, which a failure of one lane's
port leaves as it is (R250). -/
def cmpFailure (s : State) (pos bit : Nat) (common : Bool) : State :=
  let w := getR s aKeyStat
  let s1 := setR s aKeyStat (setBit (setFld (setFld w 16 8 bit) 14 2 pos) 13 (common || Machine.bit w 13))
  let s2 := trigger (policy s1 pcLANE) 3
  if Machine.bit (getR s2 aKeyCtl) 2 then holdOutputs s2 else s2

/-- One injection of the sweep. -/
def injection (s : State) (pass : Bool) : State :=
  if s.lnc.sweeping then
    let i := s.lnc.sweep
    let s1 := modLnc s (fun l => { l with sweep := i + 1, sweeping := decide (i + 1 < 732) })
    if pass then s1 else cmpFailure s1 (sweepPlace i).1 (sweepPlace i).2 true
  else s

/-- Oscillators that are disabled. -/
def oscOff (s : State) : Nat := fld (getR s aKeyStat) 0 3

/-- The clock voter disables oscillator `n`. -/
def oscFault (s : State) (n : Nat) : State :=
  let w := getR s aKeyStat
  trigger (policy (setR s aKeyStat (setBit (setBit w n true) (9 + n) true)) pcLANE) 36

/-- A disabled oscillator is enabled again. -/
def oscReturn (s : State) (n : Nat) : State := setR s aKeyStat (setBit (getR s aKeyStat) n false)

/-! ### Direct inputs (R241) -/

/-- The sample that IN.RAW delivers, and the lanes whose sample differs from it. -/
def rawSample (s : State) (x : Nat → Word) : Word × List Nat :=
  let occ := [0, 1, 2].filter (fun p => (laneAt s p).isSome)
  let ref := if s.lnc.set = .triplex then
      let m := (x 0 &&& x 1) ||| (x 0 &&& x 2) ||| (x 1 &&& x 2)
      if x 0 = m ∨ x 1 = m ∨ x 2 = m then m else x 0
    else x (occ.headD 0)
  (ref, (occ.filter (fun p => x p ≠ ref)).filterMap (laneAt s))

/-- Mark the lanes of an input divergence for coach `c` and count it. -/
def divergence (s : State) (ls : List Nat) (c : Nat) : State :=
  if ls.isEmpty then s
  else
    modLnc (bumpR s aKeyIncnt 0 32 1) (fun l => { l with
      marks := l.marks ++ (ls.map (fun n => (n, c))).filter (fun m => !l.marks.contains m) })

/-! ### Lane modes (R253 to R255) -/

/-- The queues are rebuilt from the coaches' present class, attribute and partition, in their order. -/
def rebuildQueues (s : State) : State :=
  { s with coach := s.coach.map (fun e => (e.1, { e.2 with qclass := classOf e.2, qattr := attrOf e.2 })) }

/-- The free lanes begin with the lines of the set they ran in or were copied from (R239 step 3, R254 step 1). -/
def shareLines (s : State) : State :=
  let own := SMap.keep (fun k => decide (k < 128)) s.icache
  { s with icache := own ++ own.map (fun e => (e.1 + 128, e.2)) ++ own.map (fun e => (e.1 + 256, e.2)) }

/-- The hand-over to PAIRED mode (R254 steps 1 to 4). -/
def toPaired (s : State) : State :=
  let free := fun (x : Lane) => { x with role := Role.free, pos := 3, aborted := x.aborted || x.role == .test }
  let s1 := match outrider s with | some n => modLane s n free | none => s
  let s2 := match laneAt s 1 with | some n => modLane s1 n free | none => s1
  let pair := fun (t : State) (p : Nat) => match laneAt s p with
    | some n => modLane t n (fun x => { x with role := .pair })
    | none => t
  let s3 := modLnc (pair (pair (shareLines s2) 0) 2) (fun l => { l with
    set := .paired, busy := false, part0 := getR s aCshFreepart0, part1 := getR s aCshFreepart1 })
  trigger (rebuildQueues s3) 1

/-- A request for PAIRED mode (R254): refused, delayed by a rotation's copy (R248), or carried out. -/
def requestPaired (s : State) : State :=
  if s.lnc.paired then s
  else if !svc s || s.lnc.set != .triplex || (unretired s).length != 4 then modLnc s (fun l => { l with err := true })
  else
    let s1 := modLnc s (fun l => { l with paired := true, err := false, busy := true })
    if s1.lnc.join.isSome then s1 else toPaired s1

/-- A delayed request proceeds, or is dropped when the set is no longer TRIPLEX (R248). -/
def pendingMode (s : State) : State :=
  if s.lnc.busy && s.lnc.join.isNone then
    if s.lnc.set == .triplex && (unretired s).length == 4 then toPaired s
    else modLnc s (fun l => { l with busy := false, paired := false, err := true })
  else s

/-- The hand-over back to VOTED mode (R255). While a request for PAIRED mode still waits, it changes nothing: DESIGN CHOICE, log
entry 81. -/
def requestVoted (s : State) : State :=
  if s.lnc.set = .paired then
    let fr := freeLanes s
    let vote := fun (t : State) (p : Nat) => match laneAt s p with
      | some n => modLane t n (fun x => { x with role := .voter })
      | none => t
    let s1 := modLnc (vote (vote s 0) 2) (fun l => { l with set := .duplex, paired := false, err := false })
    let s2 := match fr.getLast? with
      | some n => if fr.length = 2 then modLane s1 n (fun x => { x with role := .test }) else s1
      | none => s1
    let s3 := match fr.head? with
      | some n => startJoin s2 n
      | none => s2
    rebuildQueues s3
  else s

/-- LANE_JOIN: the join, a delayed mode request, and whatever waited for the join's end (R244, R248). -/
def laneJoin (s : State) : State :=
  let s1 := pendingMode (joinDone s)
  if s.lnc.join.isSome then spareReady s1 else s1

/-! ### Forming the lanes (R243, R364, R367) -/

/-- The lanes `ls`, in increasing number, take positions A, B and C; a fourth gets role `r`. The others keep theirs. A
lane alone takes none (R234). A lane that is seated sets its enable copies as the latches stand. A running comparator sweep ends,
and a rotation that is due or requested is forgotten: DESIGN CHOICE, log entry 81. -/
def seatLanes (s : State) (ls : List Nat) (r : Role) : State :=
  let seat := fun (t : State) (e : Nat × Nat) => modLane t e.1 (fun x =>
    if ls.length < 2 then { x with role := .test, pos := 3 }
    else if e.2 < 3 then { x with role := .voter, pos := e.2, enable := t.mls.latch }
    else { x with role := r, pos := 3 })
  let s1 := (ls.zip [0, 1, 2, 3]).foldl seat s
  modLnc s1 (fun l => { l with
    set := if 3 ≤ ls.length then .triplex else if ls.length = 2 then .duplex else .failstop
    join := none, resync := none, marks := [], due := [], paired := false, busy := false, rotDue := false, rotReq := false
    sweeping := false })

/-- The lanes as an L0 restart forms them (R243 steps 2 to 5). -/
def reformLanes (s : State) : State :=
  let s1 := seatLanes s (unretired s) .test
  if s1.lnc.set = .failstop then holdOutputs s1 else s1

end Sys2Proof.Machine
end

