-- ==== Sys2Proof/Machine/Traffic.lean ====
section
/-! DEFINITION. Memory traffic: the checks before an access issues (R385), open accesses and their performance at
completion (R47 to R55), the accesses the core makes for itself, and the outbound side of the host port (R372 to R374). -/

namespace Sys2Proof.Machine

/-- Who issues, and from which lane set. -/
structure Iss where
  who : Who
  lane : Nat
  deriving DecidableEq, Repr

/-- A request of a free lane is unverified (R25). -/
def Iss.unver (x : Iss) : Bool := x.lane != 0

/-- On whose behalf an access of `x` is made. -/
def reqOf (s : State) (x : Iss) : Req := ⟨numOf s x.who, ringOf (getC s x.who), x.unver⟩

/-! ### Checks before issue (R385) -/

/-- The switchable unit that serves a range (R369). -/
def unitOf : Region → Option Nat
  | .flash => some 1
  | .host => some 2
  | .opmem => some 0
  | _ => none

/-- Steps 1 to 3 and, for the stele, 4 and 5 of R385, for a load or store of `n` bytes. -/
def checkAccess (x : Iss) (a : Word) (n : Nat) (store : Bool) : M Region := do
  let s ← get
  let ad := a.toNat
  match regionN ad n with
  | none => raiseAt vACCESS a n store
  | some r =>
    if store && r == .rom then raiseAt vACCESS a n store
    else if r == .csr && n != 4 then raiseAt vACCESS a n store
    else if store && vtlock s && inVectors ad n then raiseAt vACCESS a n store
    else if (r == .stele || r == .csr) && ad % n != 0 then raiseAt vALIGN a n store
    else if r == .stele then
      let ring := ringOf (getC s x.who)
      if (if store then steleStoreOk s ad ring else decide (ring ≤ steleLoadRing ad)) && !x.unver then pure r
      else raiseAt vACCESS a n store
    else pure r

/-! ### Bank accesses -/

/-- The answer to an access. -/
inductive Ans where
  | ok (data : Nat)
  | fail (st : BitVec 3) (info : Word)
  | waits (bank : Nat)
  deriving DecidableEq, Repr

/-- The parts of a bank access: one, or two across a 64 KiB boundary (R54). -/
def bankParts (a n : Nat) : List (Nat × Nat) :=
  let e := (a / 0x10000 + 1) * 0x10000
  if a + n ≤ e then [(a, n)] else [(a, e - a), (e, a + n - e)]

def accessOf (w : Option Nat) : Access := if w.isSome then .store else .load

/-- FINFO of a failure in the second half of a split access; H2STAT is that of a TORN store (R55, R164). -/
def half2 (torn : Bool) (st : BitVec 3) : Word := finfoHalf2 0 (if torn then st else 0)

/-- The power state's answer to an access; one accepted while its banks were ACTIVE is performed before they leave that
state (R290, R291). -/
def powerFor (s : State) (live : Bool) (n : Nat) : BankAns := if live then .ok else powerAns s n

/-- Perform the parts of an access whose owners admit it, in order (R55): `off` bytes lie before the first part. -/
def performParts (r : Req) (live : Bool) (w : Option Nat) : List (Nat × Nat) → Nat → Nat → State → State × Ans
  | [], _, acc, s => (s, .ok acc)
  | (a, n) :: rest, off, acc, s =>
    let failed := fun (t : State) (st : BitVec 3) (second : Bool) =>
      if off = 0 then (t, Ans.fail st (if second then half2 false st else 0))
      else if w.isSome then (t, .fail 5 (half2 true st)) else (t, .fail st (half2 false st))
    match powerFor s live (bankOf a) with
    | .waits => (s, .waits (bankOf a))
    | .refuse st why => failed (recordDeny s 0 a r w.isSome why) st false
    | .ok =>
      match w with
      | none =>
        let (s1, st, d) := bankRead s a n
        if st = 0 then performParts r live w rest (off + n) (acc + d * 256 ^ off) s1
        else failed s1 st (secondBad s (wordsOf a n))
      | some v =>
        let (s1, st) := bankWrite s a n (v / 256 ^ off)
        if st = 0 then performParts r live w rest (off + n) acc s1
        else failed s1 st (wordsOf a n != partialWords a n (wordsOf a n) || secondBad s (wordsOf a n))

/-- The Keystone's owner check of every part of an access (R55, R285, R286): the first part refused, and why. -/
def ownerRefusal (s : State) (r : Req) (a n : Nat) (k : Access) : Option (Nat × Nat) :=
  (bankParts a n).findSome? (fun p =>
    let b := bankN s (bankOf p.1)
    if b.own ≠ .owned then some (p.1, 1) else if coreAdmits b.owner r k then none else some (p.1, 0))

/-- Perform an admitted access at the banks (R291). A bank that has to be woken keeps it waiting. -/
def bankPerform (s : State) (r : Req) (live : Bool) (a n : Nat) (w : Option Nat) : State × Ans :=
  let ps := bankParts a n
  match ps.find? (fun p => powerFor s live (bankOf p.1) == .waits) with
  | some p => (s, .waits (bankOf p.1))
  | none => performParts r live w ps 0 0 s

/-- FINFO of an access to `a` whose part at `p` is refused: HALF2 for its second part (R164). -/
def refusedHalf (a p : Nat) : Word := if p = a then 0 else half2 false 3

/-- An access of up to 8 bytes to the banks on the C port (R55, R285, R291): ownership of every part first. -/
def bankAccess (s : State) (r : Req) (a n : Nat) (w : Option Nat) : State × Ans :=
  match ownerRefusal s r a n (accessOf w) with
  | some (p, why) => (recordDeny s 0 p r w.isSome why, .fail 3 (refusedHalf a p))
  | none => bankPerform s r false a n w

/-! ### Accesses of the core itself -/

/-- Accesses that the core makes within an instruction wait for overlapping open accesses of the same issuer (R50). -/
def awaitOver (x : Iss) (a n : Nat) : M Unit := do
  let s ← get
  awaitCons (openOver s x.who a n (fun _ => true))

/-- The exception of a failed read within an instruction (R38). -/
def failItem (a : Nat) (st : BitVec 3) (info : Word) (write : Bool) : XItem :=
  { vec := vecOfStatus st, cstat := st, torn := st == 5, addr := u32 a, info := info, write := write }

/-! ### Open accesses -/

/-- The newest pending store of an issuer that overlaps a range. -/
def lastStoreOver (s : State) (w : Who) (a n : Nat) : Option (Nat × Cons) :=
  (s.cons.filter (fun e => e.2.used && !e.2.orphan && e.2.done.isNone && consWho e.2 == w && isStore e.2
    && overlaps e.2.addr e.2.size a n)).foldl
    (fun acc e => match acc with
      | some b => if b.2.order < e.2.order then some e else acc
      | none => some e) none

/-- What a pending store of the same issuer does to a load (R50): forward its data, hold the coach, or nothing. -/
inductive Fwd where
  | none
  | data (d : DWord)
  | wait (es : List (Nat × Nat))
  deriving DecidableEq, Repr

def forward (s : State) (w : Who) (a n : Nat) : Fwd :=
  match lastStoreOver s w a n with
  | none => .none
  | some (_, k) =>
    if phys k.addr = phys a ∧ k.size = n then .data k.data
    else .wait (openOver s w a n isStore)

/-! ### Accesses that the core performs within an instruction -/

/-- What has been told of the access that the core makes next for `w`. -/
def toldOf (s : State) (w : Who) : Told := SMap.get {} (getC s w).told 0

/-- The C port has given up the access that the core makes next for `w`, or its timeout has fallen due (R146, R279): the
status it ends with, and what that counts. -/
def ownFate (s : State) (w : Who) : Option (BitVec 3 × (State → State)) :=
  if (toldOf s w).tmo then some (4, fun t => trigger (bumpR t aCshTmocnt 0 32 1) 8)
  else if 8 < (toldOf s w).busy then some (1, fun t => trigger (bumpR t aBnkBusy 16 16 1) 6)
  else none

/-- An access that the core makes for `w` has been made. -/
def ownDone (s : State) (w : Who) : State :=
  modC s w (fun c => { c with told := (c.told.filter (fun e => e.1 ≠ 0)).map (fun e => (e.1 - 1, e.2)) })

/-- One access of the core within an instruction: through consignment entry `e`, which it holds from its issue to its
completion (R38, R144). -/
def ownAccess (x : Iss) (e a n : Nat) (w : Option Nat) (run : State → State × Ans) (s : State) : State × Ans :=
  let s1 := allocateAt s e { coach := numOf s x.who, fast := x.who == .fast, kind := if w.isSome then .store else .load false
                             addr := a, size := n, unver := x.unver, lset := x.lane }
  let r := match ownFate s x.who with
    | some (st, count) => (count s1, Ans.fail st 0)
    | none => run s1
  (ownDone (freeCons r.1 e) x.who, r.2)

/-- Perform such an access; a failure is precise, and FINFO names its entry. -/
def ownRun (x : Iss) (a n : Nat) (w : Option Nat) (wait : Nat → Hold) (run : State → State × Ans) : M Nat := do
  let s ← get
  let e ← chooseEntry (numOf s x.who) false
  let r := ownAccess x e a n w run s
  match r.2 with
  | .ok d => do
    set r.1
    pure d
  | .waits b => holdFor (wait b)
  | .fail st i =>
    trap (failItem a st (i ||| finfo n e) w.isSome)
      (fun t => (ownAccess x e a n w run (modC t x.who (fun c => { c with told := (getC s x.who).told }))).1)

/-- A read of the core within an instruction (R38, R50): a pending store of the same range forwards its data, one that
overlaps it in part is waited for. -/
def ownLoad (x : Iss) (a n : Nat) (wait : Nat → Hold) (run : State → State × Ans) : M Nat := do
  let s ← get
  match forward s x.who a n with
  | .data d => pure (d.toNat % 256 ^ n)
  | .wait es => holdFor (.cons es)
  | .none => ownRun x a n none wait run

/-- Read `n` bytes of a bank within an instruction; a failure is precise. -/
def bankLoad (x : Iss) (r : Req) (a n : Nat) : M Nat :=
  ownLoad x a n .bank (fun t => bankAccess t r (phys a) n none)

/-- Store `n` bytes to a bank within an instruction that awaits the acknowledgement; a failure is precise. -/
def bankStore (x : Iss) (r : Req) (a n v : Nat) : M Unit := do
  awaitOver x a n
  let _ ← ownRun x a n (some v) .bank (fun t =>
    if vtlock t && inVectors a n then (t, .fail 3 0) else bankAccess t r (phys a) n (some v))

/-- Read `n` bytes as consecutive 64-bit words. -/
def bankBytes (x : Iss) (r : Req) : Nat → Nat → M (List DWord)
  | 0, _ => pure []
  | n + 1, a => do
    let d ← bankLoad x r a 8
    let ds ← bankBytes x r n (a + 8)
    pure (BitVec.ofNat 64 d :: ds)

/-- The kind of access that the owner check judges (R285). -/
def CKind.access : CKind → Access
  | .store => .store
  | .atomic _ _ _ => .atomic
  | _ => .load

/-- What the Keystone finds at acceptance: the owner check of a bank access, and a unit that is OFF or CLOSING (R26,
R286). -/
def acceptance (s : State) (q : Req) (r : Region) (k : Access) (a n : Nat) : State × Option (BitVec 3 × Word) :=
  if r = .bank ∨ r = .vtAlias then
    match ownerRefusal s q (phys a) n k with
    | some (p, why) => (recordDeny s 0 p q k.writes why, some (3, refusedHalf (phys a) p))
    | none => (s, none)
  else
    match unitOf r with
    | some u => (s, if unitSt s u = 0 ∨ unitSt s u = 3 then some (3, 0) else none)
    | none => (s, none)

/-- Every bank that an access reaches is ACTIVE when the Keystone accepts it (R290). -/
def liveAt (s : State) (r : Region) (a n : Nat) : Bool :=
  (r == .bank || r == .vtAlias) && (bankParts (phys a) n).all (fun p => (bankN s (bankOf p.1)).pwr == 0)

/-- The Keystone accepts the access of `k` in entry `e`: the entry holds what performing it needs, or the status that
already refuses it. -/
def acceptAt (s : State) (r : Region) (e : Nat) (k : Cons) : State :=
  let (s1, early) := acceptance s ⟨k.coach, k.ring, k.unver⟩ r k.kind.access k.addr k.size
  allocateAt s1 e { k with
    early := early.map (·.1), earlyInfo := (early.map (·.2)).getD 0, live := liveAt s r k.addr k.size }

/-- An instruction whose request finds the outbound queue of its island full cannot issue (R117). -/
def roomIn (i : Nat) : M Unit := do if 8 ≤ queued (← get) i then holdFor (.queue i) else pure ()

/-- The Keystone accepts an open access of `x` in entry `e`. -/
def acceptFor (x : Iss) (kind : CKind) (a n : Nat) (d : DWord) (s : State) (e : Nat) : State :=
  acceptAt s ((region a).getD .bank) e { coach := numOf s x.who, fast := x.who == .fast, kind := kind, addr := a, size := n
                                         data := d, ring := ringOf (getC s x.who), unver := x.unver, lset := x.lane }

/-- Issue an open access: its entry. -/
def accept (x : Iss) (kind : CKind) (a : Nat) (n : Nat) (d : DWord) : M Nat := do
  roomIn (islandOf a)
  let s ← get
  let e ← chooseEntry (numOf s x.who) kind.ticketed
  set (acceptFor x kind a n d s e)
  pure e

/-! ### Outbound host requests (R373, R374) -/

def modHpt (s : State) (f : Hpt → Hpt) : State := { s with hpt := f s.hpt }
def setOut (s : State) (t : Nat) (o : Option OutReq) : State := modHpt s (fun h => { h with out := h.out.set none t o })

/-- A consignment that the host port still has to send. -/
def unsent (k : Cons) : Bool :=
  k.used && k.done.isNone && k.early.isNone && k.tag.isNone && decide (region k.addr = some .host)
    && (match k.kind with | .engine _ _ => false | _ => true)

/-- An older host access of the same issuer to bytes of this one has not completed: the host answers in any order, so this one
is not sent yet (R50, R373). -/
def hostBehind (s : State) (k : Cons) : Bool :=
  s.cons.any (fun e => e.2.used && e.2.done.isNone && e.2.early.isNone && decide (e.2.order < k.order)
    && decide (region e.2.addr = some .host) && (match e.2.kind with | .engine _ _ => false | _ => true)
    && consWho e.2 == consWho k && overlaps e.2.addr e.2.size k.addr k.size)

/-- The parts of an access at 8-byte words, for operand memory and the host window (R54). -/
def wordParts (a n : Nat) : List (Nat × Nat) :=
  let e := a / 8 * 8 + 8
  if a + n ≤ e then [(a, n)] else [(a, e - a), (e, a + n - e)]

/-- The half of a host-window access that its tag stands for: address and bytes. -/
def hostPart (k : Cons) : Nat × Nat :=
  match wordParts k.addr k.size, k.first with
  | [_, p], some _ => p
  | p :: _, _ => p
  | [], _ => (k.addr, k.size)

/-- The request that the host port sends for consignment `k` (R373, R374): the window address under HPT_CFG.OSEG, the bytes
that take part, and their data. -/
def mqOf (s : State) (k : Cons) : MqReq :=
  let p := hostPart k
  { write := isStore k
    addr := u32 (fld (getR s aHptCfg) 28 4 * 2 ^ 28 + p.1 % 2 ^ 28 / 8 * 8)
    be := BitVec.ofNat 8 ((2 ^ p.2 - 1) * 2 ^ (p.1 % 8))
    data := if isStore k then BitVec.ofNat 64 (k.data.toNat / 256 ^ (p.1 - k.addr) % 256 ^ p.2 * 256 ^ (p.1 % 8)) else 0
    unver := k.unver }

/-- The host port sends every waiting access for which a tag is free, oldest first, each once those of its issuer that it must
follow have completed. While it is CLOSING it still sends what was accepted before (R371). -/
def hostSend (s : State) : State :=
  if unitSt s 2 = 2 ∨ unitSt s 2 = 3 then
    let es := (s.cons.filter (fun e => unsent e.2 && !hostBehind s e.2)).mergeSort (fun a b => decide (a.2.order ≤ b.2.order))
    es.foldl (fun t e =>
      match freeTag t with
      | some g => setCons (setOut t g (some ⟨e.1, e.2.gen, mqOf t e.2, 0, false, false⟩)) e.1 { consOf t e.1 with tag := some g }
      | none => t) s
  else s

/-- Issue an open load; the answer is its entry, or the data when a pending store forwards it. -/
def openLoad (x : Iss) (kind : CKind) (a n : Nat) : M (Nat ⊕ DWord) := do
  let s ← get
  match forward s x.who a n with
  | .data d => pure (.inr d)
  | .wait es => holdFor (.cons es)
  | .none => do
    let e ← accept x kind a n 0
    modify hostSend
    pure (.inl e)

/-- Issue an open store. -/
def openStore (x : Iss) (a n : Nat) (d : DWord) : M Unit := do
  let _ ← accept x .store a n d
  modify hostSend

/-! ### Stores that the core makes for an instruction or an entry (R38, R87, R143, R171, R273) -/

/-- The Keystone accepts a posted store in entry `e`. One that meets the locked vector table is refused (R29). -/
def acceptPosted (s : State) (w : Who) (e : Nat) (p : Posted) : State :=
  let k : Cons := { coach := numOf s w, fast := w == .fast, kind := .store, addr := p.addr, size := p.size, data := p.data
                    ring := p.ring, unver := p.lset != 0, lset := p.lset, frame := p.frame }
  if vtlock s && inVectors p.addr p.size then allocateAt s e { k with early := some 3 }
  else acceptAt s ((region p.addr).getD .bank) e k

/-- Post the stores of `w` that wait, oldest first, as far as there are entries (R142, R143). -/
def postFor (w : Who) : Nat → State → State
  | 0, s => s
  | f + 1, s =>
    match (getC s w).out, storeEntry s (numOf s w) with
    | p :: r, some e => postFor w f (acceptPosted (modC s w (fun c => { c with out := r })) w e p)
    | _, _ => s

/-- All that can be posted is. -/
def postOut (s : State) (w : Who) : State := hostSend (postFor w (getC s w).out.length s)

/-- The wait of an instruction of `w` for the shared pool is counted once (R143). -/
def countWait (s : State) (w : Who) : State :=
  if (getC s w).waited then s else modC (bumpR s aCshPoolwait 0 32 1) w (fun c => { c with waited := true })

/-- The stores of `w` that wait for an entry hold it, and the wait is counted when it is one for the pool and `count` says that
it begins here (R143). -/
def postHold (s : State) (w : Who) (count : Bool) : State :=
  let c := getC s w
  if c.out.isEmpty then s
  else
    let s1 := if count && decide (entriesHeld s (numOf s w) < quotaOf s (numOf s w)) then countWait s w else s
    modC s1 w (fun c => { c with held := some .posting, step := false })

/-- Stores of `w` that waited go on: with the last of them their wait is over. -/
def postOn (s : State) (w : Who) : State :=
  let t := postOut s w
  if (getC t w).out.isEmpty then modC t w (fun c => { c with waited := false }) else t

/-- Issue a store within an instruction; the rest of the instruction goes on, and the coach is held at its end when the store
finds no entry (R48, R143). -/
def postStore (x : Iss) (ring a n v : Nat) (frame : Bool := false) : M Unit :=
  modify (fun s => postHold (postOut (modC s x.who (fun c => { c with
    out := c.out ++ [⟨a, n, BitVec.ofNat 64 (v % 256 ^ n), ring, x.lane, frame⟩] })) x.who) x.who true)

/-! ### Performing an accepted access -/

/-- An access to operand memory (R54, R55, R335). -/
def opmemAccess (s : State) (r : Req) (a n : Nat) (w : Option Nat) : State × Ans :=
  let ps := wordParts a n
  match ps.find? (fun p => opmemStatus s p.1 r != 0) with
  | some p => (s, .fail (opmemStatus s p.1 r) (refusedHalf a p.1))
  | none =>
    ps.foldl (fun acc p =>
      match acc.2 with
      | .ok d =>
        let off := p.1 - a
        match w with
        | none =>
          let (st, v) := opmemRead acc.1 p.1 p.2
          if st = 0 then (acc.1, .ok (d + v * 256 ^ off))
          else (acc.1, .fail st (if off = 0 then 0 else finfoHalf2 0 0))
        | some v =>
          let (t, st) := opmemWrite acc.1 p.1 p.2 (v / 256 ^ off)
          if st = 0 then (t, .ok d)
          else if off = 0 then (t, .fail st 0) else (t, .fail 5 (finfoHalf2 0 st))
      | _ => acc) (s, .ok 0)

/-- A read of the flash window (R54, R317 to R322): each line in turn. Whether a second line that the interface refuses is
refused before the first is read, the spec does not say: DESIGN CHOICE, log entry 65. -/
def flashAccess (s : State) (a n : Nat) : State × Ans :=
  let l := lineOf a
  let m := lineOf (a + n - 1)
  let (s1, x) := flashServe s l false
  match x with
  | .refuse st => (s1, .fail st 0)
  | .waits => (s1, .waits 99)
  | .ok =>
    if m = l then (s1, .ok (rdN s1 a n))
    else
      let (s2, y) := flashServe s1 m false
      match y with
      | .refuse st => (s2, .fail st (finfoHalf2 0 0))
      | .waits => (s2, .waits 99)
      | .ok => (s2, .ok (rdN s2 a n))

/-- The new word of an atomic, given the word it reads (R100). -/
def atomicNew (op : AtomicOp) (old v e : Word) : Word :=
  match op with
  | .cas => if old = e then v else old
  | .fadd => old + v
  | .xchg => v
  | .fand => old &&& v
  | .for_ => old ||| v

/-- An atomic on a bank word (R52): read and write as one bank operation. -/
def atomicAccess (s : State) (r : Req) (live : Bool) (a : Nat) (op : AtomicOp) (v e : Word) : State × Ans :=
  let n := bankOf a
  match powerFor s live n with
  | .waits => (s, .waits n)
  | .refuse st why => (recordDeny s 0 a r true why, .fail st 0)
  | .ok =>
    let (s1, st, d) := bankRead s a 4
    if st ≠ 0 then (s1, .fail st 0)
    else (cleanWords (bankPut s1 a 4 (atomicNew op (u32 d) v e).toNat) (wordsOf a 4), .ok d)

/-- Perform the access of an entry at its unit. -/
def performAt (s : State) (k : Cons) : State × Ans :=
  let r : Req := ⟨k.coach, k.ring, k.unver⟩
  let w := match k.kind with | .store => some k.data.toNat | _ => none
  match region k.addr with
  | some .flash =>
    (match w with
    | some v => let (t, st) := flashStore s ⟨k.coach, k.ring, k.unver, k.addr, k.size, v⟩
                (t, if st = 0 then .ok 0 else .fail st 0)
    | none => flashAccess s k.addr k.size)
  | some .opmem => opmemAccess s r k.addr k.size w
  | some .rom => (s, .ok (rdN s k.addr k.size))
  | _ =>
    (match k.kind with
    | .atomic op v e => atomicAccess s r k.live (phys k.addr) op v e
    | _ => bankPerform s r k.live (phys k.addr) k.size w)

/-- The lane of free lane set `l`, the synchroniser of which its requests pass (R18). -/
def linkOf (s : State) (l : Nat) : Option Nat := if l = 0 then none else (freeLanes s)[l - 1]?

/-- A retried item is ahead of a request with place `order` on its channel to island `i` (R21). Requests of free lane set `l`
cross its lane's synchroniser as well. -/
def sendHeld (s : State) (i l order : Nat) : Bool :=
  s.mret.any (fun m => decide (m.since ≤ order) && ((m.src == 4 && m.dst == i) || (some m.src == linkOf s l && m.dst == 4)))

/-- A retried item holds back such a request, or its answer: it is ahead on the channel there, or anywhere on the channel back
(R21). -/
def channelHeld (s : State) (i l order : Nat) : Bool :=
  sendHeld s i l order || s.mret.any (fun m => (m.src == i && m.dst == 4) || (m.src == 4 && some m.dst == linkOf s l))

/-- The crossing of a consignment's own request or response is in its retry sequence (R20, R147). -/
def retrying (s : State) (e : Nat) : Bool :=
  s.mret.any (fun m => match m.item with | .open_ f _ => f.val == e | _ => false)

/-- Another item in its retry sequence holds back what a consignment sends or awaits (R21). -/
def heldBack (s : State) (k : Cons) : Bool := channelHeld s (islandAt k) k.lset k.order

/-- The sealed request of a stall cannot be answered: an older one to its island has not been, and requests arrive in the order
sent, or a retried item holds it or its answer back (R21). -/
def sealedBack (s : State) (st : Stall) : Bool :=
  match sealedIsland st with
  | some i => channelHeld s i 0 st.order
      || (i != 9 && (stalls s).any (fun e => sealedIsland e.2 == some i && decide (e.2.order < st.order)))
  | none => false

/-- An older open access goes before: one of the same issuer that overlaps the entry's (R50), or one to the flash or the
engine island, which take requests in the order sent (R21). -/
def behind (s : State) (k : Cons) : Bool :=
  s.cons.any (fun e => e.2.used && e.2.done.isNone && decide (e.2.order < k.order)
    && (match e.2.kind with | .engine _ _ => false | _ => true)
    && ((consWho e.2 == consWho k && overlaps e.2.addr e.2.size k.addr k.size)
      || (e.2.early.isNone && islandAt e.2 == islandAt k && (islandAt k == 8 || islandAt k == 10))))

/-- An access is at the unit only once the unit has finished OPENING (R26); one that was accepted before CLOSING is still
performed. -/
def unitReady (s : State) (k : Cons) : Bool :=
  match (region k.addr).bind unitOf with
  | some u => unitSt s u == 2 || unitSt s u == 3
  | none => true

/-- An access that its unit, once it has it, performs whatever becomes of the consignment: a store or an atomic on a unit
of the block that its acceptance did not refuse. -/
def changesUnit (k : Cons) : Bool :=
  (match k.kind with | .store => true | .atomic _ _ _ => true | _ => false) && k.early.isNone && region k.addr != some .host

/-- A consignment completes without its unit's answer: its access may have been performed, or may still be (R148, R149). -/
def mayPerform (s : State) (e : Nat) : State :=
  let k := consOf s e
  if changesUnit k then
    let (d, s1) := freeD s
    if d.getLsbD 0 && unitReady s1 k then (performAt s1 k).1 else { s1 with lateAcc := s1.lateAcc ++ [(e, k)] }
  else s

/-- The completion that arrives late shows that such an access has been performed. -/
def performLate (s : State) (e g : Nat) : State :=
  match s.lateAcc.find? (fun x => x.1 == e && x.2.gen == g) with
  | some x =>
    let s1 := { s with lateAcc := s.lateAcc.erase x }
    if unitReady s1 x.2 then (performAt s1 x.2).1 else s1
  | none => s

/-- The completion of entry `e` arrives with allocation count `g` (R48, R148): the access is performed, unless it waits
for its unit, for an older overlapping access, or for the host. -/
def completeCons (s : State) (e g : Nat) (u : Upset) : State :=
  let k := consOf s e
  if !k.used || k.gen != g || k.done.isSome then lateCons (performLate s e g)
  else
    match k.early with
    | some st => deliverCons s e st 0 (k.earlyInfo ||| finfo k.size e)
    | none =>
      match k.kind with
      | .engine _ _ => s
      | _ =>
        if region k.addr = some .host ∨ sealedEntry k = true ∨ unitReady s k = false ∨ behind s k = true
            ∨ retrying s e = true ∨ heldBack s k = true then s
        else
          let (s1, ans) := performAt (upsetEcc s (phys k.addr / 8 * 8) u) k
          match ans with
          | .ok d => deliverCons s1 e 0 (BitVec.ofNat 64 d) 0
          | .fail st i => deliverCons s1 e st 0 (i ||| finfo k.size e)
          | .waits b => if b < 32 then wakeBank s1 b else s1

/-- The copies of table entry `e` differ beyond correction (R149): its consignment completes with status 2, a sealed one,
which is its coach's stall, at the end of the stall. A completed one whose ticket is not taken gets that status: DEDUCED, log
entry 69. -/
def tableDiffers (s : State) (e : Nat) : State :=
  let k := consOf s e
  let ends := k.used && k.done.isNone && !sealedEntry k
  let s1 := trigger (policy (bumpR (if ends then mayPerform s e else s) aCshTblerr 16 16 1) pcTABLE) 0
  if ends then deliverCons s1 e 2 0 (finfo k.size e)
  else if k.used && k.done.isNone then setCons s1 e { k with early := some 2 }
  else if k.used then setCons s1 e { k with done := some 2, info := finfo k.size e }
  else s1

/-- An access to table entry `e` checks both copies first (R149). -/
def checkTable (s : State) (e : Nat) : Upset → State
  | .none => s
  | .single => bumpR s aCshTblerr 0 16 1
  | .double => tableDiffers s e

/-- A completion arrives: the access to its table entry checks both copies first (R149). One that finds its consignment
completed by the difference, or no consignment, is late. -/
def arrival (s : State) (e g : Nat) (u table : Upset) : State :=
  match table with
  | .none => completeCons s e g u
  | .single => completeCons (bumpR s aCshTblerr 0 16 1) e g u
  | .double =>
    let k := consOf s e
    let t := tableDiffers s e
    if !k.used || k.gen != g || k.done.isSome then lateCons (performLate t e g) else t

/-- The parts in which a unit of the block performs an access, one after the other (R54). -/
def partsOf (k : Cons) : List (Nat × Nat) :=
  match region k.addr with
  | some .bank => bankParts (phys k.addr) k.size
  | some .vtAlias => bankParts (phys k.addr) k.size
  | some .opmem => wordParts k.addr k.size
  | _ => [(k.addr, k.size)]

/-- The first half of a split access alone, performed; none where the access is not split, or its first half fails. -/
def firstHalf (s : State) (k : Cons) : Option State :=
  match partsOf k with
  | [p, _] =>
    match performAt s { k with addr := p.1, size := p.2 } with
    | (t, .ok _) => some t
    | _ => none
  | _ => none

/-- The second half of a split access fails with status `st` after its first half was performed (R55, R145). -/
def halfFails (s : State) (e : Nat) (st : BitVec 3) (info : Word) : State :=
  if isStore (consOf s e) then deliverCons s e 5 0 (half2 true st ||| info)
  else deliverCons s e st 0 (half2 false st ||| info)

/-- A timeout of entry `e` falls due (R147): held while a crossing of the consignment retries. `half`: it is the second half
of a split access that has not come back, as it is for a host store whose first half was answered (R55). Such a timeout is
one of the consignment, and counts in CSH_TMOCNT as any other: DEDUCED, log entry 66. A discarded load of a routine has none: it
leaves no trace (R274). -/
def timeoutCons (s : State) (e : Nat) (half : Bool) : State :=
  let k := consOf s e
  if !k.used || k.done.isSome || k.tmo || k.early.isSome || sealedEntry k || (k.orphan && k.kind == .micro) then s
  else if retrying s e then setCons s e { k with tmo := true }
  else
    let count := fun (t : State) => trigger (bumpR t aCshTmocnt 0 32 1) 8
    if k.first.isSome then halfFails (count s) e 4 (finfo k.size e)
    else match (if half then firstHalf s k else none) with
      | some t => halfFails (count t) e 4 (finfo k.size e)
      | none => deliverCons (count (mayPerform s e)) e 4 0 (finfo k.size e)

/-- A C-port access of entry `e`, in its second half when `half`, meets another port's access and received BUSY (R278, R279):
it retries, and gives up after 8 retries. -/
def busyRetry (s : State) (e : Nat) (half : Bool) (r : Rival) : State :=
  let k := consOf s e
  let inBank := match region k.addr with | some .bank => true | some .vtAlias => true | _ => false
  let second := half && decide ((partsOf k).length = 2)
  let tries := if second && !k.half then 0 else k.tries
  if !k.used || k.done.isSome || k.early.isSome || !inBank || !loses .c (isStore k) false r then s
  else if tries < 8 then setCons (bumpR s aBnkBusy 0 16 1) e { k with tries := tries + 1, half := second }
  else
    let count := fun (t : State) => trigger (bumpR t aBnkBusy 16 16 1) 6
    match (if second then firstHalf s k else none) with
    | some t => halfFails (count t) e 1 (finfo k.size e)
    | none => deliverCons (count s) e 1 0 (finfo k.size e)

/-- Change what has been told of the access that the core makes for `w` after `k` others. -/
def tell (s : State) (w : Who) (k : Nat) (f : Told → Told) : State :=
  modC s w (fun c => { c with told := c.told.set {} k (f (SMap.get {} c.told k)) })

/-- An access that the core makes for `w`, a write or a read, meets another port's access and received BUSY: it is told of by
its count, and gives up when it is made (R278, R279). -/
def ownBusy (s : State) (w : Who) (k : Nat) (write : Bool) (r : Rival) : State :=
  let n := (SMap.get {} (getC s w).told k).busy
  if 8 < n || !loses .c write false r then s
  else tell (if n < 8 then bumpR s aBnkBusy 0 16 1 else s) w k (fun t => { t with busy := n + 1 })

/-- The timeout of an access that the core makes for `w` falls due. -/
def ownTimeout (s : State) (w : Who) (k : Nat) : State := tell s w k (fun t => { t with tmo := true })

/-! ### Host responses (R374) -/

/-- Split the data of a host-window word: the bytes the request asked for. -/
def hostBytes (a n : Nat) (d : DWord) : Nat := d.toNat / 256 ^ (a % 8) % 256 ^ n

/-- What the block holds on the MQ channel for a tag in use (R373, R374): the request as it was sent. -/
def mqRequest (s : State) (tag : Nat) : Option MqReq := (outOf s tag).map (·.req)

/-- The final response to the request of entry `e` (R54, R55, R374). -/
def hostFinal (s : State) (e : Nat) (st : BitVec 3) (d : DWord) : State :=
  let k := consOf s e
  let p := hostPart k
  let two := (wordParts k.addr k.size).length = 2
  if st ≠ 0 then
    (match k.first with
    | some _ => if isStore k then deliverCons s e 5 0 (finfoHalf2 (finfo k.size e) st)
                else deliverCons s e st 0 (finfoHalf2 (finfo k.size e) 0)
    | none => deliverCons s e st 0 (finfo k.size e))
  else
    let part := hostBytes p.1 p.2 d
    match k.first with
    | some f => deliverCons s e 0 (BitVec.ofNat 64 (f.toNat + part * 256 ^ (p.1 - k.addr))) 0
    | none =>
      if two then hostSend (setCons s e { k with tag := none, first := some (BitVec.ofNat 64 part) })
      else deliverCons s e 0 (BitVec.ofNat 64 part) 0

/-- A response arrives on the MS channel (R373, R374). -/
def hostResponse (s : State) (t stat : Nat) (d : DWord) : State :=
  if unitSt s 2 = 0 then s
  else
    match outOf s t with
    | none => bumpR s aHptErr 24 8 1
    | some o =>
      if o.gone then setOut s t none
      else if stat = 1 ∧ o.tries < fld (getR s aHptCfg) 4 4 then
        setOut s t (some { o with busy := true, tries := o.tries + 1 })
      else
        let s1 := setOut s t none
        let k := consOf s1 o.entry
        let live := k.used && k.gen == o.gen && k.done.isNone && k.tag == some t
        let s2 := if stat = 1 then bumpR s1 aHptErr 16 8 1 else if stat = 2 then bumpR s1 aHptErr 8 8 1
          else if stat = 3 then bumpR s1 aHptErr 0 8 1 else s1
        let st : BitVec 3 := if stat = 0 then 0 else if stat = 3 then 3 else 6
        hostSend (if live then hostFinal s2 o.entry st d else lateCons s2)

/-- A request that was answered BUSY is sent again with its tag (R374). -/
def hostResend (s : State) (t : Nat) : State :=
  match outOf s t with
  | some o => if o.busy then setOut s t (some { o with busy := false }) else s
  | none => s

end Sys2Proof.Machine
end

