-- ==== Sys2Proof/Machine/Microstore.lean ====
section
/-! DEFINITION. The writable microstore (spec/10): staging, switches and digests. -/

namespace Sys2Proof.Machine

/-! ### Regions; `r` is true for the customer region -/

def modMcs (s : State) (f : Mcs → Mcs) : State := { s with mcs := f s.mcs }

def activeOf (m : Mcs) (r : Bool) : SMap Nat := if r then m.cact else m.vact
def stagedOf (m : Mcs) (r : Bool) : SMap Nat := if r then m.cstg else m.vstg
def setStaged (m : Mcs) (r : Bool) (b : SMap Nat) : Mcs := if r then { m with cstg := b } else { m with vstg := b }
def setActive (m : Mcs) (r : Bool) (b : SMap Nat) : Mcs := if r then { m with cact := b } else { m with vact := b }

/-- Identifier registers of a region. -/
def aStagedId (r : Bool) : Nat := if r then aMcsCstaged else aMcsStaged
def aActiveId (r : Bool) : Nat := if r then aMcsCversion else aMcsVersion

/-- State of the staged buffer (R261): 0 EMPTY, 1 LOADING, 2 SEALED. -/
def stagedState (s : State) (r : Bool) : Nat := fld (getR s aMcsStatus) (if r then 2 else 0) 2
def setStagedState (s : State) (r : Bool) (v : Nat) : State :=
  setR s aMcsStatus (setFld (getR s aMcsStatus) (if r then 2 else 0) 2 v)

/-- The last request was refused, or accepted. -/
def mcsErr (s : State) (e : Bool) : State := setR s aMcsCtl (setBit (getR s aMcsCtl) 31 e)

def swBusy (s : State) : Bool := s.mcs.sw.isSome

/-- The digest of the staged buffer of region `r` is being computed, or waits to be. -/
def stagedDigesting (s : State) (r : Bool) : Bool := s.mcs.dig.contains (if r then 3 else 2)

/-- A clear of the staged buffer is in progress (R263). -/
def clearing (s : State) (r : Bool) : Bool := bit (getR s aMcsCtl) (if r then 3 else 2)

/-- INDEX names a slot of the region (R262). -/
def slotOk (r : Bool) (i : Nat) : Bool := decide (i < if r then 1040 else 1088)

/-! ### Staging (R262, R263) -/

/-- The word that the staging data spell for slot `i`. -/
def stagingWord (s : State) (i : Nat) : Nat :=
  let d := fun k => (getR s (aMcsSdata + 4 * k)).toNat
  if i < 1024 then d 0 + d 1 * 2 ^ 32 + d 2 * 2 ^ 64 + d 3 % 2 ^ 16 * 2 ^ 96 else d 0

/-- A staging write. -/
def stageWrite (s : State) (r : Bool) (i : Nat) : State :=
  let s1 := setR s aMcsSaddr (u32 (b2n r * 2 ^ 16 + i))
  if !slotOk r i || swBusy s || stagedDigesting s r then mcsErr s1 true
  else
    let s2 := modMcs (mcsErr s1 false) (fun m => setStaged m r ((stagedOf m r).set 0 i (stagingWord s i)))
    setR (setStagedState s2 r 1) (aStagedId r) 0

/-- A staging read. -/
def stageRead (s : State) (r : Bool) (i : Nat) : State :=
  let s1 := setR s aMcsSaddr (u32 (2 ^ 31 + b2n r * 2 ^ 16 + i))
  if slotOk r i then
    let w := (stagedOf s.mcs r).get 0 i
    [0, 1, 2, 3].foldl (fun t k => setR t (aMcsSdata + 4 * k) (u32 (w / 2 ^ (32 * k)))) s1
  else mcsErr s1 true

/-- VCLR or CCLR, and its end. -/
def stageClear (s : State) (r : Bool) : State := orR (mcsErr s false) aMcsCtl (if r then 8 else 4)
def stageClearDone (s : State) (r : Bool) : State :=
  if clearing s r then
    let s1 := clrR (modMcs s (fun m => setStaged m r [])) aMcsCtl (if r then 8 else 4)
    setR (setStagedState s1 r 0) (aStagedId r) 0
  else s

/-- A write of MCS_STAGED or MCS_CSTAGED. -/
def stageIdent (s : State) (r : Bool) (v : Word) : State :=
  let s1 := setR s (aStagedId r) v
  if v ≠ 0 then setStagedState s1 r 2 else if stagedState s r = 0 then s1 else setStagedState s1 r 1

/-! ### Digests (R268) -/

/-- Base of the digest registers of computation `d`: 0 active vendor buffer, 1 active CMR buffer, 2 staged. -/
def digestBase (d : Nat) : Nat := if d = 0 then aMcsDigest else if d = 1 then aMcsCdigest else aMcsSdigest

/-- Start a digest computation: its registers read 0. -/
def startDigest (s : State) (d : Nat) : State :=
  let s1 := (List.range 8).foldl (fun t k => setR t (digestBase d + 4 * k) 0) (orR s aMcsStatus 0x40000000#32)
  modMcs s1 (fun m => { m with dig := m.dig.filter (· ≠ d) ++ [d] })

/-- The computation of the staged digest of region `r` starts: SDREG names it, and MCS_SDIGEST reads 0. -/
def beginStaged (s : State) (r : Bool) : State :=
  startDigest (setR s aMcsStatus (setBit (getR s aMcsStatus) 29 r)) (if r then 3 else 2)

/-- VSDIG or CSDIG: the bit reads 1 until the digest is done; one requested while the other region's is computed follows
it, since they share MCS_SDIGEST. -/
def stagedDigest (s : State) (r : Bool) : State :=
  let s1 := orR (mcsErr s false) aMcsCtl (if r then 0x20 else 0x10)
  if stagedDigesting s r then s
  else if stagedDigesting s !r then modMcs s1 (fun m => { m with dig := m.dig ++ [if r then 3 else 2] })
  else beginStaged s1 r

/-- Message of a region buffer. -/
def bufferBytes (r : Bool) (b : SMap Nat) (ident : Word) : List Byte :=
  leBytes 4 ident.toNat ++ (List.range 1024).flatMap (fun i => leBytes 16 (b.get 0 i))
    ++ (List.range (if r then 16 else 64)).flatMap (fun i => leBytes 4 (b.get 0 (1024 + i)))

/-- Digest of a region buffer. -/
def bufferDigest (r : Bool) (b : SMap Nat) (ident : Word) : List Byte := sha256 (bufferBytes r b ident)

/-- A digest computation ends. -/
def digestDone (s : State) : State :=
  match s.mcs.dig with
  | [] => s
  | d :: rest =>
    let r := d == 1 || d == 3
    let buf := if 2 ≤ d then stagedOf s.mcs r else activeOf s.mcs r
    let h := bufferDigest r buf (getR s (if 2 ≤ d then aStagedId r else aActiveId r))
    let s1 := (List.range 8).foldl (fun t k => setR t (digestBase d + 4 * k) (u32 (leNat ((h.drop (4 * k)).take 4)))) s
    let s2 := modMcs s1 (fun m => { m with dig := rest })
    let s3 := if 2 ≤ d then clrR s2 aMcsCtl (if r then 0x20 else 0x10) else s2
    if rest = [] then clrR s3 aMcsStatus 0x40000000#32
    else if 2 ≤ d ∧ stagedDigesting s3 (!r) = true then beginStaged s3 !r
    else s3

/-! ### Switches (R264, R265) -/

/-- The first condition that refuses a switch; 0: none. -/
def switchRefusal (s : State) (r : Bool) : Nat :=
  if stagedState s r = 1 then 1
  else if s.lnc.set ≠ .triplex ∧ s.lnc.set ≠ .duplex then 2
  else if swBusy s then 3
  else if s.lnc.busy then 4
  else if clearing s r then 5
  else 0

/-- VSWITCH or CSWITCH. -/
def requestSwitch (s : State) (r : Bool) : State :=
  let k := switchRefusal s r
  if k = 0 then modMcs (orR (mcsErr s false) aMcsStatus 0x80000000#32) (fun m => { m with sw := some r })
  else
    let s1 := mcsErr s true
    setR s1 aMcsStatus (setFld (getR s1 aMcsStatus) 8 4 k)

/-- The buffers of a region change places, with their identifiers (R265 steps 4 and 5). -/
def swapBuffers (s : State) (r : Bool) : State :=
  let new := getR s (aStagedId r)
  let old := getR s (aActiveId r)
  let s1 := setR (setR s (aActiveId r) new) (aStagedId r) old
  let s2 := modMcs s1 (fun m => setStaged (setActive m r (stagedOf m r)) r (activeOf m r))
  setStagedState s2 r (if old ≠ 0 then 2 else 0)

/-- Who waits inside a routine of region `r`, resumable or not. -/
def insideRoutine (r res : Bool) (c : Coach) : Bool := c.routine == some ⟨r, res⟩

/-- A resumable routine of region `r` in which `w` waits is rewound to its last commit (R265 step 3). -/
def rewind (r : Bool) (s : State) (w : Who) : State :=
  if insideRoutine r true (getC s w) then
    modC (abandonLoads s w) w (fun c => { c with routine := none, drain := false, held := none })
  else s

/-- The exchange of the switch in progress (R265 steps 3 to 6); a routine of the region that is not resumable is left to reach
its end first. -/
def exchange (s : State) : State :=
  match s.mcs.sw with
  | some r =>
    if insideRoutine r false s.fast || s.coach.any (fun e => insideRoutine r false e.2) then s else
    let s0 := rewind r ((s.coach.map (fun e => Who.coach e.1)).foldl (rewind r) s) .fast
    let s1 := modMcs (clrR (swapBuffers s0 r) aMcsStatus 0x80000000#32) (fun m => { m with sw := none })
    startDigest (trigger s1 38) (if r then 1 else 0)
  | none => s

/-- Write of MCS_CTL: each request bit in turn. -/
def writeMcsCtl (s : State) (v : Word) : State :=
  let on := fun (i : Nat) (f : State → State) (t : State) => if bit v i then f t else t
  on 1 (requestSwitch · true) (on 0 (requestSwitch · false) (on 5 (stagedDigest · true) (on 4 (stagedDigest · false)
    (on 3 (stageClear · true) (on 2 (stageClear · false) s)))))

/-- Write of MCS_SADDR. -/
def writeMcsSaddr (s : State) (v : Word) : State :=
  if bit v 31 then stageRead s (bit v 16) (fld v 0 11) else stageWrite s (bit v 16) (fld v 0 11)

end Sys2Proof.Machine
end

