-- ==== Sys2Proof/Machine/Power.lean ====
section
/-! DEFINITION. Resets and start-up, monitors, clocks, switchable units, lifecycle and test wrapper (spec/15). -/

namespace Sys2Proof.Machine

def modPwr (s : State) (f : Pwr → Pwr) : State := { s with pwr := f s.pwr }

/-! ### Status outputs (R363) -/

def blkReady (s : State) : Bool := s.up && svc s
def booterr (s : State) : Nat := fld (getR s aZwGcause) 24 3
def blkFail (s : State) : Bool :=
  if s.up then s.lnc.set == .failstop || booterr s != 0 else s.pwr.failHeld
def blkHeld (s : State) : Bool := s.up && held s
def blkAttack (s : State) : Bool := s.up && bit (getR s aKeyAttack) 31

/-! ### Reset (R362) -/

/-- Registers kept by a reset: row table, spare rows, lifecycle state, BNK_MAP; and, unless it is power-on reset, LOCK,
two counts, LSFAIL, and a locked KEY_POLICY. -/
def keptCsr (s : State) (por : Bool) : State → State := fun t =>
  let copy := fun (a : Nat) (m : Word) (u : State) => setR u a ((getR u a &&& ~~~m) ||| (getR s a &&& m))
  let rows := ((s.csr.map (·.1)).filter (fun a => decide (aStlRow ≤ a) && decide (a < aStlRow + 4096))).foldl
    (fun u a => setR u a (getR s a)) t
  let u1 := copy aBnkMap 0xFFFFFFFF#32 (copy aZwLifecycle 3 (copy aStlStatus 0x7F rows))
  if por then u1
  else
    let u2 := copy aClkStatus 0x800#32 (copy aBneZero 0xFFFF0000#32 (copy aKeyAttack 0xFFFF#32 (copy aZwLifecycle 0x80000000#32 u1)))
    if bit (getR s aKeyPolicy) 31 then copy aKeyPolicy 0xFFFFFFFF#32 u2 else u2

/-- The stele and the flash macro's array keep their content. -/
def keptAddr (a : Nat) : Bool := (decide (0x20000000 ≤ a) && decide (a < 0x20040000)) ||
  (decide (0x30000000 ≤ a) && decide (a < 0x34000000))

/-- The state that a reset with a cause leaves; a reset that meets another records the lower code. -/
def resetBlock (s0 : State) (cause : Nat) : State :=
  let s := lostFlash s0
  let por := cause = 1
  let t : State := { State.reset with
    pending := s.pending, draws := s.draws
    mem := SMap.keep keptAddr s.mem, ecc := SMap.keep keptAddr s.ecc
    l0cnt := if por then 0 else s.l0cnt
    lnc := { State.reset.lnc with
      lanes := if por then [] else allLanes.foldl (fun m n =>
        let x := laneOf s n
        m.set {} n { ({} : Lane) with perm := x.perm, retcnt := x.retcnt, role := if x.perm then .retired else .test }) [] }
    fli := { size := s.fli.size, fprog := s.fli.fprog }
    stl := { lost := s.stl.lost }
    src := (s.src.filter (fun e => decide (64 ≤ e.1) && e.2.line)).map (fun e => (e.1, { line := true }))
    pwr := {
      cause := if s.up then cause else min s.pwr.cause cause
      failHeld := cause = 4 && blkFail s
      good := s.pwr.good && cause != 2
      wir := s.pwr.wir, wdr := s.pwr.wdr } }
  keptCsr s por t

/-- A condition of a monitor or clock: nothing happens while the block is in reset. -/
def whenUp (s : State) (f : State → State) : State := if s.up then f s else s

/-! ### Monitors (R357, R361) -/

/-- VBLK has been above 1.60 V for 1 ms. -/
def powerGood (s : State) : State := modPwr s (fun p => { p with good := true })

def earlyWarning (s : State) : State :=
  whenUp s (fun s => trigger (orR (orR s aPwrAlarm 3) aStlStatus 0x80000000#32) 34)

/-- The hold-up ends: the writes it held back take place, and a recovery goes on (R301, R327). -/
def earlyClear (s : State) : State :=
  whenUp s (fun s =>
    let s1 := clrR (clrR s aPwrAlarm 1) aStlStatus 0x80000000#32
    nextRepair (markRows (flushLate (redoSlots s1))))

/-- A sensor alarm: its PWR_ALARM bit, and the count from bit `lo` of PWR_GLITCH. -/
def sensorAlarm (s : State) (i lo : Nat) : State :=
  whenUp s (fun s => trigger (policy (bumpR (orR s aPwrAlarm (u32 (2 ^ i))) aPwrGlitch lo 16 1) pcSENSOR) 34)

def temperature (s : State) (low : Bool) : State :=
  whenUp s (fun s => trigger (orR s aPwrAlarm (if low then 0x10 else 8)) 35)

/-- A clock fault sets its bit and NOW bit. -/
def clockFault (s : State) (i : Nat) : State :=
  whenUp s (fun s => trigger (orR s aClkStatus (u32 (2 ^ i + 2 ^ (8 + i)))) 36)

def refclkFault (s : State) : State := whenUp s (fun s => holdover (clockFault s 0))

def clockReturn (s : State) (i : Nat) : State := whenUp s (fun s => clrR s aClkStatus (u32 (2 ^ (8 + i))))

/-- A second oscillator fault: LSFAIL, the policy count, and a reset (R361). -/
def secondFault (s : State) : State :=
  whenUp s (fun s => resetBlock (policy (orR s aClkStatus 0x800) pcLANE) 4)

/-- The clock voter finds oscillator `n` faulty: masked while both others run (R251). -/
def oscillator (s : State) (n : Nat) : State :=
  whenUp s (fun s => if oscOff s ≠ 0 ∧ bit (getR s aKeyStat) n = false then secondFault s else oscFault s n)

/-! ### Clocks (R359, R360) -/

/-- Write of CLK_LANE. A change of LSET is in progress until the set has drained and the divider has changed. -/
def writeClkLane (s : State) (v : Word) : State :=
  let w := getR s aClkLane
  let lset := if fld v 0 3 ≤ 5 then fld v 0 3 else fld w 0 3
  let free := if fld v 4 3 ≤ 5 then fld v 4 3 else fld w 4 3
  let rotact := match s.lnc.join with | some j => j.leaves.isSome | none => false
  if lset ≠ fld w 0 3 ∧ (s.lnc.busy || rotact) = true then setR s aClkLane (setBit w 31 true)
  else setR s aClkLane (u32 (b2n (bit w 30 || decide (lset ≠ fld w 0 3)) * 2 ^ 30 + free * 16 + lset))

/-- The change of LSET ends (R360): no row says when, and it ends with the next milestone cycle: DESIGN CHOICE, log entry 5. -/
def lsetEnd (s : State) : State := if bit (getR s aClkLane) 30 then clrR s aClkLane 0x40000000#32 else s

/-! ### Switchable units (R369 to R371) -/

def setUnit (s : State) (u st : Nat) : State :=
  setR s (aPwrUnit + 4 * u) (setFld (getR s (aPwrUnit + 4 * u)) 4 2 st)

def setUnitPend (s : State) (u : Nat) (p : Bool) : State :=
  setR s (aPwrUnit + 4 * u) (setBit (getR s (aPwrUnit + 4 * u)) 8 p)

/-- CLOSING begins: the engine's work is aborted, a suspended erase is resumed (R371). -/
def startClosing (s : State) (u : Nat) : State :=
  let s1 := setUnit s u 3
  if u = 0 then (List.range 8).foldl abortLoad (abortAll s1)
  else if u = 1 then
    let s2 := modFli s1 (fun f => { f with swsus := false })
    if s2.fli.susp then eraseResume s2 else s2
  else s1

/-- Write of PWR_UNIT[u] (R370). -/
def writeUnit (s : State) (u : Nat) (v : Word) : State :=
  let a := aPwrUnit + 4 * u
  let en := bit v 0
  let s1 := setR s a (setBit (getR s a) 0 en)
  match unitSt s u with
  | 0 => if en then setUnit s1 u 1 else s1
  | 1 => setUnitPend s1 u !en
  | 2 => if en then s1 else startClosing s1 u
  | _ => setUnitPend s1 u en

/-- A host access that the Keystone has accepted and that has not completed. -/
def awaitsHost (k : Cons) : Bool :=
  k.used && k.done.isNone && k.early.isNone && decide (region k.addr = some .host)
    && (match k.kind with | .engine _ _ => false | _ => true)

/-- What CLOSING waits for has ended (R371). -/
def closeReady (s : State) (u : Nat) : Bool :=
  if u = 0 then s.bne.ops.isEmpty && s.bne.cload.isNone && s.bne.lab.isEmpty
  else if u = 1 then s.fli.seq.isNone && s.fli.prog.isNone && s.fli.era.isNone && s.fli.repair.isEmpty && s.fli.redo.isEmpty
  else !s.cons.any (fun e => awaitsHost e.2)

/-- Registers of a control-space unit return to their reset values, but for those that `keep` names. -/
def resetRegs (s : State) (lo hi : Nat) (keep : Nat → Bool) : State :=
  { s with csr := SMap.keep (fun a => decide (a < lo) || decide (hi ≤ a) || keep a) s.csr }

/-- The initialisation at the end of OPENING (R371). -/
def openUnit (s : State) (u : Nat) : State :=
  if u = 0 then
    let z := getR s aBneZero
    let s1 := resetRegs (clrRange s opBase (opBase + 0x4000)) aBneSlotcfg (aBneSlotcfg + 0x10000)
      (fun a => decide (a < aBneResult))
    modBne (setR s1 aBneZero z) (fun e => { e with rngerr := false })
  else if u = 1 then
    let s1 := resetRegs s aFliCfg (aFliCfg + 0x10000) (fun _ => false)
    scanJournal (fun _ => false) (loadOptions { s1 with fli := { size := s.fli.size, fprog := s.fli.fprog } })
  else hostSend (resetRegs s aHptCfg (aHptCfg + 0x10000) (fun _ => false))

/-- The rail is down: what the host port still waited for is abandoned. -/
def closeUnit (s : State) (u : Nat) : State :=
  if u = 2 then modHpt s (fun h => { h with out := h.out.map (fun e => (e.1, e.2.map (fun o => { o with gone := true }))) })
  else s

/-- The request of `k` is held at the Keystone for unit `u` (R26). -/
def heldFor (u : Nat) (k : Cons) : Bool :=
  k.used && k.done.isNone && k.early.isNone
    && (match k.kind with | .engine _ key => u == 0 && !key | _ => (region k.addr).bind unitOf == some u)

/-- The requests held while unit `u` was OPENING find it CLOSING, since a close was latched: they complete with status 3, as those
that arrive then (R26, R370): DESIGN CHOICE, log entry 81. -/
def refuseHeld (s : State) (u : Nat) : State :=
  (s.cons.filter (fun e => heldFor u e.2)).foldl (fun t e => deliverCons t e.1 3 0 (finfo e.2.size e.1)) s

/-- A unit's transition ends, and a latched request is honoured at once (R370). -/
def unitEnd (s : State) (u : Nat) : State :=
  let pend := bit (getR s (aPwrUnit + 4 * u)) 8
  match unitSt s u with
  | 1 =>
    let s1 := setUnit (setUnitPend (openUnit s u) u false) u 2
    if pend then startClosing (refuseHeld s1 u) u else hostSend s1
  | 3 =>
    if closeReady s u then
      let s1 := setUnit (setUnitPend (closeUnit s u) u false) u 0
      if pend then setUnit s1 u 1 else s1
    else s
  | _ => s

/-! ### Lifecycle and wrapper (R377, R378) -/

def lifecycle (s : State) : Nat := fld (getR s aZwLifecycle) 0 2
def lifeLock (s : State) : Bool := bit (getR s aZwLifecycle) 31

/-- A step of the lifecycle is permitted. -/
def stepAllowed (s : State) (new : Nat) : Bool :=
  let cur := lifecycle s
  decide (cur < new) && (new == 3 || (!lifeLock s && new == cur + 1))

/-- Entry to a lifecycle state; in DECOMMISSIONED the keys are zeroised and the KEYS region is written with 0 (R377), in the
turns of the stele (R300, R301). -/
def enterLife (s : State) (new : Nat) : State :=
  let s1 := setR s aZwLifecycle (setFld (getR s aZwLifecycle) 0 2 new)
  if new = 3 then
    let s2 := zeroise s1
    flushLate { s2 with stl := { s2.stl with
      late := s2.stl.late ++ (List.range 0x800).map (fun i => ⟨0x20005400 + 8 * i, 8, true, false, 0⟩) } }
  else s1

/-- Write of ZW_LIFECYCLE. -/
def writeLifecycle (s : State) (v : Word) : State :=
  let new := fld v 0 2
  let s1 := if fld v 8 8 = 0x6C ∧ stepAllowed s new = true then enterLife s new else s
  let w := getR s1 aZwLifecycle
  let w1 := setBit (if lifeLock s then w else setBit w 2 (bit v 2)) 30 (bit w 30 && !bit v 30)
  setR s1 aZwLifecycle (setBit w1 31 (bit w 31 || bit v 31))

/-- A wrapper instruction is admitted. -/
def wrapAdmits (s : State) (code : Nat) : Bool :=
  let l := lifecycle s
  match code with
  | 0 => true
  | 1 => true
  | 5 => true
  | 2 => !lifeLock s && decide (l ≤ 1)
  | 3 => !lifeLock s && l == 0
  | 4 => !lifeLock s && (l == 0 || l == 3)
  | 6 => !lifeLock s && (decide (l ≤ 1) || (l == 2 && bit (getR s aZwLifecycle) 2))
  | 7 => !lifeLock s && l == 0
  | _ => false

/-- The wrapper instruction in force becomes `code`: leaving WS_INTEST or WS_MBIST resets the block. -/
def setWir (s : State) (code : Nat) : State :=
  let leaves := (s.pwr.wir == 3 || s.pwr.wir == 4) && s.pwr.wir != code
  let s1 := modPwr s (fun p => { p with wir := code })
  if leaves then resetBlock s1 5 else s1

/-- Load a wrapper instruction; one that is not admitted is WS_BYPASS with WDENY. The answer says whether it was. -/
def loadWir (s : State) (code : Nat) : State × Bool :=
  if wrapAdmits s code then (setWir s code, true) else (setWir (orR s aZwLifecycle 0x40000000#32) 0, false)

/-! ### Registers with hardware parts -/

/-- ZW_GCAUSE as read. -/
def gcauseWord (s : State) : Word :=
  (getR s aZwGcause &&& 0x7F000000#32) ||| u32 (b2n (s.lnc.set == .failstop) * 2 ^ 31 + s.pwr.cause * 2 ^ 16)

def hptStatWord (s : State) : Word :=
  u32 ((s.hpt.out.filter (fun e => match e.2 with | some o => !o.gone | none => false)).length * 2 ^ 16)

/-! ### Start-up (R364 to R368) -/

/-- A word of ZW_GCAUSE's own bits. -/
def setGcause (s : State) (i n v : Nat) : State := setR s aZwGcause (setFld (getR s aZwGcause) i n v)

/-- Start-up ends without service (R366). -/
def bootFail (s : State) (code : Nat) : State := leave (holdOutputs (setGcause s 24 3 code)) 0 .wait

/-- Step 5: the comparator test. A failure is recorded; a lane whose port fails is retired, a failure common to all lanes
sets CMPFAIL (R250). -/
def comparatorTest (s : State) (x : StartUp) : State :=
  let s1 := x.ports.foldl (fun t e =>
    if (laneOf t e.1.val).role ≠ .retired then
      retire (cmpFailure t (sweepPlace e.2.val).1 (sweepPlace e.2.val).2 false) e.1.val
    else t) s
  match x.cmp with
  | some i => cmpFailure s1 (sweepPlace i.val).1 (sweepPlace i.val).2 true
  | none => s1

/-- Step 6: the lanes' self-tests, omitted under fast start (R364, R367). -/
def lanesTest (s : State) (x : StartUp) (fastStart : Bool) : State :=
  if fastStart then s
  else allLanes.foldl (fun t n =>
    if (laneOf t n).role = .retired then t
    else if x.pass.getLsbD n then modLane t n (fun y => { y with passed := some t.cycles, tested := some t.cycles })
    else retire (modLane t n (fun y => { y with tested := some t.cycles, lastfail := true })) n) s

/-- Step 7: bank initialisation, with the spare placed as the configuration says (R295). -/
def initBanks (s : State) (hw0 : Nat) : State :=
  setR (clrRange (clrRange s 0x10000000 0x10200000) spareBase (spareBase + 0x10000)) aBnkMap
    (if hw0 / 2 ^ 31 % 2 = 1 then u32 (2 ^ 31 + hw0 / 2 ^ 16 % 2 ^ 5 * 2 ^ 16) else 0)

/-- `n` bytes little-endian as a number. -/
def memNat (s : State) (a n : Nat) : Nat := leNat (bytesAt s a n)

/-- The public key for boot headers (R365); none when the root key record is not valid. -/
def bootKey (s : State) : Option (Nat × Nat) :=
  if lifecycle s = 0 then some (memNat s 0xFF00 48, memNat s 0xFF30 48)
  else
    let c := rdN s 0x20005460 8
    if c / 2 ^ 48 = 0x4B52 ∧ c % 2 ^ 32 = (crc32 (bytesAt s 0x20005400 96)).toNat ∧ steleClean s 0x20005400 0x68 = true then
      some (memNat s 0x20005400 48, memNat s 0x20005430 48)
    else none

/-- Word of the boot header at `h`. -/
def bootWord (s : State) (h off : Nat) : Nat := rdN s (h + off) 4

/-- The fields of a boot header lie in their ranges (R365). -/
def headerShape (s : State) (h : Nat) : Bool :=
  let f := bootWord s h
  let len := f 8
  let load := f 0xC
  f 0 == 0x544F4F42 && f 4 == 0 && f 0x1C == 0 && len % 8 == 0 && decide (8 ≤ len) && decide (len ≤ 65536)
    && load % 64 == 0 && inBanks load len && decide (load ≤ f 0x10) && decide (f 0x10 < load + len)
    && decide (f 0x14 < flashBytes s) && decide (h + 0x100 + len ≤ flashBase + flashBytes s)

/-- Such a header whose reads, and those of its image, do not fail. -/
def headerFields (s : State) (h : Nat) : Bool := headerShape s h && flashReads s h (0x100 + bootWord s h 8)

/-- The boot ROM's reads of `n` bytes of the flash array: what the check of each word finds is counted (R316). -/
def readFlash (s : State) (a n : Nat) : State :=
  (s.ecc.filter (fun e => decide (a ≤ e.1) && decide (e.1 < a + n))).foldl
    (fun t e => flashFinding t e.1 (decide (2 ≤ e.2))) s

/-- The boot ROM reads the header at `h`, and the image of one whose fields are right (R365; log entry 50). -/
def readHeader (s : State) (h : Nat) : State :=
  let t := readFlash s h 0x80
  if headerShape s h then readFlash t (h + 0x100) (bootWord s h 8) else t

/-- A boot header is valid: its fields, and its signature over header and image. -/
def headerValid (s : State) (h : Nat) : Bool :=
  headerFields s h &&
    match bootKey s with
    | some (qx, qy) =>
      ecdsaOk curveP384 (sha384Nat (bytesAt s h 0x20 ++ bytesAt s (h + 0x100) (bootWord s h 8)))
        (memNat s (h + 0x20) 48) (memNat s (h + 0x50) 48) qx qy
    | none => false

/-- The boot header that is used (R365). -/
def bootHeader (s : State) : Option Nat :=
  let a := flashBase
  let b := flashBase + flashBytes s / 2
  match headerValid s a, headerValid s b with
  | true, true => some (if newerSeq (bootWord s b 0x18) (bootWord s a 0x18) then b else a)
  | true, false => some a
  | false, true => some b
  | false, false => none

/-- The boot ROM's store of 8 bytes at `a`: one of coach 0 in ring 0. A bank that AUTOWAKE wakes takes it then (R291); a
failure is reported to coach 0 (R48). -/
def bootStore (s : State) (a v : Nat) : State :=
  let r : Req := ⟨0, 0, false⟩
  let done := fun (q : State × Ans) => match q.2 with
    | .fail st i => deliverItem q.1 (.coach 0) (failItem a st (i ||| finfo 8 0) true)
    | _ => q.1
  match bankAccess s r a 8 (some v) with
  | (t, .waits b) => done (bankPerform (wakeBank t b) r true a 8 (some v))
  | q => done q

/-- Copy `n` 64-bit words into a bank. -/
def copyWords (s : State) (src dst : Nat) : Nat → State
  | 0 => s
  | n + 1 => copyWords (bootStore s dst (rdN s src 8)) (src + 8) (dst + 8) n

/-- Words of a vendor image as the buffer they load. -/
def imageBuffer (s : State) (p count dcount : Nat) : SMap Nat :=
  let m := (List.range count).foldl (fun m i => SMap.set 0 m i (rdN s (p + 0x40 + 16 * i) 16 % 2 ^ 112)) []
  (List.range dcount).foldl (fun m j => SMap.set 0 m (1024 + j) (rdN s (p + 0x40 + 16 * count + 4 * j) 4)) m

/-- Bytes of the vendor image at `p` before its signature. -/
def imageBytes (s : State) (p : Nat) : Nat := 0x40 + 16 * rdN s (p + 0xC) 4 + 4 * rdN s (p + 0x10) 4

/-- The header of the vendor image at `p` has its fields (R269). -/
def imageShape (s : State) (p : Nat) : Bool :=
  let f := fun off => rdN s (p + off) 4
  let count := f 0xC
  let dcount := f 0x10
  f 0 == 0x434D575A && f 4 == 1 && f 8 != 0 && decide (1 ≤ count) && decide (count ≤ 1024) && decide (dcount ≤ 64)
    && f 0x14 == 0 && f 0x38 == 1 && f 0x3C == 96 && decide (p + imageBytes s p + 96 ≤ flashBase + flashBytes s)

/-- The vendor image at `p` passes the checks of R269: fields, signature and digest. -/
def imageValid (s : State) (p : Nat) : Bool :=
  let f := fun off => rdN s (p + off) 4
  let sig := imageBytes s p
  imageShape s p && flashReads s p (sig + 96)
    && ecdsaOk curveP384 (sha384Nat (bytesAt s p sig)) (memNat s (p + sig) 48) (memNat s (p + sig + 48) 48)
        (memNat s 0xFF60 48) (memNat s 0xFF90 48)
    && bufferDigest false (imageBuffer s p (f 0xC) (f 0x10)) (u32 (f 8)) == bytesAt s (p + 0x18) 32

/-- Step 9: the vendor patch at window offset `off` is verified, staged and switched, or refused with PATCHERR. -/
def bootPatch (s0 : State) (off : Nat) : State :=
  if off = 0 then s0
  else
    let p := flashBase + off
    let s := readFlash s0 p (if imageShape s0 p then imageBytes s0 p + 96 else 0x40)
    if imageValid s p then
      let b := imageBuffer s p (rdN s (p + 0xC) 4) (rdN s (p + 0x10) 4)
      let s1 := setStagedState (setR (modMcs s (fun m => { m with vstg := b })) aMcsStaged (rd32 s (p + 8))) false 2
      exchange (modMcs s1 (fun m => { m with sw := some false }))
    else setGcause s 27 1 1

/-- Steps 8 to 10: image, patch, and entry to the Monitor firmware. -/
def bootImage (s : State) : State :=
  if lifecycle s = 3 then bootFail s 4
  else
    let s0 := readHeader (readHeader (if lifecycle s = 0 then s else readWords s 0x20005400 13) flashBase)
      (flashBase + flashBytes s / 2)
    match bootHeader s0 with
    | none => bootFail s0 3
    | some h =>
      let s1 := copyWords s0 (h + 0x100) (bootWord s h 0xC) (bootWord s h 8 / 8)
      let s2 := bootPatch s1 (bootWord s h 0x14)
      makeReady (modC s2 (.coach 0) (fun c => { c with pc := u32 (bootWord s h 0x10) })) 0

/-- The start-up sequence from the release of reset (R364). -/
def startUp (s0 : State) (x : StartUp) : State :=
  let s := { s0 with up := true, fli := { s0.fli with size := x.size.val } }
  let (s1, hw0) := selectConfig (selectCal s)
  let fastStart := hw0 % 2 == 1
  let s2 := scanJournal (fun k => x.bad.contains (BitVec.ofNat 14 k)) (loadOptions (markRows s1))
  let s3 := makeReady (setCoach s2 0 { pc := 0, status := 0x00010000#32 }) 0
  let s4 := comparatorTest s3 x
  if x.cmp.isSome then bootFail s4 1
  else
    let s5 := lanesTest s4 x fastStart
    let s6 := seatLanes s5 (unretired s5) .spare
    if s6.lnc.set = .failstop then bootFail s6 2
    else
      let s7 := setGcause (initBanks s6 hw0) 30 1 (b2n (decide ((unretired s6).length < 4)))
      let s8 := bootImage s7
      if booterr s8 = 0 then setGcause s8 29 1 (b2n fastStart) else s8

/-- The boot ROM's steps after an L0 restart (R368). -/
def afterL0 (s0 : State) (x : StartUp) : State :=
  let s := setGcause (setGcause (modPwr s0 (fun p => { p with boot := false })) 28 1 1) 27 1 0
  let s1 := comparatorTest s x
  let s2 := if x.ports.isEmpty then s1 else reformLanes s1
  if x.cmp.isSome then bootFail s2 1
  else if s2.lnc.set = .failstop then bootFail s2 2
  else bootImage s2

/-- RESET_RELEASE: the start-up after a reset whose cause has gone, or the boot ROM's steps after an L0 restart. -/
def release (s : State) (x : StartUp) : State :=
  if s.up then (if s.pwr.boot then afterL0 s x else s)
  else if s.pwr.good then startUp s x else s

end Sys2Proof.Machine
end

