-- ==== Sys2Proof/Machine/HostPort.lean ====
section
/-! DEFINITION. The inbound side of the host port (R372, R373, R375), and the steps of the banks' own engines: hand-over,
power transitions, write-back, scrub and spare copy (spec/11). -/

namespace Sys2Proof.Machine

/-! ### Inbound requests -/

/-- Send a response on the SS channel (R373): the data of anything but a READ with OK is 0. -/
def answer (s : State) (tag : Nat) (r : Nat × DWord) : State :=
  modHpt s (fun h => { h with last := some ⟨tag, r.1, if r.1 = 0 then r.2 else 0⟩ })

/-- Codes of STAT (R373). -/
abbrev stOK : Nat := 0
abbrev stBUSY : Nat := 1
abbrev stERROR : Nat := 2
abbrev stDENIED : Nat := 3

/-- An inbound request is accepted while the port is ON and answered once; SLVEN 0 denies it (R371, R372, R375). -/
def inbound (s : State) (tag : Nat) (serve : State → State × Nat × DWord) : State :=
  if !s.up || unitSt s 2 != 2 then s
  else if !bit (getR s aHptCfg) 0 then answer s tag (stDENIED, 0)
  else let r := serve s; answer r.1 tag r.2

/-- A host address lies in the banks (R375). -/
def hostBank (a : Nat) : Bool := decide (0x10000000 ≤ a) && decide (a < 0x10200000)

/-- The H port's answer before the access: ownership, then the power state (R285, R291). -/
def hPort (s : State) (a : Nat) (wr : Bool) : State × Option Nat :=
  let n := bankOf a
  let r : Req := ⟨0, 0, false⟩
  match bankAns s n (fld (bankN s n).owner 18 2 == 3) with
  | .ok => (s, none)
  | .waits => (wakeBank s n, some stBUSY)
  | .refuse _ why => (recordDeny s 2 a r wr why, some stDENIED)

/-- The common path of READ and WRITE at the H port: `r` is another port's access to the word, to which it may lose (R278,
R281). -/
def hostAccess (s : State) (a : Nat) (wr : Bool) (r : Option Rival) (u : Upset) (go : State → State × Nat × DWord) :
    State × Nat × DWord :=
  if !hostBank a || a % 8 != 0 then (s, stDENIED, 0)
  else
    match hPort s a wr with
    | (t, some st) => (t, st, 0)
    | (t, none) => if r.any (loses .h wr false) then (bumpR t aBnkColl 16 16 1, stBUSY, 0) else go (upsetEcc t a u)

/-- READ (R375). -/
def hostRead (s : State) (a : Nat) (r : Option Rival) (u : Upset) : State × Nat × DWord :=
  hostAccess s a false r u (fun t =>
    let q := bankRead t a 8
    if q.2.1 = 0 then (q.1, stOK, BitVec.ofNat 64 q.2.2) else (q.1, stERROR, 0))

/-- A word with the bytes that BE names taken from new data. -/
def mergeBytes (be : BitVec 8) (old new : DWord) : DWord :=
  (List.range 8).foldl (fun acc i =>
    let m : DWord := 0xFF#64 <<< (8 * i)
    if be.getLsbD i then (acc &&& ~~~m) ||| (new &&& m) else acc) old

/-- A write of the bytes of word `a` that `be` names, in full or merged (R283): false when the old word is uncorrectable. -/
def portWrite (s : State) (a : Nat) (be : BitVec 8) (d : DWord) : State × Bool :=
  let (t, ok) := if be = 0xFF#8 then (s, true) else checkWord s a false
  if ok then ((bankWrite t a 8 (mergeBytes be (rd64 t a) d).toNat).1, true) else (t, false)

/-- WRITE of the bytes that BE names (R375). -/
def hostWrite (s : State) (a : Nat) (be : BitVec 8) (d : DWord) (r : Option Rival) (u : Upset) : State × Nat × DWord :=
  if be = 0 then (s, if hostBank a && a % 8 == 0 then stOK else stDENIED, 0)
  else
    hostAccess s a true r u (fun t =>
      let (t1, ok) := portWrite t a be d
      (t1, if ok then stOK else stERROR, 0))

/-- RELEASE (R289): hand the bank back to the owner before HOST, without a wipe. -/
def releaseReq (s : State) (a : Nat) : State × Nat × DWord :=
  let n := bankOf a
  let b := bankN s n
  if !hostBank a || b.own != .owned || fld b.owner 18 2 != 3 || (n == 0 && vtlock s) || copying s n then (s, stDENIED, 0)
  else
    let v := b.beforeHost &&& 0x7FFFFFFF#32
    (modBank (startHand (setR s (aBnkOwner + 4 * n) v) n v) n (fun x => { x with hrel := true }), stOK, 0)

/-- DOORBELL (R375). -/
def doorbellReq (s : State) (d : DWord) : State × Nat × DWord := (trigger (orR s aHptDbell (loW d)) 39, stOK, 0)

/-! ### The E port (R277, R280, R283, R285, R291) -/

/-- The E port answers its master. -/
def eAnswer (s : State) (n : Nat) (x : EAns) : State := modBank s n (fun b => { b with e := ⟨none, 0, some x⟩ })

/-- One attempt of an E-port access to word `w` of bank `n`: ownership by ENGINE, the power state, the other port's access
`r`, then the access itself. One that has met four BUSY results in a row ranks first. -/
def ePort (s : State) (n w : Nat) (wr : Option (BitVec 8 × DWord)) (r : Option Rival) (u : Upset) : State :=
  let a := 0x10000000 + n * 0x10000 + 8 * w
  let b := bankN s n
  let busy := if b.e.acc = some (w, wr.isSome) then b.e.busy else 0
  match bankAns s n (fld b.owner 18 2 == 2) with
  | .waits => wakeBank s n
  | .refuse _ why => eAnswer (recordDeny s 1 a ⟨0, 0, false⟩ wr.isSome why) n .error
  | .ok =>
    if r.any (loses .e wr.isSome (decide (4 ≤ busy))) then
      modBank (bumpR s aBnkColl 0 16 1) n (fun b => { b with e := { b.e with acc := some (w, wr.isSome), busy := busy + 1 } })
    else
      let t := upsetEcc s a u
      match wr with
      | none =>
        let q := bankRead t a 8
        eAnswer q.1 n (if q.2.1 = 0 then .data (BitVec.ofNat 64 q.2.2) else .error)
      | some (be, d) =>
        let (t1, ok) := portWrite t a be d
        eAnswer t1 n (if ok then .done else .error)

/-! ### Hand-over (R288) -/

/-- Array of a bank, or of the spare under number 32. -/
def arrayOf (n : Nat) : Nat := if n = 32 then spareBase else 0x10000000 + n * 0x10000

/-- The access of a consignment goes to bank `n`. -/
def goesToBank (n : Nat) (k : Cons) : Bool :=
  (match region k.addr with | some .bank => true | some .vtAlias => true | _ => false)
    && (match k.kind with | .engine _ _ => false | _ => true)
    && (bankParts (phys k.addr) k.size).any (fun p => bankOf p.1 == n)

/-- Accesses to bank `n` that the Keystone has accepted, and that satisfy `p`, are still to be performed. -/
def acceptedAt (s : State) (n : Nat) (p : Cons → Bool := fun _ => true) : Bool :=
  s.cons.any (fun e => e.2.used && e.2.done.isNone && e.2.early.isNone && goesToBank n e.2 && p e.2)
    || s.lateAcc.any (fun e => goesToBank n e.2 && p e.2)

/-- HANDING ends once the last access accepted before has been performed. -/
def handingEnd (s : State) (n : Nat) : State :=
  let b := bankN s n
  if b.own ≠ .handing ∨ acceptedAt s n = true then s
  else if bit b.next 31 then setBank s n { b with own := .wiping }
  else setBank s n { b with own := .owned, owner := b.next }

/-- WIPING ends: every word is 0 with valid check bits. -/
def wipeEnd (s : State) (n : Nat) : State :=
  let b := bankN s n
  if b.own = .wiping then
    setBank (clrRange s (arrayOf n) (arrayOf n + 0x10000)) n { b with own := .owned, owner := b.next }
  else s

/-! ### Power transitions (R290, R292) -/

/-- Apply a request latched during the transition. -/
def applyLatched (b : Bank) : Bank :=
  match b.latched with
  | some r => startPwr { b with latched := none } r
  | none => b

/-- A coach is held until bank `n` is ACTIVE (R291). -/
def awaited (s : State) (n : Nat) : Bool :=
  let waits := fun (c : Coach) => match c.held with
    | some (.bank b) => b == n
    | some (.parking _ (.bank b)) => b == n
    | _ => false
  waits s.fast || s.coach.any (fun e => waits e.2)

/-- A request applied as the transition ends has the bank leave ACTIVE again while an access waits for it: AUTOWAKE wakes it
(R291). -/
def rewake (s : State) (n : Nat) : State := if autowake s n && awaited s n then wakeBank s n else s

/-- The transition in progress ends; one towards RETAIN or OFF once the accesses accepted before it have been performed
(R290). -/
def powerEnd (s : State) (n : Nat) : State :=
  let b := bankN s n
  let a := arrayOf n
  if n = 32 ∧ spareUsed s = true then s
  else if (b.pwr = 1 ∨ b.pwr = 4) ∧ acceptedAt s n (·.live) = true then s
  else if b.pwr = 1 then rewake (setBank s n (applyLatched { b with pwr := 2 })) n
  else if b.pwr = 4 then setBank (clrRange s a (a + 0x10000)) n (applyLatched { b with pwr := 5 })
  else if b.pwr = 3 then
    if b.fromOff && b.thenRetain then
      setBank s n { b with pwr := 1, fromOff := false, thenRetain := false }
    else rewake (setBank s n (applyLatched { b with pwr := 0, fromOff := false })) n
  else s

/-! ### Write-back and scrub (R283, R284) -/

/-- The array is in use and powered. -/
def arrayActive (s : State) (n : Nat) : Bool := s.up && (bankN s n).pwr == 0 && !(n == 32 && spareUsed s)

/-- The corrected word is written back. -/
def writeBack (s : State) (n w : Nat) : State :=
  let a := arrayOf n + 8 * w
  if arrayActive s n && eccAt s a == 1 then setEcc s a 0 else s

/-- One scrub read of an array. -/
def scrubRead (s : State) (n : Nat) (u : Upset) : State :=
  if bit (getR s aBnkScrub) 31 && arrayActive s n then
    let w := (bankN s n).scrub
    let a := arrayOf n + 8 * w
    modBank (checkWord (upsetEcc s a u) a true).1 n (fun b => { b with scrub := (w + 1) % 8192 })
  else s

/-! ### Spare copy (R294) -/

/-- One word of the copy: an uncorrectable word stays so in the spare and is counted. -/
def spareCopyWord (s : State) (u : Upset) : State :=
  let w := getR s aBnkSpare
  let n := (bankN s 32).copyOf
  let k := fld w 0 14
  if copyRuns s = true ∧ k < 8192 then
    let a := arrayOf n + 8 * k
    let d := spareBase + 8 * k
    let (s1, ok) := checkWord (upsetEcc s a u) a true
    let s2 := setEcc (spareWrite s1 d 8 (rdN s1 a 8)) d (if ok then 0 else 2)
    let s3 := if ok then s2 else bumpR s2 aBnkMap 0 14 1
    setR s3 aBnkSpare (setFld (getR s3 aBnkSpare) 0 14 (k + 1))
  else s

/-- Move the content of `[src, src + 0x10000)` to `dst`, leaving the source empty. -/
def moveArray (s : State) (src dst : Nat) : State :=
  let inSrc := fun k => decide (src ≤ k) && decide (k < src + 0x10000)
  let t := clrRange (clrRange s dst (dst + 0x10000)) src (src + 0x10000)
  let t1 := (s.mem.filter (fun e => inSrc e.1)).foldl (fun t e => wrB t (e.1 - src + dst) e.2) t
  (s.ecc.filter (fun e => inSrc e.1)).foldl (fun t e => setEcc t (e.1 - src + dst) e.2) t1

/-- The spare takes the place of the bank it mirrors. -/
def spareSwitch (s : State) : State :=
  let w := getR s aBnkSpare
  let n := (bankN s 32).copyOf
  if copyRuns s = true ∧ fld w 0 14 = 8192 then
    let t := moveArray s spareBase (arrayOf n)
    setR (setR t aBnkSpare (setFld w 24 2 2)) aBnkMap (u32 (2 ^ 31 + n * 2 ^ 16 + fld (getR s aBnkMap) 0 14))
  else s

end Sys2Proof.Machine
end

