-- ==== Sys2Proof/Machine/RegFile.lean ====
section
/-! DEFINITION. The control registers: what a read answers and does, what a write does (R12 to R16, R30, the register
tables), and what a sealed access does at its unit (R47). -/

namespace Sys2Proof.Machine

/-- The switchable unit behind a control-space address (R369). -/
def csrSwitch (a : Nat) : Option Nat :=
  if csrUnit a = 10 then some 0 else if csrUnit a = 9 then some 1 else if csrUnit a = 12 then some 2 else none

/-- A ring outside the register's set, or outside the MINRING of a channel that the write selects (R12, R385 step 4). -/
def csrDenied (s : State) (a ring : Nat) (w : Option Word) : Bool :=
  (match regOf a with | some r => decide (r.ring < ring) | none => false) ||
  (match w with | some v => a == aSvoCmd && svoDenied s v ring | none => false)

/-! ### Reads -/

/-- Registers that a read returns and clears in full. -/
def clearedByRead : List Nat :=
  [aZwMtrRetry, aCshTmocnt, aCshLate, aCshTblerr, aCshPoolwait, aRngEsccnt, aEvcBadcpl, aEvcSpur, aMlsSqLost, aSvoFcnt,
   aTmpFcnt, aKeyMmcnt, aKeyIncnt, aKeyPclass, aMcsMicrocnt, aBnkEcc, aBnkBusy, aBnkColl, aBnkDeny, aStlSlow, aStlEcc,
   aFliEcc, aFliDeny, aPwrGlitch, aHptErr]

/-- Registers whose count in bits [31:16] a read clears. -/
def countClearedByRead : List Nat := [aEvcFault, aStlWrfail, aFliHalf, aBneFault]

/-- The designated fast coach is held out of general use (R152). -/
def fastHeld (s : State) (n : Nat) : Bool := n == fastCoach s && (fastEn s || s.fastOn.isSome)

/-- CSH_STATE[n]. While the FAST handler runs, what the fast context has is shown for the designated coach; the timer is the
coach's own. -/
def cshStateWord (s : State) (n : Nat) : Word :=
  let f := fastHeld s n
  let runs := f && s.fastOn.isSome
  let c := if runs then s.fast else coachOf s n
  let st := if f then (if runs then 2 else 3) else c.st.code
  let queued := runs || c.st == .ready || c.st == .run
  let ls := if queued && isPaired s && c.qattr == 2 then partOf s n else 0
  let barred := !f && c.st == .ready && !(admitsCoach s 0 n || admitsCoach s 1 n || admitsCoach s 2 n)
  u32 (b2n barred * 2 ^ 26 + ls * 2 ^ 24 + entriesHeld s n * 2 ^ 16 + ringOf c * 2 ^ 14 + b2n f * 2 ^ 13
    + b2n (coachOf s n).timer.isSome * 2 ^ 12 + c.wake.toNat * 2 ^ 8 + attrOf (coachOf s n) * 2 ^ 6 + classOf (coachOf s n) * 2 ^ 4
    + b2n (queued && (c.held.isSome || c.stall.isSome)) * 2 ^ 3 + st)

/-- RNG_SBOX. -/
def sboxWord (s : State) : Word :=
  u32 (s.l0cnt * 2 ^ 16 + b2n (sboxOf s 3).occ * 8 + b2n (sboxOf s 2).occ * 4 + b2n (sboxOf s 1).occ * 2
    + b2n (sboxOf s 0).occ)

/-- Reads of the RNG_ unit. -/
def readRng (s : State) (w : Who) (a : Nat) : Word :=
  let b := sboxOf s (fld (getR s aRngSbsel) 0 2)
  let h := coachOf s (fld (getR s aRngHsel) 0 10)
  if a = aRngXcause then (getC s w).xcause
  else if a = aRngXaddr then (getC s w).xaddr
  else if a = aRngXinfo then (getC s w).xinfo
  else if a = aRngSbox then sboxWord s
  else if a = aRngSbpc then b.pc
  else if a = aRngSbstatus then b.status
  else if a = aRngSbcause then b.cause
  else if a = aRngSbaddr then b.addr
  else if aRngSbhead ≤ a ∧ a < aRngSbhead + 32 then b.head.getD ((a - aRngSbhead) / 4) 0
  else if a = aRngHpc then h.hpc
  else if a = aRngHcause then h.hcause
  else if a = aRngHaddr then h.haddr
  else if a = aRngHinfo then h.hinfo
  else getR s a

/-- Reads of the EVC_ unit by coach `c` in ring `r`. -/
def readEvc (s : State) (c r a : Nat) : State × Word :=
  let k := a % 64 / 4
  let n := a % 2048 / 4
  if a = aEvcTop then (s, topWord s c)
  else if a = aEvcClaimtop then claimTop s c
  else if aEvcPend ≤ a ∧ a < aEvcPend + 64 then (s, bitmap (fun i => inView s i c) k)
  else if aEvcPendall ≤ a ∧ a < aEvcPendall + 64 then (s, bitmap (fun i => (srcOf s i).pend) k)
  else if aEvcAct ≤ a ∧ a < aEvcAct + 64 then (s, bitmap (fun i => (srcOf s i).active) k)
  else if aEvcLive ≤ a ∧ a < aEvcLive + 64 then (s, bitmap (fun i => decide (64 ≤ i) && (srcOf s i).line) k)
  else if aEvcStormsum ≤ a ∧ a < aEvcStormsum + 64 then (s, bitmap (fun i => (srcOf s i).storm) k)
  else if aEvcSstat ≤ a ∧ a < aEvcSstat + 2048 then (s, sstatWord s n)
  else if aEvcClaim ≤ a ∧ a < aEvcClaim + 2048 then (if srcReserved n then (s, 0) else claim s n c r)
  else (s, getR s a)

/-- Reads of the MLS_, SVO_ and TMP_ units. -/
def readMls (s : State) (c a : Nat) : State × Word :=
  let n := (a - aMlsLstampLo) / 8
  if a = aMlsTimeLo then readTimeLo s c
  else if a = aMlsTimeHi then (s, readTimeHi s c)
  else if a = aMlsSq then readSq s
  else if a = aMlsLstat then (s, getR s a ||| u32 s.mls.lhead)
  else if a = aMlsLseq then (s, u32 s.mls.lseq)
  else if aMlsLstampLo ≤ a ∧ a < aMlsLstampLo + 4096 then
    (if a % 8 = 0 then readStampLo s c n else (s, readStampHi s c n))
  else if a = aSvoCmd then (s, svoCmdWord s)
  else if aSvoStat ≤ a ∧ a < aSvoStat + 16 then (s, svoStatWord s ((a - aSvoStat) / 4))
  else (s, getR s a)

/-- Reads of the other units. -/
def readOther (s : State) (a : Nat) : State × Word :=
  if a = aZwRevision then (s, 0x00020100#32 ||| Config.fixRev.zeroExtend 32)
  else if a = aZwGcause then (s, gcauseWord s)
  else if a = aCshPool then
    (setR s a (setFld (getR s a) 16 12 (poolFree s)), u32 (fld (getR s a) 16 12 * 2 ^ 16 + poolFree s))
  else if aCshState ≤ a ∧ a < aCshState + 4096 then (s, cshStateWord s ((a - aCshState) / 4))
  else if aCshHalted ≤ a ∧ a < aCshHalted + 128 then
    (s, bitmap (fun i => (coachOf s i).st == .halt) ((a - aCshHalted) / 4))
  else if a = aKeyPcount then
    (setR s a (setFld (getR s a) 16 12 (fld (getR s a) 0 12)), getR s a)
  else if a = aLncMode then (s, lncModeWord s)
  else if a = aLncStat then (s, lncStatWord s)
  else if aLncLane ≤ a ∧ a < aLncLane + 16 then (s, laneWord s ((a - aLncLane) / 4))
  else if a = aLncRotreq then (s, u32 (b2n s.lnc.rotReq))
  else if aBnkState ≤ a ∧ a ≤ aBnkState + 128 then (s, bankStateWord s ((a - aBnkState) / 4))
  else if a = aFliStatus then (s, fliStatusWord s)
  else if a = aFliJnext then (s, jnextWord s)
  else if a = aBneStatus then (s, u32 (b2n s.bne.rngerr * 2 ^ 31 + runCount s))
  else if a = aBneCload then (s, getR s a ||| u32 (b2n s.bne.cload.isSome * 2 ^ 30))
  else if aBneCstat ≤ a ∧ a < aBneCstat + 64 then (s, cstatWord s ((a - aBneCstat) / 4))
  else if aBneKdesc ≤ a ∧ a < aBneKdesc + 4096 then (s, kdescWord s ((a - aBneKdesc) / 4))
  else if a = aPwrVblk then let (w, t) := freeWord s; (t, w &&& 0xFFF#32)
  else if a = aPwrTemp then let (w, t) := freeWord s; (t, w &&& 0xFFFF#32)
  else if a = aHptStat then (s, hptStatWord s)
  else (s, getR s a)

/-- An access to the power island's registers runs its on-demand oscillator (R116). -/
def touchPower (s : State) (a : Nat) : State := if csrUnit a = 11 then modPwr s (fun p => { p with osc := true }) else s

/-- The read of the register at `a` by `w`: what it answers, and its side effect (R13). Unassigned offsets read 0. -/
def readReg (s0 : State) (w : Who) (a : Nat) : State × Word :=
  let s := touchPower s0 a
  let c := numOf s w
  if (regOf a).isNone then (s, 0)
  else if clearedByRead.contains a then (setR s a 0, getR s a)
  else if countClearedByRead.contains a then (setR s a (setFld (getR s a) 16 16 0), getR s a)
  else if csrUnit a = 2 then readEvc s c (ringOf (getC s w)) a
  else if csrUnit a = 3 ∨ csrUnit a = 4 then readMls s c a
  else if csrUnit a = 13 then (s, readRng s w a)
  else readOther s a

/-! ### Writes -/

/-- Clamp a field from below and above. -/
def clampFld (v : Word) (lo n least most : Nat) : Word := setFld v lo n (max least (min most (fld v lo n)))

/-- A write by the access types of the register's fields (R13, R14). -/
def writePlain (s : State) (a : Nat) (v : Word) : State :=
  match regOf a with
  | none => s
  | some r =>
    let old := getR s a
    let rw := u32 r.rw
    setR s a ((old &&& ~~~(rw ||| (u32 r.w1c &&& v))) ||| (v &&& rw))

/-- A quantum from 1 to 63 is stored as 64 (CSH_QUANTA_A, CSH_QUANTA_B). -/
def quantum (v : Word) (lo : Nat) : Word := if fld v lo 16 = 0 then v else clampFld v lo 16 64 65535

/-- Every two-bit field of value 3 becomes 0 (CSH_FREEPART0, CSH_FREEPART1). -/
def partWord (v : Word) : Word := (List.range 16).foldl (fun w g => if fld w (2 * g) 2 = 3 then setFld w (2 * g) 2 0 else w) v

/-- Coach `n` ends to be the designated fast coach and is FREE: no timer and no consignment refers to it (R127, R129). -/
def releaseFast (s : State) (n : Nat) : State :=
  modC { s with cons := s.cons.map (fun e => (e.1,
      if e.2.used && e.2.coach == n then (if e.2.done.isSome then { gen := e.2.gen } else { e.2 with orphan := true }) else e.2)) }
    (.coach n) (fun c => { c with timer := none })

/-- Write of CSH_FASTCFG (R152). A PARKED coach that is designated is one without a thread (R128), and FREE when the hold
ends (R129). While a FAST handler still runs a write of EN 1 is refused, and a write of COACH with EN 0 names the handler's
coach at once; a FAST delivery that waits when EN is written 0 keeps waiting: DESIGN CHOICE, log entry 76. -/
def writeFastcfg (s : State) (v : Word) : State :=
  let old := getR s aCshFastcfg
  if bit old 31 then
    let t := setR s aCshFastcfg (setBit (setFld old 16 8 (fld v 16 8)) 31 (bit v 31))
    if !bit v 31 && s.fastOn.isNone then releaseFast t (fld old 0 10) else t
  else
    let n := fld v 0 10
    let en := bit v 31 && !(coachOf s n).st.live && s.fastOn.isNone
    let s0 := if en && (coachOf s n).st == .parked then modC s (.coach n) (fun c => { c with st := .free }) else s
    let s1 := setR s0 aCshFastcfg (setBit (v &&& 0x00FF33FF#32) 31 en)
    let f := fld (getR s1 aEvcFast) 0 9
    if en && isFastSrc s1 f && visible s1 f then deliver s1 f else s1

/-- Write of CSH_HALTREQ (R129, R131): a coach in WAIT halts at once, another at its boundary. -/
def writeHaltreq (s : State) (v : Word) : State :=
  let n := fld v 0 10
  let c := coachOf s n
  if n = 0 ∨ fastHeld s n = true ∨ c.st.live = false ∨ c.st = .halt then s
  else if c.st = .wait then haltNow s n
  else setCoach s n { c with haltReq := true }

/-- Write of CSH_RESUME (R132). -/
def writeResume (s : State) (v : Word) : State :=
  let n := fld v 0 10
  if (coachOf s n).st = .halt then makeReady s n else s

/-- Writes of the CSH_ unit. -/
def writeCsh (s : State) (a : Nat) (v : Word) : State :=
  if a = aCshQuantaA ∨ a = aCshQuantaB then setR s a (quantum (quantum v 0) 16)
  else if a = aCshFreepart0 ∨ a = aCshFreepart1 then setR s a (partWord v)
  else if aCshTmoBank ≤ a ∧ a ≤ aCshTmoEngine then setR s a (clampFld (v &&& 0xFFFFFF#32) 0 24 3 0xFFFFFF)
  else if a = aCshFastcfg then writeFastcfg s v
  else if a = aCshHaltreq then writeHaltreq s v
  else if a = aCshResume then writeResume s v
  else if aCshQuota ≤ a ∧ a < aCshQuota + 4096 then setR s a (clampFld (v &&& 0x7F#32) 0 7 2 64)
  else writePlain s a v

/-- Writes of the EVC_ unit by coach `c` in ring `r`. -/
def writeEvc (s : State) (c r a : Nat) (v : Word) : State :=
  let n := a % 2048 / 4
  if a = aEvcTier then setR s a (clampFld (v &&& 0xF#32) 0 4 1 8)
  else if a = aEvcFast then writeFastSrc s v
  else if a = aEvcCpl then writeCpl s v c r
  else if aEvcPendset ≤ a ∧ a < aEvcPendset + 64 then writePendset s ((a - aEvcPendset) / 4) v
  else if aEvcScfg ≤ a ∧ a < aEvcScfg + 2048 then writeScfg s n v
  else if aEvcStgt ≤ a ∧ a < aEvcStgt + 2048 then writeStgt s n v
  else if aEvcScoal ≤ a ∧ a < aEvcScoal + 2048 then writeScoal s n v
  else if aEvcSstat ≤ a ∧ a < aEvcSstat + 2048 then writeSstat s n v
  else writePlain s a v

/-- Writes of the MLS_, SVO_ and TMP_ units by coach `c`. -/
def writeMls (s : State) (c a : Nat) (v : Word) : State :=
  if a = aMlsCtl then writeMlsCtl s v
  else if a = aMlsLctl then (if bit v 0 then ledgerInit s else s)
  else if a = aMlsLsoft then softRecord s v c
  else if a = aSvoCmd then svoCommand s v c
  else if a = aSvoCtl then (if bit v 1 then svoRelease s else s)
  else if aSvoCfg ≤ a ∧ a < aSvoCfg + 16 then writeSvoCfg s ((a - aSvoCfg) / 4) v
  else writePlain s a v

/-- Writes of the KEY_ and LNC_ units. -/
def writeKey (s : State) (a : Nat) (v : Word) : State :=
  if a = aKeyCtl then tryRotate (writePlain s a v)
  else if a = aKeyRotPeriod then setR s a (clampFld (v &&& 0x3FFF#32) 0 14 100 10000)
  else if a = aKeyPolicy then writePolicy s v
  else if a = aKeyAttack then attackDue (writePlain s a v)
  else if a = aLncMode then (if bit v 0 then requestPaired s else requestVoted s)
  else if a = aLncRetest then retest s (fld v 0 2)
  else if a = aLncRotreq then (if bit v 0 then tryRotate (modLnc s (fun l => { l with rotReq := true })) else s)
  else writePlain s a v

/-- Writes of the MCS_ unit. -/
def writeMcs (s : State) (a : Nat) (v : Word) : State :=
  if a = aMcsCtl then writeMcsCtl s v
  else if a = aMcsStaged then stageIdent s false v
  else if a = aMcsCstaged then stageIdent s true v
  else if a = aMcsSaddr then writeMcsSaddr s v
  else writePlain s a v

/-- Writes of the BNK_ unit. -/
def writeBnk (s : State) (a : Nat) (v : Word) : State :=
  if aBnkOwner ≤ a ∧ a < aBnkOwner + 128 then writeOwner s ((a - aBnkOwner) / 4) v
  else if aBnkState ≤ a ∧ a ≤ aBnkState + 128 then writeBankState s ((a - aBnkState) / 4) v
  else if aBnkPwr ≤ a ∧ a ≤ aBnkPwr + 128 then writeBnkPwr s ((a - aBnkPwr) / 4) v
  else if a = aBnkSpare then writeSpare s v
  else writePlain s a v

/-- Write of CAL_CTL (R314): refused while BUSY, else its requests in the order APPLYA, APPLYB, RESTORE. -/
def writeCalCtl (s : State) (v : Word) : State :=
  if calBusy s then calErr s
  else
    let s1 := if bit v 0 then applyRequest s 1 else s
    let s2 := if bit v 1 then applyRequest s1 2 else s1
    if bit v 2 then restoreRequest s2 else s2

/-- Writes of the STL_, CFG_, CAL_, FLI_ and BNE_ units. -/
def writeStore (s : State) (a : Nat) (v : Word) : State :=
  if a = aStlCfg then writeStlCfg s v
  else if a = aCfgCtl then (if bit v 0 then scanStart s else s)
  else if a = aCalCtl then writeCalCtl s v
  else if a = aFliMinrun then setR s a (clampFld (v &&& 0xFFFF#32) 0 16 10 65535)
  else if a = aFliStarveN then setR s a (clampFld (v &&& 0xFFFF#32) 0 16 1 65535)
  else if a = aFliCtl then (if bit v 0 then flashInv s else s)
  else if a = aBneCload then writeCload s v
  else if a = aBneZero then (if bit v 0 then zeroise s else s)
  else writePlain s a v

/-- Writes of the ZW_, PWR_ and CLK_ units from ring `r`. -/
def writePower (s : State) (r a : Nat) (v : Word) : State :=
  if a = aZwLifecycle then writeLifecycle s v
  else if a = aZwGcause then (if fld v 0 16 = 0x5AFE ∧ r = 0 then resetBlock s 6 else s)
  else if a = aZwMtrFail then (if bit v 31 then setR s a 0 else s)
  else if aPwrUnit ≤ a ∧ a < aPwrUnit + 12 then writeUnit s ((a - aPwrUnit) / 4) v
  else if a = aClkLane then writeClkLane s v
  else writePlain s a v

/-- L1, L2 and L3 are free (R184). -/
def levelsFree (s : State) : Bool := !(sboxOf s 1).occ && !(sboxOf s 2).occ && !(sboxOf s 3).occ

/-- Change the strongbox set that RNG_SBSEL selects. -/
def modView (s : State) (f : SBox → SBox) : State :=
  let l := fld (getR s aRngSbsel) 0 2
  setSbox s l (f (sboxOf s l))

/-- Bytes of RNG_VPRI[k] that a write stores. -/
def vpriMask (k : Nat) : Word :=
  if k = 0 then 0xFFFFFF00#32 else if k = 3 then 0xFFFF00FF#32 else if k = 4 then 0x00FFFF00#32 else 0xFFFFFFFF#32

/-- The line of vectors 32 and 33, resident once the vector table is locked (R122). -/
def residentLine : Nat := 0x10000200 / 32

/-- The lock of the vector table makes that line resident in one way of its set: the others keep the three lines most
recently used (R122). -/
def lockLine (s : State) : State :=
  { s with icache := (s.icache.map (fun e =>
      (e.1, if e.1 % 128 = 16 then (e.2.filter (· ≠ residentLine)).take 3 else e.2))).filter (fun e => !e.2.isEmpty) }

/-- Writes of the RNG_ unit, RNG_GCOMMIT apart. -/
def writeRng (s : State) (a : Nat) (v : Word) : State :=
  if a = aRngCtl then (if bit v 0 && vtlock s && levelsFree s then tryRotate (orR s a 1) else s)
  else if a = aRngLock then (if bit v 0 && !vtlock s then lockLine (orR s a (v &&& 3#32)) else orR s a (v &&& 3#32))
  else if a = aRngGatebase then (if bit (getR s aRngLock) 1 then s else writePlain s a v)
  else if a = aRngGatecnt then
    (if bit (getR s aRngLock) 1 then s else setR s a (clampFld (v &&& 0x7FF#32) 0 11 0 1024))
  else if a = aRngXcap then setR s a (clampFld (clampFld v 0 16 8 65535) 16 16 8 65535)
  else if a = aRngVring0 ∨ a = aRngVring1 then (if vtlock s then s else writePlain s a v)
  else if aRngVpri ≤ a ∧ a < aRngVpri + 20 then
    (if vtlock s then s else setR s a (v &&& vpriMask ((a - aRngVpri) / 4)))
  else if a = aRngSbpc then modView s (fun b => { b with pc := v })
  else if a = aRngSbstatus then modView s (fun b => { b with status := v })
  else if a = aRngSbcause then modView s (fun b => { b with cause := v })
  else if a = aRngSbaddr then modView s (fun b => { b with addr := v })
  else if aRngSbhead ≤ a ∧ a < aRngSbhead + 32 then
    modView s (fun b => { b with head := b.head.set ((a - aRngSbhead) / 4) v })
  else writePlain s a v

/-- The write of a register by `w`, RNG_GCOMMIT apart. -/
def writeReg (s0 : State) (w : Who) (a : Nat) (v : Word) : State :=
  let s := touchPower s0 a
  let c := numOf s w
  let r := ringOf (getC s w)
  match csrUnit a with
  | 0 => writePower s r a v
  | 1 => writeCsh s a v
  | 2 => writeEvc s c r a v
  | 3 => writeMls s c a v
  | 4 => writeMls s c a v
  | 5 => writeKey s a v
  | 6 => writeMcs s a v
  | 7 => writeBnk s a v
  | 8 => writeStore s a v
  | 9 => writeStore s a v
  | 10 => writeStore s a v
  | 11 => writePower s r a v
  | 13 => writeRng s a v
  | _ => writePlain s a v

/-! ### Gate commit (R160) -/

/-- Record the outcome of a commit of entry `n`. -/
def noteCommit (s : State) (n : Nat) (err : Bool) (st : BitVec 3) : State :=
  setR s aRngGcommit (u32 (b2n err * 2 ^ 31 + n * 2 ^ 20 + st.toNat * 2 ^ 16))

/-- Write of RNG_GCOMMIT: the staged words go to the entry as one locked pair. A word of the locked vector table
completes with status 3. -/
def writeGcommit (x : Iss) (v : Word) : M Unit := do
  let s ← get
  let n := fld v 0 10
  let a := (getR s aRngGatebase).toNat + 16 * n
  if fld (getR s aRngGatecnt) 0 11 ≤ n ∨ bankRange a 16 = false then set (noteCommit s n true 0)
  else if vtlock s && inVectors a 16 then set (noteCommit s n true 3)
  else do
    awaitOver x a 16
    let w := fun k => getR s (aRngGstage + 4 * k)
    match ownerRefusal s (reqOf s x) (phys a) 16 .store with
    | some (p, why) => set (noteCommit (recordDeny s 0 p (reqOf s x) true why) n true 3)
    | none =>
      match powerAns s (bankOf (phys a)) with
      | .waits => holdFor (.bank (bankOf (phys a)))
      | .refuse st why => set (noteCommit (recordDeny s 0 (phys a) (reqOf s x) true why) n true st)
      | .ok =>
        let s1 := (bankWrite s (phys a) 8 (mkD (w 1) (w 0)).toNat).1
        set (noteCommit (bankWrite s1 (phys a + 8) 8 (mkD (w 3) (w 2)).toNat).1 n false 0)

/-! ### Sealed accesses at their units (R47, R101, R104) -/

/-- A coach that may abort what occupies slot `i` (R103). -/
def mayAbort (s : State) (w : Who) (i : Nat) : Bool :=
  slotState s i == 0 || decide (ringOf (getC s w) ≤ 1) ||
    (match groupOf s i with | some (_, o) => o.coach == numOf s w | none => false)

/-- What a unit does for the sealed access of `w`: the new state and the word it answers, or, left, the state in which the
access still waits. -/
def performOp (s : State) (w : Who) (op : SealedOp) : Except State (State × Option Word) :=
  match op with
  | .read a => let r := readReg s w a; .ok (r.1, some r.2)
  | .write a v =>
    if a = aRngGcommit then
      (match writeGcommit ⟨w, 0⟩ v s with
      | .ok (_, t) => .ok (t, none)
      | .error (.hold (.bank b) _ _) => .error (wakeBank s b)
      | .error _ => .error s)
    else .ok (writeReg s w a v, none)
  | .submit i cmd e => .ok (submit s cmd i ⟨numOf s w, ringOf (getC s w), false⟩ true e, none)
  | .poll i => .ok (s, some (pollWord s i))
  | .abort i =>
    if mayAbort s w i then .ok (abortLoad (abortGroup s i) i, none)
    else .ok (modC s w (fun c => { c with stall := c.stall.map (fun u => { u with fail := some { vec := vPRIV } }) }), none)
  | .load a c => .ok (loadKey s a c, none)

/-- The entry of a sealed LDP or LDPD completes with its data, or with the status that a difference of its copies gave it
(R47, R93, R149). -/
def fillTick (s : State) (e : Option Nat) (d : DWord) : State :=
  match e with
  | some e =>
    let k := consOf s e
    wake (setCons s e { k with done := some (k.early.getD 0), data := d, info := finfo k.size e }) k.coach wkCONSIGN
  | none => s

/-- The unit performs the sealed access that `w` stalls for, unless it has to wait. -/
def performSealed (s : State) (w : Who) : State :=
  match (getC s w).stall with
  | none => s
  | some st =>
    match st.op with
    | none => s
    | some op =>
      match performOp s w op with
      | .error t => t
      | .ok (t, v) =>
        modC (fillTick t st.tick (mkD 0 (v.getD 0))) w (fun c => { c with stall := c.stall.map (fun u =>
          { u with op := none, push := match v with
            | some x => if u.tick.isSome then u.push else [x]
            | none => u.push }) })

end Sys2Proof.Machine
end

