-- ==== Sys2Proof/Machine/Stack.lean ====
section
/-! DEFINITION. The two stacks of a coach: heads, spills and fills, and the check of an instruction's whole stack effect
(spec/02 R36 to R40, R172, R384). -/

namespace Sys2Proof.Machine

/-- The operand stack and the return stack. -/
inductive Stk where
  | d | r
  deriving DecidableEq, Repr

def Stk.cap : Stk → Nat
  | .d => 8
  | .r => 4

def Stk.vec : Stk → Nat
  | .d => vDSTACK
  | .r => vRSTACK

def headOf (k : Stk) (c : Coach) : List Entry := match k with | .d => c.dhead | .r => c.rhead
def setHead (k : Stk) (c : Coach) (h : List Entry) : Coach :=
  match k with | .d => { c with dhead := h } | .r => { c with rhead := h }
def spOf (k : Stk) (c : Coach) : Word := match k with | .d => c.dsp | .r => c.rsp
def setSp (k : Stk) (c : Coach) (v : Word) : Coach := match k with | .d => { c with dsp := v } | .r => { c with rsp := v }
def depthOf (k : Stk) (c : Coach) : Word := match k with | .d => c.ddepth | .r => c.rdepth
def setDepth (k : Stk) (c : Coach) (v : Word) : Coach :=
  match k with | .d => { c with ddepth := v } | .r => { c with rdepth := v }

/-- Entries of the exception-stack window (R172). -/
def xcapOf (s : State) (k : Stk) : Nat := match k with | .d => fld (getR s aRngXcap) 0 16 | .r => fld (getR s aRngXcap) 16 16

/-- Spill pointer from exception entry. -/
def xspOf (k : Stk) (c : Coach) : Word := match k with | .d => c.xdsp | .r => c.xrsp

/-- The spill pointer `sp` lies on the exception stack (R172). -/
def onXAt (s : State) (k : Stk) (c : Coach) (sp : Word) : Bool :=
  decide ((xspOf k c).toNat ≤ sp.toNat + 4 * xcapOf s k) && decide (sp.toNat ≤ (xspOf k c).toNat)

/-- The coach is on its exception stack (R172). -/
def onX (s : State) (k : Stk) (c : Coach) : Bool := onXAt s k c (spOf k c)

/-- Lowest address a spill may reach (R36, R172). -/
def spillLimit (s : State) (k : Stk) (c : Coach) : Nat :=
  if onX s k c then (xspOf k c).toNat - 4 * xcapOf s k
  else match k with | .d => c.dlim.toNat | .r => c.rlim.toNat

/-- Spills that popping `i` entries and then pushing `o` needs. -/
def spillsFor (k : Stk) (c : Coach) (i o : Nat) : Nat := ((headOf k c).length - i) + o - k.cap

/-- The stack admits an effect of `i` pops or deep reads followed by `o` pushes (R37, R384). -/
def stackFits (s : State) (w : Who) (k : Stk) (i o : Nat) : Bool :=
  let c := getC s w
  let n := spillsFor k c i o
  if headOnly s w then decide (i ≤ (headOf k c).length) && n == 0
  else decide (i ≤ (depthOf k c).toNat) &&
    (n == 0 || decide (spillLimit s k c + 4 * n ≤ (spOf k c).toNat + 4 * (i - (headOf k c).length)))

/-- Check a whole stack effect before anything changes: operand entries in and out, return entries in and out (R37). -/
def need (w : Who) (di do_ ri ro : Nat) : M Unit := do
  let s ← get
  if !stackFits s w .d di do_ then raise vDSTACK
  else if !stackFits s w .r ri ro then raise vRSTACK
  else pure ()

/-- Change the issuer's coach. -/
def modI (x : Iss) (f : Coach → Coach) : M Unit := modify (fun s => modC s x.who f)

/-- Place the top memory entry in an empty head (R36, R38). -/
def fillOne (x : Iss) (k : Stk) : M Unit := do
  let s ← get
  let c := getC s x.who
  let a := (spOf k c).toNat
  if bankRange a 4 then do
    let d ← bankLoad x (reqOf s x) a 4
    modI x (fun c => { setSp k (setHead k c [.val (u32 d)]) (spOf k c + 4) with shifted := true })
  else raiseAt vACCESS (spOf k c) 4 false

/-- Write the deepest head entry to memory (R36, R38), as a posted store, or `now` for a park, which waits for it (R57). One
that has not arrived holds the coach (R68). -/
def spillOne (x : Iss) (k : Stk) (now : Bool := false) : M Unit := do
  let s ← get
  let c := getC s x.who
  let a := spOf k c - 4
  match (headOf k c).getLast? with
  | none => pure ()
  | some (.val v) =>
    if !bankRange a.toNat 4 || (vtlock s && inVectors a.toNat 4) then raiseAt vACCESS a 4 true
    else do
      (if now then bankStore x (reqOf s x) a.toNat 4 v.toNat else postStore x (ringOf c) a.toNat 4 v.toNat)
      modI x (fun c => { setSp k (setHead k c (headOf k c).dropLast) a with shifted := true })
  | some e => holdFor (.entries [e])

/-- Spill a whole head of `n` entries. -/
def spillN (x : Iss) (k : Stk) (now : Bool := false) : Nat → M Unit
  | 0 => pure ()
  | n + 1 => do
    spillOne x k now
    spillN x k now n

/-- Spill every head entry, checked against the limit first (R40). -/
def spillAll (x : Iss) (k : Stk) (now : Bool := false) : M Unit := do
  let s ← get
  let c := getC s x.who
  let n := (headOf k c).length
  if n ≠ 0 ∧ (spOf k c).toNat < spillLimit s k c + 4 * n then raise k.vec else spillN x k now n

/-- Pop one entry as it stands, filling an empty head. The effect has been checked by `need`. -/
def popE (x : Iss) (k : Stk) : M Entry := do
  let s ← get
  (if (headOf k (getC s x.who)).isEmpty then fillOne x k else pure ())
  let s1 ← get
  let c := getC s1 x.who
  match headOf k c with
  | e :: h => do
    modI x (fun c => setDepth k (setHead k c h) (depthOf k c - 1))
    pure e
  | [] => raise k.vec

/-- The value of an entry; one that has not arrived holds the coach (R68). -/
def valueOf : Entry → M Word
  | .val w => pure w
  | e => holdFor (.entries [e])

/-- Pop a value. -/
def popK (x : Iss) (k : Stk) : M Word := do
  let e ← popE x k
  valueOf e

/-- Push one entry, spilling the deepest when the head is full. -/
def pushE (x : Iss) (k : Stk) (e : Entry) : M Unit := do
  let s ← get
  (if (headOf k (getC s x.who)).length = k.cap then spillOne x k else pure ())
  modI x (fun c => setDepth k (setHead k c (e :: headOf k c)) (depthOf k c + 1))

/-- pop() and push(x) of the operand stack, and those of the return stack. -/
def pop (x : Iss) : M Word := popK x .d
def push (x : Iss) (v : Word) : M Unit := pushE x .d (.val v)
def rpop (x : Iss) : M Word := popK x .r
def rpush (x : Iss) (v : Word) : M Unit := pushE x .r (.val v)

/-- Pop `n` values, top first. -/
def popN (x : Iss) : Nat → M (List Word)
  | 0 => pure []
  | n + 1 => do
    let v ← pop x
    let vs ← popN x n
    pure (v :: vs)

/-- Push values so that the first of the list ends on top. -/
def pushAll (x : Iss) : List Word → M Unit
  | [] => pure ()
  | v :: vs => do
    pushAll x vs
    push x v

/-- The values of a head, dead slots as 0: those that have arrived. -/
def headWords (n : Nat) (h : List Entry) : List Word :=
  (List.range n).map (fun i => match h.getD i (.val 0) with | .val v => v | _ => 0)

/-- Entries of the heads that have not arrived. -/
def pendingEntries (c : Coach) : List Entry :=
  (c.dhead ++ c.rhead).filter (fun e => match e with | .val _ => false | _ => true)

end Sys2Proof.Machine
end

