-- ==== Sys2Proof/Machine/Except.lean ====
section
/-! DEFINITION. Taking exceptions and events: causes, masking and escalation, waybill entry, takeover, strongbox entry, the
FAST context, halts for a keeper, L0 restarts, and RETX (spec/06). -/

namespace Sys2Proof.Machine

/-! ### Causes and masking (R163, R165) -/

/-- A CAUSE word (R163): the vector entered, the vector raised, and the item's record. -/
def causeWord (vector orig : Nat) (reason : BitVec 8) (x : XItem) (precise : Bool) (sdepth : Nat) : Word :=
  u32 (sdepth * 2 ^ 28 + b2n x.torn * 2 ^ 27 + b2n x.write * 2 ^ 26 + b2n precise * 2 ^ 25 + x.cstat.toNat * 2 ^ 22
    + orig * 2 ^ 16 + reason.toNat * 2 ^ 8 + vector)

/-- Priority of a fault vector (RNG_VPRI). -/
def vpri (s : State) (v : Nat) : Nat := fld (getR s (aRngVpri + v / 4 * 4)) (8 * (v % 4)) 8

/-- Handler ring of a vector entered from a ring (R161). -/
def handlerRing (s : State) (v ring : Nat) : Nat :=
  if v = 13 then 0
  else min ring (b2n (bit (getR s (if v < 32 then aRngVring0 else aRngVring1)) (v % 32)))

/-- An item of priority or tier `p` is admitted under MASK and HOLD (R165). -/
def admitted (c : Coach) (p : Nat) : Bool := decide (p < maskOf c) && !holdOf c

/-- Priority of a pending item: the tier of an event's source, or the fault priority. -/
def itemPri (s : State) (x : XItem) : Nat := if x.vec = vEVENT then tierOf s (srcPrio s (fld x.info 0 9)) else vpri s x.vec

/-- Class of an item in the order of R169, from 2. -/
def itemRank (x : XItem) : Nat :=
  if x.vec = vKEYSTONE then 2 else if x.vec = vARITH then 4 else if x.vec = vEVENT then 5 else 3

/-- The item that a coach's offered event would enter with (R164). -/
def eventItem (n : Nat) : XItem := { vec := vEVENT, info := u32 n }

/-- Imprecise exceptions are admitted by priority in service mode, by HOLD alone in strongbox mode (R165). -/
def itemAdmitted (s : State) (c : Coach) (x : XItem) : Bool :=
  if svc s || x.vec == vEVENT then admitted c (itemPri s x) else !holdOf c

/-- The first imprecise exception in the order of R169 that satisfies `p`. -/
def firstImprecise (c : Coach) (p : XItem → Bool) : Option XItem :=
  let xs := c.imprecise.filter p
  match xs.find? (fun x => itemRank x == 2) with
  | some x => some x
  | none => match xs.find? (fun x => itemRank x == 3) with
    | some x => some x
    | none => xs.find? (fun x => itemRank x == 4)

/-- The event offered to coach `n`, in strongbox mode only while L1 and L2 are free (R181). -/
def eventFor (s : State) (n : Nat) : Option XItem :=
  if svc s || (!(sboxOf s 1).occ && !(sboxOf s 2).occ) then (offerOf s n).map eventItem else none

/-- The item the coach takes at its boundary under STATUS and MASK of `c` (R169, R177), FAST apart. -/
def boundaryItem (s : State) (n : Nat) (c : Coach) : Option XItem :=
  match firstImprecise c (itemAdmitted s c) with
  | some x => some x
  | none => match eventFor s n with
    | some x => if itemAdmitted s c x then some x else none
    | none => none

/-- Remove the first occurrence of an imprecise exception. -/
def takeItem (c : Coach) (x : XItem) : Coach := syncImprc { c with imprecise := c.imprecise.erase x }

/-! ### Halts for a keeper (R132, R167) -/

/-- A coach that can serve as keeper of coach `n`: one in READY, RUN or WAIT, as the designated fast coach always is (R129,
R132, R152). -/
def keeperOk (s : State) (n k : Nat) : Bool :=
  k != n && (fastHeld s k || ((coachOf s k).st.live && (coachOf s k).st != .halt))

/-- The keeper used for coach `n` (R132). -/
def keeperFor (s : State) (n : Nat) : Nat :=
  let k := fld (coachOf s n).keeper 0 10
  if keeperOk s n k then k else if keeperOk s n 1 then 1 else 0

/-- Write a coach's halt record. -/
def setHalt (s : State) (n : Nat) (pc cause addr info : Word) : State :=
  modC s (.coach n) (fun c => { c with hpc := pc, hcause := cause, haddr := addr, hinfo := info })

/-! ### L0 restart (R183) -/

/-- The four buffers of the microstore become EMPTY (R267). -/
def emptyMicrostore (s : State) : State :=
  let digests := (List.range 24).map (fun i => aMcsDigest + 4 * i)
  let s1 := ([aMcsVersion, aMcsStaged, aMcsCversion, aMcsCstaged] ++ digests).foldl (fun t a => setR t a 0) s
  let s2 := { s1 with mcs := {} }
  setR (clrR s2 aMcsCtl 0x3C#32) aMcsStatus 0x40000000#32

/-- The values of a head that is saved at once: an entry that has not arrived is saved with an open value. -/
def headNow : List Entry → State → List Word × State
  | [], s => ([], s)
  | .val v :: r, s => let (ws, t) := headNow r s; (v :: ws, t)
  | _ :: r, s =>
    let (d, s1) := freeD s
    let (ws, t) := headNow r s1
    (loW d :: ws, t)

/-- The L0 save set with the head entries `ws` (R183 step 1). -/
def l0Set (s : State) (ws : List Word) (reason : Nat) (x : XItem) (precise : Bool) : SBox :=
  let c := coachOf s (s.run0.getD 0)
  { pc := c.pc, status := c.status, addr := x.addr, occ := true, head := headWords 8 (ws.map .val)
    cause := causeWord 0 x.vec (BitVec.ofNat 8 reason) x precise (min 8 c.dhead.length) }

/-- Every ACTIVE source is completed as for its claimant (R208, R211). -/
def completeAll (s : State) : State :=
  ((s.src.filter (fun e => e.2.active)).map (·.2.claimant)).eraseDups.foldl completeAllOf s

/-- The sealed accesses that have left the Keystone when a restart begins are performed at their units. -/
def inFlight (s : State) : State :=
  performSealed ((s.coach.map (·.1)).foldl (fun t n => performSealed t (.coach n)) s) .fast

/-- A coach whose thread has gone, in state `st`: its registers and halt record stand until they are loaded again (R95,
R128, R167). -/
def vacated (c : Coach) (st : CoachSt) : Coach :=
  { c with
    st := st, wake := 0, timer := none, held := none, stall := none, imprecise := [], haltReq := false, l3Req := false
    window := none, pexc := none, out := [], told := [], step := false, waited := false, shifted := false, jumped := false
    fetched := [], got := [], moves := [], offered := none, drain := false, routine := none, dhead := [], rhead := []
    timeCap := none, stampCap := none }

/-- A coach of the cleared coach store (R243 step 2): the halt record alone, which the Keystone holds, stays. Coach 0's other
registers are then 0: DESIGN CHOICE, log entry 78. -/
def clearedCoach (c : Coach) : Coach := { hpc := c.hpc, hcause := c.hcause, haddr := c.haddr, hinfo := c.hinfo }

/-- The core restarts at L0 (R183): `reason` from its table, `x` the exception that caused it. -/
def l0Restart (s : State) (reason : Nat) (x : XItem) (precise : Bool) : State :=
  let (ws, r0) := headNow (coachOf s (s.run0.getD 0)).dhead s
  let s0 := setSbox r0 0 (l0Set r0 ws reason x precise)
  let s1 := (steleQueue s0).foldl (fun t e => lateWrite t e.2) (inFlight s0)
  let fs := fld (getR s1 aEvcFast) 0 9
  let again := s1.fastPend
  let s2 := completeAll (setR s1 aCshFastcfg (setBit (getR s1 aCshFastcfg) 31 false))
  let s3 := if again then setSrc s2 fs { srcOf s2 fs with pend := true } else s2
  let s4 := { s3 with
    coach := (s3.coach.map (fun e => (e.1, clearedCoach e.2))).filter (fun e => e.2 ≠ {})
    fast := {}, fastOn := none, fastPend := false, queue := [], run0 := none, run1 := none, run2 := none, gaps := []
    div := [], icache := []
    cons := (s3.cons.map (fun e =>
      (e.1, if e.2.used && e.2.done.isNone then { e.2 with orphan := true } else { gen := e.2.gen }))).filter
        (fun e => e.2 ≠ {})
    sbox := (s3.sbox.map (fun e => (e.1, { e.2 with occ := e.1 == 0 && e.2.occ }))).filter (fun e => e.2 ≠ {}), sbOrder := []
    l0cnt := satAdd 0xFFFF s3.l0cnt 1, pwr := { s3.pwr with boot := true } }
  let s5 := setR (setR s4 aRngCtl 0) aRngLock 0
  let s6 := reformLanes (holdOutputs (abortAll (emptyMicrostore s5)))
  makeReady (setCoach s6 0 { coachOf s6 0 with pc := 0x10, status := 0x00010000#32 }) 0

/-- Halt coach `n` for its keeper (R167, R168) with the given CAUSE, FADDR and FINFO. -/
def haltKeeper (s : State) (n : Nat) (cause : Word) (x : XItem) (precise : Bool) : State :=
  if n = 0 then l0Restart s 3 x precise
  else
    let c := coachOf s n
    let s1 := setHalt s n c.pc cause x.addr x.info
    let s2 := leave (modC s1 (.coach n) (fun c => { c with haltReq := false, held := none, drain := false, window := none })) n .halt
    bumpR (wake s2 (keeperFor s2 n) wkWAKE) aRngEsccnt 16 16 1

/-! ### Waybill frames and entry (R170 to R172) -/

/-- HEADS (R170). -/
def headsWord (c : Coach) : Word := u32 (c.rhead.length * 256 + c.dhead.length)

/-- LINK of a frame or image at `a`. -/
def linkWord (a : Nat) : Word := u32 (0x57A7 * 65536 + a % 65536)

/-- The first 0x70 bytes of a frame: the coach's state before entry (R170). -/
def frameBody (c : Coach) : List Word :=
  [c.pc, c.status, c.dsp, c.rsp, c.ddepth, c.rdepth, c.a, c.b, c.lstart, c.lend, c.lcount, headsWord c]
    ++ headWords 8 c.dhead ++ headWords 4 c.rhead ++ [0, 0, 0, 0]

/-- Consecutive words as 64-bit bank words. -/
def pairUp : List Word → List DWord
  | a :: b :: r => mkD b a :: pairUp r
  | [a] => [mkD 0 a]
  | [] => []

/-- The 64-bit words of a frame at `a` as stores of the coach in lane set `l` (R171 step 3), checked with the handler ring
(R286). -/
def frameStores (ring l : Nat) : Nat → List DWord → List Posted
  | _, [] => []
  | a, d :: ds => ⟨a, 8, d, ring, l, true⟩ :: frameStores ring l (a + 8) ds

/-- A waybill entry has room (R171 step 1). -/
def waybillRoom (c : Coach) : Bool :=
  let a := c.wbp.toNat
  a % 8 == 0 && bankRange a 128 && decide (a + 127 ≤ c.wblim.toNat)

/-- Set the registers for a handler: stacks, STATUS, PC (R171 steps 5 to 7, R177). `keep` are the imprecise exceptions
still pending. -/
def enterCoach (s : State) (c : Coach) (vector mask : Nat) (esc : Bool) (dsp rsp : Word) : Coach :=
  let ring := handlerRing s vector (ringOf c)
  let st := setFld (setFld (setBit (setBit c.status 17 true) 19 false) 0 2 ring) 8 8 mask
  { c with
    status := setBit (setBit st 18 (!c.imprecise.isEmpty)) 16 (holdOf c || esc)
    dsp := if onXAt s .d c dsp then dsp else c.xdsp
    rsp := if onXAt s .r c rsp then rsp else c.xrsp
    ddepth := 0, rdepth := 0, dhead := [], rhead := [], waited := false, jumped := true, fetched := []
    offered := if vector = vEVENT then none else c.offered
    pc := u32 (0x10000 + 16 * vector) }

/-- MASK at entry (R171 step 6). -/
def entryMask (s : State) (vector : Nat) (x : XItem) : Nat :=
  if vector = 13 then 0 else if vector = vEVENT then itemPri s x else vpri s vector

/-- The takeover window of `w` closes: what remains of its stores is posted (R143, R174). -/
def closeWindow (s : State) (w : Who) : State :=
  let c := getC s w
  if c.window.isNone && c.out.isEmpty then s
  else modC (if c.out.isEmpty then s else postOn s w) w (fun c => { c with window := none })

/-- The lane set in which coach `n` runs: 1 or 2 is a free lane, whose requests are unverified (R25, R137). -/
def laneOfCoach (s : State) (n : Nat) : Nat := if s.run1 = some n then 1 else if s.run2 = some n then 2 else 0

/-- The entry of coach `n` with item `x` for `vector`, which differs from the item's own vector after escalation (R171 steps
3 to 7). `c0` is the coach as it stood before; an imprecise exception has been taken out of its list since. The cause words
of an entry that can be taken over wait until its window closes (R174). Frame stores that find no entry wait for the pool
(R143). -/
def waybillFrame (s : State) (n vector : Nat) (x : XItem) (precise : Bool) (c0 : Coach) : State :=
  let w : Who := .coach n
  let ring := handlerRing s vector (ringOf c0)
  let a := c0.wbp.toNat
  let cause := causeWord vector x.vec x.reason x precise 0
  let l := laneOfCoach s n
  let body := frameStores ring l a (pairUp (frameBody c0))
  let last := frameStores ring l (a + 0x70) (pairUp [cause, x.addr, x.info, linkWord a])
  let t := postOut (modC s w (fun c => { c with out := c.out ++ body })) w
  let t1 := modC t w (fun d =>
    { enterCoach s { d with wbp := d.wbp + 128 } vector (entryMask s vector x) (vector == 13) d.dsp d.rsp with
      xcause := cause, xaddr := x.addr, xinfo := x.info, out := d.out ++ last
      window := if precise then none else some ⟨a, x, itemPri s x, ringOf c0⟩ })
  if precise then postHold (postOut t1 w) w true else if (getC t w).out.isEmpty then t1 else countWait t1 w

/-- What the start of a wait asks for: a bank is woken (R291), a suspend of the flash macro wanted (R332), a wait for the pool
counted (R143). -/
def waitStarts (s : State) (w : Who) : Hold → State
  | .bank b => wakeBank s b
  | .flash => if s.fli.prog.isSome then s else wantSuspend s
  | .pool _ => countWait s w
  | .parking _ h => waitStarts s w h
  | _ => s

/-- Run a body that may have to wait: the coach is HELD, or has its exception raised by `k`. -/
def runHeld (s : State) (w : Who) (m : M Unit) (k : State → XItem → State) : State :=
  match m s with
  | .ok (_, t) => t
  | .error (.hold h _ left) =>
    modC (waitStarts (left s) w h) w (fun c => { c with held := some h, step := false })
  | .error (.trap x left) => k (left s) x

/-- The halt of a coach whose waybill chain is full (R171 step 1). -/
def fullChain (s : State) (w : Who) : Bool :=
  match w with
  | .coach n => (coachOf s n).st == .halt && fld (coachOf s n).hcause 0 7 == 14
  | .fast => false

/-- The entry of coach `n` with item `x` waits for pending head entries (R171 step 2, R182). A precise exception is raised
when they have arrived; any other item stays pending. -/
def entryWaits (s : State) (n : Nat) (x : XItem) (precise : Bool) (es : List Entry) : State :=
  modC s (.coach n) (fun c => { c with held := some (.entries es), step := false, pexc := if precise then some x else c.pexc })

/-- Enter a handler of coach `n` in service mode, or halt it when the waybill chain is full (R171). -/
def waybillEntry (s : State) (n vector : Nat) (x : XItem) (precise : Bool) : State :=
  let c := coachOf s n
  if !waybillRoom c then haltKeeper s n (causeWord 14 vector 6 x precise 0) x precise
  else
    match pendingEntries c with
    | e :: es => entryWaits s n x precise (e :: es)
    | [] =>
      waybillFrame (if precise || x.vec == vEVENT then s else setCoach s n (takeItem c x)) n vector x precise c

/-! ### Strongbox (R180 to R182) -/

/-- Start-up vector address of a level (R181). -/
def levelPc (l : Nat) : Word := u32 (0x10 * (l + 1))

/-- Enter a strongbox level of coach 0 (R182), which stood as `c` before the item was taken out of its list. -/
def boxEntry (s : State) (l vector mask : Nat) (x : XItem) (precise : Bool) (c : Coach) : State :=
  let cause := causeWord vector x.vec x.reason x precise c.dhead.length
  let s1 := setSbox s l { pc := c.pc, status := c.status, cause := cause, addr := x.addr, head := headWords 8 c.dhead, occ := true }
  let s2 := { s1 with sbOrder := l :: s1.sbOrder }
  modC s2 (.coach 0) (fun c =>
    { enterCoach s { c with imprecise := c.imprecise } vector mask false c.dsp c.rsp with
      dsp := c.dsp, rsp := c.rsp, rhead := c.rhead, rdepth := c.rdepth, pc := levelPc l
      xcause := cause, xaddr := x.addr, xinfo := x.info })

/-- A fault in strongbox mode (R165, R181, R183). An entry waits for a pending head entry, as R68 says of a waybill entry:
DEDUCED, log entry 67. -/
def boxFault (s : State) (x : XItem) (precise : Bool) : State :=
  let c := coachOf s 0
  if precise && holdOf c then l0Restart s 4 x precise
  else
  match pendingEntries c with
  | e :: es => entryWaits s 0 x precise (e :: es)
  | [] =>
    if x.vec = vBREAK ∧ (sboxOf s 3).occ = false then boxEntry s 3 x.vec (vpri s x.vec) x precise c
    else if (sboxOf s 1).occ then l0Restart s 2 x precise
    else boxEntry (if precise then s else setCoach s 0 (takeItem c x)) 1 x.vec (vpri s x.vec) x precise c

/-! ### FAST (R150, R151, R175) -/

/-- FAST can be taken at a boundary of the voting set or compared pair: the interrupted coach has HOLD 0 (R165). The part of a
hand-over that delays it, Drain to Resume (R126, R254), lies within one command. -/
def fastReady (s : State) : Bool :=
  s.fastPend && fastEn s && svc s && s.fastOn.isNone && issuing s &&
    (match s.run0 with | some n => !holdOf (coachOf s n) | none => true)

/-- FAST entry (R151): a fresh fast context at vector 33. -/
def fastEnter (s : State) : State :=
  let f := getR s aCshFastcfg
  { s with
    fastOn := some s.run0, fastPend := false
    fast := { pc := u32 (0x10000 + 16 * vFAST), jumped := true, status := u32 (fld f 16 8 * 256 + fld f 12 2) } }

/-- The FAST handler ends: the interrupted coach goes on. What its plain accesses and its division still bring is
discarded, since no value survives the handler (R150). When EN has been written 0 the designated coach is then FREE (R129). -/
def fastLeave (s : State) : State :=
  let t : State := { s with
    fastOn := none, fast := {}
    cons := s.cons.map (fun e => (e.1, { e.2 with orphan := e.2.orphan || (e.2.fast && !e.2.kind.ticketed && e.2.used) }))
    div := s.div.map (fun e => (e.1, e.2.map (fun d => { d with byZero := d.byZero && !d.fast }))) }
  if fastEn s then t else releaseFast t (fastCoach s)

/-- An exception in the fast context abandons the handler (R175). -/
def fastAbandon (s : State) (x : XItem) (precise : Bool) : State :=
  let n := fastCoach s
  let s1 := setHalt s n s.fast.pc (causeWord x.vec x.vec x.reason x precise 0) x.addr x.info
  bumpR (wake (fastLeave s1) (keeperFor s1 n) wkWAKE) aRngEsccnt 16 16 1

/-! ### Raising -/

/-- A precise exception of who issues (R165 to R168, R173, R175, R181). CAUSE.PRECISE of a BREAK is 1: DESIGN CHOICE, log
entry 77. -/
def raiseItem (s : State) (w : Who) (x : XItem) : State :=
  match w with
  | .fast => fastAbandon s x true
  | .coach n =>
    let c := coachOf s n
    if !svc s then boxFault s x true
    else if (x.vec = vDSTACK ∧ onX s .d c = true) ∨ (x.vec = vRSTACK ∧ onX s .r c = true) then
      haltKeeper s n (causeWord x.vec x.vec 1 x true 0) x true
    else if admitted c (vpri s x.vec) then waybillEntry s n x.vec x true
    else if !holdOf c then
      let t := waybillEntry s n 13 x true
      if (coachOf t n).pc = u32 (0x10000 + 16 * 13) ∧ (coachOf t n).held = none ∧ (coachOf t n).st ≠ .halt then
        bumpR t aRngEsccnt 0 16 1 else t
    else haltKeeper s n (causeWord x.vec x.vec x.reason x true 0) x true

/-- Take the item that a boundary of coach `n` admits. -/
def takeBoundary (s : State) (n : Nat) (x : XItem) : State :=
  if svc s then waybillEntry s n x.vec x false
  else if x.vec = vEVENT then
    (match pendingEntries (coachOf s n) with
    | e :: es => entryWaits s n x false (e :: es)
    | [] => boxEntry s 2 vEVENT (itemPri s x) x false (coachOf s n))
  else boxFault s x false

/-! ### Takeover (R174) -/

/-- An item that takes over the entry whose window is open: admitted under the MASK the entry set, and ranked before the
entry's own item. -/
def takeoverItem (s : State) (n : Nat) (c : Coach) (wd : Window) : Option XItem :=
  match boundaryItem s n c with
  | some x =>
    let r := itemRank x
    let o := itemRank wd.item
    if r < o ∨ (r = o ∧ x.vec = vEVENT ∧ itemPri s x < wd.tier) then some x else none
  | none => none

/-- The stores of a frame that are not posted yet, with the cause words `ws` and the ring of the new entry (R174). -/
def retake (ring base : Nat) (ws : List DWord) (p : Posted) : Posted :=
  if p.frame && decide (base ≤ p.addr) && decide (p.addr < base + 128) then
    { p with ring := ring, data := if base + 0x70 ≤ p.addr then ws.getD ((p.addr - base - 0x70) / 8) p.data else p.data }
  else p

/-- The entry becomes that of item `x` (R174): its cause words in the frame, vector, MASK and ring. -/
def takeover (s : State) (n : Nat) (wd : Window) (x : XItem) : State :=
  let c := takeItem (coachOf s n) x
  let back := if wd.item.vec = vEVENT then c.imprecise else wd.item :: c.imprecise
  let cause := causeWord x.vec x.vec x.reason x false 0
  let ring := handlerRing s x.vec wd.ring
  let c1 : Coach := { c with
    imprecise := back
    status := setBit (setFld (setFld c.status 0 2 ring) 8 8 (entryMask s x.vec x)) 18 (!back.isEmpty)
    pc := u32 (0x10000 + 16 * x.vec), xcause := cause, xaddr := x.addr, xinfo := x.info
    window := some { wd with item := x, tier := itemPri s x }
    offered := if x.vec = vEVENT then none else c.offered
    out := c.out.map (retake ring wd.frame (pairUp [cause, x.addr, x.info, linkWord wd.frame])) }
  setCoach s n c1

/-! ### RETX (R176, R177, R182) -/

/-- A saved STATUS that RETX may restore (R176 step 4). -/
def frameStatusOk (w : Word) (ring : Nat) : Bool :=
  (w &&& 0xFFF000C0#32) == 0 && !bit w 16 && decide (ring ≤ fld w 0 2)

/-- HEADS is consistent with the depths (R170, R176). -/
def headsOk (h dd rd : Word) : Bool :=
  (h &&& 0xFFFFF0F0#32) == 0 && decide (fld h 0 4 ≤ 8) && decide (fld h 0 4 ≤ dd.toNat)
    && decide (fld h 8 4 ≤ 4) && decide (fld h 8 4 ≤ rd.toNat)

/-- Word `i` of a list of 64-bit words. -/
def wordAt (ds : List DWord) (i : Nat) : Word := if i % 2 = 0 then loW (ds.getD (i / 2) 0) else hiW (ds.getD (i / 2) 0)

/-- The coach as the words of a frame or image restore it: registers of R170 and both heads. -/
def restoreFrame (c : Coach) (ds : List DWord) : Coach :=
  let g := wordAt ds
  let h := g 11
  syncImprc { c with
    pc := g 0, status := g 1, dsp := g 2, rsp := g 3, ddepth := g 4, rdepth := g 5, a := g 6, b := g 7
    lstart := g 8, lend := g 9, lcount := g 10
    dhead := (List.range (fld h 0 4)).map (fun i => .val (g (12 + i)))
    rhead := (List.range (fld h 8 4)).map (fun i => .val (g (20 + i))) }

/-- RETX in service mode (R176, R177). At return chaining the interrupted ring, which the new handler's ring follows from, is that
of the frame's STATUS: DESIGN CHOICE, log entry 81. -/
def retxService (x : Iss) (n : Nat) : M Unit := do
  let s ← get
  let c := coachOf s n
  if !inexOf c then raise vWAYBILL 1
  else do
    let a := (c.wbp - 128).toNat
    let rq := reqOf s x
    awaitCons (openOf s x.who (·.frame))
    (if bankRange a 128 then pure () else raiseAt vACCESS (u32 a) 8 false)
    let ds ← bankBytes x rq 16 a
    if wordAt ds 31 ≠ linkWord a then raise vWAYBILL 2
    else if !frameStatusOk (wordAt ds 1) (ringOf c) || !headsOk (wordAt ds 11) (wordAt ds 4) (wordAt ds 5) then
      raise vWAYBILL 3
    else do
      let t ← get
      let d := coachOf t n
      match boundaryItem t n { d with status := wordAt ds 1 } with
      | some it =>
        let cause := causeWord it.vec it.vec it.reason it false 0
        let d1 := if it.vec = vEVENT then d else takeItem d it
        let e := enterCoach t { d1 with status := setFld d1.status 0 2 (fld (wordAt ds 1) 0 2) } it.vec
          (entryMask t it.vec it) false (wordAt ds 2) (wordAt ds 3)
        set (setCoach t n { e with xcause := cause, xaddr := it.addr, xinfo := it.info })
      | none => set (setCoach t n { restoreFrame d ds with wbp := d.wbp - 128, window := none })

/-- RETX in strongbox mode (R182): the most recently entered level that is still occupied. -/
def retxBox : M Unit := do
  let s ← get
  match s.sbOrder with
  | [] => raise vWAYBILL 1
  | l :: rest =>
    let b := sboxOf s l
    let k := min 8 (fld b.cause 28 4)
    let c := coachOf s 0
    let s1 := { setSbox s l { b with occ := false } with sbOrder := rest }
    set (setCoach s1 0 (syncImprc { c with
      pc := b.pc, status := b.status, ddepth := u32 k
      dhead := (b.head.take k).map .val }))

/-- RETX of any context; the fast context reads no frame (R175). -/
def retxBody (x : Iss) : M Flow := do
  let s ← get
  match x.who with
  | .fast => do
    set (fastLeave s)
    pure .gone
  | .coach n => do
    (if svc s then retxService x n else retxBox)
    pure .jump

/-- An unresolved mismatch (R243): logged, outputs held, core restarted at L0. -/
def unresolved (s : State) (pos bit coach : Nat) : State :=
  let s1 := logMismatch s 3 pos coach bit
  let s2 := trigger (policy (bumpR s1 aKeyMmcnt 16 16 1) pcLANE) 0
  let part := [0, 1, 2].filterMap (laneAt s2)
  let s3 := part.foldl (fun t n => modLane t n (fun x => { x with suspect := true })) (holdOutputs s2)
  l0Restart s3 1 { vec := 0 } false

end Sys2Proof.Machine
end

