-- ==== Sys2Proof/Machine/Regs.lean ====
section
/-! DEFINITION. Register accesses of instructions and of register rows: the checks before one issues (R26, R385), and the
rows that act on behalf of a coach. -/

namespace Sys2Proof.Machine

/-- Steps 4 and 5 of R385 for a register access, and the state of the unit behind it (R26). -/
def csrCheck (x : Iss) (a : Nat) (w : Option Word) : M Unit := do
  let s ← get
  if csrDenied s a (ringOf (getC s x.who)) w then raiseAt vPRIV (u32 a) 4 w.isSome
  else if x.unver then raiseAt vACCESS (u32 a) 4 w.isSome
  else
    match csrSwitch a with
    | some u =>
      if unitSt s u = 0 ∨ unitSt s u = 3 then raiseAt vACCESS (u32 a) 4 w.isSome
      else if unitSt s u = 1 then holdFor (.unit u)
      else pure ()
    | none => pure ()

/-- A store entry addressed to the island behind register unit `u` (R51). -/
def toIsland (u : Nat) (k : Cons) : Bool :=
  isStore k && (match region k.addr with
    | some .bank => u == 7
    | some .vtAlias => u == 7
    | some .flash => u == 9
    | some .opmem => u == 10
    | some .host => u == 12
    | _ => false)

/-- A sealed access waits for the coach's stores to the same island (R51). -/
def awaitIsland (x : Iss) (u : Nat) : M Unit := do
  let s ← get
  awaitCons (openOf s x.who (toIsland u))

/-- A register read of who issues. -/
def csrLoad (x : Iss) (a : Nat) : M Word := do
  csrCheck x a none
  awaitIsland x (csrUnit a)
  let s ← get
  let r := readReg s x.who a
  set r.1
  pure r.2

/-- A register write of who issues. -/
def csrStore (x : Iss) (a : Nat) (v : Word) : M Unit := do
  csrCheck x a (some v)
  awaitIsland x (csrUnit a)
  if a = aRngGcommit then writeGcommit x v else modify (fun s => writeReg s x.who a v)

/-- The lane set in which `w` runs: 1 or 2 is a free lane, whose requests are unverified (R25, R137). -/
def laneOfWho (s : State) : Who → Nat
  | .coach n => laneOfCoach s n
  | .fast => 0

/-- A register command on behalf of coach `c`, outside its instruction stream: an exception is raised in the coach, and
an access that would have to wait does not take place. -/
def onBehalf (s : State) (c : BitVec 10) (m : Iss → M Unit) : State :=
  let w := whoOf s c.toNat
  if !s.up then s
  else
    match m ⟨w, laneOfWho s w⟩ s with
    | .ok (_, t) => t
    | .error (.trap x left) => raiseItem (left s) w x
    | .error (.hold (.bank b) _ _) => wakeBank s b
    | .error (.hold _ _ _) => s

/-- A register write on behalf of coach `c`. -/
def writeAs (s : State) (c : BitVec 10) (a : Nat) (v : Word) : State := onBehalf s c (fun x => csrStore x a v)

/-- A register read on behalf of coach `c`; the word read appears in `bus`. -/
def readAs (s : State) (c : BitVec 10) (a : Nat) : State :=
  onBehalf s c (fun x => do
    let v ← csrLoad x a
    modify (fun t => { t with bus := v }))

/-- A write that passes the checks of register `a` and then has an effect of its own. -/
def actAs (s : State) (c : BitVec 10) (a : Nat) (v : Word) (f : State → State) : State :=
  onBehalf s c (fun x => do
    csrCheck x a (some v)
    awaitIsland x (csrUnit a)
    modify f)

end Sys2Proof.Machine
end

