-- ==== Sys2Proof/Machine/Issue.lean ====
section
/-! DEFINITION. Issuing an instruction: what a boundary takes first, the fetch check, the body, and what follows it
(spec/03 R61 to R64, spec/04 R121, R122, spec/02 R44 to R46, spec/06 R169). -/

namespace Sys2Proof.Machine

/-! ### Instruction cache (R121, R122) -/

/-- Key of the cache set of lane set `l` that holds a line. -/
def icKey (l line : Nat) : Nat := 128 * l + line % 128

/-- Ways that take part in replacement. -/
def icWays (s : State) (line : Nat) : Nat := if vtlock s && line % 128 == 16 then 3 else 4

def icHas (s : State) (l line : Nat) : Bool :=
  (s.icache.get [] (icKey l line)).contains line || (vtlock s && line == residentLine)

/-- Make a cached line the most recently used. -/
def icTouch (s : State) (l line : Nat) : State :=
  let ls := s.icache.get [] (icKey l line)
  if ls.contains line then
    { s with icache := s.icache.set [] (icKey l line) (line :: ls.filter (· ≠ line)) }
  else s

/-- Keep a filled line, replacing the least recently used. -/
def icFill (s : State) (l line : Nat) : State :=
  if vtlock s && line == residentLine then s
  else
    let ls := (s.icache.get [] (icKey l line)).filter (· ≠ line)
    { s with icache := s.icache.set [] (icKey l line) ((line :: ls).take (icWays s line)) }

/-- Drop the lines that satisfy `p` in every lane; the resident line stays (R106, R122). -/
def icDrop (s : State) (p : Nat → Bool) : State :=
  { s with icache := (s.icache.map (fun e => (e.1, e.2.filter (fun k => !p k)))).filter (fun e => !e.2.isEmpty) }

/-! ### Fetch (R28, R63, R287) -/

inductive FetchAns where
  | ok
  /-- The line has to be filled first. -/
  | miss
  | fault (x : XItem)
  deriving DecidableEq, Repr

/-- The exception of a fetch word, at the address it was fetched at (R63, R164). -/
def fetchItem (vec : Nat) (st : BitVec 3) (a : Nat) : XItem :=
  { vec := vec, cstat := st, addr := u32 a, info := u32 (sizeCode 4 * 2 ^ 14) }

/-- The lane's own check of a fetch from a bank (R287). -/
def fetchAdmitted (s : State) (r : Req) (a : Nat) : Bool :=
  (bankN s (bankOf a)).own == .owned && coreAdmits (bankN s (bankOf a)).owner r .load

/-- The lane has the code word at physical address `a`: in its cache, or from the fill that the instruction waited for, whose
line was not kept (R121). -/
def inLane (s : State) (x : Iss) (a : Nat) : Bool :=
  icHas s x.lane (a / 32) || (getC s x.who).fetched.contains (a / 8 * 8)

/-- Fetch of the code word at `a` by `x`. -/
def fetchWord (s : State) (x : Iss) (a : Nat) : FetchAns :=
  match region a with
  | some .rom => .ok
  | some .flash => if inLane s x a then .ok else .miss
  | some .bank =>
    if !inLane s x a then .miss
    else if fetchAdmitted s (reqOf s x) a then .ok
    else .fault (fetchItem vACCESS 3 a)
  | some .vtAlias =>
    if !inLane s x (phys a) then .miss
    else if fetchAdmitted s (reqOf s x) (phys a) then .ok
    else .fault (fetchItem vACCESS 3 a)
  | _ => .fault (fetchItem vNOEXEC 0 a)

/-- The words that hold an instruction of `len` bytes at `pc`. -/
def fetchWords (pc len : Nat) : List Nat :=
  let a := pc / 4 * 4
  let b := (pc + len - 1) / 4 * 4
  if b = a then [a] else [a, b % 2 ^ 32]

/-- The first word that cannot be fetched decides. -/
def fetchAll (s : State) (x : Iss) : List Nat → FetchAns
  | [] => .ok
  | a :: r =>
    match fetchWord s x a with
    | .ok => fetchAll s x r
    | y => y

/-! ### Boundaries -/

/-- The L3 entry that the wrapper requested (R181, R378). CAUSE records it as vector 15 with REASON 0 and PRECISE 0, MASK is the
priority of that vector, and HOLD does not mask it: DESIGN CHOICE, log entry 68. -/
def enterL3 (s : State) : State :=
  match pendingEntries (coachOf s 0) with
  | e :: es => entryWaits s 0 { vec := vBREAK } false (e :: es)
  | [] => boxFault (modC s (.coach 0) (fun c => { c with l3Req := false })) { vec := vBREAK } false

/-- What the boundary before the next instruction of `w` takes, FAST apart (R169, R174, R181). The failure of a PARKC stays when the
waybill chain is full (R171 step 1). -/
def atBoundary (s : State) (w : Who) : Option State :=
  match w with
  | .fast =>
    match s.fast.imprecise with
    | x :: _ => some (fastAbandon s x false)
    | [] => none
  | .coach n =>
    let c := coachOf s n
    match c.pexc with
    | some e =>
      let t := raiseItem (setCoach s n { c with pexc := none }) (.coach n) e
      some (if fullChain t (.coach n) then raiseItem s (.coach n) e else t)
    | none =>
    if n == 0 && !svc s && c.l3Req then some (enterL3 s)
    else
      match c.window with
      | some wd =>
        match takeoverItem s n c wd with
        | some it => some (takeover s n wd it)
        | none => (boundaryItem s n c).map (takeBoundary s n)
      | none => (boundaryItem s n c).map (takeBoundary s n)

/-! ### Completion -/

/-- After an instruction of `len` bytes at `pc` that transferred no control: the loop decision, or the next PC (R44). -/
def advance (c : Coach) (pc : Word) (len : Nat) : Coach :=
  if bit c.status 19 && c.lend == pc then
    if c.lcount.toNat ≤ 1 then { c with lcount := 0, status := setBit c.status 19 false, pc := pc + u32 len }
    else { c with lcount := c.lcount - 1, pc := c.lstart }
  else { c with pc := pc + u32 len }

/-- The level of exception entry at which `w` stands: the handlers below it. -/
def entryLevel (s : State) (w : Who) : Word × Nat := ((getC s w).wbp, s.sbOrder.length)

/-- Level `m` is `l` or one entered from it. -/
def atOrAbove (l m : Word × Nat) : Bool := decide (l.1.toNat < m.1.toNat) || (l.1 == m.1 && decide (l.2 ≤ m.2))

/-- An instruction is over, or has made a step, and its coach goes on as `c`: what its waits left goes with it. A MOVE that the
coach has left for another instruction is over (R91). -/
def ended (s : State) (c : Coach) : Coach :=
  { c with
    waited := false, told := [], routine := none, shifted := false
    moves := c.moves.filter (fun m => !atOrAbove (c.wbp, s.sbOrder.length) m.level || m.pc == c.pc) }

/-- What follows a body that ended with `f`. After a reset there is nothing to follow. A transfer that the running coach
takes leaves a cycle to borrow; `b`: the instruction has borrowed one (R110). The lines of an instruction that raises, or has
yet to issue, do not count as used in it for the replacement of R121: DESIGN CHOICE, log entry 81. -/
def complete (t : State) (x : Iss) (pc : Word) (len : Nat) (f : Flow) (b : Bool := false) : State :=
  if !t.up then t
  else
    let t1 := (fetchWords pc.toNat len).foldl (fun u a => icTouch u x.lane (phys a / 32)) t
    let t2 := setGap t1 x.lane (f == .jump && x.who != .fast && !b)
    match f with
    | .seq => modC t2 x.who (fun c => ended t2 { advance c pc len with jumped := false, fetched := [] })
    | .jump => modC t2 x.who (fun c => ended t2 { c with jumped := true, fetched := [] })
    | .stay => modC t2 x.who (ended t2)
    | .gone => t2

/-- How the wait of an instruction meets the boundaries (R49, R57, R64, R88). -/
inductive Wait where
  /-- The instruction has not issued: it waits at its boundary. -/
  | plain
  /-- It has issued, as FENCE and PARK do: no boundary comes before its end. So has a routine of the microstore in which any
  instruction waits. -/
  | pinned
  /-- It waits within a step, which a yield point abandons. -/
  | yields
  deriving DecidableEq, Repr

/-- The instruction of `w` is over without a next PC of its own: what its waits and its fetch left goes with it. -/
def dropFetch (s : State) (w : Who) : State :=
  modC s w (fun c => { c with waited := false, fetched := [], told := [], routine := none })

/-- The instruction of `w` raises: the loads of its step are discarded as well (R274). -/
def dropStep (s : State) (w : Who) : State := dropFetch (abandonLoads s w) w

/-- A stalled instruction of `w`, which had the stack of `c` before, notes the fills it has made (R38). -/
def noteFills (t : State) (w : Who) (c : Coach) : State :=
  modC t w (fun d => { d with stall := d.stall.map (fun u => { u with fills := (d.dsp.toNat - c.dsp.toNat) / 4 }) })

/-- Run the body of an instruction of `len` bytes: it completes, holds its coach, or raises precisely. -/
def runBody (s : State) (x : Iss) (len : Nat) (body : Iss → M Flow) (k : Wait := .plain) : State :=
  match body x s with
  | .ok (.stay, t) => complete (noteFills t x.who (getC s x.who)) x (getC s x.who).pc len .stay
  | .ok (f, t) => complete t x (getC s x.who).pc len f
  | .error (.hold h r left) =>
    let t := runHeld s x.who (holdFor h left) (fun t _ => t)
    let t1 := match r, k with
      | some _, _ => modC t x.who (fun c => { c with drain := true, routine := r })
      | none, .plain => t
      | none, .pinned => modC t x.who (fun c => { c with drain := true })
      | none, .yields => modC t x.who (fun c => { c with step := true })
    setGap t1 x.lane false
  | .error (.trap i left) => setGap (raiseItem (dropStep (left s) x.who) x.who i) x.lane false

/-- The boundary of `w` has taken nothing: the takeover window closes, and stores that still find no entry hold the coach
(R143, R174). The wait of an instruction's own stores has been counted. -/
def ready (s : State) (w : Who) : State :=
  let t := closeWindow s w
  postHold t w ((getC t w).out.any (·.frame))

/-- Issue an instruction of `len` bytes in lane set `l`. An item that the boundary takes, a wait, or a fetch that fails
comes before it, but not before an instruction that has issued and waits. A coach that misses the instruction cache keeps its
lane, in RUN and not HELD, until its fill: R113 does not name the miss: DESIGN CHOICE, log entry 29. -/
def issueOwn (s : State) (l : Nat) (len : Nat) (body : Iss → M Flow) (k : Wait) : State :=
  match issuer s l with
  | none => s
  | some w =>
    let c := getC s w
    if c.held.isSome || c.stall.isSome then s
    else if c.drain then runBody (modC s w (fun c => { c with drain := false })) ⟨w, l⟩ len body k
    else
      match atBoundary s w with
      | some t => setGap t l false
      | none =>
        let t := ready s w
        if (getC t w).held.isSome then setGap t l false
        else
          match fetchAll t ⟨w, l⟩ (fetchWords c.pc.toNat len) with
          | .miss => t
          | .fault i => setGap (raiseItem (dropFetch t w) w i) l false
          | .ok => runBody t ⟨w, l⟩ len body k

/-- A body that left its coach as `d` had issue cost 1 (R110, R114, R119): it has ended, it stalls for nothing, and it made no
spill or fill. -/
def costsOne (d : Coach) (f : Flow) : Bool := f != .stay && d.stall.isNone && !d.shifted

/-- Issue an instruction of the coach that lane set `l` would select, in the cycle after a taken transfer of its running
coach (R110, R113): one of issue cost 1, within its preselected fetch word, that completes at once. Any other waits for its
coach's own turn, and the cycle is idle. -/
def borrow (s : State) (l : Nat) (len : Nat) (body : Iss → M Flow) : State :=
  if !s.gaps.contains l then s
  else
    let t := setGap s l false
    match best s l with
    | none => t
    | some n =>
      let x : Iss := ⟨.coach n, l⟩
      let c := coachOf s n
      let ws := fetchWords c.pc.toNat len
      if (atBoundary s x.who).isSome || c.drain || c.window.isSome || !c.out.isEmpty || decide (1 < ws.length)
          || fetchAll s x ws != .ok then t
      else
        match body x (modC t x.who (fun c => { c with shifted := false })) with
        | .ok (f, u) => if costsOne (coachOf u n) f then complete u x c.pc len f true else t
        | .error _ => t

/-- An instruction row of `len` bytes: FAST comes first in the voting set or the compared pair (R151, R201). -/
def issue (s : State) (l : LaneUse) (len : Nat) (body : Iss → M Flow) (k : Wait := .plain) : State :=
  if !lsRuns s l.set.val then s
  else if l.set == 0 && fastReady s then fastEnter s
  else if l.borrowed then borrow s l.set.val len body
  else issueOwn s l.set.val len body k

/-! ### Sealed accesses (R47) -/

/-- Bring the top `n` operand entries into the head and answer their values, top first. -/
def peekN (x : Iss) (n : Nat) : M (List Word) := do
  let vs ← popN x n
  pushAll x vs
  pure vs

/-- Spill what the response of a sealed access will push over. -/
def roomFor (x : Iss) (pops pushes : Nat) : M Unit := do
  let s ← get
  if 8 < ((getC s x.who).dhead.length - pops) + pushes then spillOne x .d else pure ()

/-- Stall the coach until its response: it then pops `pops` entries and pushes `push` (R47). -/
def stallFor (x : Iss) (st : Stall) : M Flow := do
  roomFor x st.pops st.push.length
  let s ← get
  let sent := (sealedIsland st).isSome
  if sent then modify (fun t => { t with order := t.order + 1 })
  modI x (fun c => { c with stall := some { st with order := if sent then s.order else 0 }, held := some .sealedAcc })
  pure .stay

/-- The response of a sealed access has come: its instruction completes, or raises precisely with its stack as it was (R24,
R47). -/
def finishStall (s : State) (w : Who) : State :=
  let c := getC s w
  match c.stall with
  | none => s
  | some st =>
    if st.waits.isSome || st.op.isSome || st.stele.isSome || st.divides.isSome then s
    else
      let s1 := modC s w (fun c => { c with stall := none, held := none })
      match st.fail with
      | some i =>
        raiseItem (dropFetch (modC s1 w (fun c => { c with
          dhead := c.dhead.take (c.dhead.length - st.fills), dsp := c.dsp - u32 (4 * st.fills) })) w) w i
      | none =>
        modC s1 w (fun c =>
          advance { c with
            dhead := st.push.reverse.map .val ++ c.dhead.drop st.pops
            ddepth := c.ddepth - u32 st.pops + u32 st.push.length
            a := st.newA.getD c.a, b := st.newB.getD c.b, waited := false, jumped := false, fetched := [] } c.pc st.len)

/-! ### Miss fills (R121) -/

/-- The words of a line as its fill reads them, the missed one first. -/
def fillOrder (a : Nat) : List Nat :=
  let base := a / 32 * 32
  let k := a % 32 / 8
  [0, 1, 2, 3].map (fun i => base + 8 * ((k + i) % 4))

/-- Bytes of the instruction whose opcode byte is `op` (the opcode map of spec/03, R61, R65). -/
def codeLen (op : Nat) : Nat :=
  if op ∈ [0x72, 0x7A, 0x7B] then 5
  else if op ∈ [0x67, 0xC2, 0xC3] then 4
  else if op ∈ [0x61, 0x63, 0x65, 0x66, 0x6C, 0x71, 0x73, 0x7C, 0x98] then 3
  else if op ∈ [0x60, 0x62, 0x64, 0x6B, 0x70, 0x9B, 0xD0] then 2
  else 1

/-- Addresses of the bytes of the instruction that memory holds at `pc`. -/
def codeBytes (s : State) (pc : Nat) : List Nat :=
  (List.range (codeLen (rdB s (phys pc)).toNat)).map (fun i => (pc + i) % 2 ^ 32)

/-- Read number `i` of a fill, of the word at `w`: its status. One that has met BUSY after 8 retries ends with status 1, and each
of the four is retried by itself (R121, R279). -/
def fillRead (x : Iss) (s : State) (i w : Nat) : State × BitVec 3 :=
  if 8 < (SMap.get {} (getC s x.who).told i).busy then (trigger (bumpR s aBnkBusy 16 16 1) 6, 1)
  else
    let r := checkWord s w false
    (r.1, if r.2 then 0 else 2)

/-- A miss fill of a bank line for the word at `a` (as fetched, `fa`): ownership, power state, then each word. A word that
fails raises if the instruction has bytes in it; with any failed word the line is not kept, and the instruction issues from
the words that the fill has brought. -/
def fillBank (s : State) (x : Iss) (a fa : Nat) : State :=
  let n := bankOf a
  let fault := fun (t : State) (st : BitVec 3) (at_ : Nat) => raiseItem t x.who (fetchItem (vecOfStatus st) st at_)
  match cPort s n (reqOf s x) .load with
  | .waits => runHeld s x.who (holdFor (.bank n)) (fun t _ => t)
  | .refuse st why => fault (recordDeny s 0 a (reqOf s x) false why) st fa
  | .ok =>
    let (s0, bad) := (fillOrder a).zipIdx.foldl
      (fun acc w => let r := fillRead x acc.1 w.2 w.1; (r.1, if r.2 = 0 then acc.2 else acc.2 ++ [(w.1, r.2)]))
      (s, ([] : List (Nat × BitVec 3)))
    let s1 := modC s0 x.who (fun c => { c with told := [] })
    let failed := fun (w : Nat) => (bad.find? (fun b => b.1 == w / 8 * 8)).map (·.2)
    if bad.isEmpty then icFill s1 x.lane (a / 32)
    else
      match failed a with
      | some st => fault s1 st fa
      | none =>
        match (codeBytes s (getC s x.who).pc.toNat).findSome? (fun b => (failed (phys b)).map (fun st => (b, st))) with
        | some (b, st) => fault s1 st (b / 4 * 4)
        | none => modC s1 x.who (fun c => { c with
            fetched := c.fetched ++ (fillOrder a).filter (fun b => (failed b).isNone) })

/-- A miss fill of a flash line: `target` marks the target of a taken transfer (R319). -/
def fillFlash (s : State) (x : Iss) (a : Nat) (target : Bool) : State :=
  let fault := fun (t : State) (st : BitVec 3) => raiseItem t x.who (fetchItem (vecOfStatus st) st a)
  if unitSt s 1 = 0 ∨ unitSt s 1 = 3 then fault s 3
  else if unitSt s 1 = 1 then s
  else
    match flashServe s (a / 32) target with
    | (t, .ok) => icFill t x.lane (a / 32)
    | (t, .waits) => t
    | (t, .refuse st) => fault t st

/-- The line of the code word at `a` has to be filled for `x`, or the word cannot be fetched at all. -/
def wordMissing (s : State) (x : Iss) (a : Nat) : Bool :=
  match region a with
  | some .rom => false
  | some .bank => !inLane s x a
  | some .vtAlias => !inLane s x (phys a)
  | some .flash => !inLane s x a
  | _ => true

/-- The first word, of those that hold the instruction at `pc`, whose line the lane does not hold (R61, R63). -/
def missedWord (s : State) (x : Iss) (pc : Nat) : Option Nat :=
  if wordMissing s x (pc / 4 * 4) then some (pc / 4 * 4)
  else ((codeBytes s pc).map (fun b => b / 4 * 4)).find? (wordMissing s x)

/-- The miss fill that the next instruction of lane set `l` waits for arrives. The fill of the first word after a taken
transfer or an entry carries the mark of a target (R319). -/
def missFill (s0 : State) (l : Fin 3) (u : Upset) : State :=
  if !lsRuns s0 l.val then s0
  else
    match issuer s0 l.val with
    | none => s0
    | some w =>
      let x : Iss := ⟨w, l.val⟩
      if (getC s0 w).held.isSome || (getC s0 w).stall.isSome then s0
      else
        let s := ready s0 w
        let c := getC s w
        if c.held.isSome then s
        else
        match missedWord s x c.pc.toNat with
        | none => s
        | some a =>
          match region a with
          | some .flash => fillFlash (upsetEcc s (a / 8 * 8) u) x a (c.jumped && a == c.pc.toNat / 4 * 4)
          | some .bank => fillBank (upsetEcc s (a / 8 * 8) u) x a a
          | some .vtAlias => fillBank (upsetEcc s (phys a / 8 * 8) u) x (phys a) a
          | _ => raiseItem s w (fetchItem vNOEXEC 0 a)

end Sys2Proof.Machine
end

