-- ==== Sys2Proof/Machine/Custom.lean ====
section
/-! DEFINITION. The routines of the writable microstore: those that CUSTn dispatches into, and those of the vendor patch that
replace another instruction's (spec/10 R260, R270 to R275). -/

namespace Sys2Proof.Machine

/-! ### Routines (R270 to R275) -/

/-- A field of a microword. -/
def mfield (w lo n : Nat) : Nat := w / 2 ^ lo % 2 ^ n

/-- A scratch register: a word and the routine cycle from which it can be read, the failure of its load, or the open load whose
result it will hold. -/
inductive UReg where
  | val (w : Word) (ready : Nat)
  | bad (x : XItem)
  | pend (e g : Nat)
  deriving DecidableEq, Repr

/-- A load that a routine issues: the entry, address and bytes of its consignment, or data forwarded from a store (R50). -/
inductive NewLoad where
  | issued (e a n : Nat)
  | forwarded (d : Nat)
  deriving DecidableEq, Repr

/-- A routine in progress within one step (R273). -/
structure Routine where
  t : List Word
  u : List UReg := [.val 0 0, .val 0 0, .val 0 0, .val 0 0, .val 0 0, .val 0 0]
  carry : Bool := false
  ovf : Option Bool := none
  /-- Routine cycles executed since dispatch. -/
  cyc : Nat := 0
  pc : Nat
  /-- Stores held for the commit: address, bytes, data. -/
  stores : List (Nat × Nat × Nat) := []
  /-- Loads that the step has met so far, oldest first. -/
  met : List Loaded := []
  /-- Those of them that are not yet in the coach's `got`. -/
  loads : List NewLoad := []
  deriving DecidableEq, Repr

def aluCodes : List Nat :=
  [0x00, 0x01, 0x02, 0x03, 0x04, 0x08, 0x09, 0x0A, 0x0B, 0x10, 0x11, 0x12, 0x13, 0x14, 0x18, 0x19, 0x1A, 0x1B,
   0x20, 0x21, 0x22, 0x28, 0x29, 0x2A, 0x3F]

/-- Reason 4 of R275: codes and reserved fields. VND is a field of vendor routines, and 0 in the customer region (`r`). -/
def badCodes (r : Bool) (w : Nat) : Bool :=
  let f := mfield w
  let alu := f 88 6
  let dst := f 76 4
  let mem := f 69 4
  let seq := f 108 2
  !aluCodes.contains alu || decide (12 < f 84 4) || decide (12 < f 80 4) || (decide (5 < dst) && dst != 15)
    || decide (4 < mem) || decide (2 < f 66 3) || f 73 3 != 0 || f 64 2 != 0 || (r && f 0 32 != 0) || decide (2 < f 104 4)
    || (f 111 1 == 1 && (seq != 0 || f 94 10 != 0 || f 110 1 == 1))
    || ((mem == 2 || mem == 4) && !(dst == 0 || dst == 2 || dst == 4))
    || (alu == 0x3F && (dst != 15 || (decide (2 ≤ seq) && decide (f 104 4 ≤ 1))))

/-- Reason 5 of R275: a source names an operand the instruction does not have. -/
def badOperands (w nin : Nat) : Bool :=
  let t := fun k => decide (k < 6) && decide (nin ≤ k)
  t (mfield w 84 4) || t (mfield w 80 4)

/-- Result of the ALU (R272): the word, the micro-carry, the overflow of an arithmetic code, and the latency. -/
def microAlu (code : Nat) (a b : Word) (c : Bool) : Word × Bool × Option Bool × Nat :=
  let plain := fun (w : Word) => (w, c, (none : Option Bool), 1)
  let arith := fun (x : Arith) => (x.r, x.c, some x.v, 1)
  match code with
  | 0x00 => plain a
  | 0x01 => arith (addWith a b false)
  | 0x02 => arith (subWith a b false)
  | 0x03 => arith (addWith a b c)
  | 0x04 => arith (subWith a b c)
  | 0x08 => plain (a &&& b)
  | 0x09 => plain (a ||| b)
  | 0x0A => plain (a ^^^ b)
  | 0x0B => plain (a &&& ~~~b)
  | 0x10 => plain (shiftL a b)
  | 0x11 => plain (shiftR a b)
  | 0x12 => plain (shiftA a b)
  | 0x13 => plain (rotL a b)
  | 0x14 => plain (rotR a b)
  | 0x18 => (a * b, c, none, 2)
  | 0x19 => (mulHighU a b, c, none, 3)
  | 0x1A => (loW (clmul a b), c, none, 2)
  | 0x1B => (hiW (clmul a b), c, none, 3)
  | 0x20 => plain (flag (decide (a = b)))
  | 0x21 => plain (flag (a.ult b))
  | 0x22 => plain (flag (a.slt b))
  | 0x28 => plain (clz a)
  | 0x29 => plain (popc a)
  | 0x2A => plain (bswap a)
  | _ => plain 0

/-- One byte range of the routine lies in big-number operand memory. -/
def inOpmem (a n : Nat) : Bool := decide (0xF0000000 ≤ a) && decide (a + n ≤ 0xF0004000)

/-- What becomes of a load as it is issued: it is open, or has its data. -/
def NewLoad.result (s : State) : NewLoad → Loaded
  | .issued e _ _ => .open_ e (consOf s e).gen
  | .forwarded d => .data d

/-- The core issues load `l` of a routine (R274): open traffic of the coach. -/
def issueLoad (x : Iss) (s : State) : NewLoad → State
  | .issued e a n => acceptFor x .micro a n 0 s e
  | .forwarded _ => s

/-- The loads of the step are issued, and the coach remembers them (R273). -/
def loaded (x : Iss) (q : Routine) (s : State) : State :=
  q.loads.foldl (fun t l =>
    let u := issueLoad x t l
    modC u x.who (fun c => { c with got := c.got ++ [l.result u] })) s

/-- The step is abandoned: its loads are discarded (R274). -/
def dropped (x : Iss) (q : Routine) (s : State) : State := abandonLoads (loaded x q s) x.who

/-- A wait or an exception of `m` within the step of routine `q`. -/
def within {α : Type} (x : Iss) (q : Routine) (m : M α) : M α := fun s =>
  match m s with
  | .error (.hold h r _) => .error (.hold h r (loaded x q))
  | .error (.trap i _) => .error (.trap i (dropped x q))
  | y => y

/-- The next load of a step (R50, R144, R274). One that the step issued before it had to wait is not issued again. -/
def routineLoad (x : Iss) (q : Routine) (a n : Nat) : M (Routine × Loaded) := do
  let s ← get
  match (getC s x.who).got[q.met.length]? with
  | some y => pure ({ q with met := q.met ++ [y] }, y)
  | none => do
    let l ← within x q (match forward s x.who a n with
      | .data d => pure (.forwarded (d.toNat % 256 ^ n))
      | .wait es => holdFor (.cons es)
      | .none => do
        roomIn (islandOf a)
        let e ← chooseEntry (numOf s x.who) false
        pure (NewLoad.issued e a n))
    let t := issueLoad x s l
    set t
    pure ({ q with met := q.met ++ [l.result t], loads := q.loads ++ [l] }, l.result t)

/-- A MICRO fault of a routine in the customer region (`r`) or the vendor patch (R275): recorded, and precise at the
instruction. -/
def microFault {α : Type} (x : Iss) (r : Bool) (q : Routine) (reason : Nat) (addr : Word) : M α :=
  trap { vec := vMICRO, reason := BitVec.ofNat 8 reason, addr := addr } (fun s =>
    let t := dropped x q s
    bumpR (setR t aMcsFault (u32 (reason * 2 ^ 24 + b2n (!r) * 2 ^ 22 + numOf s x.who * 2 ^ 12 + q.pc))) aMcsMicrocnt 0 32 1)

/-- A source, with the cycle from which it can be read. A load that is not delivered holds the coach (R273), and a failed one
raises its exception (R274). -/
def readSrc (x : Iss) (q : Routine) (k imm : Nat) : M (Word × Nat) :=
  if k < 6 then pure (q.t.getD k 0, 0)
  else if k < 12 then
    match q.u.getD (k - 6) (.val 0 0) with
    | .val w r => pure (w, r)
    | .bad e => trap e (dropped x q)
    | .pend e g => holdFor (.cons [(e, g)]) (loaded x q)
  else pure (u32 imm, 0)

/-- The memory request of a microword, at the ALU result `a` (R272, R274). -/
def microMem (x : Iss) (r : Bool) (q0 : Routine) (mem dst : Nat) (a : Word) : M Routine := do
  let s ← get
  let sz := if mem = 1 ∨ mem = 3 then 4 else 8
  let ad := a.toNat
  if mem = 0 then pure q0
  else if !(bankRange ad sz || inOpmem ad sz) then microFault x r q0 6 a
  else if ad % sz ≠ 0 then microFault x r q0 7 a
  else if mem ≤ 2 then do
    let (q, d) ← routineLoad x q0 ad sz
    let (lo, hi) := match d with
      | .data v => (UReg.val (u32 v) q.cyc, UReg.val (u32 (v / 2 ^ 32)) q.cyc)
      | .bad e => (.bad e, .bad e)
      | .open_ e g => (.pend e g, .pend e g)
    let u1 := q.u.set dst lo
    pure { q with u := if mem = 2 then u1.set (dst + 1) hi else u1 }
  else if 4 ≤ q0.stores.length then microFault x r q0 8 0
  else if vtlock s && inVectors ad sz then
    trap { vec := vACCESS, addr := a, write := true, info := finfo sz 0 } (dropped x q0)
  else do
    let (lo, rl) ← if dst = 15 then do
        let (w, s1) := freeWord s
        set s1
        pure (w, 0)
      else readSrc x q0 (dst + 6) 0
    let (hi, rh) ← if mem = 4 then readSrc x q0 (dst + 7) 0 else pure (0, 0)
    pure { q0 with
      cyc := max q0.cyc (max rl rh)
      stores := q0.stores ++ [(ad, sz, if mem = 4 then lo.toNat + 2 ^ 32 * hi.toNat else lo.toNat)] }

/-- The values of U0 to U(k − 1) at a commit, which waits for every load of the step; all must have succeeded (R273, R274). -/
def commitValues (x : Iss) (q : Routine) (k : Nat) : M (List Word) := do
  let waits := q.met.filterMap (fun l => match l with | .open_ e g => some (e, g) | _ => none)
  if !waits.isEmpty then holdFor (.cons waits) (loaded x q)
  else
    match q.met.findSome? (fun l => match l with | .bad e => some e | _ => none) with
    | some e => trap e (dropped x q)
    | none => do
      modI x (fun c => { c with got := [] })
      pure ((q.u.take k).map (fun r => match r with | .val w _ => w | _ => 0))

/-- Issue the stores of a step in program order. -/
def commitStores (x : Iss) : List (Nat × Nat × Nat) → M Unit
  | [] => pure ()
  | (a, n, v) :: r => do
    let s ← get
    postStore x (ringOf (getC s x.who)) a n v
    commitStores x r

/-- FLG at END (R272). V is undefined when no arithmetic code was executed. -/
def applyFlg (x : Iss) (q : Routine) (flg : Nat) : M Unit := do
  if flg = 0 then pure ()
  else do
    modI x (fun c => setStatusBit c 3 q.carry)
    if flg = 2 then do
      let s ← get
      let (w, s1) := freeWord s
      (if q.ovf.isNone then set s1 else pure ())
      modI x (fun c => setStatusBit c 4 (q.ovf.getD (bit w 0)))
    else pure ()

/-- A routine as it is dispatched: its region (customer, or vendor patch), its words, whether it is resumable, and the
entries it pops and pushes. -/
structure Dispatch where
  cmr : Bool
  res : Bool
  nin : Nat
  nout : Nat
  words : SMap Nat

/-- Routine cycles within which a resumable routine reaches a YLD or END, and another one its END (R275). -/
def Dispatch.limit (d : Dispatch) : Nat := if d.res then 16 else 24

/-- The fault of a routine that exceeds them. -/
def Dispatch.lateReason (d : Dispatch) : Nat := if d.res then 2 else 3

/-- Execute microwords until a commit. A request of a NOP, which has no result, is at an open address (R272). The operands
have been popped. -/
def runRoutine (x : Iss) (d : Dispatch) : Nat → Routine → M Flow
  | 0, q => microFault x d.cmr q d.lateReason 0
  | f + 1, q => do
    let w := d.words.get 0 q.pc
    let late : M Flow := microFault x d.cmr q d.lateReason 0
    let fld := mfield w
    if badCodes d.cmr w then microFault x d.cmr q 4 0
    else if badOperands w d.nin then microFault x d.cmr q 5 0
    else do
      let needB := fld 88 6 != 0x00 && fld 88 6 != 0x3F && decide (fld 88 6 < 0x28)
      let (a, ra) ← if fld 88 6 = 0x3F then pure (0, 0) else readSrc x q (fld 84 4) (fld 32 32)
      let (b, rb) ← if needB then readSrc x q (fld 80 4) (fld 32 32) else pure (0, 0)
      let issue := max q.cyc (max ra rb)
      if d.limit ≤ issue then late
      else do
      let (v, c, o, lat) := microAlu (fld 88 6) a b q.carry
      let q1 : Routine := { q with carry := c, ovf := if o.isSome then o else q.ovf, cyc := issue }
      let q2 : Routine := if fld 69 4 = 0 ∧ fld 76 4 ≠ 15 then { q1 with u := q1.u.set (fld 76 4) (.val v (issue + lat)) } else q1
      let at_ ← if fld 88 6 = 0x3F ∧ fld 69 4 ≠ 0 then do
          let (w, s1) := freeWord (← get)
          set s1
          pure w
        else pure v
      let q3 ← microMem x d.cmr q2 (fld 69 4) (fld 76 4) at_
      let ends := fld 111 1 == 1 || fld 110 1 == 1
      if d.limit ≤ q3.cyc then microFault x d.cmr q3 d.lateReason 0
      else if fld 111 1 = 1 then do
        if d.res then do
          let vs ← commitValues x q3 d.nin
          pushAll x vs
          commitStores x q3.stores
          pure .stay
        else microFault x d.cmr q3 3 0
      else if fld 110 1 = 1 then do
        let vs ← commitValues x q3 d.nout
        pushAll x vs
        commitStores x q3.stores
        applyFlg x q3 (fld 66 3)
        pure .seq
      else if d.limit ≤ q3.cyc + 1 ∧ ends = false then microFault x d.cmr q3 d.lateReason 0
      else
        let cond := if fld 104 4 = 0 then decide (v = 0) else if fld 104 4 = 1 then v.getLsbD 31 else c
        let jump := fld 108 2 == 1 || (fld 108 2 == 2 && cond) || (fld 108 2 == 3 && !cond)
        runRoutine x d f { q3 with
          cyc := q3.cyc + 1, pc := if jump then fld 94 10 else (q.pc + 1) % 1024 }

/-- One step of a routine from microword `entry` to its next commit (R260, R273). -/
def routineStep (x : Iss) (d : Dispatch) (entry : Nat) : M Flow := do
  let t ← popN x d.nin
  inside ⟨d.cmr, d.res⟩ (runRoutine x d 24 { t := t, pc := entry })

/-- Dispatch a routine at microword `entry`: its region is not being switched, unless the coach waits inside it, which goes on to
its end (R265). -/
def dispatch (x : Iss) (d : Dispatch) (entry : Nat) : M Flow := do
  let s ← get
  need x.who d.nin d.nout 0 0
  if (getC s x.who).routine = some ⟨d.cmr, d.res⟩ then inside ⟨d.cmr, d.res⟩ (routineStep x d entry)
  else if s.mcs.sw = some d.cmr then holdFor .switch
  else routineStep x d entry

/-- CUSTn (R270): the checks at issue, then one step of the routine. -/
def custom (x : Iss) (k : Nat) : M Flow := do
  let s ← get
  let c := getC s x.who
  let d := BitVec.ofNat 32 (s.mcs.cact.get 0 (1024 + k))
  let nin := fld d 20 3
  let nout := fld d 24 3
  if !bit d 31 then raise vILLEGAL 3
  else if fld d 28 2 < ringOf c then raise vPRIV
  else if nin = 7 ∨ 4 < nout ∨ bit d 27 = true ∨ bit d 23 = true ∨ fld d 10 10 ≠ 0 then
    microFault x true { t := [], pc := fld d 0 10 } 1 0
  else dispatch x ⟨true, bit d 30, nin, nout, s.mcs.cact⟩ (fld d 0 10)

/-! ### The vendor patch (R260) -/

/-- The microword at which the vendor patch starts the instruction `op`, an opcode, or 0x100 and the second byte after the
escape prefix: that of the lowest-numbered valid override entry that names it. No entry replaces 0xFF or a CUSTn. -/
def overrideOf (s : State) (op : Nat) : Option Nat :=
  if op = 0xFF ∨ (0xE0 ≤ op ∧ op ≤ 0xEF) then none
  else s.mcs.vact.findSome? (fun e =>
    let d := BitVec.ofNat 32 e.2
    if 1024 ≤ e.1 ∧ e.1 < 1088 ∧ bit d 31 = true ∧ fld d 16 9 = op then some (fld d 0 10) else none)

/-- Entries that the instruction `op` pops off and pushes on the operand stack (the tables of spec/03). -/
def effectOf (op : Nat) : Nat × Nat :=
  if op < 0x10 ∨ op ∈ [0x18, 0x1A, 0x1B, 0x5A, 0x5C, 0x5E, 0x70, 0x71, 0x72, 0x73, 0x75, 0x77, 0x7C, 0x91, 0xA8, 0xA9, 0xC2]
      ∨ (0x100 ≤ op ∧ op < 0x120) then (0, 1)
  else if op = 0x10 ∨ op = 0x55 ∨ op = 0x83 then (1, 2)
  else if op ∈ [0x11, 0x19, 0x5B, 0x5D, 0x5F, 0x62, 0x63, 0x64, 0x65, 0x68, 0x69, 0x6B, 0x6C, 0x74, 0x76, 0x78, 0x79, 0x92,
      0x94, 0xB3, 0xC3] ∨ (0x120 ≤ op ∧ op < 0x140) then (1, 0)
  else if op = 0x12 then (2, 2)
  else if op = 0x13 ∨ op = 0x16 then (2, 3)
  else if op = 0x14 then (3, 3)
  else if op ∈ [0x17, 0x24, 0x2C, 0x2D, 0x2E, 0x33, 0x4A, 0x4B, 0x4C, 0x4D, 0x50, 0x51, 0x52, 0x53, 0x54, 0x80, 0x81, 0x82,
      0x96, 0xB2, 0xC0] ∨ (0x39 ≤ op ∧ op ≤ 0x3E) then (1, 1)
  else if op = 0x1C then (2, 4)
  else if op ∈ [0x1D, 0x56, 0x57, 0x58, 0x97, 0x9C, 0xB4, 0xC1, 0x140] then (2, 0)
  else if op = 0x1E then (4, 4)
  else if op = 0x15 ∨ op = 0x93 ∨ (0x20 ≤ op ∧ op ≤ 0x3F ∧ op ≠ 0x2F) ∨ (0x40 ≤ op ∧ op ≤ 0x49) ∨ (0xA1 ≤ op ∧ op ≤ 0xA4)
      ∨ op = 0xB0 ∨ op = 0xB1 then (2, 1)
  else if op = 0x4E ∨ op = 0xA0 then (3, 1)
  else if op ∈ [0x59, 0x85, 0x86] then (3, 0)
  else if op = 0x87 then (4, 1)
  else (0, 0)

/-- The routine of the vendor patch at microword `entry` in place of the instruction `op`. The spec gives a vendor microword
the fields of R271 and does not say what VND adds; the routine pops and pushes what the instruction does, and is resumable
where the instruction is: DESIGN CHOICE, log entry 13. -/
def patched (op entry : Nat) (x : Iss) : M Flow := do
  let s ← get
  let (nin, nout) := effectOf op
  dispatch x ⟨false, op == 0x85 || op == 0x86 || op == 0x87, nin, nout, s.mcs.vact⟩ entry

end Sys2Proof.Machine
end

