-- ==== Sys2Proof/Machine/Operands.lean ====
section
/-! DEFINITION. Operand forms: immediates, the stack effects of the instruction tables, and the memory operands of loads,
stores, tickets and register accesses (spec/03 R67 to R85, R104; spec/02 R47, R50, R51). -/

namespace Sys2Proof.Machine

/-- The row issues nothing in the cycle that it would borrow. -/
def noBorrow (s : State) (l : LaneUse) (t : State) : State := if l.borrowed then setGap s l.set.val false else t

/-- The state that an instruction row of opcode `op` leaves before the schedulers settle: it dispatches into its own routine,
or into that of the vendor patch (R260). -/
def dispatchRow (op : Nat) (s : State) (l : LaneUse) (len : Nat) (body : Iss → M Flow) (k : Wait) : State :=
  match overrideOf s op with
  | none => issue s l len body k
  | some e => noBorrow s l (issue s l len (patched op e))

/-- The outcome of an instruction row: it issues in its lane set, and the schedulers settle. -/
def instr (op : Nat) (s : State) (l : LaneUse) (len : Nat) (body : Iss → M Flow) : Host.Outcome State Fault Refusal :=
  .next (settle (dispatchRow op s l len body .plain))

/-- An instruction that waits as FENCE does: no boundary comes while it waits (R49, R57). -/
def instrPinned (op : Nat) (s : State) (l : LaneUse) (len : Nat) (body : Iss → M Flow) : Host.Outcome State Fault Refusal :=
  .next (settle (dispatchRow op s l len body .pinned))

/-- An instruction for which no cycle is borrowed, since its issue cost is more than 1 (R110, R119). -/
def instrLong (op : Nat) (s : State) (l : LaneUse) (len : Nat) (body : Iss → M Flow) (k : Wait := .plain) :
    Host.Outcome State Fault Refusal :=
  .next (settle (noBorrow s l (dispatchRow op s l len body k)))

/-- A resumable instruction: a yield point abandons the step in which it waits (R88), and no cycle is borrowed for it
(R110). -/
def instrOwn (op : Nat) (s : State) (l : LaneUse) (len : Nat) (body : Iss → M Flow) : Host.Outcome State Fault Refusal :=
  .next (settle (noBorrow s l (dispatchRow op s l len body .yields)))

/-- The outcome of any other row that leaves the state `t`. -/
def occurs (t : State) : Host.Outcome State Fault Refusal := .next (settle t)

/-! ### Immediates and the next address (R62) -/

def sImm {n : Nat} (i : BitVec n) : Word := i.signExtend 32
def zImm {n : Nat} (i : BitVec n) : Word := i.zeroExtend 32

/-- Address of the instruction after one of `len` bytes. -/
def nextOf (x : Iss) (len : Nat) : M Word := do
  let s ← get
  pure ((getC s x.who).pc + u32 len)

/-- Control goes to `a`. -/
def goTo (x : Iss) (a : Word) : M Flow := do
  modI x (fun c => { c with pc := a })
  pure .jump

/-! ### Stack effects -/

/-- ( -- v ) -/
def pushes (v : Word) (x : Iss) : M Flow := do
  need x.who 0 1 0 0
  push x v
  pure .seq

/-- ( a -- f a ) -/
def unary (f : Word → Word) (x : Iss) : M Flow := do
  need x.who 1 1 0 0
  let a ← pop x
  push x (f a)
  pure .seq

/-- ( a b -- f a b ) -/
def binary (f : Word → Word → Word) (x : Iss) : M Flow := do
  need x.who 2 1 0 0
  let b ← pop x
  let a ← pop x
  push x (f a b)
  pure .seq

/-- A test of one or two operands, pushing a flag (R43). -/
def test1 (p : Word → Bool) : Iss → M Flow := unary (fun a => flag (p a))
def test2 (p : Word → Word → Bool) : Iss → M Flow := binary (fun a b => flag (p a b))

/-- Replace the top `n` entries by the values `f` makes of them, lists top first. -/
def rearrange (n m : Nat) (f : List Word → List Word) (x : Iss) : M Flow := do
  need x.who n m 0 0
  let vs ← popN x n
  pushAll x (f vs)
  pure .seq

/-- ( a -- ), `f` applied to the coach. -/
def consume (f : Word → Coach → Coach) (x : Iss) : M Flow := do
  need x.who 1 0 0 0
  let a ← pop x
  modI x (f a)
  pure .seq

/-! ### Flags and ARITH (R69, R72) -/

/-- Push a result, set V and, where given, C; an overflow under VTRAP raises ARITH, precisely with PRE set. -/
def arithEnd (x : Iss) (r : Word) (c : Option Bool) (v : Bool) : M Flow := do
  let s ← get
  let k := getC s x.who
  if v && bit k.status 5 && preOf k then raise vARITH
  else do
    push x r
    modI x (fun d => setStatusBit (match c with | some b => setStatusBit d 3 b | none => d) 4 v)
    (if v && bit k.status 5 then modify (fun t => deliverItem t x.who { vec := vARITH, addr := k.pc }) else pure ())
    pure .seq

/-- ADD, SUB, ADC and SBC: `f` gets the carry flag. -/
def arith2 (f : Word → Word → Bool → Arith) (x : Iss) : M Flow := do
  need x.who 2 1 0 0
  let b ← pop x
  let a ← pop x
  let s ← get
  let r := f a b (bit (getC s x.who).status 3)
  arithEnd x r.r (some r.c) r.v

/-- The division instructions (R73): the quotient, or the remainder when `rem`. -/
def divideOp (signed rem : Bool) (x : Iss) : M Flow := do
  need x.who 2 1 0 0
  let vs ← peekN x 2
  let s ← get
  let b := vs.getD 0 0
  let a := vs.getD 1 0
  let qm := divide signed a b
  let r := if rem then qm.2 else qm.1
  let c := getC s x.who
  let d : Divider := ⟨numOf s x.who, x.who == .fast, r, b == 0, c.pc, preOf c⟩
  if (divOf s x.lane).isSome then holdFor (.divider x.lane)
  else if preOf c then do
    modify (fun t => setDiv t x.lane (some d))
    stallFor x { pops := 2, push := [r], len := 1, divides := some x.lane
                 fail := if b = 0 then some { vec := vARITH } else none }
  else do
    let _ ← popN x 2
    modify (fun t => setDiv t x.lane (some d))
    pushE x .d (.div x.lane)
    pure .seq

/-! ### Memory operands -/

/-- The words that a load of `n` bytes pushes, first pushed first (R76). -/
def loadedWords (sg : Bool) (n : Nat) (d : DWord) : List Word := if n = 8 then [loW d, hiW d] else [extend sg n d]

/-- Address registers after an access. -/
structure NewAB where
  a : Option Word := none
  b : Option Word := none
  deriving DecidableEq, Repr

def setAB (x : Iss) (r : NewAB) : M Unit := modI x (fun c => { c with a := r.a.getD c.a, b := r.b.getD c.b })

/-- Issue a stele access: the coach stalls until its response (R47, R300). -/
def steleIssue (x : Iss) (st : Stall) (a : Word) (n : Nat) (write sg : Bool) (d : Nat) : M Flow := do
  roomIn 9
  stallFor x { st with stele := some ⟨a.toNat, n, write, sg, d⟩ }

/-- A register read issued by an instruction that pops `pops` entries and pushes the value (R104). -/
def csrReadAt (x : Iss) (a : Word) (pops len : Nat) (ab : NewAB) : M Flow := do
  csrCheck x a.toNat none
  awaitIsland x (csrUnit a.toNat)
  roomIn (islandOf a.toNat)
  stallFor x { pops := pops, push := [0], len := len, newA := ab.a, newB := ab.b, op := some (.read a.toNat) }

/-- A register write issued by an instruction that pops `pops` entries (R104). -/
def csrWriteAt (x : Iss) (a v : Word) (pops len : Nat) (ab : NewAB) : M Flow := do
  csrCheck x a.toNat (some v)
  awaitIsland x (csrUnit a.toNat)
  roomIn (islandOf a.toNat)
  stallFor x { pops := pops, push := [], len := len, newA := ab.a, newB := ab.b, op := some (.write a.toNat v) }

/-- A load of `n` bytes at `a` by an instruction of one byte that pops `pops` entries (R76, R77). -/
def loadAt (x : Iss) (a : Word) (n : Nat) (sg : Bool) (pops : Nat) (ab : NewAB) : M Flow := do
  let r ← checkAccess x a n false
  match r with
  | .csr => csrReadAt x a pops 1 ab
  | .stele =>
    steleIssue x { pops := pops, push := loadedWords sg n 0, len := 1, newA := ab.a, newB := ab.b } a n false sg 0
  | .rom => do
    let s ← get
    let _ ← popN x pops
    pushAll x (loadedWords sg n (BitVec.ofNat 64 (rdN s a.toNat n))).reverse
    setAB x ab
    pure .seq
  | _ => do
    let _ ← popN x pops
    let q ← openLoad x (.load sg) a.toNat n
    (match q with
    | .inr d => pushAll x (loadedWords sg n d).reverse
    | .inl e => do
      pushE x .d (.load e false)
      if n = 8 then pushE x .d (.load e true) else pure ())
    setAB x ab
    pure .seq

/-- A store of the low `n` bytes of `d` at `a` by an instruction of one byte that pops `pops` entries. -/
def storeAt (x : Iss) (a : Word) (n : Nat) (d : DWord) (pops : Nat) (ab : NewAB) : M Flow := do
  let r ← checkAccess x a n true
  match r with
  | .csr => csrWriteAt x a (loW d) pops 1 ab
  | .stele =>
    steleIssue x { pops := pops, push := [], len := 1, newA := ab.a, newB := ab.b } a n true false d.toNat
  | _ => do
    let _ ← popN x pops
    openStore x a.toNat n (BitVec.ofNat 64 (d.toNat % 256 ^ n))
    setAB x ab
    pure .seq

/-- ( a -- x ): a load at a popped address. -/
def loadPop (n : Nat) (sg : Bool) (x : Iss) : M Flow := do
  need x.who 1 (if n = 8 then 2 else 1) 0 0
  let vs ← peekN x 1
  loadAt x (vs.getD 0 0) n sg 1 {}

/-- ( x a -- ): a store at a popped address. -/
def storePop (n : Nat) (x : Iss) : M Flow := do
  need x.who 2 0 0 0
  let vs ← peekN x 2
  storeAt x (vs.getD 0 0) n ((vs.getD 1 0).zeroExtend 64) 2 {}

/-- ( -- x ): a load at A or B, which then advances. -/
def loadInc (useB : Bool) (n : Nat) (x : Iss) : M Flow := do
  need x.who 0 1 0 0
  let s ← get
  let c := getC s x.who
  let a := if useB then c.b else c.a
  loadAt x a n false 0 (if useB then { b := some (a + u32 n) } else { a := some (a + u32 n) })

/-- ( x -- ): a store at A or B, which then advances. -/
def storeInc (useB : Bool) (n : Nat) (x : Iss) : M Flow := do
  need x.who 1 0 0 0
  let vs ← peekN x 1
  let s ← get
  let c := getC s x.who
  let a := if useB then c.b else c.a
  storeAt x a n ((vs.getD 0 0).zeroExtend 64) 1 (if useB then { b := some (a + u32 n) } else { a := some (a + u32 n) })

/-! ### Tickets (R82 to R85) -/

/-- The ticket of an entry. -/
def ticketWord (wide eng : Bool) (coach gen e : Nat) : Word :=
  u32 (b2n wide * 2 ^ 31 + b2n eng * 2 ^ 30 + coach * 2 ^ 16 + gen % 16 * 2 ^ 12 + e)

def CKind.wide : CKind → Bool
  | .ldp w => w
  | _ => false

def CKind.isEngine : CKind → Bool
  | .engine _ _ => true
  | _ => false

/-- The ticket of the entry `e` that was just allocated. -/
def ticketOf (s : State) (e : Nat) : Word :=
  let k := consOf s e
  ticketWord k.kind.wide k.kind.isEngine k.coach k.gen e

/-- Take an entry for a ticketed access that has completed with data `d` (R47, R50). -/
def doneTicket (x : Iss) (kind : CKind) (a n : Nat) (d : DWord) : M Nat := do
  let s ← get
  let m := numOf s x.who
  let e ← chooseEntry m true
  allocate e { coach := m, fast := x.who == .fast, kind := kind, addr := a, size := n, data := d
               ring := ringOf (getC s x.who), unver := x.unver, done := some 0 }
  modify (fun t => wake t m wkCONSIGN)
  pure e

/-- The valid entry that a ticket of who issues names (R83). -/
def ticketEntry (s : State) (x : Iss) (t : Word) : Option Nat :=
  let e := fld t 0 12
  let k := consOf s e
  if fld t 26 4 == 0 && fld t 16 10 == numOf s x.who && decide (e < 3072) && k.used && !k.orphan && k.kind.ticketed
      && k.coach == numOf s x.who && k.gen % 16 == fld t 12 4 && bit t 31 == k.kind.wide && bit t 30 == k.kind.isEngine
  then some e else none

/-- Raise precisely an exception that the raising instruction consumes; it is not consumed when the waybill chain is
full, and its instruction raises it again (R84, R165, R171). -/
def raiseOwn (x : Iss) (i : XItem) (consumed : State → State) : M Flow := do
  let s ← get
  let t := raiseItem (consumed s) x.who i
  set (if fullChain t x.who then raiseItem s x.who i else t)
  pure .gone

/-- Wait for every consignment of who issues, then raise the oldest imprecise exception that is pending: a failure among them, or
one of ARITH or KEYSTONE that MASK or HOLD kept from being taken (R49, R165). -/
def drainThen (x : Iss) (k : M Flow) : M Flow := do
  let s ← get
  awaitCons (openOf s x.who (fun _ => true))
  match (getC s x.who).imprecise.head? with
  | some i => raiseOwn x i (fun t => modC t x.who (fun c => takeItem c i))
  | none => k

end Sys2Proof.Machine
end

