-- ==== Sys2Proof/Machine/Alu.lean ====
section
/-! DEFINITION. Literals, stack manipulation, arithmetic, logic, shifts and compares (spec/03 R70 to R75). -/

namespace Sys2Proof.Machine

abbrev Out := Host.Outcome State Fault Refusal

/-! ### Literals (R70) -/

/-- LIT n: the low four bits of the opcode. -/
def execLit (l : LaneUse) (n : BitVec 4) (s : State) : Out := instr n.toNat s l 1 (pushes (zImm n))

/-- LIT8: a sign-extended byte. -/
def execLit8 (l : LaneUse) (imm : BitVec 8) (s : State) : Out := instr 0x70 s l 2 (pushes (sImm imm))

/-- LIT16: a sign-extended half. -/
def execLit16 (l : LaneUse) (imm : BitVec 16) (s : State) : Out := instr 0x71 s l 3 (pushes (sImm imm))

/-- LIT32. -/
def execLit32 (l : LaneUse) (imm : Word) (s : State) : Out := instr 0x72 s l 5 (pushes imm)

/-- LIT16U: a zero-extended half. -/
def execLit16u (l : LaneUse) (imm : BitVec 16) (s : State) : Out := instr 0x73 s l 3 (pushes (zImm imm))

/-! ### Stack (R70, R71, R68) -/

/-- DUP ( a -- a a ). -/
def execDup (l : LaneUse) (s : State) : Out := instr 0x10 s l 1 (rearrange 1 2 (fun vs => match vs with | [a] => [a, a] | _ => vs))

/-- DROP ( a -- ): a pending entry is discarded without a wait. -/
def execDrop (l : LaneUse) (s : State) : Out := instr 0x11 s l 1 (fun x => do
  need x.who 1 0 0 0
  let _ ← popE x .d
  pure .seq)

/-- SWAP ( a b -- b a ). -/
def execSwap (l : LaneUse) (s : State) : Out := instr 0x12 s l 1 (rearrange 2 2 (fun vs => match vs with | [b, a] => [a, b] | _ => vs))

/-- OVER ( a b -- a b a ): b is neither read nor moved. -/
def execOver (l : LaneUse) (s : State) : Out := instr 0x13 s l 1 (fun x => do
  need x.who 2 3 0 0
  let b ← popE x .d
  let a ← pop x
  push x a
  pushE x .d b
  push x a
  pure .seq)

/-- ROT ( a b c -- b c a ). -/
def execRot (l : LaneUse) (s : State) : Out := instr 0x14 s l 1 (rearrange 3 3 (fun vs => match vs with | [c, b, a] => [a, c, b] | _ => vs))

/-- NIP ( a b -- b ): a pending a is discarded without a wait. -/
def execNip (l : LaneUse) (s : State) : Out := instr 0x15 s l 1 (fun x => do
  need x.who 2 1 0 0
  let b ← pop x
  let _ ← popE x .d
  push x b
  pure .seq)

/-- TUCK ( a b -- b a b ). -/
def execTuck (l : LaneUse) (s : State) : Out := instr 0x16 s l 1 (rearrange 2 3 (fun vs => match vs with | [b, a] => [b, a, b] | _ => vs))

/-- Pop `n` entries as they stand, top first. -/
def popEs (x : Iss) : Nat → M (List Entry)
  | 0 => pure []
  | n + 1 => do
    let e ← popE x .d
    let es ← popEs x n
    pure (e :: es)

/-- Push entries so that the first of the list ends on top. -/
def pushEs (x : Iss) : List Entry → M Unit
  | [] => pure ()
  | e :: es => do
    pushEs x es
    pushE x .d e

/-- PICK ( xn … x0 n -- xn … x0 xn ), n from 0 to 7 (R71). -/
def execPick (l : LaneUse) (s : State) : Out := instr 0x17 s l 1 (fun x => do
  need x.who 1 1 0 0
  let n ← pop x
  if 8 ≤ n.toNat then raise vDSTACK
  else do
    need x.who (n.toNat + 1) (n.toNat + 2) 0 0
    let es ← popEs x n.toNat
    let v ← pop x
    push x v
    pushEs x es
    push x v
    pure .seq)

/-- DEPTH ( -- d ): DDEPTH before the push. -/
def execDepth (l : LaneUse) (s : State) : Out := instr 0x18 s l 1 (fun x => do
  let s ← get
  pushes (getC s x.who).ddepth x)

/-- >R ( a -- ) R:( -- a ). -/
def execToR (l : LaneUse) (s : State) : Out := instr 0x19 s l 1 (fun x => do
  need x.who 1 0 0 1
  let a ← pop x
  rpush x a
  pure .seq)

/-- R> ( -- a ) R:( a -- ). -/
def execRFrom (l : LaneUse) (s : State) : Out := instr 0x1A s l 1 (fun x => do
  need x.who 0 1 1 0
  let a ← rpop x
  push x a
  pure .seq)

/-- R@ ( -- a ) R:( a -- a ). -/
def execRFetch (l : LaneUse) (s : State) : Out := instr 0x1B s l 1 (fun x => do
  need x.who 0 1 1 1
  let a ← rpop x
  rpush x a
  push x a
  pure .seq)

/-- 2DUP ( a b -- a b a b ). -/
def execTwoDup (l : LaneUse) (s : State) : Out := instr 0x1C s l 1 (rearrange 2 4 (fun vs => match vs with | [b, a] => [b, a, b, a] | _ => vs))

/-- 2DROP ( a b -- ): pending entries are discarded without a wait. -/
def execTwoDrop (l : LaneUse) (s : State) : Out := instr 0x1D s l 1 (fun x => do
  need x.who 2 0 0 0
  let _ ← popE x .d
  let _ ← popE x .d
  pure .seq)

/-- 2SWAP ( a b c d -- c d a b ). -/
def execTwoSwap (l : LaneUse) (s : State) : Out := instr 0x1E s l 1 (rearrange 4 4 (fun vs => match vs with | [d, c, b, a] => [b, a, d, c] | _ => vs))

/-- RDROP R:( a -- ). -/
def execRdrop (l : LaneUse) (s : State) : Out := instr 0x1F s l 1 (fun x => do
  need x.who 0 0 1 0
  let _ ← popE x .r
  pure .seq)

/-! ### Arithmetic (R72, R73) -/

/-- ADD: r := a + b; C and V. -/
def execAdd (l : LaneUse) (s : State) : Out := instr 0x20 s l 1 (arith2 (fun a b _ => addWith a b false))

/-- SUB: r := a − b; C and V. -/
def execSub (l : LaneUse) (s : State) : Out := instr 0x21 s l 1 (arith2 (fun a b _ => subWith a b false))

/-- ADC: r := a + b + C; C and V. -/
def execAdc (l : LaneUse) (s : State) : Out := instr 0x22 s l 1 (arith2 (fun a b c => addWith a b c))

/-- SBC: r := a − b − C; C and V. -/
def execSbc (l : LaneUse) (s : State) : Out := instr 0x23 s l 1 (arith2 (fun a b c => subWith a b c))

/-- NEG: r := 0 − a; C and V. -/
def execNeg (l : LaneUse) (s : State) : Out := instr 0x24 s l 1 (fun x => do
  need x.who 1 1 0 0
  let a ← pop x
  arithEnd x (negate a).r (some (negate a).c) (negate a).v)

/-- MUL: the low word of the product; V. -/
def execMul (l : LaneUse) (s : State) : Out := instr 0x25 s l 1 (fun x => do
  need x.who 2 1 0 0
  let b ← pop x
  let a ← pop x
  arithEnd x (mulLow a b).1 none (mulLow a b).2)

/-- MULH: the high word of the signed product. -/
def execMulh (l : LaneUse) (s : State) : Out := instr 0x26 s l 1 (binary mulHigh)

/-- MULHU: the high word of the unsigned product. -/
def execMulhu (l : LaneUse) (s : State) : Out := instr 0x27 s l 1 (binary mulHighU)

/-- DIV: signed quotient. -/
def execDiv (l : LaneUse) (s : State) : Out := instr 0x28 s l 1 (divideOp true false)

/-- DIVU: unsigned quotient. -/
def execDivu (l : LaneUse) (s : State) : Out := instr 0x29 s l 1 (divideOp false false)

/-- MOD: signed remainder. -/
def execMod (l : LaneUse) (s : State) : Out := instr 0x2A s l 1 (divideOp true true)

/-- MODU: unsigned remainder. -/
def execModu (l : LaneUse) (s : State) : Out := instr 0x2B s l 1 (divideOp false true)

/-- INC: r := a + 1; no flag. -/
def execInc (l : LaneUse) (s : State) : Out := instr 0x2C s l 1 (unary (fun a => a + 1))

/-- DEC: r := a − 1; no flag. -/
def execDec (l : LaneUse) (s : State) : Out := instr 0x2D s l 1 (unary (fun a => a - 1))

/-- ABS. -/
def execAbs (l : LaneUse) (s : State) : Out := instr 0x2E s l 1 (unary absolute)

/-- Replace the pending entry of a division by its result. -/
def fillDiv (l : Nat) (v : Word) (h : List Entry) : List Entry := h.map (fun e => if e = .div l then .val v else e)

/-- The division of lane set `l` leaves the divider (R42, R69, R73). -/
def divideEnd (s : State) (l : Nat) : State :=
  match divOf s l with
  | none => s
  | some d =>
    let w : Who := if d.fast then .fast else .coach d.coach
    let s1 := setDiv s l none
    if d.precise then
      finishStall (modC s1 w (fun c => { c with stall := c.stall.map (fun t =>
        if t.divides = some l then { t with divides := none } else t) })) w
    else
      let s2 := modC s1 w (fun c => { c with dhead := fillDiv l d.result c.dhead })
      if d.byZero then deliverItem s2 w { vec := vARITH, addr := d.pc } else s2

/-- DIVISION_COMPLETE (R73). -/
def execDivisionComplete (l : Fin 3) (s : State) : Out := occurs (divideEnd s l.val)

/-! ### Logic and shifts (R74) -/

/-- AND. -/
def execAnd (l : LaneUse) (s : State) : Out := instr 0x30 s l 1 (binary (· &&& ·))

/-- OR. -/
def execOr (l : LaneUse) (s : State) : Out := instr 0x31 s l 1 (binary (· ||| ·))

/-- XOR. -/
def execXor (l : LaneUse) (s : State) : Out := instr 0x32 s l 1 (binary (· ^^^ ·))

/-- NOT. -/
def execNot (l : LaneUse) (s : State) : Out := instr 0x33 s l 1 (unary (fun a => ~~~a))

/-- SHL. -/
def execShl (l : LaneUse) (s : State) : Out := instr 0x34 s l 1 (binary shiftL)

/-- SHR. -/
def execShr (l : LaneUse) (s : State) : Out := instr 0x35 s l 1 (binary shiftR)

/-- SAR. -/
def execSar (l : LaneUse) (s : State) : Out := instr 0x36 s l 1 (binary shiftA)

/-- ROL. -/
def execRol (l : LaneUse) (s : State) : Out := instr 0x37 s l 1 (binary rotL)

/-- ROR. -/
def execRor (l : LaneUse) (s : State) : Out := instr 0x38 s l 1 (binary rotR)

/-- CLZ. -/
def execClz (l : LaneUse) (s : State) : Out := instr 0x39 s l 1 (unary clz)

/-- FFS. -/
def execFfs (l : LaneUse) (s : State) : Out := instr 0x3A s l 1 (unary ffs)

/-- POPC. -/
def execPopc (l : LaneUse) (s : State) : Out := instr 0x3B s l 1 (unary popc)

/-- BSWAP. -/
def execBswap (l : LaneUse) (s : State) : Out := instr 0x3C s l 1 (unary bswap)

/-- SXB. -/
def execSxb (l : LaneUse) (s : State) : Out := instr 0x3D s l 1 (unary sextB)

/-- SXH. -/
def execSxh (l : LaneUse) (s : State) : Out := instr 0x3E s l 1 (unary sextH)

/-- ANDN. -/
def execAndn (l : LaneUse) (s : State) : Out := instr 0x3F s l 1 (binary (fun a b => a &&& ~~~b))

/-! ### Compares (R75) -/

/-- EQ. -/
def execEq (l : LaneUse) (s : State) : Out := instr 0x40 s l 1 (test2 (fun a b => decide (a = b)))

/-- NE. -/
def execNe (l : LaneUse) (s : State) : Out := instr 0x41 s l 1 (test2 (fun a b => decide (a ≠ b)))

/-- LT. -/
def execLt (l : LaneUse) (s : State) : Out := instr 0x42 s l 1 (test2 (fun a b => a.slt b))

/-- LE. -/
def execLe (l : LaneUse) (s : State) : Out := instr 0x43 s l 1 (test2 (fun a b => a.sle b))

/-- GT. -/
def execGt (l : LaneUse) (s : State) : Out := instr 0x44 s l 1 (test2 (fun a b => b.slt a))

/-- GE. -/
def execGe (l : LaneUse) (s : State) : Out := instr 0x45 s l 1 (test2 (fun a b => b.sle a))

/-- LTU. -/
def execLtu (l : LaneUse) (s : State) : Out := instr 0x46 s l 1 (test2 (fun a b => a.ult b))

/-- LEU. -/
def execLeu (l : LaneUse) (s : State) : Out := instr 0x47 s l 1 (test2 (fun a b => a.ule b))

/-- GTU. -/
def execGtu (l : LaneUse) (s : State) : Out := instr 0x48 s l 1 (test2 (fun a b => b.ult a))

/-- GEU. -/
def execGeu (l : LaneUse) (s : State) : Out := instr 0x49 s l 1 (test2 (fun a b => b.ule a))

/-- EQ0. -/
def execEq0 (l : LaneUse) (s : State) : Out := instr 0x4A s l 1 (test1 (fun a => decide (a = 0)))

/-- NE0. -/
def execNe0 (l : LaneUse) (s : State) : Out := instr 0x4B s l 1 (test1 (fun a => decide (a ≠ 0)))

/-- LT0. -/
def execLt0 (l : LaneUse) (s : State) : Out := instr 0x4C s l 1 (test1 (fun a => a.getLsbD 31))

/-- GT0. -/
def execGt0 (l : LaneUse) (s : State) : Out := instr 0x4D s l 1 (test1 (fun a => decide (a ≠ 0) && !a.getLsbD 31))

/-- WITHINU ( x lo hi -- f ): both differences modulo 2^32. -/
def execWithinu (l : LaneUse) (s : State) : Out := instr 0x4E s l 1 (fun x => do
  need x.who 3 1 0 0
  let hi ← pop x
  let lo ← pop x
  let v ← pop x
  push x (flag ((v - lo).ult (hi - lo)))
  pure .seq)

end Sys2Proof.Machine
end

