-- ==== Sys2Proof/Machine/MemOps.lean ====
section
/-! DEFINITION. Loads and stores, posted loads and tickets, FENCE, atomics, direct inputs and control-space access
(spec/03 R76, R77, R81 to R86, R100, R104; spec/02 R49 to R52, R59, R60). -/

namespace Sys2Proof.Machine

/-! ### Loads and stores (R76, R77) -/

/-- LDB ( a -- x ): a byte, zero-extended. -/
def execLdb (l : LaneUse) (s : State) : Out := instr 0x50 s l 1 (loadPop 1 false)

/-- LDBS ( a -- x ): a byte, sign-extended. -/
def execLdbs (l : LaneUse) (s : State) : Out := instr 0x51 s l 1 (loadPop 1 true)

/-- LDH ( a -- x ): a half, zero-extended. -/
def execLdh (l : LaneUse) (s : State) : Out := instr 0x52 s l 1 (loadPop 2 false)

/-- LDHS ( a -- x ): a half, sign-extended. -/
def execLdhs (l : LaneUse) (s : State) : Out := instr 0x53 s l 1 (loadPop 2 true)

/-- LD ( a -- x ). -/
def execLd (l : LaneUse) (s : State) : Out := instr 0x54 s l 1 (loadPop 4 false)

/-- LDD ( a -- lo hi ): one 64-bit access. -/
def execLdd (l : LaneUse) (s : State) : Out := instr 0x55 s l 1 (loadPop 8 false)

/-- STB ( x a -- ). -/
def execStb (l : LaneUse) (s : State) : Out := instr 0x56 s l 1 (storePop 1)

/-- STH ( x a -- ). -/
def execSth (l : LaneUse) (s : State) : Out := instr 0x57 s l 1 (storePop 2)

/-- ST ( x a -- ). -/
def execSt (l : LaneUse) (s : State) : Out := instr 0x58 s l 1 (storePop 4)

/-- STD ( lo hi a -- ): one 64-bit access. -/
def execStd (l : LaneUse) (s : State) : Out := instr 0x59 s l 1 (fun x => do
  need x.who 3 0 0 0
  let vs ← peekN x 3
  storeAt x (vs.getD 0 0) 8 (mkD (vs.getD 1 0) (vs.getD 2 0)) 3 {})

/-- LD.A+ ( -- x ). -/
def execLdAInc (l : LaneUse) (s : State) : Out := instr 0x5A s l 1 (loadInc false 4)

/-- ST.A+ ( x -- ). -/
def execStAInc (l : LaneUse) (s : State) : Out := instr 0x5B s l 1 (storeInc false 4)

/-- LD.B+ ( -- x ). -/
def execLdBInc (l : LaneUse) (s : State) : Out := instr 0x5C s l 1 (loadInc true 4)

/-- ST.B+ ( x -- ). -/
def execStBInc (l : LaneUse) (s : State) : Out := instr 0x5D s l 1 (storeInc true 4)

/-- LDB.A+ ( -- x ). -/
def execLdbAInc (l : LaneUse) (s : State) : Out := instr 0x5E s l 1 (loadInc false 1)

/-- STB.B+ ( x -- ). -/
def execStbBInc (l : LaneUse) (s : State) : Out := instr 0x5F s l 1 (storeInc true 1)

/-! ### Posted loads (R81 to R86) -/

/-- LDP and LDPD ( a -- t ). A sealed region answers with a ticket that is complete; the boot ROM, read within the lane,
too. -/
def postLoad (wide : Bool) (x : Iss) : M Flow := do
  need x.who 1 1 0 0
  let vs ← peekN x 1
  let a := vs.getD 0 0
  let n := if wide then 8 else 4
  let r ← checkAccess x a n false
  let give : Nat → M Flow := fun e => do
    let _ ← popN x 1
    let s ← get
    push x (ticketOf s e)
    pure .seq
  match r with
  | .csr => do
    csrCheck x a.toNat none
    awaitIsland x (csrUnit a.toNat)
    let e ← accept x (.ldp wide) a.toNat n 0
    let s ← get
    stallFor x { pops := 1, push := [ticketOf s e], len := 1, op := some (.read a.toNat), tick := some e }
  | .stele => do
    let e ← accept x (.ldp wide) a.toNat n 0
    let s ← get
    steleIssue x { pops := 1, push := [ticketOf s e], len := 1, tick := some e } a n false false 0
  | .rom => do
    let s ← get
    let e ← doneTicket x (.ldp wide) a.toNat n (BitVec.ofNat 64 (rdN s a.toNat n))
    give e
  | _ => do
    let q ← openLoad x (.ldp wide) a.toNat n
    match q with
    | .inl e => give e
    | .inr d => do
      let e ← doneTicket x (.ldp wide) a.toNat n d
      give e

/-- LDP. -/
def execLdp (l : LaneUse) (s : State) : Out := instr 0x80 s l 1 (postLoad false)

/-- LDPD. -/
def execLdpd (l : LaneUse) (s : State) : Out := instr 0x81 s l 1 (postLoad true)

/-- What TAKE pushes for a completed entry, first pushed first (R81, R102). -/
def takenWords (k : Cons) : List Word := if k.kind.wide then [loW k.data, hiW k.data] else [loW k.data]

/-- TAKE ( t -- x ) or ( t -- lo hi ): R83, R84. -/
def execTakeTicket (u : TicketUse) (s : State) : Out := instr 0x82 s u.lane 1 (fun x => do
  need x.who 1 1 0 0
  let vs ← peekN x 1
  let s ← get
  match ticketEntry s x (vs.getD 0 0) with
  | none => raise vILLEGAL 4
  | some e => do
    let t := checkTable s e u.table
    let k := consOf t e
    need x.who 1 (if k.kind.wide then 2 else 1) 0 0
    match k.done with
    | none => holdFor (.cons [(e, k.gen)]) (fun s => checkTable s e u.table)
    | some st =>
      set t
      if st = 0 then do
        let _ ← popN x 1
        modify (fun t => freeCons t e)
        pushAll x (takenWords k).reverse
        pure .seq
      else raiseOwn x (consItem k st k.info) (fun t => freeCons t e))

/-- TEST ( t -- t f ): the consignment has completed, whatever its status. -/
def execTestTicket (u : TicketUse) (s : State) : Out := instr 0x83 s u.lane 1 (fun x => do
  need x.who 1 2 0 0
  let vs ← peekN x 1
  let s ← get
  match ticketEntry s x (vs.getD 0 0) with
  | none => raise vILLEGAL 4
  | some e => do
    let t := checkTable s e u.table
    set t
    push x (flag (consOf t e).done.isSome)
    pure .seq)

/-- FENCE (R49). -/
def execFence (l : LaneUse) (s : State) : Out := instrPinned 0x84 s l 1 (fun x => drainThen x (pure .seq))

/-! ### Atomics (R52, R100) -/

/-- The checks of an atomic before it issues (R52, R385). -/
def checkAtomic (a : Word) : M Unit := do
  let s ← get
  if !bankRange a.toNat 4 then raiseAt vACCESS a 4 true
  else if vtlock s && inVectors a.toNat 4 then raiseAt vACCESS a 4 true
  else if a.toNat % 4 ≠ 0 then raiseAt vALIGN a 4 true
  else pure ()

/-- Issue an atomic: after every earlier access of the coach, which then stalls until its completion. -/
def atomicAt (x : Iss) (op : AtomicOp) (a v e : Word) (pops : Nat) : M Flow := do
  checkAtomic a
  let s ← get
  awaitCons (openOf s x.who (fun _ => true))
  let n ← accept x (.atomic op v e) a.toNat 4 0
  stallFor x { pops := pops, push := [0], len := 1, waits := some n }

/-- ( v a -- old ) -/
def atomic2 (op : AtomicOp) (x : Iss) : M Flow := do
  need x.who 2 1 0 0
  let vs ← peekN x 2
  atomicAt x op (vs.getD 0 0) (vs.getD 1 0) 0 2

/-- CAS ( e n a -- old ). -/
def execCas (l : LaneUse) (s : State) : Out := instr 0xA0 s l 1 (fun x => do
  need x.who 3 1 0 0
  let vs ← peekN x 3
  atomicAt x .cas (vs.getD 0 0) (vs.getD 1 0) (vs.getD 2 0) 3)

/-- FADD ( v a -- old ). -/
def execFadd (l : LaneUse) (s : State) : Out := instr 0xA1 s l 1 (atomic2 .fadd)

/-- XCHG ( v a -- old ). -/
def execXchg (l : LaneUse) (s : State) : Out := instr 0xA2 s l 1 (atomic2 .xchg)

/-- FAND ( v a -- old ). -/
def execFand (l : LaneUse) (s : State) : Out := instr 0xA3 s l 1 (atomic2 .fand)

/-- FOR ( v a -- old ). -/
def execForOp (l : LaneUse) (s : State) : Out := instr 0xA4 s l 1 (atomic2 .for_)

/-! ### Direct inputs (R59, R60) -/

/-- The sample at a position. -/
def sampleAt (x y z : Word) (p : Nat) : Word := if p = 0 then x else if p = 1 then y else z

/-- IN.RAW ( -- x ): `x`, `y` and `z` are the samples at positions A, B and C; a free lane has its own sample in `x`.
Lanes whose sample differs from the reference are marked (R241). -/
def execInRaw (l : LaneUse) (x y z : Word) (s : State) : Out := instr 0xA8 s l 1 (fun i => do
  let s ← get
  if i.lane ≠ 0 then pushes x i
  else do
    let r := rawSample s (sampleAt x y z)
    let f ← pushes r.1 i
    modify (fun t => divergence t r.2 (numOf t i.who))
    pure f)

/-- What IN.AGREE pushes: the majority of three samples; of two, that of the lower occupied position. -/
def agreed (s : State) (x y z : Word) : Word :=
  if s.lnc.set = .triplex then (x &&& y) ||| (x &&& z) ||| (y &&& z)
  else sampleAt x y z ((occupied s).headD 0)

/-- IN.AGREE ( -- x ); a free lane pushes its own sample. -/
def execInAgree (l : LaneUse) (x y z : Word) (s : State) : Out := instrLong 0xA9 s l 1 (fun i => do
  let s ← get
  pushes (if i.lane ≠ 0 then x else agreed s x y z) i)

/-! ### Control space (R104) -/

/-- CSRR, CSRW and their immediate forms reach the control space only (R104, R385). -/
def checkCsr (x : Iss) (a : Word) (store : Bool) : M Unit := do
  if regionN a.toNat 4 ≠ some .csr then raiseAt vACCESS a 4 store
  else do
    let _ ← checkAccess x a 4 store
    pure ()

def csrRead (x : Iss) (a : Word) (pops len : Nat) : M Flow := do
  checkCsr x a false
  csrReadAt x a pops len {}

def csrWrite (x : Iss) (a v : Word) (pops len : Nat) : M Flow := do
  checkCsr x a true
  csrWriteAt x a v pops len {}

/-- CSRR ( a -- x ). -/
def execCsrr (l : LaneUse) (s : State) : Out := instr 0xC0 s l 1 (fun x => do
  need x.who 1 1 0 0
  let vs ← peekN x 1
  csrRead x (vs.getD 0 0) 1 1)

/-- CSRW ( x a -- ). -/
def execCsrw (l : LaneUse) (s : State) : Out := instr 0xC1 s l 1 (fun x => do
  need x.who 2 0 0 0
  let vs ← peekN x 2
  csrWrite x (vs.getD 0 0) (vs.getD 1 0) 2 1)

/-- Address of CSRRI and CSRWI. -/
def csrImm (imm : BitVec 24) : Word := 0xE0000000#32 + imm.zeroExtend 32

/-- CSRRI ( -- x ). -/
def execCsrri (l : LaneUse) (imm : BitVec 24) (s : State) : Out := instr 0xC2 s l 4 (fun x => do
  need x.who 0 1 0 0
  csrRead x (csrImm imm) 0 4)

/-- CSRWI ( x -- ). -/
def execCsrwi (l : LaneUse) (imm : BitVec 24) (s : State) : Out := instr 0xC3 s l 4 (fun x => do
  need x.who 1 0 0 0
  let vs ← peekN x 1
  csrWrite x (csrImm imm) (vs.getD 0 0) 1 4)

end Sys2Proof.Machine
end

