-- ==== Sys2Proof/Machine/LongMem.lean ====
section
/-! DEFINITION. The long memory instructions MOVE, FILL and MCMP: one step of the routine of R87 per row, to its yield
point (spec/03 R87 to R91). -/

namespace Sys2Proof.Machine

/-- `k` bytes from `a` as the parts of aligned 8-byte words: address and bytes. -/
def chunks : Nat → Nat → Nat → List (Nat × Nat)
  | 0, _, _ => []
  | f + 1, a, k =>
    if k = 0 then []
    else
      let m := min k (8 - a % 8)
      (a % 2 ^ 32, m) :: chunks f (a + m) (k - m)

/-- The parts of a step: 64 bytes touch at most 9 words. -/
def stepChunks (a k : Nat) : List (Nat × Nat) := chunks 10 a k

/-- The status of a host read that fails, and what it counts (R145, R374). -/
def hostFailSt (code : BitVec 2) : BitVec 3 := if code = 0 then 4 else if code = 3 then 3 else 6
def hostFailCount (code : BitVec 2) (s : State) : State :=
  if code = 0 then trigger (bumpR s aCshTmocnt 0 32 1) 8
  else if code = 1 then bumpR s aHptErr 16 8 1
  else if code = 2 then bumpR s aHptErr 8 8 1
  else bumpR s aHptErr 0 8 1

/-- A read within a step at switchable unit `u`, an access of its own (R144): OPENING holds the coach, OFF and CLOSING refuse
it (R26). One that has to wait holds the coach for `h`. -/
def unitLoad (x : Iss) (u a n : Nat) (h : Hold) (run : State → State × Ans) : M Nat := do
  let s ← get
  if unitSt s u = 1 then holdFor (.unit u)
  else ownLoad x a n (fun _ => h) (fun t => if unitSt t u = 0 ∨ unitSt t u = 3 then (t, .fail 3 0) else run t)

/-- The host's answer to a read of a step, given by the row. The read takes a tag until the answer, and waits while none is free
(R374). -/
def hostAnswer (h : HostWords) (i a n : Nat) (t : State) : State × Ans :=
  if (freeTag t).isNone then (t, .waits 0)
  else
  let word := Ans.ok (hostBytes a n (h.words.toList.getD i 0))
  match h.fail with
  | some (j, code) => if j.val = i then (hostFailCount code t, .fail (hostFailSt code) 0) else (t, word)
  | none => (t, word)

/-- One read of a step (R90); `i` host words have been read before it. The answer counts the host words again. -/
def longLoad (x : Iss) (h : HostWords) (i a n : Nat) : M (Nat × Nat) := do
  let s ← get
  let r := reqOf s x
  match region a with
  | some .rom => pure (rdN s a n, i)
  | some .bank => do
    let d ← bankLoad x r a n
    pure (d, i)
  | some .vtAlias => do
    let d ← bankLoad x r a n
    pure (d, i)
  | some .flash => do
    let d ← unitLoad x 1 a n .flash (fun t => flashAccess t a n)
    pure (d, i)
  | some .opmem => do
    let d ← unitLoad x 0 a n .flash (fun t => opmemAccess t r a n none)
    pure (d, i)
  | some .host => do
    let d ← unitLoad x 2 a n .tag (hostAnswer h i a n)
    pure (d, i + 1)
  | _ => raiseAt vACCESS (u32 a) n false

/-- The reads of a step in order, as one number from its lowest byte. -/
def longLoads (x : Iss) (h : HostWords) : List (Nat × Nat) → Nat → Nat → M (Nat × Nat)
  | [], _, i => pure (0, i)
  | (a, n) :: rest, off, i => do
    let (d, i1) ← longLoad x h i a n
    let (ds, i2) ← longLoads x h rest (off + n) i1
    pure (d * 256 ^ off + ds, i2)

/-- A region that a step may read. -/
def longSource (a : Nat) : Bool :=
  match region a with
  | some .stele => false
  | some .csr => false
  | none => false
  | _ => true

/-- Bytes that MOVE or FILL may write. -/
def longDest (s : State) (a n : Nat) : Bool :=
  match region a with
  | some .bank => !(vtlock s && inVectors a n)
  | some .vtAlias => !vtlock s
  | some .host => true
  | some .opmem => true
  | _ => false

/-- The checks of a step before it issues anything (R90, R385): the address map for all its accesses, sources first, then the
kind of access that each region permits. -/
def longCheck (srcs dsts : List (Nat × Nat)) : M Unit := do
  let s ← get
  let all := srcs.map (fun p => (p, false)) ++ dsts.map (fun p => (p, true))
  let kind := fun (e : (Nat × Nat) × Bool) => if e.2 then longDest s e.1.1 e.1.2 else longSource e.1.1
  match (all.find? (fun e => (region e.1.1).isNone)).or (all.find? (fun e => !kind e)) with
  | some ((a, n), w) => raiseAt vACCESS (u32 a) n w
  | none => pure ()

/-- The stores of a step, issued at its commit; a failure is reported under R48. -/
def longStores (x : Iss) : List (Nat × Nat) → Nat → M Unit
  | [], _ => pure ()
  | (a, n) :: rest, v => do
    let s ← get
    postStore x (ringOf (getC s x.who)) a n v
    longStores x rest (v / 256 ^ n)

/-- The greatest size up to `k`, and at least 1, whose `count` of accesses is at most `cap`. -/
def fitStep (cap : Nat) (count : Nat → Nat) : Nat → Nat
  | 0 => 1
  | k + 1 => if count (k + 1) ≤ cap then k + 1 else fitStep cap count k

/-- The step size: 1 to n bytes, `k` of them where the accesses of the step fit the entries that the coach can hold (R144). -/
def stepSize (s : State) (x : Iss) (k : Fin 65) (n : Word) (count : Nat → Nat) : Nat :=
  fitStep (quotaOf s (numOf s x.who) - ticketsHeld s (numOf s x.who)) count (max 1 (min k.val n.toNat))

/-- Replace the top entries of the operand head, top first. -/
def retop (x : Iss) (vs : List Word) : M Unit :=
  modI x (fun c => { c with dhead := vs.map .val ++ c.dhead.drop vs.length })

/-- The overlap of two runs of `n` bytes, through either address of the vector table. -/
def overlapOf (src dst n : Word) : Nat × Nat :=
  let a := phys src.toNat
  let b := phys dst.toNat
  (max a b, min (a + n.toNat) (b + n.toNat))

/-- The bytes of a step of MOVE from address `a`: those in the overlap of the runs are undefined (R91). -/
def moveBytes (a lo hi : Nat) : Nat → Nat → M Nat
  | 0, _ => pure 0
  | k + 1, v => do
    let s ← get
    let f := freeWord s
    (if lo ≤ a ∧ a < hi then set f.2 else pure ())
    let rest ← moveBytes (a + 1) lo hi k (v / 256)
    pure ((if lo ≤ a ∧ a < hi then f.1.toNat % 256 else v % 256) + 256 * rest)

/-- The overlap of the runs of the MOVE that `w` executes with these entries: as it was at its start, where it has made a step
(R89, R91). -/
def moveRun (s : State) (w : Who) (src dst n : Word) : Nat × Nat :=
  let c := getC s w
  match c.moves.find? (fun m => m.pc == c.pc && m.level == entryLevel s w && m.src == src && m.dst == dst && m.n == n) with
  | some m => (m.lo, m.hi)
  | none => overlapOf src dst n

/-- The MOVE of `w` goes on to the entries of `m`: what is remembered of runs that overlap. -/
def noteMove (s : State) (w : Who) (m : MoveRun) : State :=
  modC s w (fun c => { c with moves :=
    let rest := c.moves.filter (fun e => !(e.pc == m.pc && e.level == m.level))
    if m.lo < m.hi ∧ m.n ≠ 0 then m :: rest else rest })

/-- MOVE ( src dst n -- ): one step of at most `k` bytes, or the end. -/
def execMoveMem (l : LaneUse) (k : Fin 65) (h : HostWords) (s : State) : Out := instrOwn 0x85 s l 1 (fun x => do
  need x.who 3 0 0 0
  let vs ← peekN x 3
  let n := vs.getD 0 0
  let dst := vs.getD 1 0
  let src := vs.getD 2 0
  if n = 0 then do
    let _ ← popN x 3
    pure .seq
  else do
    let down := decide (src.toNat < dst.toNat) && decide (dst.toNat < src.toNat + n.toNat)
    let off := fun (m : Nat) => if down then n.toNat - m else 0
    let parts := fun (a : Word) (m : Nat) => stepChunks (a.toNat + off m) m
    let m := stepSize (← get) x k n (fun m => (parts src m).length + (parts dst m).length)
    let to_ := parts dst m
    longCheck (parts src m) to_
    let (v, _) ← longLoads x h (parts src m) 0 0
    let s ← get
    let (lo, hi) := moveRun s x.who src dst n
    let w ← moveBytes (phys dst.toNat + off m) lo hi m v
    longStores x to_ w
    let n1 := n - u32 m
    let src1 := if down then src else src + u32 m
    let dst1 := if down then dst else dst + u32 m
    retop x [n1, dst1, src1]
    modify (fun t => noteMove t x.who ⟨(getC s x.who).pc, entryLevel s x.who, src1, dst1, n1, lo, hi⟩)
    pure .stay)

/-- The byte `b` repeated `k` times. -/
def repByte (b : Nat) : Nat → Nat
  | 0 => 0
  | k + 1 => b + 256 * repByte b k

/-- FILL ( dst n x -- ): one step, or the end. -/
def execFillMem (l : LaneUse) (k : Fin 65) (s : State) : Out := instrOwn 0x86 s l 1 (fun x => do
  need x.who 3 0 0 0
  let vs ← peekN x 3
  let v := vs.getD 0 0
  let n := vs.getD 1 0
  let dst := vs.getD 2 0
  if n = 0 then do
    let _ ← popN x 3
    pure .seq
  else do
    let m := stepSize (← get) x k n (fun m => (stepChunks dst.toNat m).length)
    let to_ := stepChunks dst.toNat m
    longCheck [] to_
    longStores x to_ (repByte (v.toNat % 256) m)
    retop x [v, n - u32 m, dst + u32 m]
    pure .stay)

/-- OR over `k` byte pairs of their XOR. -/
def byteDiff : Nat → Nat → Nat → Nat
  | 0, _, _ => 0
  | k + 1, a, b => (a % 256 ^^^ b % 256) ||| byteDiff k (a / 256) (b / 256)

/-- MCMP ( a b n acc -- f ): one step, or the end. -/
def execMcmp (l : LaneUse) (k : Fin 65) (h : HostWords) (s : State) : Out := instrOwn 0x87 s l 1 (fun x => do
  need x.who 4 1 0 0
  let vs ← peekN x 4
  let acc := vs.getD 0 0
  let n := vs.getD 1 0
  let b := vs.getD 2 0
  let a := vs.getD 3 0
  if n = 0 then do
    let _ ← popN x 4
    push x (flag (decide (acc = 0)))
    pure .seq
  else do
    let m := stepSize (← get) x k n (fun m => (stepChunks a.toNat m).length + (stepChunks b.toNat m).length)
    longCheck (stepChunks a.toNat m ++ stepChunks b.toNat m) []
    let (p, i) ← longLoads x h (stepChunks a.toNat m) 0 0
    let (q, _) ← longLoads x h (stepChunks b.toNat m) 0 i
    retop x [acc ||| u32 (byteDiff m p q), n - u32 m, b + u32 m, a + u32 m]
    pure .stay)

end Sys2Proof.Machine
end

