-- ==== Sys2Proof/Machine/Control.lean ====
section
/-! DEFINITION. Control transfer, hardware loops and address registers (spec/03 R78 to R80). -/

namespace Sys2Proof.Machine

/-! ### Control transfer (R78) -/

/-- A relative branch of an instruction of `len` bytes. -/
def branch (len : Nat) (d : Word) (x : Iss) : M Flow := do
  let n ← nextOf x len
  goTo x (n + d)

/-- A conditional branch ( f -- ). -/
def branchIf (p : Word → Bool) (len : Nat) (d : Word) (x : Iss) : M Flow := do
  need x.who 1 0 0 0
  let f ← pop x
  if p f then branch len d x else pure .seq

/-- A relative call. -/
def callRel (len : Nat) (d : Word) (x : Iss) : M Flow := do
  need x.who 0 0 0 1
  let n ← nextOf x len
  rpush x n
  goTo x (n + d)

/-- BR. -/
def execBr (l : LaneUse) (imm : BitVec 8) (s : State) : Out := instr 0x60 s l 2 (branch 2 (sImm imm))

/-- BR16. -/
def execBr16 (l : LaneUse) (imm : BitVec 16) (s : State) : Out := instr 0x61 s l 3 (branch 3 (sImm imm))

/-- BZ. -/
def execBz (l : LaneUse) (imm : BitVec 8) (s : State) : Out := instr 0x62 s l 2 (branchIf (fun f => decide (f = 0)) 2 (sImm imm))

/-- BZ16. -/
def execBz16 (l : LaneUse) (imm : BitVec 16) (s : State) : Out := instr 0x63 s l 3 (branchIf (fun f => decide (f = 0)) 3 (sImm imm))

/-- BNZ. -/
def execBnz (l : LaneUse) (imm : BitVec 8) (s : State) : Out := instr 0x64 s l 2 (branchIf (fun f => decide (f ≠ 0)) 2 (sImm imm))

/-- BNZ16. -/
def execBnz16 (l : LaneUse) (imm : BitVec 16) (s : State) : Out := instr 0x65 s l 3 (branchIf (fun f => decide (f ≠ 0)) 3 (sImm imm))

/-- CALL. -/
def execCall (l : LaneUse) (imm : BitVec 16) (s : State) : Out := instr 0x66 s l 3 (callRel 3 (sImm imm))

/-- CALL24. -/
def execCall24 (l : LaneUse) (imm : BitVec 24) (s : State) : Out := instr 0x67 s l 4 (callRel 4 (sImm imm))

/-- CALLX ( t -- ) R:( -- ret ). -/
def execCallx (l : LaneUse) (s : State) : Out := instr 0x68 s l 1 (fun x => do
  need x.who 1 0 0 1
  let t ← pop x
  let n ← nextOf x 1
  rpush x n
  goTo x t)

/-- JMP ( t -- ). -/
def execJmp (l : LaneUse) (s : State) : Out := instr 0x69 s l 1 (fun x => do
  need x.who 1 0 0 0
  let t ← pop x
  goTo x t)

/-- RET R:( ret -- ). -/
def execRet (l : LaneUse) (s : State) : Out := instr 0x6A s l 1 (fun x => do
  need x.who 0 0 1 0
  let t ← rpop x
  goTo x t)

/-! ### Hardware loops (R79) -/

/-- LOOP and LOOP16 ( n -- ): the loop-back decision follows under R44; LEND lies behind the instruction itself. -/
def loopStart (len : Nat) (d : Word) (x : Iss) : M Flow := do
  need x.who 1 0 0 0
  let n ← pop x
  let a ← nextOf x len
  modI x (fun c => { c with lstart := a, lend := a + d, lcount := n, status := setBit c.status 19 true })
  pure .seq

/-- LOOP. -/
def execLoopSet (l : LaneUse) (imm : BitVec 8) (s : State) : Out := instr 0x6B s l 2 (loopStart 2 (zImm imm))

/-- LOOP16. -/
def execLoop16 (l : LaneUse) (imm : BitVec 16) (s : State) : Out := instr 0x6C s l 3 (loopStart 3 (zImm imm))

/-- ENDL: LOOPACT := 0. -/
def execEndl (l : LaneUse) (s : State) : Out := instr 0x6D s l 1 (fun x => do
  modI x (fun c => setStatusBit c 19 false)
  pure .seq)

/-- NOP. -/
def execNop (l : LaneUse) (s : State) : Out := instr 0x6F s l 1 (fun _ => pure .seq)

/-! ### Address registers (R80) -/

/-- >A ( x -- ). -/
def execToA (l : LaneUse) (s : State) : Out := instr 0x74 s l 1 (consume (fun v c => { c with a := v }))

/-- A> ( -- x ). -/
def execAFrom (l : LaneUse) (s : State) : Out := instr 0x75 s l 1 (fun x => do
  let s ← get
  pushes (getC s x.who).a x)

/-- >B ( x -- ). -/
def execToB (l : LaneUse) (s : State) : Out := instr 0x76 s l 1 (consume (fun v c => { c with b := v }))

/-- B> ( -- x ). -/
def execBFrom (l : LaneUse) (s : State) : Out := instr 0x77 s l 1 (fun x => do
  let s ← get
  pushes (getC s x.who).b x)

/-- A+ ( n -- ). -/
def execAPlus (l : LaneUse) (s : State) : Out := instr 0x78 s l 1 (consume (fun v c => { c with a := c.a + v }))

/-- B+ ( n -- ). -/
def execBPlus (l : LaneUse) (s : State) : Out := instr 0x79 s l 1 (consume (fun v c => { c with b := c.b + v }))

/-- LITA. -/
def execLita (l : LaneUse) (imm : Word) (s : State) : Out := instr 0x7A s l 5 (fun x => do
  modI x (fun c => { c with a := imm })
  pure .seq)

/-- LITB. -/
def execLitb (l : LaneUse) (imm : Word) (s : State) : Out := instr 0x7B s l 5 (fun x => do
  modI x (fun c => { c with b := imm })
  pure .seq)

/-- PCREL ( -- x ): next + sext(imm16). -/
def execPcrel (l : LaneUse) (imm : BitVec 16) (s : State) : Out := instr 0x7C s l 3 (fun x => do
  let n ← nextOf x 3
  pushes (n + sImm imm) x)

end Sys2Proof.Machine
end

