-- ==== Sys2Proof/Machine/CoachOps.lean ====
section
/-! DEFINITION. Coach and system instructions: YIELD to ARM, GETR and SETR, ICINV, CUSTn and the reserved codes (spec/03
R92 to R96, R105 to R107; spec/02 R32 to R34, R40, R41, R56 to R58; spec/05 R133). -/

namespace Sys2Proof.Machine

/-! ### GETR and SETR (R32 to R34, R40, R41, R150, R384) -/

/-- Coach registers that the fast context lacks (R150). -/
def fastLacks (n : Nat) : Bool := [2, 3, 6, 7, 8, 9, 15, 16].contains n

/-- The register that GETR n reads; KEEPER and CCFG are those of the designated coach. -/
def regValue (s : State) (x : Iss) (n : Nat) : Word :=
  let c := getC s x.who
  let o := coachOf s (numOf s x.who)
  if x.who = .fast ∧ fastLacks n = true then 0
  else match n with
    | 0 => c.pc + 2
    | 1 => c.status
    | 2 => c.dsp
    | 3 => c.rsp
    | 4 => c.ddepth
    | 5 => c.rdepth
    | 6 => c.dlim
    | 7 => c.rlim
    | 8 => c.xdsp
    | 9 => c.xrsp
    | 10 => c.a
    | 11 => c.b
    | 12 => c.lstart
    | 13 => c.lend
    | 14 => c.lcount
    | 15 => c.wbp
    | 16 => c.wblim
    | 17 => o.keeper
    | 18 => o.ccfg
    | 19 => u32 (numOf s x.who)
    | _ => 0

/-- Highest ring that may SETR register n; none where no SETR is admitted (R32, R33). -/
def setrRing (n : Nat) : Option Nat :=
  if n = 0 ∨ 19 ≤ n then none
  else if n = 18 then some 0
  else if [6, 7, 8, 9, 15, 16, 17].contains n then some 1
  else some 3

/-- Highest ring that may GETR register n: that of its column, which both instructions obey. Where the column admits no SETR, R32
gives GETR its value in every ring: DEDUCED, log entry 72. -/
def getrRing (n : Nat) : Nat := (setrRing n).getD 3

/-- GETR n ( -- x ). A push that the stack does not admit is found before a ring outside the column: DESIGN CHOICE, log entry
71. -/
def execGetr (l : LaneUse) (n : BitVec 5) (s : State) : Out := instr (0x100 + n.toNat) s l 2 (fun x => do
  need x.who 0 1 0 0
  let s ← get
  if getrRing n.toNat < ringOf (getC s x.who) then raise vPRIV else pushes (regValue s x n.toNat) x)

/-- SETR is excluded in the context of who issues (R150, R384). -/
def setrExcluded (s : State) (w : Who) (n : Nat) : Bool :=
  if w = .fast then fastLacks n || n == 4 || n == 5 else !svc s && (n == 4 || n == 5)

/-- STATUS fields that SETR writes (R41). -/
def statusRW : Word := 0x0001FF3C#32

/-- SETR STATUS (R41). -/
def setStatus (x : Iss) (v : Word) : M Unit := do
  let s ← get
  let old := (getC s x.who).status
  let new := (old &&& ~~~statusRW) ||| (v &&& statusRW)
  let r := ringOf (getC s x.who)
  if (2 ≤ r ∧ (new ^^^ old) &&& 0x0001FF00#32 ≠ 0) ∨ (1 ≤ r ∧ (new ^^^ old) &&& 0x00010000#32 ≠ 0) then raise vPRIV
  else modI x (fun c => { c with status := new })

/-- SETR of a spill pointer or a depth: the head is spilled first, but in strongbox mode (R40, R384). -/
def setStack (x : Iss) (k : Stk) (f : Coach → Coach) (g : Coach → Coach) : M Unit := do
  let s ← get
  if !svc s then modI x f
  else do
    spillAll x k
    modI x (fun c => g (f c))

/-- The effect of SETR n with the value popped. -/
def setReg (x : Iss) (n : Nat) (v : Word) : M Unit := do
  let s ← get
  let owner : Who := .coach (numOf s x.who)
  match n with
  | 1 => setStatus x v
  | 2 => setStack x .d (fun c => { c with dsp := v }) (fun c => { c with ddepth := 0 })
  | 3 => setStack x .r (fun c => { c with rsp := v }) (fun c => { c with rdepth := 0 })
  | 4 => setStack x .d (fun c => { c with ddepth := v }) id
  | 5 => setStack x .r (fun c => { c with rdepth := v }) id
  | 6 => modI x (fun c => { c with dlim := v })
  | 7 => modI x (fun c => { c with rlim := v })
  | 8 => modI x (fun c => { c with xdsp := v })
  | 9 => modI x (fun c => { c with xrsp := v })
  | 10 => modI x (fun c => { c with a := v })
  | 11 => modI x (fun c => { c with b := v })
  | 12 => modI x (fun c => { c with lstart := v })
  | 13 => modI x (fun c => { c with lend := v })
  | 14 => modI x (fun c => { c with lcount := v })
  | 15 => modI x (fun c => { c with wbp := v })
  | 16 => modI x (fun c => { c with wblim := v })
  | 17 => modify (fun t => modC t owner (fun c => { c with keeper := v &&& 0x3FF#32 }))
  | 18 => modify (fun t => modC t owner (fun c => { c with ccfg := v &&& 0x33#32 }))
  | _ => pure ()

/-- SETR n ( x -- ). An empty stack is found before the register's own conditions, and a register that the context excludes
raises ILLEGAL before a ring outside its column raises PRIV: DESIGN CHOICE, log entry 71. -/
def execSetr (l : LaneUse) (n : BitVec 5) (s : State) : Out := instr (0x120 + n.toNat) s l 2 (fun x => do
  need x.who 1 0 0 0
  let s ← get
  match setrRing n.toNat with
  | none => raise vILLEGAL 7
  | some r =>
    if setrExcluded s x.who n.toNat then raise vILLEGAL 7
    else if r < ringOf (getC s x.who) then raise vPRIV
    else do
      let v ← pop x
      setReg x n.toNat v
      pure .seq)

/-! ### YIELD, WAIT, WAKE, ARM, BRK (R92 to R94, R140) -/

/-- YIELD. -/
def execYield (l : LaneUse) (s : State) : Out := instr 0x90 s l 1 (fun x => do
  match x.who with
  | .fast => raise vPRIV
  | .coach n => do
    modify (fun t => makeReady t n)
    pure .seq)

/-- WAIT ( -- w ): with no bit set the coach waits at the instruction, which returns once a bit has been set. -/
def execWaitWake (l : LaneUse) (s : State) : Out := instr 0x91 s l 1 (fun x => do
  match x.who with
  | .fast => raise vPRIV
  | .coach n => do
    need x.who 0 1 0 0
    let s ← get
    let w := (coachOf s n).wake
    if w = 0 then do
      set (leave (modC s x.who (fun c => { c with window := none })) n .wait)
      pure .gone
    else do
      push x (w.zeroExtend 32)
      modI x (fun c => { c with wake := 0 })
      pure .seq)

/-- A coach-number operand (R92). -/
def coachArg (v : Word) : M Nat := if 1024 ≤ v.toNat then raise vILLEGAL 5 else pure v.toNat

/-- WAKE ( c -- ). -/
def execWake (l : LaneUse) (s : State) : Out := instr 0x92 s l 1 (fun x => do
  need x.who 1 0 0 0
  let v ← pop x
  let c ← coachArg v
  let s ← get
  if ringOf (getC s x.who) = 3 ∧ c / 32 ≠ numOf s x.who / 32 then raise vPRIV
  else do
    modify (fun t => wake t c wkWAKE)
    pure .seq)

/-- Arm a coach's wake timer: 0 disarms it, and a deadline that has passed fires at once (R92, R58). -/
def armTimer (s : State) (n : Nat) (d : DWord) : State :=
  if d = 0 then modC s (.coach n) (fun c => { c with timer := none })
  else if d.toNat ≤ s.mls.time.toNat then wake (modC s (.coach n) (fun c => { c with timer := none })) n wkTIMER
  else modC s (.coach n) (fun c => { c with timer := some d })

/-- ARM ( lo hi -- ). In the fast context it arms the timer of the designated coach: DESIGN CHOICE, log entry 70. -/
def execArm (l : LaneUse) (s : State) : Out := instrLong 0x9C s l 1 (fun x => do
  need x.who 2 0 0 0
  let hi ← pop x
  let lo ← pop x
  modify (fun t => armTimer t (numOf t x.who) (mkD hi lo))
  pure .seq)

/-- BRK: BREAK with the code; the saved PC is the next instruction, that of a BRK which ends the body of a hardware loop under
the loop-back decision. A halt for the keeper records that PC, but for a full waybill chain, which leaves BRK to be executed
again (R44, R161, R167, R171): DEDUCED, log entry 24. -/
def execBrk (l : LaneUse) (imm : BitVec 8) (s : State) : Out := instrLong 0x9B s l 2 (fun x =>
  raiseOwn x { vec := vBREAK, reason := imm } (fun t => modC t x.who (fun c => advance c c.pc 2)))

/-! ### Threads come and go (R95, R128, R133) -/

/-- A coach can take a thread, and is not the designated fast coach (R128, R152). -/
def vacantCoach (s : State) (c : Nat) : Bool := !(coachOf s c).st.live && !fastHeld s c

/-- The coach loses its thread (R57, R95, R208). -/
def vacate (s : State) (n : Nat) (st : CoachSt) : State :=
  let s1 := completeAllOf s n
  let s2 := leave (setCoach s1 n (vacated (coachOf s1 n) st)) n st
  { s2 with div := s2.div.map (fun e => (e.1, e.2.map (fun d =>
      { d with byZero := d.byZero && (d.fast || d.coach != n) }))) }

/-- Discard the consignments of a killed coach: completed ones are freed, those in flight when they complete (R95). -/
def dropCons (s : State) (n : Nat) : State :=
  { s with cons := (s.cons.map (fun e =>
      (e.1, if !e.2.used || e.2.coach != n then e.2 else if e.2.done.isSome then { gen := e.2.gen }
        else { e.2 with orphan := true }))).filter (fun e => e.2 ≠ {}) }

/-- Free the completed entries whose tickets were not taken (R86). -/
def dropTickets (s : State) (n : Nat) : State :=
  { s with cons := (s.cons.map (fun e =>
      (e.1, if e.2.used && e.2.coach == n && e.2.kind.ticketed && e.2.done.isSome then { gen := e.2.gen }
        else e.2))).filter (fun e => e.2 ≠ {}) }

/-- Wait until coach `c` is at a boundary (R95, R96). -/
def awaitTarget (c : Nat) : M Unit := do
  let s ← get
  if (coachOf s c).stall.isSome || (coachOf s c).drain then holdFor (.target c) else pure ()

/-- The STATUS image of a spawn descriptor has only the bits that R133 admits. -/
def spawnStatusOk (w : Word) : Bool := (w &&& ~~~0x0001FF3F#32) == 0

/-- SPAWN ( d c -- f ) (R133). -/
def execSpawn (l : LaneUse) (s : State) : Out := instrLong 0x93 s l 1 (fun x => do
  need x.who 2 1 0 0
  let v ← pop x
  let d ← pop x
  let c ← coachArg v
  let s ← get
  let r := ringOf (getC s x.who)
  if 1 < r then raise vPRIV
  else if !vacantCoach s c then do
    push x (flag false)
    pure .seq
  else if d.toNat % 64 ≠ 0 ∨ bankRange d.toNat 64 = false then raiseAt vACCESS d 8 false
  else do
    let ws ← bankBytes x (reqOf s x) 8 d.toNat
    let g := wordAt ws
    let pa := g 12
    if fld (g 1) 0 2 < r ∨ (bit (g 1) 16 = true ∧ r ≠ 0) then raise vPRIV
    else if !spawnStatusOk (g 1) || (g 10 &&& 0xFFFFFC00#32) != 0 || (g 11 &&& 0xFFFFFFCC#32) != 0
        || pa.toNat % 64 != 0 || !bankRange pa.toNat 192 then raise vWAYBILL 4
    else do
      modify (fun t =>
        let c0 := vacated (coachOf t c) .ready
        let c1 : Coach := { c0 with
          pc := g 0, status := g 1, dsp := g 2, rsp := g 3, dlim := g 4, rlim := g 5, xdsp := g 6, xrsp := g 7
          wbp := g 8, wblim := g 9, keeper := g 10, ccfg := g 11, a := g 14, b := g 15
          ddepth := 1, rdepth := 0, dhead := [.val (g 13)], lstart := 0, lend := 0, lcount := 0
          xcause := 0, xaddr := 0, xinfo := 0, qclass := classOf { ccfg := g 11 }, qattr := attrOf { ccfg := g 11 } }
        setR (makeReady (setCoach t c c1) c) (aCshParka + 4 * c) pa)
      push x (flag true)
      pure .seq)

/-- KILL and PARKC are permitted to the KEEPER of the coach as well (R94). -/
def isKeeper (s : State) (x : Iss) (c : Nat) : Bool := fld (coachOf s c).keeper 0 10 == numOf s x.who

/-- Kill coach `c` (R95, R208, R347). -/
def killCoach (s : State) (c : Nat) : State := vacate (dropCons (abortWhere s (fun o => o.coach == c)) c) c .free

/-- KILL ( c -- ). -/
def execKill (l : LaneUse) (s : State) : Out := instrLong 0x94 s l 1 (fun x => do
  need x.who 1 0 0 0
  let v ← pop x
  let c ← coachArg v
  let s ← get
  if c = 0 ∨ (1 < ringOf (getC s x.who) ∧ isKeeper s x c = false) then raise vPRIV
  else if vacantCoach s c || fastHeld s c then pure .seq
  else do
    awaitTarget c
    modify (fun t => killCoach t c)
    pure (if x.who = .coach c then .gone else .seq))

/-! ### Park images (R56 to R58, R96) -/

/-- The words of a park image but the last, its CRC (R56). The heads have been spilled. -/
def imageWords (s : State) (n a : Nat) : List Word :=
  let c := coachOf s n
  let dl := c.timer.getD 0
  [c.pc, c.status, c.dsp, c.rsp, c.ddepth, c.rdepth, c.a, c.b, c.lstart, c.lend, c.lcount, 0] ++ List.replicate 16 0
    ++ [0x40, 0, 0, linkWord a, c.dlim, c.rlim, c.xdsp, c.xrsp, c.wbp, c.wblim, c.keeper, c.ccfg,
        u32 (0x10000 + n), 0, loW dl, hiW dl, loW s.mls.time, hiW s.mls.time, 0]

/-- The bytes of words, little-endian. -/
def wordBytes (ws : List Word) : List Byte :=
  ws.flatMap (fun (w : Word) => [w.truncate 8, (w >>> 8).truncate 8, (w >>> 16).truncate 8, (w >>> 24).truncate 8])

/-- A park image (R56). -/
def parkImage (s : State) (n a : Nat) : List Word :=
  let ws := imageWords s n a
  ws ++ [crc32 (wordBytes ws)]

/-- What prevents a park: the exception, and the entry of the untaken ticket that it comes from. -/
structure ParkFail where
  item : XItem
  entry : Option Nat := none
  deriving DecidableEq, Repr

/-- The outcome of a park: parked, or what prevents it. -/
inductive ParkAns where
  | parked
  | fails (f : ParkFail)
  deriving DecidableEq, Repr

/-- The exception is taken out of what coach `n` holds. -/
def ParkFail.consume (f : ParkFail) (n : Nat) (t : State) : State :=
  match f.entry with
  | some e => freeCons t e
  | none => modC t (.coach n) (fun c => takeItem { c with pexc := none } f.item)

/-- The oldest completed consignment of coach `n` that failed and whose ticket is not taken (R57, R86). -/
def failedTicket (s : State) (n : Nat) : Option ParkFail :=
  let es := s.cons.filter (fun e => e.2.used && !e.2.orphan && e.2.coach == n && e.2.kind.ticketed
    && (match e.2.done with | some st => st != 0 | none => false))
  (es.foldl (fun (acc : Option (Nat × Cons)) e => match acc with
    | some b => if e.2.order < b.2.order then some e else acc
    | none => some e) none).map (fun e => ⟨consItem e.2 (e.2.done.getD 0) e.2.info, some e.1⟩)

/-- What prevents a park of coach `n`: a failed consignment, another imprecise exception that is pending (R165), or the failure
that an earlier PARKC found (R57, R96). -/
def parkFailure (s : State) (n : Nat) : Option ParkFail :=
  match (coachOf s n).pexc with
  | some i => some ⟨i, none⟩
  | none =>
    match (coachOf s n).imprecise.head? with
    | some i => some ⟨i, none⟩
    | none => failedTicket s n

/-- Store consecutive 64-bit words of a park image. -/
def imageStores (y : Iss) (r : Req) : Nat → List DWord → M Unit
  | _, [] => pure ()
  | a, d :: ds => do
    bankStore y r a 8 d.toNat
    imageStores y r (a + 8) ds

/-- The stores that the coach still had to post. -/
def flushStores (y : Iss) : List Posted → M Unit
  | [] => modI y (fun c => { c with out := [] })
  | p :: ps => do
    bankStore y ⟨numOf (← get) y.who, p.ring, p.lset != 0⟩ p.addr p.size p.data.toNat
    flushStores y ps

/-- Write what the coach still had to store, both heads and its image, each store awaited; a coach that parks itself by PARKC
first has its operand replaced by true (R40, R56, R57, R86, R96). -/
def parkStores (y : Iss) (n : Nat) (flagged : Bool) (a : Nat) : M Unit := do
  modify (dropTickets · n)
  flushStores y (coachOf (← get) n).out
  (if flagged then do
      let _ ← pop y
      push y (flag true)
    else pure ())
  spillAll y .d true
  spillAll y .r true
  imageStores y (reqOf (← get) y) a (pairUp (parkImage (← get) n a))

/-- Coach `n` has no division and no consignment in progress (R57). -/
def parkDrain (n : Nat) : M Unit := do
  let s ← get
  (match s.div.find? (fun e => match e.2 with | some d => d.coach == n && !d.fast | none => false) with
    | some e => holdFor (.divider e.1)
    | none => pure ())
  let es := openOf s (.coach n) (fun _ => true)
  awaitCons es

/-- What is remembered of the MOVEs of a parked coach stays with its image at `a`. -/
def parkMoves (s : State) (n a : Nat) : State :=
  { s with moves := s.moves.filter (fun e => e.1 ≠ a) ++ (coachOf s n).moves.map (fun m => (a, m)) }

/-- Park coach `n`, which issues in lane set `l` (R57, R86, R96). When it fails, the coach keeps its registers. -/
def parkRun (n l : Nat) (flagged : Bool) : M ParkAns := do
  parkDrain n
  let s ← get
  let a := (getR s (aCshParka + 4 * n)).toNat
  match parkFailure s n with
  | some f => pure (.fails f)
  | none =>
    if !bankRange a 192 then raiseAt vACCESS (u32 a) 8 true
    else
      match parkStores ⟨.coach n, l⟩ n flagged a s with
      | .error (.hold h _ _) => holdFor h
      | .error (.trap i left) => do
        set (left s)
        pure (.fails ⟨i, none⟩)
      | .ok (_, t) => do
        set (vacate (parkMoves t n a) n .parked)
        pure .parked

/-- The park of the executing coach by an instruction of one byte, after which it goes on (R44, R57): a failure is raised
precisely. -/
def parkSelf (x : Iss) (n : Nat) (flagged : Bool) : M Flow := do
  let c := getC (← get) x.who
  modI x (fun c => advance c c.pc 1)
  let r ← parkRun n x.lane flagged
  match r with
  | .parked => pure .gone
  | .fails f => do
    modI x (fun d => { d with pc := c.pc, lcount := c.lcount, status := setBit d.status 19 (bit c.status 19) })
    raiseOwn x f.item (f.consume n)

/-- PARK. -/
def execPark (l : LaneUse) (s : State) : Out := instrLong 0x95 s l 1 (k := .pinned) (fun x => do
  match x.who with
  | .fast => raise vPRIV
  | .coach n => if n = 0 then raise vPRIV else parkSelf x n false)

/-- Coach `c` takes the failure of a PARKC as its own: at once when it runs, else at its next boundary (R96, R132). It is not
consumed when the waybill chain is full (R171). -/
def takeFailure (s : State) (c : Nat) (f : ParkFail) : State :=
  let free := fun (t : State) => modC t (.coach c) (fun d => { d with held := none })
  let s1 := free (f.consume c s)
  if (coachOf s c).st = .ready ∨ (coachOf s c).st = .run then
    let t := raiseItem s1 (.coach c) f.item
    if fullChain t (.coach c) then raiseItem (free s) (.coach c) f.item else t
  else modC s1 (.coach c) (fun d => { d with pexc := some f.item })

/-- An instruction of `x` that has issued: no boundary comes before the end of a wait of `m` (R49, R57, R96). -/
def issued {α : Type} (x : Iss) (m : M α) : M α := fun s =>
  match m s with
  | .error (.hold h r left) => .error (.hold h r (fun t => modC (left t) x.who (fun c => { c with drain := true })))
  | y => y

/-- A wait of `m` is one of PARKC on behalf of coach `c`, which it has stopped (R96). -/
def stopping {α : Type} (c : Nat) (m : M α) : M α := fun s =>
  match m s with
  | .error (.hold h r left) => .error (.hold (.parking c h) r left)
  | y => y

/-- PARKC ( c -- f ) (R96). -/
def execParkc (l : LaneUse) (s : State) : Out := instrLong 0x96 s l 1 (fun x => do
  need x.who 1 1 0 0
  let vs ← peekN x 1
  let c ← coachArg (vs.getD 0 0)
  let s ← get
  let answer : Bool → M Flow := fun b => do
    let _ ← popN x 1
    push x (flag b)
    pure .seq
  if c = 0 ∨ (ringOf (getC s x.who) ≠ 0 ∧ isKeeper s x c = false) then raise vPRIV
  else if vacantCoach s c || fastHeld s c then answer false
  else if x.who = .coach c then issued x (parkSelf x c true)
  else do
    awaitTarget c
    let t ← get
    let r ← stopping c (parkRun c (laneOfCoach t c) false)
    match r with
    | .parked => answer true
    | .fails f => do
      modify (fun u => takeFailure u c f)
      answer false)

/-- A park image passes the integrity check of R58. -/
def imageOk (ds : List DWord) : Bool :=
  let g := wordAt ds
  let ws := (List.range 47).map g
  g 47 == crc32 (wordBytes ws) && fld (g 40) 16 8 == 1 && (g 40 &&& 0xFF00FC00#32) == 0 && (g 1 &&& 0xFFF000C0#32) == 0
    && (g 38 &&& 0xFFFFFC00#32) == 0 && (g 39 &&& 0xFFFFFFCC#32) == 0
    && [24, 25, 26, 27, 41, 46].all (fun i => g i == 0) && g 28 == 0x40#32 && g 29 == 0 && g 30 == 0
    && fld (g 31) 16 16 == 0x57A7 && headsOk (g 11) (g 4) (g 5)
    && (List.range 8).all (fun i => decide (i < fld (g 11) 0 4) || g (12 + i) == 0)
    && (List.range 4).all (fun i => decide (i < fld (g 11) 8 4) || g (20 + i) == 0)

/-- UNPARK ( a c -- ) (R58). Into a different coach it rewrites ORIGIN in the image, and no other word: DEDUCED, log entry
22. -/
def execUnpark (l : LaneUse) (s : State) : Out := instrLong 0x97 s l 1 (fun x => do
  need x.who 2 0 0 0
  let v ← pop x
  let a ← pop x
  let c ← coachArg v
  let s ← get
  let r := ringOf (getC s x.who)
  if a.toNat % 64 ≠ 0 ∨ bankRange a.toNat 192 = false then raiseAt vACCESS a 8 false
  else do
    let ds ← bankBytes x (reqOf s x) 24 a.toNat
    let g := wordAt ds
    if !imageOk ds then raise vWAYBILL 5
    else if 1 < r ∧ fld (g 38) 0 10 ≠ numOf s x.who then raise vPRIV
    else if !vacantCoach s c || (fld (g 40) 0 10 != c && r != 0) then raise vWAYBILL 5
    else do
      modify (fun t =>
        let c1 := restoreFrame (vacated (coachOf t c) .ready) ds
        let c2 : Coach := { c1 with
          dlim := g 32, rlim := g 33, xdsp := g 34, xrsp := g 35, wbp := g 36, wblim := g 37, keeper := g 38, ccfg := g 39
          moves := (t.moves.filter (fun e => e.1 = a.toNat)).map (·.2)
          xcause := 0, xaddr := 0, xinfo := 0, qclass := classOf { ccfg := g 39 }, qattr := attrOf { ccfg := g 39 } }
        armTimer (setR (makeReady (setCoach t c c2) c) (aCshParka + 4 * c) a) c (mkD (g 43) (g 42)))
      if fld (g 40) 0 10 = c then pure () else postStore x r (a.toNat + 0xA0) 4 (0x10000 + c)
      pure .seq)

/-! ### Instruction caches (R106) -/

/-- Line `k` holds a byte of the `n` bytes from `a`, through either address of the vector table. A range that runs past the highest
address goes on at address 0: DESIGN CHOICE, log entry 81. -/
def lineIn (a n k : Nat) : Bool :=
  let hits := fun (b : Nat) => decide (b < a + n) && decide (a < b + 32)
  hits (32 * k) || (decide (0x800000 ≤ k) && decide (k < 0x800020) && hits (32 * k - 0x10000000 + 0x10000))
    || decide (32 * k + 2 ^ 32 < a + n)

/-- ICINV ( a n -- ). -/
def execIcinv (l : LaneUse) (s : State) : Out := instrLong 0x140 s l 2 (fun x => do
  need x.who 2 0 0 0
  let n ← pop x
  let a ← pop x
  let s ← get
  if 1 < ringOf (getC s x.who) then raise vPRIV
  else do
    modify (fun t => if n = 0 then t else icDrop t (lineIn a.toNat n.toNat))
    pure .seq)

/-- ICINVA. -/
def execIcinva (l : LaneUse) (s : State) : Out := instrLong 0x141 s l 2 (fun x => do
  let s ← get
  if 1 < ringOf (getC s x.who) then raise vPRIV
  else do
    modify (fun t => icDrop t (fun _ => true))
    pure .seq)

/-! ### CUSTn and reserved codes (R65, R107, R270) -/

/-- CUSTn. -/
def execCustn (l : LaneUse) (n : BitVec 4) (s : State) : Out := instrOwn (0xE0 + n.toNat) s l 1 (fun x => custom x n.toNat)

/-- A reserved opcode, a reserved byte after the escape prefix, or 0xFF. -/
def execIllegal (l : LaneUse) (op : BitVec 8) (escape : Bool) (s : State) : Out :=
  instr (if escape then 0x100 + op.toNat else op.toNat) s l (if escape then 2 else 1) (fun _ => raise vILLEGAL (if op = 0xFF ∧ escape = false then 2 else 1))

end Sys2Proof.Machine
end

