-- ==== Sys2Proof/Machine/Gates.lean ====
section
/-! DEFINITION. GATE, RETG and RETX (spec/03 R97 to R99; spec/06 R155 to R159, R176, R182). -/

namespace Sys2Proof.Machine

/-- Reserved bits of ATTR (R156). -/
def attrReserved : Word := 0x38F0FCFF#32

/-- CHECK of a gate entry (R156). -/
def gateCheck (g : Nat → Word) (n : Nat) : Word := g 0 ^^^ g 1 ^^^ g 2 ^^^ 0x6A7E0000#32 ^^^ u32 n

/-- Read a gate entry with the permission of ring 0, from the boot ROM or as a locked pair from a bank (R157). The pair meets BUSY in
its first cycle as one access, and retries as a whole (R282). -/
def gateEntry (x : Iss) (a : Nat) : M (List DWord) := do
  let s ← get
  let r : Req := ⟨numOf s x.who, 0, x.unver⟩
  if regionN a 16 = some .rom then pure [rd64 s a, rd64 s (a + 8)]
  else
    let fail := fun (st : BitVec 3) (left : State → State) =>
      (trap { vec := vGATE, reason := 6, cstat := st, addr := u32 a, info := u32 (sizeCode 8 * 2 ^ 14) } left : M (List DWord))
    if !bankRange a 16 then fail 0 id
    else do
      awaitOver x a 16
      let one := fun (t : State) (b : Nat) => bankAccess t r (phys b) 8 none
      match ownFate s x.who with
      | some (st, count) => fail st count
      | none =>
        match one s a with
        | (_, .waits b) => holdFor (.bank b)
        | (_, .fail st _) => fail st (fun t => (one t a).1)
        | (s1, .ok lo) =>
          match one s1 (a + 8) with
          | (_, .waits b) => holdFor (.bank b)
          | (_, .fail st _) => fail st (fun t => (one (one t a).1 (a + 8)).1)
          | (s2, .ok hi) => do
            set (ownDone s2 x.who)
            pure [BitVec.ofNat 64 lo, BitVec.ofNat 64 hi]

/-- The coach is on neither exception stack, in service mode and outside the fast context (R158). -/
def switches (s : State) (x : Iss) : Bool :=
  let c := getC s x.who
  svc s && x.who != .fast && !onX s .d c && !onX s .r c

/-- The stack switch of R158. -/
def switchStacks (x : Iss) (narg : Nat) : M Unit := do
  need x.who narg 0 0 0
  let args ← popN x narg
  spillAll x .d
  spillAll x .r
  let s ← get
  let c := getC s x.who
  modI x (fun d => { d with dsp := d.xdsp, rsp := d.xrsp, ddepth := 0, rdepth := 0 })
  need x.who 0 narg 0 6
  rpush x c.dsp
  rpush x c.ddepth
  rpush x c.rsp
  rpush x c.rdepth
  pushAll x args

/-- GATE n (R97, R157, R158). -/
def execGate (l : LaneUse) (imm : BitVec 16) (s : State) : Out := instrLong 0x98 s l 3 (fun x => do
  let v := imm.zeroExtend 32
  let n := fld v 0 10
  let s ← get
  let ring := ringOf (getC s x.who)
  if fld v 10 6 ≠ 0 then raise vILLEGAL 6
  else if fld (getR s aRngGatecnt) 0 11 ≤ n then raise vGATE 1
  else do
    let ds ← gateEntry x ((getR s aRngGatebase).toNat + 16 * n)
    let g := wordAt ds
    let attr := g 1
    if !bit attr 31 || (attr &&& attrReserved) != 0 then raise vGATE 2
    else if g 3 ≠ gateCheck g n then raise vGATE 3
    else if !bit attr (16 + ring) then raise vGATE 4
    else if ring < fld attr 8 2 then raise vGATE 5
    else do
      let t ← get
      let sw := bit attr 30 && switches t x
      (if sw then switchStacks x (fld attr 24 3) else need x.who 0 0 0 2)
      let ret ← nextOf x 3
      let u ← get
      rpush x (setBit (getC u x.who).status 6 sw)
      rpush x ret
      modI x (fun c => { c with status := setFld c.status 0 2 (fld attr 8 2) })
      goTo x (g 0))

/-- Undo a gate's stack switch; the link has been popped (R159). -/
def unswitch (x : Iss) : M Unit := do
  let s ← get
  let k := (getC s x.who).ddepth.toNat
  let res ← popN x k
  let rd ← rpop x
  let sr ← rpop x
  let dd ← rpop x
  let sd ← rpop x
  modI x (fun c => { c with dsp := sd, ddepth := dd, rsp := sr, rdepth := rd, dhead := [], rhead := [] })
  pushAll x res

/-- RETG (R98, R159). -/
def execRetg (l : LaneUse) (s : State) : Out := instrLong 0x99 s l 1 (fun x => do
  need x.who 0 0 2 0
  let s ← get
  let c := getC s x.who
  let ret ← rpop x
  let st ← rpop x
  if fld st 0 2 < ringOf c then raise vGATE 7
  else if bit st 6 && (c.rdepth != 6 || decide (8 < c.ddepth.toNat)) then raise vGATE 8
  else do
    (if bit st 6 then unswitch x else pure ())
    modI x (fun d => syncImprc { d with status := st &&& 0x000FFF3F#32 })
    goTo x ret)

/-- RETX (R99). -/
def execRetx (l : LaneUse) (s : State) : Out := instrLong 0x9A s l 1 retxBody

end Sys2Proof.Machine
end

