-- ==== Sys2Proof/Machine/BnOps.lean ====
section
/-! DEFINITION. The big-number instructions (spec/03 R101 to R103; spec/14 R337, R347, R353). -/

namespace Sys2Proof.Machine

/-- A slot operand (R101). -/
def slotArg (v : Word) : M Nat := if 8 ≤ v.toNat then raise vILLEGAL 5 else pure v.toNat

/-- The engine runs the operation of consignment entry `e`. -/
def atEngine (s : State) (e g : Nat) : Bool :=
  s.bne.ops.any (fun o => match o.2 with | some k => k.entry == e && k.gen == g | none => false)

def CKind.isBnop : CKind → Bool
  | .engine _ key => !key
  | _ => false

/-- The Keystone still holds the BNOP of an entry (R51). -/
def heldBnop (s : State) (e : Nat × Cons) : Bool :=
  e.2.used && e.2.done.isNone && e.2.early.isNone && e.2.kind.isBnop && !atEngine s e.1 e.2.gen

/-- An older store of the same issuer to operand memory is not acknowledged (R51). -/
def storesBefore (s : State) (k : Cons) : Bool :=
  s.cons.any (fun e => e.2.used && e.2.done.isNone && consWho e.2 == consWho k && decide (e.2.order < k.order)
    && toIsland 10 e.2)

/-- Submit the held BNOP of entry `e`, unless its stores, the opening engine or its channel hold it; that of a killed coach is
dropped (R21, R26, R51, R95). One that still waits when the engine is OFF or CLOSING ends with status 3: DESIGN CHOICE, log entry 81. -/
def releaseBnop (s : State) (e : Nat) : State :=
  let k := consOf s e
  if k.orphan then freeCons s e
  else if unitSt s 0 = 0 ∨ unitSt s 0 = 3 then deliverCons s e 3 0 (finfo k.size e)
  else if unitSt s 0 ≠ 2 ∨ storesBefore s k = true ∨ retrying s e = true ∨ sendHeld s 8 k.lset k.order = true then s
  else
    match k.kind with
    | .engine i _ => submit s (loW k.data) i ⟨k.coach, k.ring, k.unver⟩ false e
    | _ => s

/-- Submit every BNOP that nothing holds any more, oldest first. -/
def pumpEngine (s : State) : State :=
  (((s.cons.filter (heldBnop s)).mergeSort (fun a b => decide (a.2.order ≤ b.2.order))).map (·.1)).foldl releaseBnop s

/-- Take the entry of a submission (R85, R144). -/
def engineEntry (x : Iss) (slot : Nat) (key : Bool) (cmd : Word) (early : Option (BitVec 3)) : M Nat := do
  let s ← get
  let m := numOf s x.who
  roomIn 8
  let e ← chooseEntry m true
  allocate e { coach := m, fast := x.who == .fast, kind := .engine slot key, addr := 0, size := 0, data := cmd.zeroExtend 64
               ring := ringOf (getC s x.who), unver := x.unver, lset := x.lane, early := early }
  pure e

/-- A unit that is OFF or CLOSING answers status 3 (R26). -/
def engineOff (s : State) : Bool := unitSt s 0 == 0 || unitSt s 0 == 3

/-- BNOP ( cmd s -- t ). -/
def execBnop (l : LaneUse) (s : State) : Out := instr 0xB0 s l 1 (fun x => do
  need x.who 2 1 0 0
  let v ← pop x
  let cmd ← pop x
  let i ← slotArg v
  let s ← get
  let e ← engineEntry x i false cmd (if engineOff s then some 3 else none)
  let t ← get
  push x (ticketOf t e)
  modify pumpEngine
  pure .seq)

/-- A sealed access to the engine: refused to a free lane and by a closed unit, held while it opens (R25, R26, R51). -/
def engineAccess (x : Iss) : M Unit := do
  awaitIsland x 10
  roomIn 8
  let s ← get
  if x.unver || engineOff s then raise vACCESS
  else if unitSt s 0 = 1 then holdFor (.unit 0)
  else pure ()

/-- BNKEY ( cmd s -- t ): the coach stalls until the engine has accepted or refused the submission. That of a free lane ends
with status 3 (R25); a closed engine raises ACCESS (R26). -/
def execBnkey (l : LaneUse) (s : State) : Out := instr 0xB1 s l 1 (fun x => do
  need x.who 2 1 0 0
  let vs ← peekN x 2
  let i ← slotArg (vs.getD 0 0)
  let cmd := vs.getD 1 0
  if x.unver then do
    let e ← engineEntry x i true cmd none
    modify (fun t => deliverCons t e 3 0 (finfo 0 e))
    let t ← get
    stallFor x { pops := 2, push := [ticketOf t e], len := 1 }
  else do
    engineAccess x
    let e ← engineEntry x i true cmd none
    let t ← get
    stallFor x { pops := 2, push := [ticketOf t e], len := 1, op := some (.submit i cmd e) })

/-- BNPOLL ( s -- w ). -/
def execBnpoll (l : LaneUse) (s : State) : Out := instr 0xB2 s l 1 (fun x => do
  need x.who 1 1 0 0
  let vs ← peekN x 1
  let i ← slotArg (vs.getD 0 0)
  engineAccess x
  stallFor x { pops := 1, push := [0], len := 1, op := some (.poll i) })

/-- BNABORT ( s -- ). -/
def execBnabort (l : LaneUse) (s : State) : Out := instr 0xB3 s l 1 (fun x => do
  need x.who 1 0 0 0
  let vs ← peekN x 1
  let i ← slotArg (vs.getD 0 0)
  let s ← get
  if !mayAbort s x.who i then raise vPRIV
  else do
    engineAccess x
    stallFor x { pops := 1, push := [], len := 1, op := some (.abort i) })

/-- BNKLD ( a c -- ). Of several checks that fail, R385 not naming BNKLD, the key slot comes first (ILLEGAL 5), then the ring (PRIV),
then the address (ACCESS): DESIGN CHOICE, log entry 81. -/
def execBnkld (l : LaneUse) (s : State) : Out := instrLong 0xB4 s l 1 (fun x => do
  need x.who 2 0 0 0
  let vs ← peekN x 2
  let c ← coachArg (vs.getD 0 0)
  let a := vs.getD 1 0
  let s ← get
  if ringOf (getC s x.who) ≠ 0 then raise vPRIV
  else if a.toNat % 8 ≠ 0 ∨ inOpmem a.toNat 80 = false then raiseAt vACCESS a 8 false
  else do
    engineAccess x
    stallFor x { pops := 2, push := [], len := 1, op := some (.load a.toNat c) })

end Sys2Proof.Machine
end

