-- ==== Sys2Proof/Machine/TrafficOps.lean ====
section
/-! DEFINITION. The commands of memory traffic: completions, responses to sealed accesses, timeouts and Mortar crossings
(spec/01 R20 to R24, spec/02 R47 to R52, spec/05 R147, R148). -/

namespace Sys2Proof.Machine

/-- After entry `e` of state `s` has been dealt with in `t`: an atomic that ended lets its coach go on (R52), stores of the
coach that waited for an entry are posted (R143), a host access that had to follow it is sent (R50), and the engine takes what the completion released (R51). -/
def afterCons (s t : State) (e : Nat) : State :=
  let w := consWho (consOf s e)
  let ended := match (getC s w).stall with | some st => st.waits == some e | none => false
  let t0 := if ended then finishStall t w else t
  let t1 := if region (consOf s e).addr = some .host then hostSend t0 else t0
  pumpEngine (if (getC t1 w).window.isNone && !(getC t1 w).out.isEmpty then postOut t1 w else t1)

/-- CONSIGNMENT_COMPLETION: the completion of entry `e` with allocation count `count`; `table` is what the check of the
table entry finds (R149). -/
def execConsignmentCompletion (e : Fin 3072) (count : BitVec 16) (upset table : Upset) (s : State) : Out :=
  occurs (whenUp s (fun s => afterCons s (arrival s e.val count.toNat upset table) e.val))

/-- CONSIGNMENT_TIMEOUT of an entry's consignment, whose copies are compared first (R149), or of the access that the core makes
next for a coach within an instruction. -/
def execConsignmentTimeout (a : CAccess) (table : Upset) (s : State) : Out :=
  occurs (whenUp s (fun s =>
    match a with
    | .entry e half => afterCons s (timeoutCons (checkTable s e.val table) e.val half) e.val
    | .own c k _ => ownTimeout s (whoOf s c.toNat) k.val))

/-- BANK_C_RETRY: an access received BUSY at the C port. -/
def execBankCRetry (x : Clash) (s : State) : Out :=
  occurs (whenUp s (fun s =>
    match x.access with
    | .entry e half => afterCons s (busyRetry s e.val half x.rival) e.val
    | .own c k write => ownBusy s (whoOf s c.toNat) k.val write x.rival))

/-! ### Sealed responses (R24, R47, R300) -/

/-- Replace the stall of who issues. -/
def modStall (s : State) (w : Who) (f : Stall → Stall) : State :=
  modC s w (fun c => { c with stall := c.stall.map f })

/-- The stele's answer to access `a`: the words it gives, the ticketed entry it fills, or the precise exception. -/
def steleAnswer (s : State) (w : Who) (a : SAcc) (tick : Option Nat) (st : BitVec 3) (d : Nat) : State :=
  if st = 0 then
    let x := BitVec.ofNat 64 d
    modStall (if a.write then s else fillTick s tick x) w (fun u =>
      { u with stele := none
               push := if a.write || u.tick.isSome then u.push else loadedWords a.signed a.size x })
  else
    let s1 := match tick with | some e => freeCons s e | none => s
    modStall s1 w (fun u => { u with stele := none, fail := some (failItem a.addr st (finfo a.size (tick.getD 0)) a.write) })

/-- It is the turn of the access that `w` waits for: accesses of stalled coaches in the order of issue, and no write
during the hold-up (R300, R301). -/
def steleServes (s : State) (w : Who) (a : SAcc) : Bool := keystoneNext s == some (w, a) && mayKeystone s

/-- The stele performs the access that `w` waits for. A word write needs `retries` retries; `u` is what a read finds. -/
def steleTurn (s : State) (w : Who) (a : SAcc) (tick : Option Nat) (retries : Nat) (u : Upset) : State :=
  if !steleServes s w a then s
  else
    let s1 := tookTurn (clearTurn (upsetEcc s (a.addr / 8 * 8) u)) true
    if a.write then
      let (t, st) := steleStore s1 a.addr a.size a.data retries
      finishStall (steleAnswer t w a tick st 0) w
    else
      let (t, st, d) := steleRead s1 a.addr a.size
      finishStall (steleAnswer t w a tick st d) w

/-- The response to the sealed access that `w` stalls for. -/
def sealedResponse (s : State) (w : Who) (retries : Nat) (u : Upset) : State :=
  match (getC s w).stall with
  | none => s
  | some st =>
    match st.stele with
    | some a => if sealedBack s st then s else steleTurn s w a st.tick retries u
    | none => if st.waits.isSome || st.divides.isSome || sealedBack s st then s else finishStall (performSealed s w) w

/-- SEALED_RESPONSE to coach `c`. -/
def execSealedResponse (c : BitVec 10) (retries : Fin 6) (upset : Upset) (s : State) : Out :=
  occurs (whenUp s (fun s => pumpEngine (sealedResponse s (whoOf s c.toNat) retries.val upset)))

/-! ### Mortar (R20, R22) -/

/-- ZW_MTR_FAIL after one more exhausted crossing. -/
def mtrFailWord (w : Word) (src dst : BitVec 4) : Word :=
  let n := fld w 0 12
  u32 (b2n (bit w 31 || n == 0xFFF) * 2 ^ 31 + src.toNat * 2 ^ 24 + dst.toNat * 2 ^ 20 + satAdd 0xFFF n 1)

/-- Address, direction and size of a sealed operation, for the fault information; an operation of the engine has none. -/
def SealedOp.place : SealedOp → Nat × Bool × Nat
  | .read a => (a, false, 4)
  | .write a _ => (a, true, 4)
  | .load a _ => (a, false, 8)
  | _ => (0, false, 0)

/-- The crossing carries what a unit, or the Keystone to a lane, answers (R18, ZW_MTR_FAIL). -/
def isResponse (src dst : BitVec 4) : Bool := decide (5 ≤ src.toNat) || decide (dst.toNat ≤ 3)

/-- The consignment entry that a sealed access holds: that of LDP, LDPD or BNKEY (R141, R144); 0 when none. -/
def Stall.entry (st : Stall) : Nat :=
  match st.tick, st.op with
  | some e, _ => e
  | none, some (.submit _ _ e) => e
  | none, _ => 0

/-- The ticketed entry of a sealed LDP or LDPD that fails is free again (R144). -/
def dropTick (s : State) (w : Who) : State :=
  match (getC s w).stall.bind (·.tick) with | some e => freeCons s e | none => s

/-- Drop what a sealed request would have done: it never reached its unit. -/
def dropSealed (s : State) (w : Who) (st : Stall) : State :=
  let s1 := match st.tick with | some e => freeCons s e | none => s
  let s2 := match st.op with | some (.submit _ _ e) => freeCons s1 e | _ => s1
  modStall s2 w (fun u => { u with op := none, stele := none })

/-- The crossing of the sealed request of `w`, or of its response, is exhausted: BUSERR, precise. A response is lost after its
unit has performed the access. -/
def sealedLost (s : State) (w : Who) (src dst : BitVec 4) : State :=
  match (getC s w).stall with
  | none => s
  | some st =>
    let early := match st.stele with
      | some a => isResponse src dst && !steleServes s w a
      | none => false
    if st.waits.isSome || st.divides.isSome || early then s
    else
      let p : Nat × Bool × Nat := match st.stele, st.op with
        | some a, _ => (a.addr, a.write, a.size)
        | none, some o => o.place
        | none, none => (0, false, 0)
      let done := match st.stele with
        | some a =>
          let t := tookTurn (clearTurn s) true
          if a.write then steleLater t a else (steleRead t a.addr a.size).1
        | none => performSealed s w
      let s1 := dropSealed (if isResponse src dst then done else s) w st
      finishStall (modStall s1 w (fun u =>
        { u with fail := some { vec := vBUSERR, addr := u32 p.1, write := p.2.1
                                info := finfoMortar (finfo p.2.2 st.entry) src dst } })) w

/-- What an internal item brings its receiver (R22): a wake, the entry of a stamp, a FAST delivery. The ledger writer makes its
transfer by its own row, once none is held back. Of engine-internal traffic the spec gives no content. -/
def deliverLoad (s : State) : MtrLoad → Option Stamp → State
  | .wake c bits, _ => wake s c.toNat bits
  | .stamp _, some e => queueStamp s e
  | .fast, _ => if fastEn s then { s with fastPend := true } else s
  | _, _ => s

/-- The item that its sender keeps for a crossing from `src` to `dst` (R22). -/
def keptFor (src dst : BitVec 4) (k : MtrSent) : Bool := k.src == src.toNat && k.dst == dst.toNat && !k.waits

/-- Items that waited behind a retry sequence cross in the order they were sent (R21). -/
def flushChannel (s : State) (src dst : BitVec 4) : State :=
  let here := fun (k : MtrSent) => k.src == src.toNat && k.dst == dst.toNat && k.waits
  (s.mtr.filter here).foldl (fun t k => deliverLoad t k.load k.entry) { s with mtr := s.mtr.filter (fun k => !here k) }

/-- What an exhausted crossing carried decides what follows (R22). A response of an open access is lost after its unit has
performed the access. An internal item is kept, with what it brings if it has set out. -/
def exhausted (s : State) (src dst : BitVec 4) (arisen : Bool) (entry : Option Stamp) : MtrItem → State
  | .open_ e half =>
    let k := consOf s e.val
    if k.used && k.done.isNone then
      let lost := finfoMortar (finfo k.size e.val) src dst
      let answered := isResponse src dst && changesUnit k
      let second := half && decide ((partsOf k).length = 2)
      let t := if second && !isResponse src dst then firstHalf s k
        else if second || k.first.isSome then some (if answered then (performAt s k).1 else s) else none
      afterCons s (match t with
        | some t => halfFails t e.val 2 lost
        | none => deliverCons (if answered then (performAt s k).1 else s) e.val 2 0 lost) e.val
    else s
  | .sealed_ c => sealedLost s (whoOf s c.toNat) src dst
  | .internal d => { s with mtr := s.mtr ++ [⟨src.toNat, dst.toNat, d, entry, arisen, false⟩] }

/-- The receiver accepts an item. An internal one that has not set out yet brings what it carries when it does. -/
def accepted (s : State) (arisen : Bool) (entry : Option Stamp) : MtrItem → State
  | .internal d => if arisen then deliverLoad s d entry else s
  | _ => s

/-- Items cross from `src` to `dst`: the end that is a lane is a free one, whose own clock its synchroniser meets (R18). -/
def linked (s : State) (src dst : BitVec 4) : Bool :=
  let free := fun (e : BitVec 4) => decide (4 ≤ e.toNat) || (isPaired s && (laneOf s e.toNat).role == .free)
  free src && free dst

/-- A request or response of free lane set `l` to island `i` crosses from `src` to `dst`, or back. -/
def onWay (s : State) (i l : Nat) (src dst : BitVec 4) : Bool :=
  let ends := fun (p : Nat) => (src == 4 && dst.toNat == p) || (src.toNat == p && dst == 4)
  ends i || (match linkOf s l with | some n => ends n | none => false)

/-- The item can be what crosses from `src` to `dst`. -/
def carries (s : State) (src dst : BitVec 4) : MtrItem → Bool
  | .open_ e _ => let k := consOf s e.val
    k.used && k.done.isNone && !sealedEntry k && onWay s (islandAt k) k.lset src dst
  | .sealed_ c => match (getC s (whoOf s c.toNat)).stall.bind sealedIsland with
    | some i => onWay s i 0 src dst
    | none => false
  | .internal (.wake _ _) => dst == 4
  | .internal (.stamp _) => src == 6 && dst == 7
  | .internal .ledger => src == 7 && dst == 9
  | .internal .fast => src == 6 && dst == 4
  | .internal .other => true

/-- The first request that was sent behind an item (R21). -/
def sentBehind (s : State) : MtrItem → Nat
  | .open_ e _ => (consOf s e.val).order + 1
  | .sealed_ c => match (getC s (whoOf s c.toNat)).stall with | some st => st.order + 1 | none => s.order
  | .internal _ => s.order

/-- The retry sequence on the channel from `src` to `dst` (R20, R21). -/
def sequenceOn (s : State) (src dst : BitVec 4) : Option MtrRetry :=
  s.mret.find? (fun m => m.src == src.toNat && m.dst == dst.toNat)

/-- One Mortar retry, of the item whose sequence holds the channel, or of the first item whose first attempt failed: at most 3,
of which each is accepted or `fails` (R18, R20, R21). Items behind wait until the sequence ends, submissions among them. An item that its sender kept
comes with retries of its own (R22). -/
def mortarRetry (s : State) (src dst : BitVec 4) (item : MtrItem) (fails : Bool) : State :=
  let now := sequenceOn s src dst
  let tries := match now with
    | some m => if m.item = item then m.tries else 3
    | none => if linked s src dst && carries s src dst item then 0 else 3
  if 3 ≤ tries then s
  else
    let kept := if now.isSome then none else s.mtr.find? (fun k => keptFor src dst k && item == .internal k.load)
    let m : MtrRetry := now.getD
      ⟨src.toNat, dst.toNat, item, 0, sentBehind s item, (kept.map (·.arisen)).getD false, kept.bind (·.entry)⟩
    let s1 := bumpR s aZwMtrRetry 0 32 1
    let others := s.mret.filter (fun m => !(m.src == src.toNat && m.dst == dst.toNat))
    let s2 := { s1 with mtr := match kept with | some k => s1.mtr.erase k | none => s1.mtr }
    if fails && decide (tries < 2) then { s2 with mret := { m with tries := tries + 1 } :: others }
    else
      let s3 := { s2 with mret := others }
      let s4 := if !fails then accepted s3 m.arisen m.entry item
        else exhausted (policy (setR s3 aZwMtrFail (mtrFailWord (getR s3 aZwMtrFail) src dst)) pcMORTAR) src dst m.arisen
          m.entry item
      pumpEngine (flushChannel s4 src dst)

/-- MORTAR_RETRY. -/
def execMortarRetry (src dst : BitVec 4) (item : MtrItem) (fails : Bool) (s : State) : Out :=
  occurs (whenUp s (fun s => mortarRetry s src dst item fails))

/-- The sending unit offers its oldest kept item again, and the receiver accepts it (R22). An offer whose first attempt fails is
a crossing with its own retries: MORTAR_RETRY gives the kept item again. -/
def mortarReoffer (s : State) (src dst : BitVec 4) : State :=
  match s.mtr.find? (keptFor src dst) with
  | some k =>
    if (sequenceOn s src dst).isSome then s
    else
      let t := { s with mtr := s.mtr.erase k }
      if k.arisen then deliverLoad t k.load k.entry else t
  | none => s

/-- MORTAR_REOFFER. -/
def execMortarReoffer (src dst : BitVec 4) (s : State) : Out := occurs (whenUp s (fun s => mortarReoffer s src dst))

end Sys2Proof.Machine
end

