-- ==== Sys2Proof/Machine/BoundaryOps.lean ====
section
/-! DEFINITION. Entries taken at a boundary, the end of a quantum and wake timers (spec/05 R136, R139; spec/06 R151, R171,
R182). -/

namespace Sys2Proof.Machine

/-- The entry that lane set `l` takes at its boundary, with the coach there not held, or at a yield point that abandons the step
in which it is held (R88); a FAST entry comes first. -/
def entryAt (s : State) (l : Nat) : State :=
  if !lsRuns s l || (l == 0 && fastReady s) then s
  else
    match issuer s l with
    | none => s
    | some w =>
      let c := getC s w
      let t := if c.step then modC s w (fun c => { c with held := none, step := false }) else s
      if (c.held.isSome && !c.step) || c.stall.isSome || c.drain then s else (atBoundary t w).getD s

/-- WAYBILL_ENTRY: the boundary of lane set `l` takes an exception or event in service mode. -/
def execWaybillEntry (l : Fin 3) (s : State) : Out := occurs (if svc s then entryAt s l.val else s)

/-- STRONGBOX_ENTRY: the boundary takes a fault or event in strongbox mode. -/
def execStrongboxEntry (s : State) : Out := occurs (if svc s then s else entryAt s 0)

/-- FAST_ENTRY. -/
def execFastEntry (s : State) : Out := occurs (if lsRuns s 0 && fastReady s then fastEnter s else s)

/-- Quantum of a class (CSH_QUANTA_A, CSH_QUANTA_B). -/
def quantumOf (s : State) (cls : Nat) : Nat :=
  fld (getR s (if cls < 2 then aCshQuantaA else aCshQuantaB)) (16 * (cls % 2)) 16

/-- The quantum of the coach in lane set `l` runs out (R136): it gives way to another READY coach of its class. -/
def quantumEnd (s : State) (l : Nat) : State :=
  match runOf s l with
  | none => s
  | some n =>
    let q := (coachOf s n).qclass
    let other := s.queue.any (fun m => m != n && selectable s l m && (coachOf s m).qclass == q)
    if (l == 0 && s.fastOn.isSome) || quantumOf s q == 0 || !other then s
    else setRun (makeReady s n) l none

/-- QUANTUM_END. -/
def execQuantumEnd (l : Fin 3) (s : State) : Out := occurs (if lsRuns s l.val then quantumEnd s l.val else s)

/-- TIMER_FIRE: the armed timer of coach `c`, due at the latest tick, fires. -/
def execTimerFire (c : BitVec 10) (s : State) : Out :=
  let n := c.toNat
  occurs (match (coachOf s n).timer with
    | some d =>
      if s.mls.tick.any (fun t => decide (d.toNat ≤ t.toNat)) then
        sendWake (modC s (.coach n) (fun k => { k with timer := none })) 7 n wkTIMER else s
    | none => s)

end Sys2Proof.Machine
end

