-- ==== Sys2Proof/Machine/EventOps.lean ====
section
/-! DEFINITION. The commands of the event controller (spec/07). -/

namespace Sys2Proof.Machine

/-! ### Detection (R187, R188) -/

/-- The level that a selected transition of source `n` leaves on its line; both edges: the other one, or the same after
two transitions in one interval. -/
def lineAfter (s : State) (n : Nat) (merged : Bool) : Bool :=
  match srcSense s n with
  | 0 => true
  | 2 => true
  | 1 => false
  | 3 => false
  | _ => if merged then (srcOf s n).line else !(srcOf s n).line

/-- A level source finds its line asserted in an interval after one in which it was not; an edge source triggers at
every selected transition. -/
def detects (s : State) (n : Nat) : Bool := !isLevel s n || (srcOf s n).fresh || !asserted s n

/-- A selected transition of an EVT_IN line in one detection interval; several when `merged`. -/
def selectedTransition (s : State) (n : Nat) (merged : Bool) : State :=
  if n < 64 then s
  else
    let d := detects s n
    let s1 := setSrc s n { srcOf s n with line := lineAfter s n merged, fresh := false }
    if d then triggerBy s1 n (.hardware merged) else s1

/-- The line of source `n` moves to `level` while the block is in reset: the detector does not see it (R187). -/
def lineInReset (s : State) (n : Nat) (level : Bool) : State :=
  if n < 64 then s else setSrc s n { srcOf s n with line := level }

/-- EVENT_TRIGGER. -/
def execEventTrigger (n : BitVec 9) (merged : Bool) (s : State) : Out :=
  occurs (if s.up then selectedTransition s n.toNat merged else lineInReset s n.toNat (lineAfter s n.toNat merged))

/-- UNSELECTED_TRANSITION: the line moves to the level that its source does not select. -/
def execUnselectedTransition (n : BitVec 9) (s : State) : Out :=
  let i := n.toNat
  occurs (if i < 64 ∨ srcSense s i = 4 then s
    else if !s.up then lineInReset s i (srcSense s i == 1 || srcSense s i == 3)
    else setSrc s i { srcOf s i with line := srcSense s i == 1 || srcSense s i == 3, fresh := false })

/-! ### Times (R190, R209) -/

/-- COALESCE_TIMEOUT: the time T of source `n` is reached. -/
def execCoalesceTimeout (n : BitVec 9) (s : State) : Out :=
  let i := n.toNat
  occurs (if (srcOf s i).coal = 0 ∨ fld (scoal s i) 0 16 = 0 ∨ isLevel s i = true ∨ isFastSrc s i = true then s
    else
      let (t, storm) := setPend s i
      if storm then trigger t 7 else deliveries s t [i])

/-- STORM_WINDOW_END: the counts of the window start again. -/
def execStormWindowEnd (s : State) : Out :=
  occurs ((s.src.map (·.1)).foldl (fun t n => setSrc t n { srcOf t n with stormCnt := 0 }) s)

/-! ### Register rows -/

/-- EVC_CLAIM[n], read on behalf of coach `c`. -/
def execEvcClaim (c : BitVec 10) (n : BitVec 9) (s : State) : Out := occurs (readAs s c (aEvcClaim + 4 * n.toNat))

/-- EVC_CLAIMTOP, read on behalf of coach `c`. -/
def execEvcClaimtop (c : BitVec 10) (s : State) : Out := occurs (readAs s c aEvcClaimtop)

/-- EVC_CPL. -/
def execEvcCpl (c : BitVec 10) (v : Word) (s : State) : Out := occurs (writeAs s c aEvcCpl v)

/-- EVC_PENDSET[k]. -/
def execEvcPendset (c : BitVec 10) (k : Fin 16) (v : Word) (s : State) : Out :=
  occurs (writeAs s c (aEvcPendset + 4 * k.val) v)

/-- EVC_SCFG[n]. -/
def execEvcScfgWrite (c : BitVec 10) (n : BitVec 9) (v : Word) (s : State) : Out :=
  occurs (writeAs s c (aEvcScfg + 4 * n.toNat) v)

/-- EVC_FAST. -/
def execEvcFastWrite (c : BitVec 10) (v : Word) (s : State) : Out := occurs (writeAs s c aEvcFast v)

/-! ### Copy differences (R210) -/

/-- What a difference leaves in EVC_FAULT and the mismatch count. -/
def noteDifference (s : State) (cfg : Bool) (n : Nat) : State :=
  let k := satAdd 0xFFFF (fld (getR s aEvcFault) 16 16) 1
  trigger (policy (setR s aEvcFault (u32 (k * 2 ^ 16 + b2n cfg * 2 ^ 15 + n))) pcEVC) 0

/-- A source's configuration returns to its reset values. -/
def resetSource (s : State) (n : Nat) : State :=
  let a := aEvcScfg + 4 * n
  let s1 := if fld (csrReset a) 24 3 = srcSense s n then s else setSrc s n { srcOf s n with fresh := true }
  [a, aEvcStgt + 4 * n, aEvcScoal + 4 * n].foldl (fun t r => setR t r (csrReset r)) s1

/-- The address of the event controller's register that a stalled access of `w` asks for, and its direction. -/
def evcAccess (s : State) (w : Who) : Option (Nat × Bool) :=
  match (getC s w).stall.bind (·.op) with
  | some (.read a) => if csrUnit a = 2 then some (a, false) else none
  | some (.write a _) => if csrUnit a = 2 then some (a, true) else none
  | _ => none

/-- What the one copy alone would send is sent (R210). Its offer stands until the controller's own choice for the coach changes. -/
def copySends (s : State) : CopySends → State
  | .wake c => sendWake s 6 c.toNat wkEVENT
  | .offer c n =>
    let k := coachOf s c.toNat
    if k.st = .ready ∨ k.st = .run then
      setCoach s c.toNat { k with offered := some (n.toNat, offerChoice s c.toNat) }
    else s
  | .fast => if fastEn s then sendFast s else s

/-- A difference between the copies, as it is repaired. -/
def copyDifference (s : State) : CopyDiff → State
  | .dynamic n =>
    let i := n.toNat
    if srcReserved i then s
    else noteDifference (putSrc s i { srcOf s i with pend := true, active := false, claimant := 0, coal := 0 }) false i
  | .config n => if srcReserved n.toNat then s else noteDifference (resetSource s n.toNat) true n.toNat
  | .output d => copySends (noteDifference s false 0) d
  | .response c =>
    let w := whoOf s c.toNat
    match evcAccess s w with
    | none => s
    | some (a, wr) =>
      let st := ((getC s w).stall.map (·.entry)).getD 0
      let s1 := modStall (dropTick (performSealed s w) w) w (fun u =>
        { u with fail := some { vec := vBUSERR, addr := u32 a, write := wr, info := finfo 4 st } })
      finishStall (noteDifference s1 false 0) w

/-- EVC_COPY_DIFFERENCE. -/
def execEvcCopyDifference (d : CopyDiff) (s : State) : Out := occurs (whenUp s (fun s => copyDifference s d))

end Sys2Proof.Machine
end

