-- ==== Sys2Proof/Machine/MilestoneOps.lean ====
section
/-! DEFINITION. The commands of milestone time, the ledger, the supervised outputs and the tamper mesh (spec/08), and of
the attack policy (spec/09 R256). -/

namespace Sys2Proof.Machine

/-! ### Milestone time (R213 to R219) -/

/-- MLS_TIME_LO, read on behalf of coach `c`. -/
def execMlsTimeLoRead (c : BitVec 10) (s : State) : Out := occurs (readAs s c aMlsTimeLo)

/-- MLS_LSTAMP_LO[n], read on behalf of coach `c`. -/
def execMlsLstampLoRead (c : BitVec 10) (n : BitVec 9) (s : State) : Out :=
  occurs (readAs s c (aMlsLstampLo + 8 * n.toNat))

/-- A write of MLS_CTL that sets the bits `m` and keeps DISC. -/
def mlsRequest (s : State) (c : BitVec 10) (m : Word) : State :=
  writeAs s c aMlsCtl ((getR s aMlsCtl &&& 4#32) ||| m)

/-- MLS_CTL.STEP. -/
def execStepTime (c : BitVec 10) (s : State) : Out := occurs (mlsRequest s c 1)

/-- MLS_CTL.STEPPPS. -/
def execSteppps (c : BitVec 10) (s : State) : Out := occurs (mlsRequest s c 2)

/-- MLS_CTL.ACQ. -/
def execAcq (c : BitVec 10) (s : State) : Out := occurs (mlsRequest s c 8)

/-- PPS_EDGE: an active edge whose active level lasted `width` ns. -/
def execPpsEdge (width : BitVec 30) (s : State) : Out := occurs (whenUp s (fun s => ppsEdge s width.toNat))

/-- PPS_HOLDOVER. -/
def execPpsHoldover (s : State) : Out := occurs (whenUp s holdover)

/-- TREF_REVERSED. -/
def execTrefReversed (s : State) : Out := occurs (whenUp s refReversed)

/-- TREF_OPEN_OR_SHORT. -/
def execTrefOpenOrShort (short : Bool) (s : State) : Out := occurs (whenUp s (fun s => refLost s short))

/-- MILESTONE_COUNTER_DIFFERENCE. -/
def execMilestoneCounterDifference (s : State) : Out := occurs (whenUp s counterDifference)

/-! ### Ledger (R221 to R225) -/

/-- LEDGER_RECORD_WRITE: `tries` are the retries of the four word writes. -/
def execLedgerRecordWrite (tries : Vector (Fin 6) 4) (s : State) : Out :=
  occurs (whenUp s (fun s => ledgerWrite s (tries.toList.map (·.val))))

/-- MLS_LCTL.INIT. -/
def execInitLedger (c : BitVec 10) (s : State) : Out := occurs (writeAs s c aMlsLctl 1)

/-- LEDGER_CLEAR_DONE. -/
def execLedgerClearDone (s : State) : Out := occurs (whenUp s ledgerClearDone)

/-- LEDGER_SEARCH_DONE. -/
def execLedgerSearchDone (s : State) : Out := occurs (whenUp s ledgerSearchDone)

/-- MLS_LSOFT. -/
def execMlsLsoftWrite (c : BitVec 10) (v : Word) (s : State) : Out := occurs (writeAs s c aMlsLsoft v)

/-! ### Supervised outputs and tamper mesh (R226 to R231) -/

/-- SVO_CMD. -/
def execSvoCmdWrite (c : BitVec 10) (v : Word) (s : State) : Out := occurs (writeAs s c aSvoCmd v)

/-- SVO_CTL.RELEASE. -/
def execSvoRelease (c : BitVec 10) (s : State) : Out := occurs (writeAs s c aSvoCtl 2)

/-- A dark pulse of channel `n` (R228). -/
def darkPulse (s : State) (n : Nat) : DarkPhase → State
  | .begin_ =>
    if padOn s n && bit (getR s (aSvoCfg + 4 * n)) 0 && s.mls.dark.isNone then
      modMls s (fun m => { m with dark := some n })
    else s
  | .check f => if s.mls.dark = some n then loopFaults s n f else s
  | .end_ => if s.mls.dark = some n then modMls s (fun m => { m with dark := none }) else s

/-- DARK_PULSE. -/
def execDarkPulse (n : Fin 4) (p : DarkPhase) (s : State) : Out := occurs (whenUp s (fun s => darkPulse s n.val p))

/-- OFF_SUPERVISION_FAULT: the check of a channel that is OFF finds `faults`. -/
def execOffSupervisionFault (n : Fin 4) (faults : BitVec 5) (s : State) : Out :=
  occurs (whenUp s (fun s => if padOn s n.val || s.mls.dark == some n.val then s else loopFaults s n.val faults))

/-- ENABLE_DISAGREEMENT. -/
def execEnableDisagreement (x : EnableLine) (s : State) : Out :=
  occurs (whenUp s (fun s => enableDisagreement s x.channel.val x.pos.val))

/-- TAMPER_MESH_CHECK. -/
def execTamperMeshCheck (bad short : BitVec 8) (s : State) : Out := occurs (whenUp s (fun s => meshCheck s bad short))

/-- POLICY_WINDOW_END. -/
def execPolicyWindowEnd (s : State) : Out := occurs (policyWindow s)

end Sys2Proof.Machine
end

