-- ==== Sys2Proof/Machine/LaneOps.lean ====
section
/-! DEFINITION. The commands of the lanes and the Keystone (spec/09) and of the microstore (spec/10). -/

namespace Sys2Proof.Machine

/-! ### Mismatches and checkpoints (R236 to R243) -/

/-- The lane at a position is marked for an input divergence (R241). -/
def markedAt (s : State) (pos : Nat) : Bool :=
  match laneAt s pos with
  | some n => isMarked s n
  | none => false

/-! The groups of the bus-output bits (R235). -/

def outGroup (x : BitVec 176) (lo n : Nat) : Nat := x.toNat / 2 ^ lo % 2 ^ n
def outChk (x : BitVec 176) : Bool := x.getLsbD 175
def outXfer (x : BitVec 176) : Nat := outGroup x 169 6
def outIpc (x : BitVec 176) : Nat := outGroup x 143 26
def outCoach (x : BitVec 176) : Nat := outGroup x 133 10
def outRing (x : BitVec 176) : Nat := outGroup x 131 2
def outTgen (x : BitVec 176) : Nat := outGroup x 127 4
def outTref (x : BitVec 176) : Nat := outGroup x 115 12
def outBe (x : BitVec 176) : Nat := outGroup x 107 8
def outWdata (x : BitVec 176) : Nat := outGroup x 43 64
def outAddr (x : BitVec 176) : Nat := outGroup x 11 32
def outSealed (x : BitVec 176) : Bool := x.getLsbD 10
def outFill (x : BitVec 176) : Bool := x.getLsbD 9
def outSize (x : BitVec 176) : Nat := outGroup x 7 2
def outCmd (x : BitVec 176) : Nat := outGroup x 1 6
def outValid (x : BitVec 176) : Bool := x.getLsbD 0

/-- The outputs of a position. -/
def outputAt (o : Outputs) (p : Nat) : BitVec 176 := if p = 0 then o.a else if p = 1 then o.b else o.c

/-- The output the Keystone votes (R235): the bitwise majority in TRIPLEX; of two copies, that of the reference lane while
the other is marked (R241), else that of the lower position. -/
def votedOutput (s : State) (o : Outputs) : BitVec 176 :=
  if s.lnc.set == .triplex then (o.a &&& o.b) ||| (o.a &&& o.c) ||| (o.b &&& o.c)
  else outputAt o (((occupied s).find? (fun p => !markedAt s p)).getD ((occupied s).headD 0))

/-- The occupied positions whose outputs differ from the voted value, lowest first (R236). -/
def differing (s : State) (o : Outputs) : List Nat := (occupied s).filter (fun p => outputAt o p != votedOutput s o)

/-- The lowest bit in which two copies differ. -/
def lowestBit {w : Nat} (x y : BitVec w) : Nat := ((List.range w).find? (fun i => x.getLsbD i != y.getLsbD i)).getD 0

/-- The bits in which some copy differs from the voted value. -/
def diffBits (s : State) (o : Outputs) : BitVec 176 :=
  (occupied s).foldl (fun x p => x ||| (outputAt o p ^^^ votedOutput s o)) 0

/-- What the Keystone makes of a difference among the outputs (R236, R241 to R243). The coach is that of the voted output, or of
the lowest copy that differs where the Keystone cannot resolve them. The position logged for two copies that differ is the lower
of the two. -/
def compareOutputs (s : State) (o : Outputs) : State :=
  if !issuing s then s
  else match differing s o with
  | [] => s
  | p :: r =>
    if (p :: r).all (markedAt s) then resyncMarked s ((p :: r).filterMap (laneAt s))
    else if s.lnc.set == .triplex && r.isEmpty then oddLane s p (lowestBit (outputAt o p) (votedOutput s o)) (outCoach (votedOutput s o))
    else
      let q := if s.lnc.set == .triplex then p else (occupied s).headD 0
      unresolved s q (lowestBit (diffBits s o) 0) (outCoach (outputAt o q))

/-- OUTPUT_MISMATCH: what the positions present in one cycle. -/
def execOutputMismatch (a b c : BitVec 176) (s : State) : Out := occurs (compareOutputs s ⟨a, b, c⟩)

/-- UNRESOLVED_MISMATCH: the same of outputs that the Keystone cannot resolve. -/
def execUnresolvedMismatch (a b c : BitVec 176) (s : State) : Out := occurs (compareOutputs s ⟨a, b, c⟩)

/-- A checkpoint of coach `c` (R237, R238, R241): `diff` is a position whose signature differs, and the lowest differing
bit. Of two signatures that differ, the lower position is logged. Free lanes take none (R253). -/
def checkpoint (s : State) (c : Nat) (diff : Option (Nat × Nat)) : State :=
  if !issuing s || laneOfCoach s c != 0 then s
  else
    let due := (s.lnc.marks.filter (fun m => m.2 == c)).map (·.1)
    let s1 := modLnc s (fun l => { l with sig := signature s c })
    let s2 := match diff with
      | none => s1
      | some (pos, b) =>
        if (laneAt s1 pos).isNone then s1
        else if s.lnc.set == .triplex then (if markedAt s1 pos then s1 else latent s1 pos b c)
        else if (occupied s1).any (markedAt s1) then s1
        else unresolved s1 ((occupied s1).headD 0) (176 + b) c
    if due.isEmpty then s2 else resyncMarked s2 due

/-- CHECKPOINT. -/
def execCheckpoint (c : BitVec 10) (diff : Option (Fin 3 × Fin 64)) (s : State) : Out :=
  occurs (checkpoint s c.toNat (diff.map (fun d => (d.1.val, d.2.val))))

/-- PARTIAL_RESYNC. -/
def execPartialResync (s : State) : Out := occurs (partialResync s)

/-- LANE_JOIN. -/
def execLaneJoin (s : State) : Out := occurs (laneJoin s)

/-! ### Self-tests, rotation, comparator tests, oscillators (R245 to R251) -/

/-- LANE_SELF_TEST_END. -/
def execLaneSelfTestEnd (n : Fin 4) (pass : Bool) (s : State) : Out :=
  occurs (whenUp s (fun s => selfTestEnd s n.val pass))

/-- ROTATION_DUE. -/
def execRotationDue (s : State) : Out :=
  occurs (whenUp s (fun s => tryRotate (modLnc s (fun l => { l with rotDue := true }))))

/-- COMPARATOR_INJECTION. -/
def execComparatorInjection (pass : Bool) (s : State) : Out := occurs (injection s pass)

/-- OSCILLATOR_FAULT. -/
def execOscillatorFault (n : Fin 3) (s : State) : Out := occurs (oscillator s n.val)

/-- OSCILLATOR_REENABLE. -/
def execOscillatorReenable (n : Fin 3) (s : State) : Out := occurs (whenUp s (fun s => oscReturn s n.val))

/-- ON_DEMAND_OSCILLATOR_STOP (R116). -/
def execOnDemandOscillatorStop (s : State) : Out := occurs (modPwr s (fun p => { p with osc := false }))

/-- HANDOVER_TO_PAIRED: a write of 1 to LNC_MODE.PAIRED. -/
def execHandoverToPaired (c : BitVec 10) (s : State) : Out := occurs (writeAs s c aLncMode 1)

/-- HANDOVER_TO_VOTED: a write of 0. -/
def execHandoverToVoted (c : BitVec 10) (s : State) : Out := occurs (writeAs s c aLncMode 0)

/-- LNC_RETEST. -/
def execLncRetest (c : BitVec 10) (v : Word) (s : State) : Out := occurs (writeAs s c aLncRetest v)

/-- LNC_ROTREQ.NOW. -/
def execLncRotreq (c : BitVec 10) (s : State) : Out := occurs (writeAs s c aLncRotreq 1)

/-! ### Microstore (R262 to R268) -/

/-- MCS_SADDR with RD 0: a staging write. -/
def execMcsStageWrite (c : BitVec 10) (region : Bool) (index : BitVec 11) (s : State) : Out :=
  occurs (writeAs s c aMcsSaddr (u32 (b2n region * 2 ^ 16 + index.toNat)))

/-- MCS_SADDR with RD 1: a staging read. -/
def execMcsStageRead (c : BitVec 10) (region : Bool) (index : BitVec 11) (s : State) : Out :=
  occurs (writeAs s c aMcsSaddr (u32 (2 ^ 31 + b2n region * 2 ^ 16 + index.toNat)))

/-- MCS_CTL.VCLR or CCLR. -/
def execMcsClear (c : BitVec 10) (region : Bool) (s : State) : Out :=
  occurs (writeAs s c aMcsCtl (if region then 8 else 4))

/-- STAGED_CLEAR_DONE. -/
def execStagedClearDone (region : Bool) (s : State) : Out := occurs (stageClearDone s region)

/-- MCS_STAGED or MCS_CSTAGED. -/
def execMcsStagedWrite (c : BitVec 10) (region : Bool) (v : Word) (s : State) : Out :=
  occurs (writeAs s c (aStagedId region) v)

/-- MCS_CTL.VSDIG or CSDIG. -/
def execMcsStagedDigest (c : BitVec 10) (region : Bool) (s : State) : Out :=
  occurs (writeAs s c aMcsCtl (if region then 0x20 else 0x10))

/-- DIGEST_DONE. -/
def execDigestDone (s : State) : Out := occurs (whenUp s digestDone)

/-- MCS_CTL.VSWITCH or CSWITCH. -/
def execMcsSwitch (c : BitVec 10) (region : Bool) (s : State) : Out :=
  occurs (writeAs s c aMcsCtl (if region then 2 else 1))

/-- MICROCODE_EXCHANGE. -/
def execMicrocodeExchange (s : State) : Out := occurs (exchange s)

end Sys2Proof.Machine
end

