-- ==== Sys2Proof/Machine/StoreOps.lean ====
section
/-! DEFINITION. The commands of the memory banks (spec/11), the stele store and calibration (spec/12) and the flash
interface (spec/13). -/

namespace Sys2Proof.Machine

/-! ### Banks -/

/-- BANK_E_RETRY: an attempt of an E-port access (R280). -/
def execBankERetry (x : EAccess) (s : State) : Out :=
  occurs (whenUp s (fun s => ePort s x.bank.val x.word.toNat x.write x.rival x.upset))

/-- ECC_WRITEBACK (R283). -/
def execEccWriteback (n : Fin 33) (w : BitVec 13) (s : State) : Out := occurs (writeBack s n.val w.toNat)

/-- SCRUB_READ (R284). -/
def execScrubRead (n : Fin 33) (upset : Upset) (s : State) : Out := occurs (scrubRead s n.val upset)

/-- BNK_OWNER[n]. -/
def execBnkOwnerWrite (c : BitVec 10) (n : Fin 32) (v : Word) (s : State) : Out :=
  occurs (writeAs s c (aBnkOwner + 4 * n.val) v)

/-- HANDING_END. -/
def execHandingEnd (n : Fin 32) (s : State) : Out := occurs (handingEnd s n.val)

/-- WIPE_END. -/
def execWipeEnd (n : Fin 32) (s : State) : Out := occurs (wipeEnd s n.val)

/-- BNK_PWR[n]. -/
def execBnkPwrWrite (c : BitVec 10) (n : Fin 33) (v : Word) (s : State) : Out :=
  occurs (writeAs s c (aBnkPwr + 4 * n.val) v)

/-- BANK_POWER_TRANSITION_END. -/
def execBankPowerTransitionEnd (n : Fin 33) (s : State) : Out := occurs (whenUp s (fun s => powerEnd s n.val))

/-- BNK_SPARE.GO: replace bank `n`. -/
def execSpareGo (c : BitVec 10) (n : Fin 32) (s : State) : Out :=
  occurs (writeAs s c aBnkSpare (u32 (2 ^ 31 + n.val * 2 ^ 16)))

/-- BNK_SPARE.ABORT. -/
def execSpareAbort (c : BitVec 10) (s : State) : Out := occurs (writeAs s c aBnkSpare ((getR s aBnkSpare &&& 0x1F0000#32) ||| 0x40000000#32))

/-- SPARE_COPY_WORD. -/
def execSpareCopyWord (upset : Upset) (s : State) : Out := occurs (whenUp s (fun s => spareCopyWord s upset))

/-- SPARE_SWITCH. -/
def execSpareSwitch (s : State) : Out := occurs (whenUp s spareSwitch)

/-! ### Stele, configuration and calibration -/

/-- ROW_REMAP: the copy of the next weak row (R304 step 1). -/
def execRowRemap (s : State) : Out := occurs (whenUp s remapCopy)

/-- REMAP_COMMIT (R304 step 2). -/
def execRemapCommit (s : State) : Out := occurs (whenUp s remapCommit)

/-- CFG_CTL.SCAN. -/
def execScanCfg (c : BitVec 10) (s : State) : Out := occurs (writeAs s c aCfgCtl 1)

/-- SCAN_DONE. -/
def execScanDone (s : State) : Out := occurs (whenUp s scanDone)

/-- CAL_CTL.APPLYA or APPLYB. -/
def execApplyCal (c : BitVec 10) (b : Bool) (s : State) : Out := occurs (writeAs s c aCalCtl (if b then 2 else 1))

/-- CAL_CTL.RESTORE; `tries` are the retries that the writes of the restore it starts will need (R299). -/
def execRestoreCal (c : BitVec 10) (tries : Vector (Fin 6) 11) (s : State) : Out :=
  let t := writeAs s c aCalCtl 4
  occurs (if s.stl.restore.isNone && t.stl.restore.isSome then
    { t with stl := { t.stl with tries := tries.toList.map (·.val) } } else t)

/-- TRIM_STEP (R312, R313). -/
def execTrimStep (s : State) : Out := occurs (whenUp s trimStep)

/-! ### Flash commands (R323, R324) -/

/-- One store of `n` bytes into the flash window on behalf of who issues; the answer says whether it was accepted. A
refused store completes with status 3, which is imprecise (R48). -/
def flashCycle (x : Iss) (off n v : Nat) : M Bool := do
  let a := flashBase + off
  let _ ← checkAccess x (u32 a) n true
  let s ← get
  let refused := fun (t : State) => deliverItem t x.who (failItem a 3 (finfo n 0) true)
  if unitSt s 1 = 0 ∨ unitSt s 1 = 3 then do
    set (refused s)
    pure false
  else if unitSt s 1 = 1 then holdFor (.unit 1)
  else
    match flashStore s ⟨numOf s x.who, ringOf (getC s x.who), x.unver, a, n, v⟩ with
    | (t, 0) => do
      set t
      pure true
    | (t, _) => do
      set (refused t)
      pure false

/-- The cycles of a command in order, up to the first that is refused. -/
def flashCycles (x : Iss) : List (Nat × Nat × Nat) → M Unit
  | [] => pure ()
  | (off, n, v) :: r => do
    let ok ← flashCycle x off n v
    if ok then flashCycles x r else pure ()

/-- PROGRAM: the data store of 2^size bytes at window offset `addr`. -/
def execProgramFlash (c : BitVec 10) (addr : BitVec 26) (size : Fin 4) (v : DWord) (s : State) : Out :=
  let n := 2 ^ size.val
  occurs (onBehalf s c (fun x =>
    flashCycles x [(0xAAC, 1, 0xC3), (0x552, 1, 0x3C), (0xAAC, 1, 0xA5), (addr.toNat, n, v.toNat % 256 ^ n)]))

/-- SECTOR ERASE: the confirm cycle at window offset `addr`. -/
def execSectorErase (c : BitVec 10) (addr : BitVec 26) (s : State) : Out :=
  occurs (onBehalf s c (fun x =>
    flashCycles x [(0xAAC, 1, 0xC3), (0x552, 1, 0x3C), (0xAAC, 1, 0x5A), (addr.toNat, 1, 0x30)]))

/-- SUSPEND. -/
def execSuspendErase (c : BitVec 10) (addr : BitVec 26) (s : State) : Out :=
  occurs (onBehalf s c (fun x => flashCycles x [(addr.toNat, 1, 0xB0)]))

/-- RESUME. -/
def execResumeErase (c : BitVec 10) (addr : BitVec 26) (s : State) : Out :=
  occurs (onBehalf s c (fun x => flashCycles x [(addr.toNat, 1, 0x3D)]))

/-- SEQUENCE_TIMEOUT: the open sequence is closed. -/
def execSequenceTimeout (s : State) : Out := occurs (modFli s (fun f => { f with seq := none }))

/-! ### Flash engine (R318 to R333, R376) -/

/-- FLASH_LINE_READ: a demand read of line `line` of the window, which finds `upset` in its first word. -/
def execFlashLineRead (line : BitVec 21) (target : Bool) (upset : Upset) (s : State) : Out :=
  occurs (whenUp s (fun s =>
    if unitSt s 1 ≠ 2 then s
    else
      let a := flashBase + 32 * line.toNat
      (flashServe (upsetEcc s a upset) (lineOf a) target).1))

/-- PREFETCH_READ. -/
def execPrefetchRead (s : State) : Out := occurs (whenUp s (fun s => if unitSt s 1 = 2 then prefetchRead s else s))

/-- SUSPEND_ISSUE: the erase has run for FLI_MINRUN, and the suspend it owes is issued (R332). -/
def execSuspendIssue (s : State) : Out :=
  occurs (if s.fli.want && eraseRunning s && !s.fli.going then
    modFli s (fun f => { f with want := false, going := true }) else s)

/-- READ_SUSPEND_RESUME: 2 µs without a demand read; the erase goes on unless software suspended it (R332). -/
def execReadSuspendResume (s : State) : Out := occurs (if s.fli.susp && !s.fli.swsus then eraseResume s else s)

/-- MACRO_DONE. -/
def execMacroDone (pass : Bool) (s : State) : Out := occurs (whenUp s (fun s => macroDone s pass))

/-- MACRO_STEP_TIMEOUT. -/
def execMacroStepTimeout (s : State) : Out := occurs (whenUp s macroTimeout)

/-- The stele writes the erase's entry of the journal with `retries` retries: BEGIN, or at its end DONE or FAILED (R326
steps 2 and 5). -/
def journalWrite (s : State) (retries : Nat) : State :=
  match s.fli.era with
  | some o =>
    match (if o.begin_ then some 0x5B else s.fli.fin), holdup s with
    | some kind, false =>
      let (t, ok) := steleWord s (journalAddr o.slot) (journalWord kind o.seq ((o.addr - flashBase) / 4096)) retries
      flushLate (journalDone t ok)
    | _, _ => s
  | none => s

/-- JOURNAL_WRITE_DONE. -/
def execJournalWriteDone (retries : Fin 6) (s : State) : Out := occurs (whenUp s (fun s => journalWrite s retries.val))

/-- FLI_CTL.INV. -/
def execInvFlash (c : BitVec 10) (s : State) : Out := occurs (writeAs s c aFliCtl 1)

end Sys2Proof.Machine
end

