-- ==== Sys2Proof/Machine/EngineOps.lean ====
section
/-! DEFINITION. The commands of the big-number engine (spec/14): the end of each operation in the slot group whose lowest
slot is `b`, aborts, curve checks, key loads and zeroisation. -/

namespace Sys2Proof.Machine

/-- The operation with code `op` in group `b` ends; a submission that waited for the engine may follow. -/
def engineRow (s : State) (b : Fin 8) (op : Nat) : Out := occurs (whenUp s (fun s => pumpEngine (engineEnd s b.val op)))

/-- MODADD (R340). -/
def execModadd (b : Fin 8) (s : State) : Out := engineRow s b 0x01

/-- MODSUB (R340). -/
def execModsub (b : Fin 8) (s : State) : Out := engineRow s b 0x02

/-- MODMUL (R340). -/
def execModmul (b : Fin 8) (s : State) : Out := engineRow s b 0x03

/-- MODINV (R340). -/
def execModinv (b : Fin 8) (s : State) : Out := engineRow s b 0x04

/-- MODEXP (R340). -/
def execModexp (b : Fin 8) (s : State) : Out := engineRow s b 0x05

/-- RSACRT (R340). -/
def execRsacrt (b : Fin 8) (s : State) : Out := engineRow s b 0x06

/-- ECMUL (R340). -/
def execEcmul (b : Fin 8) (s : State) : Out := engineRow s b 0x10

/-- ECMULG (R340). -/
def execEcmulg (b : Fin 8) (s : State) : Out := engineRow s b 0x11

/-- ONCURVE (R340). -/
def execOncurve (b : Fin 8) (s : State) : Out := engineRow s b 0x12

/-- XMUL (R340). -/
def execXmul (b : Fin 8) (s : State) : Out := engineRow s b 0x13

/-- ECDSAVER (R340). -/
def execEcdsaver (b : Fin 8) (s : State) : Out := engineRow s b 0x14

/-- ECDSASIGN (R340). -/
def execEcdsasign (b : Fin 8) (s : State) : Out := engineRow s b 0x15

/-- ECDH (R340). -/
def execEcdh (b : Fin 8) (s : State) : Out := engineRow s b 0x16

/-- KEYGEN (R340). -/
def execKeygen (b : Fin 8) (s : State) : Out := engineRow s b 0x17

/-- ECPUB (R340). -/
def execEcpub (b : Fin 8) (s : State) : Out := engineRow s b 0x18

/-- KEYCLR (R340). -/
def execKeyclr (b : Fin 8) (s : State) : Out := engineRow s b 0x19

/-- The random generator of an engine that is ON has failed its health test (R337). -/
def rngFails (s : State) (rng : Bool) : State :=
  if rng && unitSt s 0 == 2 then modBne s (fun e => { e with rngerr := true }) else s

/-- ENGINE_OPERATION_COMPLETE: correctly, or with a FAULT of the given cause (R339); `rng`: by then the random generator
has failed its health test. -/
def execEngineOperationComplete (b : Fin 8) (fault : Option (Fin 3)) (rng : Bool) (s : State) : Out :=
  occurs (whenUp s (fun s => pumpEngine (engineEndAny (rngFails s rng) b.val (fault.map (·.val)))))

/-- BNE_CLOAD. -/
def execBneCloadWrite (c : BitVec 10) (v : Word) (s : State) : Out := occurs (writeAs s c aBneCload v)

/-- CURVE_CHECK_DONE (R350). -/
def execCurveCheckDone (s : State) : Out := occurs (whenUp s curveDone)

/-- ZEROISATION begins (R353). -/
def execZeroisation (s : State) : Out := occurs (whenUp s zeroise)

/-- ZEROISATION_DONE (R353). -/
def execZeroisationDone (s : State) : Out := occurs (whenUp s zeroiseDone)

/-- ABORT_COMPLETE (R347). -/
def execAbortComplete (b : Fin 8) (s : State) : Out := occurs (whenUp s (fun s => pumpEngine (abortDone s b.val)))

end Sys2Proof.Machine
end

