-- ==== Sys2Proof/Machine/PowerOps.lean ====
section
/-! DEFINITION. The commands of the block boundary (spec/15): supply and sensors, clocks, reset, switchable units, the
host port, lifecycle and test wrapper. -/

namespace Sys2Proof.Machine

/-! ### Supply, sensors and clocks (R357, R361) -/

/-- POWER_ON: VBLK has been above 1.60 V for 1 ms. To a running block it is a supply that was away. -/
def execPowerOn (s : State) : Out := occurs (powerGood (if s.up then resetBlock s 1 else s))

/-- BROWNOUT. -/
def execBrownout (s : State) : Out := occurs (resetBlock s 2)

/-- EARLY_WARNING. -/
def execEarlyWarning (s : State) : Out := occurs (earlyWarning s)

/-- EARLY_WARNING_CLEAR. -/
def execEarlyWarningClear (s : State) : Out := occurs (earlyClear s)

/-- GLITCH. -/
def execGlitch (s : State) : Out := occurs (sensorAlarm s 2 0)

/-- RAIL. -/
def execRailFault (s : State) : Out := occurs (sensorAlarm s 6 0)

/-- LIGHT. -/
def execLightAlarm (s : State) : Out := occurs (sensorAlarm s 5 16)

/-- TEMPERATURE_CROSSING. -/
def execTemperatureCrossing (low : Bool) (s : State) : Out := occurs (temperature s low)

/-- REFCLK_FAULT. -/
def execRefclkFault (s : State) : Out := occurs (refclkFault s)

/-- REFCLK_RETURN. -/
def execRefclkReturn (s : State) : Out := occurs (clockReturn s 0)

/-- HOST_CLOCK_FAULT: of HCLK, or of FM_CLK. -/
def execHostClockFault (flash : Bool) (s : State) : Out := occurs (clockFault s (if flash then 2 else 1))

/-- HOST_CLOCK_RETURN. -/
def execHostClockReturn (flash : Bool) (s : State) : Out := occurs (clockReturn s (if flash then 2 else 1))

/-- SECOND_OSCILLATOR_FAULT: while one oscillator is disabled. -/
def execSecondOscillatorFault (s : State) : Out := occurs (if oscOff s = 0 then s else secondFault s)

/-- The write of CLK_LANE that replaces one of its two codes. -/
def clkLane (s : State) (c : BitVec 10) (lo : Nat) (code : BitVec 3) : State :=
  writeAs s c aClkLane (setFld (getR s aClkLane &&& 0x77#32) lo 3 code.toNat)

/-- CLK_LANE.LSET. -/
def execClkLaneLset (c : BitVec 10) (code : BitVec 3) (s : State) : Out := occurs (clkLane s c 0 code)

/-- CLK_LANE.FREE. -/
def execClkLaneFree (c : BitVec 10) (code : BitVec 3) (s : State) : Out := occurs (clkLane s c 4 code)

/-! ### Reset and units (R362 to R371) -/

/-- RSTB_N. -/
def execRstbN (s : State) : Out := occurs (resetBlock s 3)

/-- ZW_GCAUSE.SWRST. -/
def execSwrst (c : BitVec 10) (s : State) : Out := occurs (writeAs s c aZwGcause 0x5AFE)

/-- RESET_RELEASE. -/
def execResetRelease (x : StartUp) (s : State) : Out := occurs (release s x)

/-- PWR_UNIT[u]. -/
def execPwrUnitWrite (c : BitVec 10) (u : Fin 3) (v : Word) (s : State) : Out :=
  occurs (writeAs s c (aPwrUnit + 4 * u.val) v)

/-- UNIT_TRANSITION_END. -/
def execUnitTransitionEnd (u : Fin 3) (s : State) : Out := occurs (whenUp s (fun s => pumpEngine (unitEnd s u.val)))

/-- ZW_LIFECYCLE. -/
def execZwLifecycleWrite (c : BitVec 10) (v : Word) (s : State) : Out := occurs (writeAs s c aZwLifecycle v)

/-! ### Host port (R372 to R375) -/

/-- READ. -/
def execHostRead (addr : Word) (tag : BitVec 12) (r : Option Rival) (upset : Upset) (s : State) : Out :=
  occurs (inbound s tag.toNat (fun t => hostRead t addr.toNat r upset))

/-- WRITE. -/
def execHostWrite (addr : Word) (be : BitVec 8) (d : DWord) (tag : BitVec 12) (r : Option Rival) (upset : Upset)
    (s : State) : Out :=
  occurs (inbound s tag.toNat (fun t => hostWrite t addr.toNat be d r upset))

/-- RELEASE. -/
def execReleaseBank (addr : Word) (tag : BitVec 12) (s : State) : Out :=
  occurs (inbound s tag.toNat (fun t => releaseReq t addr.toNat))

/-- DOORBELL. -/
def execDoorbell (d : DWord) (tag : BitVec 12) (s : State) : Out :=
  occurs (inbound s tag.toNat (fun t => doorbellReq t d))

/-- A response on the MS channel. -/
def execHostResponse (tag : BitVec 12) (stat : BitVec 2) (d : DWord) (s : State) : Out :=
  occurs (whenUp s (fun s => hostResponse s tag.toNat stat.toNat d))

/-- HOST_BUSY_RESEND. -/
def execHostBusyResend (tag : BitVec 12) (s : State) : Out := occurs (hostResend s tag.toNat)

/-! ### Test wrapper (R378) -/

/-- Load a wrapper instruction; when it is admitted, `f` is its operation. -/
def wrapper (s : State) (code : Nat) (f : State → State) : Out :=
  occurs (match loadWir s code with
    | (t, true) => f t
    | (t, false) => t)

/-- The wrapper's data register takes a value. -/
def setWdr (s : State) (d : DWord) : State := modPwr s (fun p => { p with wdr := d })

/-- WS_BYPASS, loaded by its code 0 or by a reserved one, which operates as it and sets WDENY. The codes of the other
instructions are their own rows'. -/
def execWsBypass (s : State) (code : BitVec 8 := 0) : Out :=
  wrapper s (if code.toNat < 8 then 0 else code.toNat) id

/-- WS_IDCODE: ZW_REVISION, then ZW_IDENT. -/
def execWsIdcode (s : State) : Out :=
  wrapper s 1 (fun t => setWdr t (mkD (getR t aZwIdent) (0x00020100#32 ||| Config.fixRev.zeroExtend 32)))

/-- WS_EXTEST: the boundary register drives the signals of R355 in place of the block. -/
def execWsExtest (s : State) : Out := wrapper s 2 id

/-- WS_INTEST: the internal scan chains. -/
def execWsIntest (s : State) : Out := wrapper s 3 id

/-- WS_MBIST: memory self-test. -/
def execWsMbist (s : State) : Out := wrapper s 4 id

/-- WS_STATUS: ZW_GCAUSE, then ZW_LIFECYCLE. -/
def execWsStatus (s : State) : Out := wrapper s 5 (fun t => setWdr t (mkD (getR t aZwLifecycle) (gcauseWord t)))

/-- WS_L3: the data register takes `d`, and an L3 entry is requested at coach 0's next boundary (R181). -/
def execWsL3 (d : DWord) (s : State) : Out :=
  wrapper s 6 (fun t => modC (setWdr t d) (.coach 0) (fun c => { c with l3Req := true }))

/-- Direct stele access to word `w` (R378): a write of `d` with its retries, or a read into the data register. A write that
may not start waits (R301). -/
def steleDirect (s : State) (w : Nat) (d : Option (DWord × Fin 6)) : State :=
  let a := steleBase + 8 * w
  match d with
  | some (v, retries) =>
    if holdup s || !mayKeystone s then lateWrite s ⟨a, 8, true, false, v.toNat⟩
    else (steleWord (tookTurn (clearTurn s) true) a v.toNat retries.val).1
  | none =>
    match steleRead s a 8 with
    | (t, 0, x) => setWdr t (BitVec.ofNat 64 x)
    | (t, _, _) => t

/-- WS_STELE. -/
def execWsStele (w : BitVec 15) (d : Option (DWord × Fin 6)) (s : State) : Out :=
  wrapper s 7 (fun t => steleDirect t w.toNat d)

/-- WRSTN resets the wrapper only. -/
def execWrstn (s : State) : Out := occurs (setWir s 0)

end Sys2Proof.Machine
end

