-- ==== Sys2Proof/Machine/RegOps.lean ====
section
/-! DEFINITION. The register commands of the coach scheduler and the rings (spec/05, spec/06), the general register write
and read (R12 to R16, R104), and the miss fill of the instruction cache (R121). -/

namespace Sys2Proof.Machine

/-- CSH_HALTREQ. -/
def execCshHaltreq (c : BitVec 10) (v : Word) (s : State) : Out := occurs (writeAs s c aCshHaltreq v)

/-- CSH_RESUME. -/
def execCshResume (c : BitVec 10) (v : Word) (s : State) : Out := occurs (writeAs s c aCshResume v)

/-- CSH_FASTCFG. -/
def execCshFastcfgWrite (c : BitVec 10) (v : Word) (s : State) : Out := occurs (writeAs s c aCshFastcfg v)

/-- RNG_GCOMMIT. -/
def execRngGcommit (c : BitVec 10) (v : Word) (s : State) : Out := occurs (writeAs s c aRngGcommit v)

/-- RNG_CTL.SVC. -/
def execSvc (c : BitVec 10) (s : State) : Out := occurs (writeAs s c aRngCtl 1)

/-- RNG_LOCK.VTLOCK. -/
def execVtlock (c : BitVec 10) (s : State) : Out := occurs (writeAs s c aRngLock 1)

/-- RNG_LOCK.GTLOCK. -/
def execGtlock (c : BitVec 10) (s : State) : Out := occurs (writeAs s c aRngLock 2)

/-- The checks of a 32-bit access to control space before its register's own (R385). -/
def csrSpace (x : Iss) (a : Word) (write : Bool) : M Unit := do
  let r ← checkAccess x a 4 write
  if r = .csr then pure () else raiseAt vACCESS a 4 write

/-- A write of any register on behalf of coach `c`. -/
def execRegisterWrite (c : BitVec 10) (addr v : Word) (s : State) : Out :=
  occurs (onBehalf s c (fun x => do
    csrSpace x addr true
    csrStore x addr.toNat v))

/-- A read of any register on behalf of coach `c`; the word read appears in `bus`. -/
def execRsRead (c : BitVec 10) (addr : Word) (s : State) : Out :=
  occurs (onBehalf s c (fun x => do
    csrSpace x addr false
    let v ← csrLoad x addr.toNat
    modify (fun t => { t with bus := v })))

/-- MISS_FILL of lane set `l`. -/
def execMissFill (l : Fin 3) (upset : Upset) (s : State) : Out := occurs (missFill s l upset)

end Sys2Proof.Machine
end

