-- ==== Sys2Proof/Machine/Dispatch.lean ====
section
/-! DEFINITION. The effect of each command on everything but the queue: one arm per constructor. -/

namespace Sys2Proof.Machine

/-- The effect of a command. -/
def exec (i : Instr) (s : State) : Host.Outcome State Fault Refusal :=
  match i with
  | .lit l n => Sys2Proof.Machine.execLit l n s
  | .lit8 l imm => Sys2Proof.Machine.execLit8 l imm s
  | .lit16 l imm => Sys2Proof.Machine.execLit16 l imm s
  | .lit32 l imm => Sys2Proof.Machine.execLit32 l imm s
  | .lit16u l imm => Sys2Proof.Machine.execLit16u l imm s
  | .dup l => Sys2Proof.Machine.execDup l s
  | .drop l => Sys2Proof.Machine.execDrop l s
  | .swap l => Sys2Proof.Machine.execSwap l s
  | .over l => Sys2Proof.Machine.execOver l s
  | .rot l => Sys2Proof.Machine.execRot l s
  | .nip l => Sys2Proof.Machine.execNip l s
  | .tuck l => Sys2Proof.Machine.execTuck l s
  | .pick l => Sys2Proof.Machine.execPick l s
  | .depth l => Sys2Proof.Machine.execDepth l s
  | .toR l => Sys2Proof.Machine.execToR l s
  | .rFrom l => Sys2Proof.Machine.execRFrom l s
  | .rFetch l => Sys2Proof.Machine.execRFetch l s
  | .twoDup l => Sys2Proof.Machine.execTwoDup l s
  | .twoDrop l => Sys2Proof.Machine.execTwoDrop l s
  | .twoSwap l => Sys2Proof.Machine.execTwoSwap l s
  | .rdrop l => Sys2Proof.Machine.execRdrop l s
  | .add l => Sys2Proof.Machine.execAdd l s
  | .sub l => Sys2Proof.Machine.execSub l s
  | .adc l => Sys2Proof.Machine.execAdc l s
  | .sbc l => Sys2Proof.Machine.execSbc l s
  | .neg l => Sys2Proof.Machine.execNeg l s
  | .mul l => Sys2Proof.Machine.execMul l s
  | .mulh l => Sys2Proof.Machine.execMulh l s
  | .mulhu l => Sys2Proof.Machine.execMulhu l s
  | .div l => Sys2Proof.Machine.execDiv l s
  | .divu l => Sys2Proof.Machine.execDivu l s
  | .mod l => Sys2Proof.Machine.execMod l s
  | .modu l => Sys2Proof.Machine.execModu l s
  | .divisionComplete l => Sys2Proof.Machine.execDivisionComplete l s
  | .inc l => Sys2Proof.Machine.execInc l s
  | .dec l => Sys2Proof.Machine.execDec l s
  | .abs l => Sys2Proof.Machine.execAbs l s
  | .andOp l => Sys2Proof.Machine.execAnd l s
  | .orOp l => Sys2Proof.Machine.execOr l s
  | .xorOp l => Sys2Proof.Machine.execXor l s
  | .notOp l => Sys2Proof.Machine.execNot l s
  | .shl l => Sys2Proof.Machine.execShl l s
  | .shr l => Sys2Proof.Machine.execShr l s
  | .sar l => Sys2Proof.Machine.execSar l s
  | .rol l => Sys2Proof.Machine.execRol l s
  | .ror l => Sys2Proof.Machine.execRor l s
  | .clz l => Sys2Proof.Machine.execClz l s
  | .ffs l => Sys2Proof.Machine.execFfs l s
  | .popc l => Sys2Proof.Machine.execPopc l s
  | .bswap l => Sys2Proof.Machine.execBswap l s
  | .sxb l => Sys2Proof.Machine.execSxb l s
  | .sxh l => Sys2Proof.Machine.execSxh l s
  | .andn l => Sys2Proof.Machine.execAndn l s
  | .eq l => Sys2Proof.Machine.execEq l s
  | .ne l => Sys2Proof.Machine.execNe l s
  | .lt l => Sys2Proof.Machine.execLt l s
  | .le l => Sys2Proof.Machine.execLe l s
  | .gt l => Sys2Proof.Machine.execGt l s
  | .ge l => Sys2Proof.Machine.execGe l s
  | .ltu l => Sys2Proof.Machine.execLtu l s
  | .leu l => Sys2Proof.Machine.execLeu l s
  | .gtu l => Sys2Proof.Machine.execGtu l s
  | .geu l => Sys2Proof.Machine.execGeu l s
  | .eq0 l => Sys2Proof.Machine.execEq0 l s
  | .ne0 l => Sys2Proof.Machine.execNe0 l s
  | .lt0 l => Sys2Proof.Machine.execLt0 l s
  | .gt0 l => Sys2Proof.Machine.execGt0 l s
  | .withinu l => Sys2Proof.Machine.execWithinu l s
  | .ldb l => Sys2Proof.Machine.execLdb l s
  | .ldbs l => Sys2Proof.Machine.execLdbs l s
  | .ldh l => Sys2Proof.Machine.execLdh l s
  | .ldhs l => Sys2Proof.Machine.execLdhs l s
  | .ld l => Sys2Proof.Machine.execLd l s
  | .ldd l => Sys2Proof.Machine.execLdd l s
  | .stb l => Sys2Proof.Machine.execStb l s
  | .sth l => Sys2Proof.Machine.execSth l s
  | .st l => Sys2Proof.Machine.execSt l s
  | .std l => Sys2Proof.Machine.execStd l s
  | .ldAInc l => Sys2Proof.Machine.execLdAInc l s
  | .stAInc l => Sys2Proof.Machine.execStAInc l s
  | .ldBInc l => Sys2Proof.Machine.execLdBInc l s
  | .stBInc l => Sys2Proof.Machine.execStBInc l s
  | .ldbAInc l => Sys2Proof.Machine.execLdbAInc l s
  | .stbBInc l => Sys2Proof.Machine.execStbBInc l s
  | .br l imm => Sys2Proof.Machine.execBr l imm s
  | .br16 l imm => Sys2Proof.Machine.execBr16 l imm s
  | .bz l imm => Sys2Proof.Machine.execBz l imm s
  | .bz16 l imm => Sys2Proof.Machine.execBz16 l imm s
  | .bnz l imm => Sys2Proof.Machine.execBnz l imm s
  | .bnz16 l imm => Sys2Proof.Machine.execBnz16 l imm s
  | .call l imm => Sys2Proof.Machine.execCall l imm s
  | .call24 l imm => Sys2Proof.Machine.execCall24 l imm s
  | .callx l => Sys2Proof.Machine.execCallx l s
  | .jmp l => Sys2Proof.Machine.execJmp l s
  | .ret l => Sys2Proof.Machine.execRet l s
  | .loopSet l imm => Sys2Proof.Machine.execLoopSet l imm s
  | .loop16 l imm => Sys2Proof.Machine.execLoop16 l imm s
  | .endl l => Sys2Proof.Machine.execEndl l s
  | .nop l => Sys2Proof.Machine.execNop l s
  | .toA l => Sys2Proof.Machine.execToA l s
  | .aFrom l => Sys2Proof.Machine.execAFrom l s
  | .toB l => Sys2Proof.Machine.execToB l s
  | .bFrom l => Sys2Proof.Machine.execBFrom l s
  | .aPlus l => Sys2Proof.Machine.execAPlus l s
  | .bPlus l => Sys2Proof.Machine.execBPlus l s
  | .lita l imm => Sys2Proof.Machine.execLita l imm s
  | .litb l imm => Sys2Proof.Machine.execLitb l imm s
  | .pcrel l imm => Sys2Proof.Machine.execPcrel l imm s
  | .ldp l => Sys2Proof.Machine.execLdp l s
  | .ldpd l => Sys2Proof.Machine.execLdpd l s
  | .takeTicket x => Sys2Proof.Machine.execTakeTicket x s
  | .testTicket x => Sys2Proof.Machine.execTestTicket x s
  | .fence l => Sys2Proof.Machine.execFence l s
  | .moveMem l k h => Sys2Proof.Machine.execMoveMem l k h s
  | .fillMem l k => Sys2Proof.Machine.execFillMem l k s
  | .mcmp l k h => Sys2Proof.Machine.execMcmp l k h s
  | .yield l => Sys2Proof.Machine.execYield l s
  | .waitWake l => Sys2Proof.Machine.execWaitWake l s
  | .wake l => Sys2Proof.Machine.execWake l s
  | .spawn l => Sys2Proof.Machine.execSpawn l s
  | .kill l => Sys2Proof.Machine.execKill l s
  | .park l => Sys2Proof.Machine.execPark l s
  | .parkc l => Sys2Proof.Machine.execParkc l s
  | .unpark l => Sys2Proof.Machine.execUnpark l s
  | .gate l imm => Sys2Proof.Machine.execGate l imm s
  | .retg l => Sys2Proof.Machine.execRetg l s
  | .retx l => Sys2Proof.Machine.execRetx l s
  | .brk l imm => Sys2Proof.Machine.execBrk l imm s
  | .arm l => Sys2Proof.Machine.execArm l s
  | .cas l => Sys2Proof.Machine.execCas l s
  | .fadd l => Sys2Proof.Machine.execFadd l s
  | .xchg l => Sys2Proof.Machine.execXchg l s
  | .fand l => Sys2Proof.Machine.execFand l s
  | .forOp l => Sys2Proof.Machine.execForOp l s
  | .inRaw l x y z => Sys2Proof.Machine.execInRaw l x y z s
  | .inAgree l x y z => Sys2Proof.Machine.execInAgree l x y z s
  | .bnop l => Sys2Proof.Machine.execBnop l s
  | .bnkey l => Sys2Proof.Machine.execBnkey l s
  | .bnpoll l => Sys2Proof.Machine.execBnpoll l s
  | .bnabort l => Sys2Proof.Machine.execBnabort l s
  | .bnkld l => Sys2Proof.Machine.execBnkld l s
  | .csrr l => Sys2Proof.Machine.execCsrr l s
  | .csrw l => Sys2Proof.Machine.execCsrw l s
  | .csrri l imm => Sys2Proof.Machine.execCsrri l imm s
  | .csrwi l imm => Sys2Proof.Machine.execCsrwi l imm s
  | .getr l n => Sys2Proof.Machine.execGetr l n s
  | .setr l n => Sys2Proof.Machine.execSetr l n s
  | .icinv l => Sys2Proof.Machine.execIcinv l s
  | .icinva l => Sys2Proof.Machine.execIcinva l s
  | .custn l n => Sys2Proof.Machine.execCustn l n s
  | .illegal l op escape => Sys2Proof.Machine.execIllegal l op escape s
  | .consignmentCompletion e count upset table => Sys2Proof.Machine.execConsignmentCompletion e count upset table s
  | .sealedResponse c retries upset => Sys2Proof.Machine.execSealedResponse c retries upset s
  | .consignmentTimeout a table => Sys2Proof.Machine.execConsignmentTimeout a table s
  | .mortarRetry src dst item fails => Sys2Proof.Machine.execMortarRetry src dst item fails s
  | .mortarReoffer src dst => Sys2Proof.Machine.execMortarReoffer src dst s
  | .waybillEntry l => Sys2Proof.Machine.execWaybillEntry l s
  | .fastEntry => Sys2Proof.Machine.execFastEntry s
  | .strongboxEntry => Sys2Proof.Machine.execStrongboxEntry s
  | .quantumEnd l => Sys2Proof.Machine.execQuantumEnd l s
  | .timerFire c => Sys2Proof.Machine.execTimerFire c s
  | .eventTrigger n merged => Sys2Proof.Machine.execEventTrigger n merged s
  | .coalesceTimeout n => Sys2Proof.Machine.execCoalesceTimeout n s
  | .stormWindowEnd => Sys2Proof.Machine.execStormWindowEnd s
  | .evcClaim c n => Sys2Proof.Machine.execEvcClaim c n s
  | .evcClaimtop c => Sys2Proof.Machine.execEvcClaimtop c s
  | .evcCpl c v => Sys2Proof.Machine.execEvcCpl c v s
  | .evcPendset c k v => Sys2Proof.Machine.execEvcPendset c k v s
  | .evcScfgWrite c n v => Sys2Proof.Machine.execEvcScfgWrite c n v s
  | .evcFastWrite c v => Sys2Proof.Machine.execEvcFastWrite c v s
  | .evcCopyDifference d => Sys2Proof.Machine.execEvcCopyDifference d s
  | .mlsTimeLoRead c => Sys2Proof.Machine.execMlsTimeLoRead c s
  | .mlsLstampLoRead c n => Sys2Proof.Machine.execMlsLstampLoRead c n s
  | .stepTime c => Sys2Proof.Machine.execStepTime c s
  | .steppps c => Sys2Proof.Machine.execSteppps c s
  | .acq c => Sys2Proof.Machine.execAcq c s
  | .ppsEdge width => Sys2Proof.Machine.execPpsEdge width s
  | .ppsHoldover => Sys2Proof.Machine.execPpsHoldover s
  | .trefReversed => Sys2Proof.Machine.execTrefReversed s
  | .trefOpenOrShort short => Sys2Proof.Machine.execTrefOpenOrShort short s
  | .milestoneCounterDifference => Sys2Proof.Machine.execMilestoneCounterDifference s
  | .ledgerRecordWrite tries => Sys2Proof.Machine.execLedgerRecordWrite tries s
  | .initLedger c => Sys2Proof.Machine.execInitLedger c s
  | .mlsLsoftWrite c v => Sys2Proof.Machine.execMlsLsoftWrite c v s
  | .svoCmdWrite c v => Sys2Proof.Machine.execSvoCmdWrite c v s
  | .svoRelease c => Sys2Proof.Machine.execSvoRelease c s
  | .darkPulse n p => Sys2Proof.Machine.execDarkPulse n p s
  | .enableDisagreement x => Sys2Proof.Machine.execEnableDisagreement x s
  | .tamperMeshCheck bad short => Sys2Proof.Machine.execTamperMeshCheck bad short s
  | .outputMismatch a b c => Sys2Proof.Machine.execOutputMismatch a b c s
  | .unresolvedMismatch a b c => Sys2Proof.Machine.execUnresolvedMismatch a b c s
  | .checkpoint c diff => Sys2Proof.Machine.execCheckpoint c diff s
  | .partialResync => Sys2Proof.Machine.execPartialResync s
  | .laneJoin => Sys2Proof.Machine.execLaneJoin s
  | .laneSelfTestEnd n pass => Sys2Proof.Machine.execLaneSelfTestEnd n pass s
  | .rotationDue => Sys2Proof.Machine.execRotationDue s
  | .comparatorInjection pass => Sys2Proof.Machine.execComparatorInjection pass s
  | .oscillatorFault n => Sys2Proof.Machine.execOscillatorFault n s
  | .oscillatorReenable n => Sys2Proof.Machine.execOscillatorReenable n s
  | .handoverToPaired c => Sys2Proof.Machine.execHandoverToPaired c s
  | .handoverToVoted c => Sys2Proof.Machine.execHandoverToVoted c s
  | .lncRetest c v => Sys2Proof.Machine.execLncRetest c v s
  | .lncRotreq c => Sys2Proof.Machine.execLncRotreq c s
  | .policyWindowEnd => Sys2Proof.Machine.execPolicyWindowEnd s
  | .mcsStageWrite c region index => Sys2Proof.Machine.execMcsStageWrite c region index s
  | .mcsStageRead c region index => Sys2Proof.Machine.execMcsStageRead c region index s
  | .mcsClear c region => Sys2Proof.Machine.execMcsClear c region s
  | .mcsStagedWrite c region v => Sys2Proof.Machine.execMcsStagedWrite c region v s
  | .mcsStagedDigest c region => Sys2Proof.Machine.execMcsStagedDigest c region s
  | .mcsSwitch c region => Sys2Proof.Machine.execMcsSwitch c region s
  | .microcodeExchange => Sys2Proof.Machine.execMicrocodeExchange s
  | .bankCRetry x => Sys2Proof.Machine.execBankCRetry x s
  | .bankERetry x => Sys2Proof.Machine.execBankERetry x s
  | .eccWriteback n w => Sys2Proof.Machine.execEccWriteback n w s
  | .scrubRead n upset => Sys2Proof.Machine.execScrubRead n upset s
  | .bnkOwnerWrite c n v => Sys2Proof.Machine.execBnkOwnerWrite c n v s
  | .handingEnd n => Sys2Proof.Machine.execHandingEnd n s
  | .wipeEnd n => Sys2Proof.Machine.execWipeEnd n s
  | .bnkPwrWrite c n v => Sys2Proof.Machine.execBnkPwrWrite c n v s
  | .bankPowerTransitionEnd n => Sys2Proof.Machine.execBankPowerTransitionEnd n s
  | .spareGo c n => Sys2Proof.Machine.execSpareGo c n s
  | .spareAbort c => Sys2Proof.Machine.execSpareAbort c s
  | .spareCopyWord upset => Sys2Proof.Machine.execSpareCopyWord upset s
  | .spareSwitch => Sys2Proof.Machine.execSpareSwitch s
  | .rowRemap => Sys2Proof.Machine.execRowRemap s
  | .remapCommit => Sys2Proof.Machine.execRemapCommit s
  | .scanCfg c => Sys2Proof.Machine.execScanCfg c s
  | .applyCal c b => Sys2Proof.Machine.execApplyCal c b s
  | .restoreCal c tries => Sys2Proof.Machine.execRestoreCal c tries s
  | .trimStep => Sys2Proof.Machine.execTrimStep s
  | .programFlash c addr size v => Sys2Proof.Machine.execProgramFlash c addr size v s
  | .sectorErase c addr => Sys2Proof.Machine.execSectorErase c addr s
  | .suspendErase c addr => Sys2Proof.Machine.execSuspendErase c addr s
  | .resumeErase c addr => Sys2Proof.Machine.execResumeErase c addr s
  | .sequenceTimeout => Sys2Proof.Machine.execSequenceTimeout s
  | .flashLineRead line target upset => Sys2Proof.Machine.execFlashLineRead line target upset s
  | .prefetchRead => Sys2Proof.Machine.execPrefetchRead s
  | .suspendIssue => Sys2Proof.Machine.execSuspendIssue s
  | .readSuspendResume => Sys2Proof.Machine.execReadSuspendResume s
  | .macroDone pass => Sys2Proof.Machine.execMacroDone pass s
  | .macroStepTimeout => Sys2Proof.Machine.execMacroStepTimeout s
  | .invFlash c => Sys2Proof.Machine.execInvFlash c s
  | .modadd b => Sys2Proof.Machine.execModadd b s
  | .modsub b => Sys2Proof.Machine.execModsub b s
  | .modmul b => Sys2Proof.Machine.execModmul b s
  | .modinv b => Sys2Proof.Machine.execModinv b s
  | .modexp b => Sys2Proof.Machine.execModexp b s
  | .rsacrt b => Sys2Proof.Machine.execRsacrt b s
  | .ecmul b => Sys2Proof.Machine.execEcmul b s
  | .ecmulg b => Sys2Proof.Machine.execEcmulg b s
  | .oncurve b => Sys2Proof.Machine.execOncurve b s
  | .xmul b => Sys2Proof.Machine.execXmul b s
  | .ecdsaver b => Sys2Proof.Machine.execEcdsaver b s
  | .ecdsasign b => Sys2Proof.Machine.execEcdsasign b s
  | .ecdh b => Sys2Proof.Machine.execEcdh b s
  | .keygen b => Sys2Proof.Machine.execKeygen b s
  | .ecpub b => Sys2Proof.Machine.execEcpub b s
  | .keyclr b => Sys2Proof.Machine.execKeyclr b s
  | .engineOperationComplete b fault rng => Sys2Proof.Machine.execEngineOperationComplete b fault rng s
  | .bneCloadWrite c v => Sys2Proof.Machine.execBneCloadWrite c v s
  | .curveCheckDone => Sys2Proof.Machine.execCurveCheckDone s
  | .zeroisation => Sys2Proof.Machine.execZeroisation s
  | .powerOn => Sys2Proof.Machine.execPowerOn s
  | .brownout => Sys2Proof.Machine.execBrownout s
  | .earlyWarning => Sys2Proof.Machine.execEarlyWarning s
  | .earlyWarningClear => Sys2Proof.Machine.execEarlyWarningClear s
  | .glitch => Sys2Proof.Machine.execGlitch s
  | .railFault => Sys2Proof.Machine.execRailFault s
  | .lightAlarm => Sys2Proof.Machine.execLightAlarm s
  | .temperatureCrossing low => Sys2Proof.Machine.execTemperatureCrossing low s
  | .refclkFault => Sys2Proof.Machine.execRefclkFault s
  | .hostClockFault flash => Sys2Proof.Machine.execHostClockFault flash s
  | .secondOscillatorFault => Sys2Proof.Machine.execSecondOscillatorFault s
  | .rstbN => Sys2Proof.Machine.execRstbN s
  | .swrst c => Sys2Proof.Machine.execSwrst c s
  | .resetRelease x => Sys2Proof.Machine.execResetRelease x s
  | .pwrUnitWrite c u v => Sys2Proof.Machine.execPwrUnitWrite c u v s
  | .unitTransitionEnd u => Sys2Proof.Machine.execUnitTransitionEnd u s
  | .clkLaneLset c code => Sys2Proof.Machine.execClkLaneLset c code s
  | .clkLaneFree c code => Sys2Proof.Machine.execClkLaneFree c code s
  | .zwLifecycleWrite c v => Sys2Proof.Machine.execZwLifecycleWrite c v s
  | .hostRead addr tag r upset => Sys2Proof.Machine.execHostRead addr tag r upset s
  | .hostWrite addr be d tag r upset => Sys2Proof.Machine.execHostWrite addr be d tag r upset s
  | .releaseBank addr tag => Sys2Proof.Machine.execReleaseBank addr tag s
  | .doorbell d tag => Sys2Proof.Machine.execDoorbell d tag s
  | .hostResponse tag stat d => Sys2Proof.Machine.execHostResponse tag stat d s
  | .hostBusyResend tag => Sys2Proof.Machine.execHostBusyResend tag s
  | .wsBypass code => Sys2Proof.Machine.execWsBypass s code
  | .wsIdcode => Sys2Proof.Machine.execWsIdcode s
  | .wsExtest => Sys2Proof.Machine.execWsExtest s
  | .wsIntest => Sys2Proof.Machine.execWsIntest s
  | .wsMbist => Sys2Proof.Machine.execWsMbist s
  | .wsStatus => Sys2Proof.Machine.execWsStatus s
  | .wsL3 d => Sys2Proof.Machine.execWsL3 d s
  | .wsStele w d => Sys2Proof.Machine.execWsStele w d s
  | .wrstn => Sys2Proof.Machine.execWrstn s
  | .cshHaltreq c v => Sys2Proof.Machine.execCshHaltreq c v s
  | .cshResume c v => Sys2Proof.Machine.execCshResume c v s
  | .cshFastcfgWrite c v => Sys2Proof.Machine.execCshFastcfgWrite c v s
  | .rngGcommit c v => Sys2Proof.Machine.execRngGcommit c v s
  | .svc c => Sys2Proof.Machine.execSvc c s
  | .vtlock c => Sys2Proof.Machine.execVtlock c s
  | .gtlock c => Sys2Proof.Machine.execGtlock c s
  | .registerWrite c addr v => Sys2Proof.Machine.execRegisterWrite c addr v s
  | .missFill l upset => Sys2Proof.Machine.execMissFill l upset s
  | .abortComplete b => Sys2Proof.Machine.execAbortComplete b s
  | .zeroisationDone => Sys2Proof.Machine.execZeroisationDone s
  | .digestDone => Sys2Proof.Machine.execDigestDone s
  | .stagedClearDone region => Sys2Proof.Machine.execStagedClearDone region s
  | .ledgerClearDone => Sys2Proof.Machine.execLedgerClearDone s
  | .scanDone => Sys2Proof.Machine.execScanDone s
  | .journalWriteDone retries => Sys2Proof.Machine.execJournalWriteDone retries s
  | .ledgerSearchDone => Sys2Proof.Machine.execLedgerSearchDone s
  | .refclkReturn => Sys2Proof.Machine.execRefclkReturn s
  | .hostClockReturn flash => Sys2Proof.Machine.execHostClockReturn flash s
  | .unselectedTransition n => Sys2Proof.Machine.execUnselectedTransition n s
  | .offSupervisionFault n faults => Sys2Proof.Machine.execOffSupervisionFault n faults s
  | .rsRead c addr => Sys2Proof.Machine.execRsRead c addr s
  | .onDemandOscillatorStop => Sys2Proof.Machine.execOnDemandOscillatorStop s

end Sys2Proof.Machine
end

