-- ==== Sys2Proof/Machine/Step.lean ====
section
/-! DEFINITION. One step: the command at the front of the queue, or one milestone cycle. -/

namespace Sys2Proof.Machine

/-- The block with no command waiting: one milestone cycle passes while it is out of reset (R213). -/
def idle (s : State) : State := if s.up then settle (milestoneCycle (lsetEnd s)) else s

/-- Run the command at the front of the queue on the state with the queue's rest; idle when none waits. -/
def step (s : State) : Host.Outcome State Fault Refusal :=
  match s.pending with
  | [] => .next (idle s)
  | c :: r => exec c { s with pending := r }

/-- The state with the command that a word spells put at the front of its queue. -/
def State.withFetchWord (s : State) (nbits w : Nat) : State :=
  match decodeTableWord nbits w with
  | some c => { s with pending := c :: s.pending }
  | none => s

end Sys2Proof.Machine
end

