-- ==== Sys2Proof/Safety.lean ====
section
/-! DEFINITION. The terms in which statements are made: when an instruction issues, how it ends, who may access a
register, what a command leaves unchanged, and the invariants of every step. -/

namespace Sys2Proof.Machine

/-! ### Issue -/

/-- The next instruction of lane set `l.set`, `len` bytes long, issues for `w` in its own turn: nothing holds `w`, its
boundary takes nothing, no takeover window is open and no store waits to be posted, its code can be fetched, and no vendor
patch is in force (R63, R64, R68, R143, R151, R169, R174, R260). -/
structure Issues (s : State) (l : LaneUse) (w : Who) (len : Nat) : Prop where
  own : l.borrowed = false
  lane : lsRuns s l.set.val = true
  who : issuer s l.set.val = some w
  notFast : (l.set == 0 && fastReady s) = false
  notHeld : (getC s w).held = none
  notStalled : (getC s w).stall = none
  notDraining : (getC s w).drain = false
  noWindow : (getC s w).window = none
  posted : (getC s w).out = []
  quiet : atBoundary s w = none
  unpatched : ∀ op, overrideOf s op = none
  fetched : fetchAll s ⟨w, l.set.val⟩ (fetchWords (getC s w).pc.toNat len) = .ok

/-- The instruction that `w` issued in state `s` ends with control flow `f` in state `t`: PC or loop follow (R44, R61),
and the schedulers settle. -/
def ends (s : State) (l : LaneUse) (w : Who) (len : Nat) (f : Flow) (t : State) : Out :=
  .next (settle (complete t ⟨w, l.set.val⟩ (getC s w).pc len f))

/-- The instruction raises exception `x` precisely, with the state otherwise as it was (R37, R63): what the model notes of its
waits and its fetch is over with it. -/
def raises (s : State) (l : LaneUse) (w : Who) (x : XItem) : Out :=
  .next (settle (setGap (raiseItem (dropStep s w) w x) l.set.val false))

/-- The instruction changes nothing but that its issuer is HELD for `h` (R68). -/
def holds (s : State) (l : LaneUse) (w : Who) (h : Hold) : Out :=
  .next (settle (setGap (modC s w (fun c => { c with held := some h, step := false })) l.set.val false))

/-! ### Stacks -/

/-- The heads of `w` begin with the operand entries `es` and the return entries `rs`, top first, the stacks hold that many
(R37, R384), and neither spills when these are popped and then `o` and `ro` entries pushed (R36). -/
structure Takes (s : State) (w : Who) (es rs : List Entry) (o ro : Nat) : Prop where
  top : ∃ r, (getC s w).dhead = es ++ r
  rtop : ∃ r, (getC s w).rhead = rs ++ r
  deep : headOnly s w = true ∨ (es.length ≤ (getC s w).ddepth.toNat ∧ rs.length ≤ (getC s w).rdepth.toNat)
  room : (getC s w).dhead.length - es.length + o ≤ 8
  rroom : (getC s w).rhead.length - rs.length + ro ≤ 4

/-- The coach with `i` operand entries popped and the entries `es` pushed, the first on top. -/
def restack (i : Nat) (es : List Entry) (c : Coach) : Coach :=
  { c with dhead := es ++ c.dhead.drop i, ddepth := c.ddepth - u32 i + u32 es.length }

/-- The coach with `i` return entries popped and the entries `es` pushed, the first on top. -/
def rerack (i : Nat) (es : List Entry) (c : Coach) : Coach :=
  { c with rhead := es ++ c.rhead.drop i, rdepth := c.rdepth - u32 i + u32 es.length }

/-- The instruction takes the operand entries `es`, pushes `vs` in their place, changes `f` in its context and nothing
else, and control goes as `fl` says. -/
def Replaces (i : LaneUse → Instr) (len : Nat) (es : List Entry) (vs : List Word) (fl : Flow) (f : Coach → Coach) : Prop :=
  ∀ s l w, Issues s l w len → Takes s w es [] vs.length 0 →
    exec (i l) s = ends s l w len fl (modC s w (fun c => f (restack es.length (vs.map .val) c)))

/-- The instruction pushes the value that `v` finds in its context, and does nothing else. -/
def Pushes (i : LaneUse → Instr) (len : Nat) (v : Coach → Word) : Prop :=
  ∀ s l w, Issues s l w len → Takes s w [] [] 1 0 →
    exec (i l) s = ends s l w len .seq (modC s w (fun c => restack 0 [.val (v c)] c))

/-- ( a -- f a ), nothing else changed. -/
def Unary (i : LaneUse → Instr) (f : Word → Word) : Prop := ∀ a, Replaces i 1 [.val a] [f a] .seq id

/-- ( a b -- f a b ), nothing else changed. -/
def Binary (i : LaneUse → Instr) (f : Word → Word → Word) : Prop :=
  ∀ a b, Replaces i 1 [.val b, .val a] [f a b] .seq id

/-- C and V of STATUS take the given values; C keeps its own where none is given (R41, R72). -/
def setFlags (cf : Option Bool) (v : Bool) (c : Coach) : Coach :=
  setStatusBit (match cf with | some b => setStatusBit c 3 b | none => c) 4 v

/-- The arithmetic instruction takes `es`, pushes the result `r` and sets C to `cf` (none: unchanged) and V to `v`, each
from the carry flag before. An overflow under VTRAP raises ARITH: with PRE set precisely and with nothing changed, else
imprecisely, beside the result and the flags (R69, R72). -/
def Computes (i : LaneUse → Instr) (es : List Entry) (r : Bool → Word) (cf : Bool → Option Bool) (v : Bool → Bool) : Prop :=
  ∀ s l w, Issues s l w 1 → Takes s w es [] 1 0 →
    let k := getC s w
    let c := bit k.status 3
    let traps := v c && bit k.status 5
    let done := fun (d : Coach) => setFlags (cf c) (v c) (restack es.length [.val (r c)] d)
    (traps = false → exec (i l) s = ends s l w 1 .seq (modC s w done)) ∧
    (traps = true → preOf k = true → exec (i l) s = raises s l w { vec := 7 }) ∧
    (traps = true → preOf k = false → exec (i l) s = ends s l w 1 .seq (modC s w (fun d =>
      syncImprc { done d with imprecise := d.imprecise ++ [{ vec := 7, addr := d.pc }] })))

/-- Quotient and remainder of R73. -/
def quotRem (signed : Bool) (a b : Word) : Word × Word :=
  if b = 0 then (0xFFFFFFFF, a)
  else if signed then
    (if a = 0x80000000 ∧ b = 0xFFFFFFFF then (0x80000000, 0)
     else (BitVec.ofInt 32 (a.toInt.tdiv b.toInt), BitVec.ofInt 32 (a.toInt - b.toInt * a.toInt.tdiv b.toInt)))
  else (BitVec.ofNat 32 (a.toNat / b.toNat), BitVec.ofNat 32 (a.toNat % b.toNat))

/-! ### Open accesses -/

/-- The banks admit an access of `n` bytes at `a` by `w`: its owners do, the coach's own consignment entry is free,
and the outbound queue has room (R117, R142, R285, R286). -/
structure AdmitsOpen (s : State) (l : LaneUse) (w : Who) (k : Access) (a n : Nat) : Prop where
  bank : regionN a n = some .bank
  owner : ownerRefusal s (reqOf s ⟨w, l.set.val⟩) a n k = none
  quota : entriesHeld s (numOf s w) < quotaOf s (numOf s w)
  free : (consOf s (numOf s w)).used = false
  room : queued s 5 < 8

/-- Entry `e` as an access of `w` to the banks enters it (R144, R148, R290). -/
def entryIn (s : State) (l : LaneUse) (w : Who) (e : Nat) (kind : CKind) (a n : Nat) (d : DWord) : Cons :=
  { used := true, gen := ((consOf s e).gen + 1) % 65536, coach := numOf s w, fast := w == .fast, kind := kind
    addr := a, size := n, data := d, ring := ringOf (getC s w), unver := decide (l.set ≠ 0), lset := l.set.val, order := s.order
    live := liveAt s .bank a n }

/-- The coach's own entry as an access of `w` enters it. -/
def entryFor (s : State) (l : LaneUse) (w : Who) (kind : CKind) (a n : Nat) (d : DWord) : Cons :=
  entryIn s l w (numOf s w) kind a n d

/-- The core can make accesses of kind `k` to the `n` bytes from `a` within an instruction of `w`, on behalf of `r`, and each
is performed: the bytes lie in banks that admit it and are ACTIVE, hold no error and no locked vector, no open access of
`w` touches them, the coach's own consignment entry is free, and no other port, no timeout has it fail (R38, R50, R144, R146,
R279, R283, R285, R291). -/
structure Accessible (s : State) (w : Who) (r : Req) (k : Access) (a n : Nat) : Prop where
  inside : inBanks a n = true
  owner : ownerRefusal s r a n k = none
  power : ∀ p ∈ bankParts a n, powerAns s (bankOf p.1) = .ok
  clean : ∀ b, b < a + n → a < b + 8 → eccAt s b = 0
  quiet : openOver s w a n (fun _ => true) = []
  quota : entriesHeld s (numOf s w) < quotaOf s (numOf s w)
  free : (consOf s (numOf s w)).used = false
  untold : (getC s w).told = []
  unlocked : k = .store → (vtlock s && inVectors a n) = false

/-- Stores that the core posts for `w` to the `n` bytes from `a` are accepted: the bytes lie in banks that admit them, and hold
no locked vector (R36, R285). -/
structure Storable (s : State) (l : LaneUse) (w : Who) (a n : Nat) : Prop where
  inside : inBanks a n = true
  owner : ownerRefusal s (reqOf s ⟨w, l.set.val⟩) a n .store = none
  unlocked : (vtlock s && inVectors a n) = false

/-- In the course from `s` to `t`, `w` has issued a store of the `n` bytes of `d` at `a`: it has an entry of the consignment
table, or waits for one. It is performed at its completion (R48, R143, R144). -/
def NewStore (s t : State) (w : Who) (a n : Nat) (d : DWord) : Prop :=
  (∃ e, (consOf s e).used = false ∧ (consOf t e).used = true ∧ consWho (consOf t e) = w ∧ (consOf t e).kind = .store ∧
    (consOf t e).addr = a ∧ (consOf t e).size = n ∧ (consOf t e).data = d) ∨
  (∃ p ∈ (getC t w).out, p.addr = a ∧ p.size = n ∧ p.data = d)

/-- Operation `o` of slot group `b` can end in state `s` and complete its own consignment: the group lies within the
engine, the entry is the one that was submitted (R148), and no other submission waits for the group's end (R339). -/
structure Finishes (s : State) (b : Nat) (o : EOp) : Prop where
  runs : eopOf s b = some o
  fits : b + o.slots ≤ 8
  live : (consOf s o.entry).used = true ∧ (consOf s o.entry).gen = o.gen ∧ (consOf s o.entry).done = none ∧
    (consOf s o.entry).orphan = false
  kind : ∃ j, (consOf s o.entry).kind = .engine j o.key
  alone : ∀ x ∈ s.cons, x.1 ≠ o.entry → heldBnop { s with bne := { s.bne with ops := s.bne.ops.erase b } } x = false

/-! ### Registers of control space -/

/-- Coach `c` runs in a ring that may access a register for rings 0 to `r`, and not on a free lane, and the block is out of
reset (R12, R25). -/
def MayAccess (s : State) (c : BitVec 10) (r : Nat) : Prop :=
  s.up = true ∧ ringOf (getC s (whoOf s c.toNat)) ≤ r ∧ laneOfWho s (whoOf s c.toNat) = 0

/-- Coach `c` has no unacknowledged store to the island of control-space unit `u` (R51). -/
def Acked (s : State) (c : BitVec 10) (u : Nat) : Prop := openOf s (whoOf s c.toNat) (toIsland u) = []

/-- The coach under whose number a register command acts (R152). -/
def actor (s : State) (c : BitVec 10) : Nat := numOf s (whoOf s c.toNat)

/-! ### What stays -/

/-- Every byte of memory reads as before. -/
def SameMemory (s t : State) : Prop := ∀ a, rdB t a = rdB s a

/-- Every stored control register is as before. -/
def SameRegisters (s t : State) : Prop := ∀ a, getR t a = getR s a

/-- What a program sees of a coach: registers 0 to 18, its cause registers, and both heads. -/
def seen (c : Coach) : List Word × List Entry × List Entry :=
  (regList c ++ [c.xcause, c.xaddr, c.xinfo], c.dhead, c.rhead)

/-- Every context but `w` sees its registers and heads as before. -/
def SameOthers (s t : State) (w : Who) : Prop := ∀ v, v ≠ w → seen (getC t v) = seen (getC s v)

/-- Every context sees its registers and heads as before. -/
def SameContexts (s t : State) : Prop := ∀ v, seen (getC t v) = seen (getC s v)

/-- No byte of memory, and no context's registers or heads, change. -/
def SameProgram (s t : State) : Prop := SameMemory s t ∧ SameContexts s t

/-- Every stored control register but those at the addresses `l` is as before. -/
def SameRegistersBut (l : List Nat) (s t : State) : Prop := ∀ a, a ∉ l → getR t a = getR s a

/-- Registers that a trigger of source `n` may write: a storm clears EN of the source (R209), an overflow of the stamp queue
counts in MLS_SQ_LOST and triggers source 27 (R221). -/
def eventRegs (n : Nat) : List Nat := [aMlsSqLost, aEvcScfg + 4 * n, aEvcScfg + 4 * 27]

/-- Registers that one event of the attack policy may write (R256, R257). -/
def policyRegs : List Nat := [aKeyPcount, aKeyPclass, aKeyAttack, aBneZero, aSvoCtl, aZwLifecycle] ++ eventRegs 2

/-! ### Invariants -/

/-- Memory is in its canonical form. -/
def Canonical (s : State) : Prop := Memory.wf s.mem = true

/-- Each lane set runs a coach that is in RUN, or none (R127, R137). -/
def LanesRun (s : State) : Prop := ∀ l n, runOf s l = some n → (coachOf s n).st = .run

/-- No coach runs on two lane sets at once (R137). -/
def OneLaneSet (s : State) : Prop := ∀ l k n, l < 3 → k < 3 → runOf s l = some n → runOf s k = some n → l = k

end Sys2Proof.Machine
end

