-- ==== Sys2Proof/Certificates/Slice0/Obligations.lean ====
section
/-! DEFINITION. The statements for the provers. Unless a docstring says otherwise, a statement about an instruction
speaks of the instruction that issues in its own turn (`Issues`), and a statement about a register row of a coach whose
ring may access the register (`MayAccess`). -/

open Sys2Proof Sys2Proof.Machine

/-! ### The machine -/

/-- A step runs the command at the front of the queue on the state with the queue's rest. -/
def Obligations.StepRunsFront : Prop :=
  ∀ (s : State) (c : Instr) (r : List Instr), step { s with pending := c :: r } = exec c { s with pending := r }

/-- With no command waiting, one milestone cycle passes while the block is out of reset, and nothing else while it is in
reset. The cycle advances milestone time by 5 ns while the time is free-running (MLS_CTL.DISC is 0), and while it is
disciplined with no phase error to slew and no 5 ns of frequency correction come together; and it ends a change of
CLK_LANE.LSET, whose BUSY it clears. The model's choice: log entries 4, 5 and 79. -/
def Obligations.EmptyQueueIsACycle : Prop :=
  ∀ s : State, s.pending = [] →
    (s.up = false → step s = .next s) ∧
    (s.up = true → (bit (getR s aMlsCtl) 2 = true → s.mls.slew = 0 ∧
        (s.mls.frac + (getR s aMlsFreq).toInt).natAbs < 1000000000) →
      ∃ t, step s = .next t ∧ t.cycles = s.cycles + 1 ∧ t.mls.time = addNs s.mls.time 5 ∧ SameMemory s t ∧
        SameRegistersBut [aClkLane] s t ∧ getR t aClkLane = getR s aClkLane &&& 0xBFFFFFFF)

/-- Every command is answered with a next state: no command faults or is refused, in any state.
Readings of the model: log entry 61. -/
def Obligations.EveryCommandIsAnswered : Prop :=
  ∀ (c : Instr) (s : State), ∃ t, exec c s = .next t

/-- Every step keeps: a lane set runs only a coach that is in RUN, and no coach is in RUN on two lane sets at once. -/
def Obligations.LanesRunCoachesInRun : Prop :=
  (∀ s t : State, LanesRun s → step s = .next t → LanesRun t) ∧
  ∀ s t : State, OneLaneSet s → step s = .next t → OneLaneSet t

/-- Every step keeps memory in its canonical form. -/
def Obligations.MemoryStaysCanonical : Prop :=
  ∀ s t : State, Canonical s → step s = .next t → Canonical t

/-- Reset meets these invariants; no coach holds a thread, no source is pending, and the registers that the spec gives a
reset value hold it: KEY_CTL, CSH_QUANTA_A, EVC_TIER, BNK_OWNER and BNK_PWR of bank 0, RNG_XCAP, HPT_CFG; the block is not
in service mode, and the strongbox is empty. -/
def Obligations.ResetState : Prop :=
  LanesRun State.reset ∧ OneLaneSet State.reset ∧ Canonical State.reset ∧
  (∀ n, (coachOf State.reset n).st = .free) ∧ (∀ n, (srcOf State.reset n).pend = false ∧ (srcOf State.reset n).active = false) ∧
  getR State.reset aKeyCtl = 1 ∧ getR State.reset aCshQuantaA = 0x10000000 ∧ getR State.reset aEvcTier = 8 ∧
  getR State.reset aBnkOwner = 0x00050040 ∧ getR State.reset aBnkPwr = 0 ∧ getR State.reset aRngXcap = 0x00400100 ∧
  getR State.reset aHptCfg = 0x40000081 ∧ svc State.reset = false ∧ (∀ l, (sboxOf State.reset l).occ = false)

/-- An instruction whose effect is the change `f` of its own context leaves everything else as it was: every byte of memory,
every control register, every other context's registers and heads, every consignment and event source. Of its own context it
changes, beyond `f`, what R44 and R61 say: PC, and LCOUNT and LOOPACT at the end of a loop. -/
def Obligations.InstructionFrame : Prop :=
  ∀ (s : State) (l : LaneUse) (w : Who) (len : Nat) (fl : Flow) (f : Coach → Coach), s.up = true →
    ∃ t, ends s l w len fl (modC s w f) = .next t ∧ SameMemory s t ∧ SameRegisters s t ∧ SameOthers s t w ∧
      t.cons = s.cons ∧ t.src = s.src ∧ t.bank = s.bank ∧ t.div = s.div ∧ t.lnc = s.lnc ∧
      (fl = .seq → seen (getC t w) = seen (advance (f (getC s w)) (getC s w).pc len)) ∧
      (fl ≠ .seq → seen (getC t w) = seen (f (getC s w)))

/-- NOP changes only PC. At the end of a loop (LEND is its address and LOOPACT is 1) it goes back to LSTART while LCOUNT
exceeds 1, counting down; else it ends the loop. -/
def Obligations.NopAndLoopBack : Prop :=
  ∀ s l w, Issues s l w 1 → s.up = true →
    ∃ t, exec (.nop l) s = .next t ∧ SameMemory s t ∧ SameRegisters s t ∧ SameOthers s t w ∧
      (let c := getC s w
       let d := getC t w
       let atEnd := bit c.status 19 = true ∧ c.lend = c.pc
       (¬ atEnd → seen d = seen { c with pc := c.pc + 1 }) ∧
       (atEnd → c.lcount.toNat ≤ 1 →
         seen d = seen { c with lcount := 0, status := setBit c.status 19 false, pc := c.pc + 1 }) ∧
       (atEnd → 1 < c.lcount.toNat → seen d = seen { c with lcount := c.lcount - 1, pc := c.lstart }))

/-! ### Literals and stacks (R70, R71) -/

/-- The literals, DEPTH and IN.AGREE on a free lane push one value and change nothing else. The stack instructions rearrange
the operand stack. DROP, NIP, 2DROP and OVER do not read the entries `e` and `f`, which
may be pending; PICK n copies the entry below n others. >R, R>, R@ and RDROP move entries between the stacks. -/
def Obligations.StackInstructions : Prop :=
  ((∀ n : BitVec 4, Pushes (fun l => .lit l n) 1 (fun _ => n.zeroExtend 32)) ∧
  (∀ i : BitVec 8, Pushes (fun l => .lit8 l i) 2 (fun _ => i.signExtend 32)) ∧
  (∀ i : BitVec 16, Pushes (fun l => .lit16 l i) 3 (fun _ => i.signExtend 32)) ∧
  (∀ i : Word, Pushes (fun l => .lit32 l i) 5 (fun _ => i)) ∧
  (∀ i : BitVec 16, Pushes (fun l => .lit16u l i) 3 (fun _ => i.zeroExtend 32)) ∧
  Pushes .depth 1 (fun c => c.ddepth) ∧
  (∀ x y z : Word, ∀ s l w, l.set ≠ 0 → Issues s l w 1 → Takes s w [] [] 1 0 →
    exec (.inAgree l x y z) s = ends s l w 1 .seq (modC s w (restack 0 [.val x])))) ∧
  ((∀ a, Replaces .dup 1 [.val a] [a, a] .seq id) ∧ (∀ e, Replaces .drop 1 [e] [] .seq id) ∧
  (∀ a b, Replaces .swap 1 [.val b, .val a] [a, b] .seq id) ∧
  (∀ a b c, Replaces .rot 1 [.val c, .val b, .val a] [a, c, b] .seq id) ∧
  (∀ b e, Replaces .nip 1 [.val b, e] [b] .seq id) ∧
  (∀ a b, Replaces .tuck 1 [.val b, .val a] [b, a, b] .seq id) ∧
  (∀ a b, Replaces .twoDup 1 [.val b, .val a] [b, a, b, a] .seq id) ∧
  (∀ e f, Replaces .twoDrop 1 [e, f] [] .seq id) ∧
  (∀ a b c d, Replaces .twoSwap 1 [.val d, .val c, .val b, .val a] [b, a, d, c] .seq id) ∧
  (∀ a e s l w, Issues s l w 1 → Takes s w [e, .val a] [] 3 0 →
    exec (.over l) s = ends s l w 1 .seq (modC s w (restack 2 [.val a, e, .val a]))) ∧
  (∀ (n v : Word) (es : List Entry) s l w, n.toNat < 8 → es.length = n.toNat → Issues s l w 1 →
    Takes s w (.val n :: es ++ [.val v]) [] (es.length + 2) 0 →
    exec (.pick l) s = ends s l w 1 .seq (modC s w (restack 1 [.val v])))) ∧
  (∀ (a : Word) (e : Entry) (s : State) (l : LaneUse) (w : Who), Issues s l w 1 →
    (Takes s w [.val a] [] 0 1 →
      exec (.toR l) s = ends s l w 1 .seq (modC s w (fun c => rerack 0 [.val a] (restack 1 [] c)))) ∧
    (Takes s w [] [.val a] 1 0 →
      exec (.rFrom l) s = ends s l w 1 .seq (modC s w (fun c => restack 0 [.val a] (rerack 1 [] c)))) ∧
    (Takes s w [] [.val a] 1 1 →
      exec (.rFetch l) s = ends s l w 1 .seq (modC s w (restack 0 [.val a]))) ∧
    (Takes s w [] [e] 0 0 → exec (.rdrop l) s = ends s l w 1 .seq (modC s w (rerack 1 []))))

/-- An instruction that reads a pending entry holds its coach, with nothing else changed (R68), shown for a top entry that has
not arrived under each unary and binary operation, NEG, the divisions, DUP, SWAP, TUCK, NIP, JMP, and the writes of the
address registers. An instruction whose operands the operand stack does not hold raises DSTACK, and one whose return entry is
missing RSTACK, precisely and with nothing changed (R37), shown for these and those of the lists below on an empty stack.
Readings of the model: log entry 26. -/
def Obligations.PendingAndMissingEntries : Prop :=
  let ones := fun (l : LaneUse) => [Instr.dup l, .inc l, .dec l, .abs l, .neg l, .notOp l, .clz l, .ffs l, .popc l, .bswap l,
    .sxb l, .sxh l, .eq0 l, .ne0 l, .lt0 l, .gt0 l, .jmp l, .toA l, .toB l, .aPlus l, .bPlus l]
  let twos := fun (l : LaneUse) => [Instr.swap l, .tuck l, .nip l, .add l, .sub l, .adc l, .sbc l, .mul l, .mulh l, .mulhu l,
    .div l, .divu l, .mod l, .modu l, .andOp l, .orOp l, .xorOp l, .andn l, .shl l, .shr l, .sar l, .rol l, .ror l, .eq l, .ne l,
    .lt l, .le l, .gt l, .ge l, .ltu l, .leu l, .gtu l, .geu l]
  (∀ (e : Entry) (s : State) (l : LaneUse) (w : Who), (∀ v, e ≠ .val v) → Issues s l w 1 →
    (Takes s w [e] [] 2 0 → ∀ i ∈ ones l, exec i s = holds s l w (.entries [e])) ∧
    (∀ f, Takes s w [e, f] [] 3 0 → ∀ i ∈ twos l, exec i s = holds s l w (.entries [e]))) ∧
  (∀ (s : State) (l : LaneUse) (w : Who), Issues s l w 1 → headOnly s w = false →
    ((getC s w).ddepth = 0 → ∀ i, i ∈ ones l ++ twos l ++ [.drop l, .over l, .rot l, .twoDup l, .twoDrop l, .twoSwap l, .pick l,
        .toR l, .withinu l, .ld l, .st l, .callx l, .ldp l, .wake l, .spawn l, .kill l, .arm l, .unpark l] →
      exec i s = raises s l w { vec := 5 }) ∧
    (Takes s w [] [] 1 0 → (getC s w).rdepth = 0 → ∀ i, i ∈ [Instr.rFrom l, .rFetch l, .rdrop l, .ret l] →
      exec i s = raises s l w { vec := 6 }))

/-! ### Arithmetic, logic, shifts and compares (R72 to R75) -/

/-- ADD, SUB, ADC, SBC, NEG and MUL: results, C, V, and ARITH under VTRAP. -/
def Obligations.ArithmeticResultsAndFlags : Prop :=
  ∀ a b : Word,
    let out := fun x : Int => decide (x < -2147483648 ∨ 2147483647 < x)
    Computes .add [.val b, .val a] (fun _ => a + b) (fun _ => some (decide (2 ^ 32 ≤ a.toNat + b.toNat)))
      (fun _ => out (a.toInt + b.toInt)) ∧
    Computes .sub [.val b, .val a] (fun _ => a - b) (fun _ => some (decide (a.toNat < b.toNat)))
      (fun _ => out (a.toInt - b.toInt)) ∧
    Computes .adc [.val b, .val a] (fun c => a + b + (if c then 1 else 0))
      (fun c => some (decide (2 ^ 32 ≤ a.toNat + b.toNat + (if c then 1 else 0))))
      (fun c => out (a.toInt + b.toInt + (if c then 1 else 0))) ∧
    Computes .sbc [.val b, .val a] (fun c => a - b - (if c then 1 else 0))
      (fun c => some (decide (a.toNat < b.toNat + (if c then 1 else 0))))
      (fun c => out (a.toInt - b.toInt - (if c then 1 else 0))) ∧
    Computes .neg [.val a] (fun _ => 0 - a) (fun _ => some (decide (a ≠ 0))) (fun _ => decide (a = 0x80000000)) ∧
    Computes .mul [.val b, .val a] (fun _ => a * b) (fun _ => none) (fun _ => out (a.toInt * b.toInt))

/-- INC, DEC, ABS, NOT, BSWAP, SXB, SXH, and the tests of one operand: results, and no flag. CLZ counts the zeros above the
most significant 1, FFS finds the least significant 1 (both give 32 for 0), and POPC counts the 1 bits; none changes
anything else. -/
def Obligations.UnaryResults : Prop :=
  (Unary .inc (· + 1) ∧ Unary .dec (· - 1) ∧ Unary .abs (fun a => if a.toInt < 0 then 0 - a else a) ∧
  Unary .notOp (fun a => a ^^^ 0xFFFFFFFF) ∧
  Unary .bswap (fun a => (a.extractLsb' 0 8 ++ a.extractLsb' 8 8 ++ a.extractLsb' 16 8 ++ a.extractLsb' 24 8).cast (by decide)) ∧
  Unary .sxb (fun a => (a.truncate 8).signExtend 32) ∧ Unary .sxh (fun a => (a.truncate 16).signExtend 32) ∧
  Unary .eq0 (fun a => if a = 0 then 0xFFFFFFFF else 0) ∧ Unary .ne0 (fun a => if a = 0 then 0 else 0xFFFFFFFF) ∧
  Unary .lt0 (fun a => if a.toInt < 0 then 0xFFFFFFFF else 0) ∧ Unary .gt0 (fun a => if 0 < a.toInt then 0xFFFFFFFF else 0)) ∧
  ((∃ f, Unary .clz f ∧ f 0 = 32 ∧ ∀ (a : Word) (k : Nat), k < 32 → a.getLsbD k = true →
    (∀ j, k < j → a.getLsbD j = false) → f a = BitVec.ofNat 32 (31 - k)) ∧
  (∃ f, Unary .ffs f ∧ f 0 = 32 ∧ ∀ (a : Word) (k : Nat), a.getLsbD k = true →
    (∀ j, j < k → a.getLsbD j = false) → f a = BitVec.ofNat 32 k) ∧
  (∃ f, Unary .popc f ∧ ∀ a : Word, (f a).toNat = ((List.range 32).filter (fun i => a.getLsbD i)).length))

/-- MULH, MULHU, the logic instructions, the shifts and rotates by n[4:0]: results, and no flag. The compares push
0xFFFF_FFFF for true and 0 for false, and change no flag. -/
def Obligations.BinaryResults : Prop :=
  (Binary .mulh (fun a b => BitVec.ofInt 32 (a.toInt * b.toInt / 2 ^ 32)) ∧
  Binary .mulhu (fun a b => BitVec.ofNat 32 (a.toNat * b.toNat / 2 ^ 32)) ∧
  Binary .andOp (· &&& ·) ∧ Binary .orOp (· ||| ·) ∧ Binary .xorOp (· ^^^ ·) ∧ Binary .andn (fun a b => a &&& ~~~b) ∧
  Binary .shl (fun a n => BitVec.ofNat 32 (a.toNat * 2 ^ (n.toNat % 32))) ∧
  Binary .shr (fun a n => BitVec.ofNat 32 (a.toNat / 2 ^ (n.toNat % 32))) ∧
  Binary .sar (fun a n => BitVec.ofInt 32 (a.toInt / 2 ^ (n.toNat % 32))) ∧
  Binary .rol (fun a n => a.rotateLeft (n.toNat % 32)) ∧ Binary .ror (fun a n => a.rotateRight (n.toNat % 32))) ∧
  (let f := fun b : Bool => if b then (0xFFFFFFFF : Word) else 0
  Binary .eq (fun a b => f (decide (a.toNat = b.toNat))) ∧ Binary .ne (fun a b => f (decide (a.toNat ≠ b.toNat))) ∧
  Binary .lt (fun a b => f (decide (a.toInt < b.toInt))) ∧ Binary .le (fun a b => f (decide (a.toInt ≤ b.toInt))) ∧
  Binary .gt (fun a b => f (decide (b.toInt < a.toInt))) ∧ Binary .ge (fun a b => f (decide (b.toInt ≤ a.toInt))) ∧
  Binary .ltu (fun a b => f (decide (a.toNat < b.toNat))) ∧ Binary .leu (fun a b => f (decide (a.toNat ≤ b.toNat))) ∧
  Binary .gtu (fun a b => f (decide (b.toNat < a.toNat))) ∧ Binary .geu (fun a b => f (decide (b.toNat ≤ a.toNat))) ∧
  ∀ v lo hi, Replaces .withinu 1 [.val hi, .val lo, .val v] [f (decide ((v - lo).toNat < (hi - lo).toNat))] .seq id)

/-- DIV, DIVU, MOD and MODU. While the divider of the lane set is busy they hold their coach. With PRE clear they leave a
pending entry and occupy the divider with result, zero divisor and PC; with PRE set the coach stalls for the result, or for
ARITH when the divisor is 0. DIVISION_COMPLETE frees the divider. The result replaces the pending entry wherever the operand
head holds it, and a zero divisor raises ARITH imprecisely with the address of the division; or it ends the stall of a
division that issued with PRE set, which pushes the result, or raises ARITH precisely. Memory and registers stay.
Readings of the model: log entry 28. -/
def Obligations.Division : Prop :=
  (∀ (a b : Word) (s : State) (l : LaneUse) (w : Who) (i : LaneUse → Instr) (signed rem : Bool),
    (i, signed, rem) ∈ [((.div : LaneUse → Instr), true, false), (.divu, false, false), (.mod, true, true), (.modu, false, true)] →
    Issues s l w 1 → Takes s w [.val b, .val a] [] 1 0 →
    let n := l.set.val
    let qr := quotRem signed a b
    let r := if rem then qr.2 else qr.1
    let d : Divider := ⟨numOf s w, w == .fast, r, decide (b = 0), (getC s w).pc, preOf (getC s w)⟩
    (divOf s n ≠ none → exec (i l) s = holds s l w (.divider n)) ∧
    (divOf s n = none → preOf (getC s w) = false →
      exec (i l) s = ends s l w 1 .seq (setDiv (modC s w (restack 2 [.div n])) n (some d))) ∧
    (divOf s n = none → preOf (getC s w) = true →
      exec (i l) s = ends s l w 1 .stay (setDiv (modC s w (fun c => { c with
        held := some .sealedAcc
        stall := some { pops := 2, push := [r], len := 1, divides := some n,
                        fail := if b = 0 then some { vec := 7 } else none } })) n (some d)))) ∧
  (∀ (s : State) (l : Fin 3) (d : Divider), divOf s l.val = some d →
    let w : Who := if d.fast then .fast else .coach d.coach
    let c := getC s w
    (d.precise = false → ∃ t, exec (.divisionComplete l) s = .next t ∧ divOf t l.val = none ∧ SameMemory s t ∧
      SameRegisters s t ∧ SameOthers s t w ∧
      (getC t w).dhead = c.dhead.map (fun e => if e = .div l.val then .val d.result else e) ∧
      (getC t w).imprecise = c.imprecise ++ (if d.byZero then [{ vec := 7, addr := d.pc }] else [])) ∧
    (d.precise = true → ∀ r, c.stall = some { pops := 2, push := [r], len := 1, divides := some l.val } →
      ∃ t, exec (.divisionComplete l) s = .next t ∧ divOf t l.val = none ∧ (getC t w).stall = none ∧
        SameMemory s t ∧ SameRegisters s t ∧ SameOthers s t w ∧
        seen (getC t w) = seen (advance (restack 2 [.val r] c) c.pc 1)) ∧
    (d.precise = true → ∀ r, c.stall = some { pops := 2, push := [r], len := 1, divides := some l.val, fail := some { vec := 7 } } →
      exec (.divisionComplete l) s = .next (settle (raiseItem
        (modC (setDiv s l.val none) w (fun c =>
          { c with stall := none, held := none, waited := false, fetched := [], told := [], routine := none })) w { vec := 7 }))))

/-! ### Control transfer, loops, address and coach registers (R78 to R80, R32 to R34, R41, R105) -/

/-- Branches and jumps go to their target when taken, and else on; calls push the address of the next instruction. -/
def Obligations.ControlTransfer : Prop :=
  ∀ (s : State) (l : LaneUse) (w : Who),
    let k := (getC s w).pc
    let to_ := fun (a : Word) (t : State) => modC t w (fun c => { c with pc := a })
    (∀ i : BitVec 8, Issues s l w 2 → exec (.br l i) s = ends s l w 2 .jump (to_ (k + 2 + i.signExtend 32) s)) ∧
    (∀ i : BitVec 16, Issues s l w 3 → exec (.br16 l i) s = ends s l w 3 .jump (to_ (k + 3 + i.signExtend 32) s)) ∧
    (∀ (f : Word) (i : BitVec 8), Issues s l w 2 → Takes s w [.val f] [] 0 0 →
      let u := modC s w (restack 1 [])
      exec (.bz l i) s = (if f = 0 then ends s l w 2 .jump (to_ (k + 2 + i.signExtend 32) u) else ends s l w 2 .seq u) ∧
      exec (.bnz l i) s = (if f = 0 then ends s l w 2 .seq u else ends s l w 2 .jump (to_ (k + 2 + i.signExtend 32) u))) ∧
    (∀ (f : Word) (i : BitVec 16), Issues s l w 3 → Takes s w [.val f] [] 0 0 →
      let u := modC s w (restack 1 [])
      exec (.bz16 l i) s = (if f = 0 then ends s l w 3 .jump (to_ (k + 3 + i.signExtend 32) u) else ends s l w 3 .seq u) ∧
      exec (.bnz16 l i) s = (if f = 0 then ends s l w 3 .seq u else ends s l w 3 .jump (to_ (k + 3 + i.signExtend 32) u))) ∧
    (∀ i : BitVec 16, Issues s l w 3 → Takes s w [] [] 0 1 →
      exec (.call l i) s = ends s l w 3 .jump (to_ (k + 3 + i.signExtend 32) (modC s w (rerack 0 [.val (k + 3)])))) ∧
    (∀ i : BitVec 24, Issues s l w 4 → Takes s w [] [] 0 1 →
      exec (.call24 l i) s = ends s l w 4 .jump (to_ (k + 4 + i.signExtend 32) (modC s w (rerack 0 [.val (k + 4)])))) ∧
    (∀ a : Word, Issues s l w 1 → Takes s w [.val a] [] 0 1 →
      exec (.callx l) s = ends s l w 1 .jump (to_ a (modC s w (fun c => rerack 0 [.val (k + 1)] (restack 1 [] c))))) ∧
    (∀ a : Word, Issues s l w 1 → Takes s w [.val a] [] 0 0 →
      exec (.jmp l) s = ends s l w 1 .jump (to_ a (modC s w (restack 1 [])))) ∧
    (∀ a : Word, Issues s l w 1 → Takes s w [] [.val a] 0 0 →
      exec (.ret l) s = ends s l w 1 .jump (to_ a (modC s w (rerack 1 []))))

/-- LOOP and LOOP16 take the count and open a loop from the next instruction to the one `imm` bytes on; ENDL closes it. >A,
>B, A+, B+, LITA and LITB write the address registers, with wrapping addition; A> and B> push them, and PCREL pushes an address
relative to the next instruction; none changes anything else. A reserved opcode, alone or behind the escape prefix (`e`),
raises ILLEGAL with reason 1, and 0xFF with reason 2, with nothing changed before. -/
def Obligations.LoopsAddressRegistersReservedCodes : Prop :=
  ((∀ (n : Word) (i : BitVec 8), Replaces (fun l => .loopSet l i) 2 [.val n] [] .seq (fun c => { c with
    lstart := c.pc + 2, lend := c.pc + 2 + i.zeroExtend 32, lcount := n, status := setBit c.status 19 true })) ∧
  (∀ (n : Word) (i : BitVec 16), Replaces (fun l => .loop16 l i) 3 [.val n] [] .seq (fun c => { c with
    lstart := c.pc + 3, lend := c.pc + 3 + i.zeroExtend 32, lcount := n, status := setBit c.status 19 true })) ∧
  (∀ s l w, Issues s l w 1 → exec (.endl l) s = ends s l w 1 .seq (modC s w (fun c => { c with status := setBit c.status 19 false })))) ∧
  ((∀ v, Replaces .toA 1 [.val v] [] .seq (fun c => { c with a := v })) ∧
  (∀ v, Replaces .toB 1 [.val v] [] .seq (fun c => { c with b := v })) ∧
  (∀ v, Replaces .aPlus 1 [.val v] [] .seq (fun c => { c with a := c.a + v })) ∧
  (∀ v, Replaces .bPlus 1 [.val v] [] .seq (fun c => { c with b := c.b + v })) ∧
  (∀ v s l w, Issues s l w 5 → exec (.lita l v) s = ends s l w 5 .seq (modC s w (fun c => { c with a := v }))) ∧
  (∀ v s l w, Issues s l w 5 → exec (.litb l v) s = ends s l w 5 .seq (modC s w (fun c => { c with b := v }))) ∧
  Pushes .aFrom 1 (fun c => c.a) ∧ Pushes .bFrom 1 (fun c => c.b) ∧
  (∀ i : BitVec 16, Pushes (fun l => .pcrel l i) 3 (fun c => c.pc + 3 + i.signExtend 32))) ∧
  (∀ (s : State) (l : LaneUse) (w : Who) (op : BitVec 8) (e : Bool), Issues s l w (if e then 2 else 1) →
    exec (.illegal l op e) s = raises s l w { vec := 1, reason := if op = 0xFF ∧ e = false then 2 else 1 })

/-- GETR pushes the coach register it names: the address of the next instruction for PC, the coach's number for register 19,
and 0 for a register that does not exist. SETR of the registers that are plain, and of KEEPER and CCFG with their reserved
bits dropped, from a ring that may write them; a register that no SETR may write raises ILLEGAL with reason 7. A register of a
lower ring raises PRIV in both, with nothing changed. SETR of STATUS changes HOLD in ring 0 and MASK in rings 0 and 1 only,
else PRIV. In service mode SETR of DSP, RSP, DDEPTH and RDEPTH first spills the head, which a limit may forbid; in strongbox
mode the pointers are loaded alone and the depths are no registers. Readings of the model: log entries 71 and 72. -/
def Obligations.CoachRegisters : Prop :=
  (∀ (s : State) (l : LaneUse) (n : Nat), Issues s l (.coach n) 2 → Takes s (.coach n) [] [] 1 0 →
    let c := coachOf s n
    let column : BitVec 5 → Nat := fun i => if i = 18 then 0 else if i ∈ [6, 7, 8, 9, 15, 16, 17] then 1 else 3
    ∀ (i : BitVec 5) (v : Word),
      (column i < ringOf c → exec (.getr l i) s = raises s l (.coach n) { vec := 9 }) ∧
      (ringOf c ≤ column i → ([c.pc + 2, c.status, c.dsp, c.rsp, c.ddepth, c.rdepth, c.dlim, c.rlim, c.xdsp, c.xrsp, c.a, c.b, c.lstart, c.lend,
        c.lcount, c.wbp, c.wblim, c.keeper, c.ccfg, BitVec.ofNat 32 n] : List Word).getD i.toNat 0 = v →
      exec (.getr l i) s = ends s l (.coach n) 2 .seq (modC s (.coach n) (restack 0 [.val v])))) ∧
  (∀ (s : State) (l : LaneUse) (n : Nat) (v : Word), Issues s l (.coach n) 2 → Takes s (.coach n) [.val v] [] 0 0 →
    let w : Who := .coach n
    let sets := fun (i : BitVec 5) (f : Coach → Coach) =>
      exec (.setr l i) s = ends s l w 2 .seq (modC s w (fun c => f (restack 1 [] c)))
    let c := coachOf s n
    let ring := ringOf c
    let status := sets 1 (fun c => { c with status := (c.status &&& ~~~(0x0001FF3C : Word)) ||| (v &&& 0x0001FF3C) })
    let changes := fun (m : Word) => (v ^^^ c.status) &&& m ≠ 0
    let denied := (1 ≤ ring ∧ changes 0x00010000) ∨ (2 ≤ ring ∧ changes 0x0001FF00)
    let spilled := fun (k : Stk) (u : State) =>
      (do spillAll ⟨w, l.set.val⟩ k : M Unit) (modC s w (restack 1 [])) = .ok ((), u)
    let loads := fun (i : BitVec 5) (u : State) (f : Coach → Coach) => exec (.setr l i) s = ends s l w 2 .seq (modC u w f)
    (denied → exec (.setr l 1) s = raises s l w { vec := 9 }) ∧ (¬ denied → status) ∧
    (svc s = true →
      (∀ u, spilled .d u → loads 2 u (fun d => { d with dsp := v, ddepth := 0 }) ∧ loads 4 u (fun d => { d with ddepth := v })) ∧
      (∀ u, spilled .r u → loads 3 u (fun d => { d with rsp := v, rdepth := 0 }) ∧ loads 5 u (fun d => { d with rdepth := v })) ∧
      (1 < c.dhead.length → c.dsp.toNat < spillLimit s .d c + 4 * (c.dhead.length - 1) → ∀ i : BitVec 5, i ∈ [2, 4] →
        exec (.setr l i) s = raises s l w { vec := 5 }) ∧
      (c.rhead ≠ [] → c.rsp.toNat < spillLimit s .r c + 4 * c.rhead.length → ∀ i : BitVec 5, i ∈ [3, 5] →
        exec (.setr l i) s = raises s l w { vec := 6 })) ∧
    (svc s = false → sets 2 (fun c => { c with dsp := v }) ∧ sets 3 (fun c => { c with rsp := v }) ∧
      ∀ i : BitVec 5, i ∈ [4, 5] → exec (.setr l i) s = raises s l w { vec := 1, reason := 7 }) ∧
    sets 10 (fun c => { c with a := v }) ∧ sets 11 (fun c => { c with b := v }) ∧
    sets 12 (fun c => { c with lstart := v }) ∧ sets 13 (fun c => { c with lend := v }) ∧
    sets 14 (fun c => { c with lcount := v }) ∧
    (ring ≤ 1 → sets 6 (fun c => { c with dlim := v }) ∧ sets 7 (fun c => { c with rlim := v }) ∧
      sets 8 (fun c => { c with xdsp := v }) ∧ sets 9 (fun c => { c with xrsp := v }) ∧
      sets 15 (fun c => { c with wbp := v }) ∧ sets 16 (fun c => { c with wblim := v }) ∧
      sets 17 (fun c => { c with keeper := v &&& 0x3FF })) ∧
    (ring = 0 → sets 18 (fun c => { c with ccfg := v &&& 0x33 })) ∧
    (∀ i : BitVec 5, i = 0 ∨ 19 ≤ i.toNat → exec (.setr l i) s = raises s l w { vec := 1, reason := 7 }) ∧
    (∀ i : BitVec 5, 1 < ring → i ∈ [6, 7, 8, 9, 15, 16, 17, 18] → exec (.setr l i) s = raises s l w { vec := 9 }))

/-! ### Memory: issue and completion (R47 to R52, R76, R77, R81 to R85, R100, R104, R141 to R149) -/

/-- A load from the banks that the owner admits and no pending store of the same issuer overlaps takes the consignment entry
of its coach's own number and leaves pending entries; a load at A or B then advances the register by its size. No byte of
memory and no register but CSH_POOL changes.
Readings of the model: log entry 16. -/
def Obligations.BankLoadsIssue : Prop :=
  ∀ (s : State) (l : LaneUse) (w : Who) (i : Instr) (a : Word) (n : Nat) (sg : Bool) (pops : List Entry)
    (f : Coach → Coach), s.up = true → Issues s l w 1 →
    (i, n, sg, pops, f (getC s w)) ∈
      [(Instr.ldb l, 1, false, [Entry.val a], getC s w), (.ldbs l, 1, true, [.val a], getC s w),
       (.ldh l, 2, false, [.val a], getC s w), (.ldhs l, 2, true, [.val a], getC s w),
       (.ld l, 4, false, [.val a], getC s w), (.ldd l, 8, false, [.val a], getC s w)] ∨
      (pops = [] ∧ sg = false ∧ (getC s w).a = a ∧
        ((i = .ldAInc l ∧ n = 4) ∨ (i = .ldbAInc l ∧ n = 1)) ∧ f (getC s w) = { getC s w with a := a + u32 n }) ∨
      (pops = [] ∧ sg = false ∧ (getC s w).b = a ∧ i = .ldBInc l ∧ n = 4 ∧ f (getC s w) = { getC s w with b := a + u32 n }) →
    Takes s w pops [] (if n = 8 then 2 else 1) 0 →
    AdmitsOpen s l w .load a.toNat n → forward s w a.toNat n = .none →
    let e := numOf s w
    let c := f (getC s w)
    ∃ t, exec i s = .next t ∧ SameMemory s t ∧ (∀ r, r ≠ aCshPool → getR t r = getR s r) ∧ SameOthers s t w ∧
      consOf t e = entryFor s l w (.load sg) a.toNat n 0 ∧
      seen (getC t w) = seen (advance (restack pops.length
        (if n = 8 then [.load e true, .load e false] else [.load e false]) c) (getC s w).pc 1)

/-- A store to the banks that the owner admits, outside the locked vector table, takes the entry of its coach's own number,
which holds address, size and data; the store itself is performed at its completion, so that memory is as before.
Readings of the model: log entry 16. -/
def Obligations.BankStoresIssue : Prop :=
  ∀ (s : State) (l : LaneUse) (w : Who) (i : Instr) (a v v2 : Word) (n : Nat) (d : DWord) (pops : List Entry)
    (f : Coach → Coach), s.up = true → Issues s l w 1 →
    (i, n, d, pops, f (getC s w)) ∈
      [(Instr.stb l, 1, (v.truncate 8).zeroExtend 64, [Entry.val a, .val v], getC s w),
       (.sth l, 2, (v.truncate 16).zeroExtend 64, [.val a, .val v], getC s w),
       (.st l, 4, v.zeroExtend 64, [.val a, .val v], getC s w),
       (.std l, 8, mkD v2 v, [.val a, .val v2, .val v], getC s w)] ∨
      (pops = [.val v] ∧ (getC s w).a = a ∧ i = .stAInc l ∧ n = 4 ∧ d = v.zeroExtend 64 ∧
        f (getC s w) = { getC s w with a := a + 4 }) ∨
      (pops = [.val v] ∧ (getC s w).b = a ∧ ((i = .stBInc l ∧ n = 4 ∧ d = v.zeroExtend 64) ∨
        (i = .stbBInc l ∧ n = 1 ∧ d = (v.truncate 8).zeroExtend 64)) ∧ f (getC s w) = { getC s w with b := a + u32 n }) →
    Takes s w pops [] 0 0 → (vtlock s && inVectors a.toNat n) = false →
    AdmitsOpen s l w .store a.toNat n →
    ∃ t, exec i s = .next t ∧ SameMemory s t ∧ (∀ r, r ≠ aCshPool → getR t r = getR s r) ∧ SameOthers s t w ∧
      consOf t (numOf s w) = entryFor s l w .store a.toNat n d ∧
      seen (getC t w) = seen (advance (restack pops.length [] (f (getC s w))) (getC s w).pc 1)

/-- The completion of a load from one bank with clean words delivers the bytes that memory holds, extended as the
instruction says, to every entry that waits for them, and frees the consignment. That of a store writes its bytes, and no
other byte changes.
Readings of the model: log entry 16. -/
def Obligations.BankCompletion : Prop :=
  ∀ (s : State) (e : Fin 3072) (count : BitVec 16),
    let k := consOf s e.val
    let w := consWho k
    s.up = true → k.used = true → k.gen = count.toNat → k.done = none → k.early = none → k.orphan = false →
    (k.fast = true → s.fastOn ≠ none) → region k.addr = some .bank → bankParts k.addr k.size = [(k.addr, k.size)] →
    (bankN s (bankOf k.addr)).pwr = 0 → (∀ x ∈ wordsOf k.addr k.size, eccAt s x = 0) → behind s k = false →
    retrying s e.val = false → heldBack s k = false → (getC s w).out = [] →
    (∀ sg, k.kind = .load sg →
      let d : DWord := BitVec.ofNat 64 (rdN s k.addr k.size)
      ∃ t, exec (.consignmentCompletion e count .none .none) s = .next t ∧ SameMemory s t ∧ consOf t e.val = { gen := k.gen } ∧
        SameOthers s t w ∧
        seen (getC t w) = seen { getC s w with
          dhead := fillHead e.val (extend sg k.size d) (hiW d) (getC s w).dhead
          rhead := fillHead e.val (extend sg k.size d) (hiW d) (getC s w).rhead }) ∧
    (k.kind = .store → copying s (bankOf k.addr) = false →
      ∃ t, exec (.consignmentCompletion e count .none .none) s = .next t ∧ consOf t e.val = { gen := k.gen } ∧ SameContexts s t ∧
        (∀ j, j < k.size → rdB t (k.addr + j) = BitVec.ofNat 8 (k.data.toNat / 256 ^ j)) ∧
        (∀ b, b < k.addr ∨ k.addr + k.size ≤ b → rdB t b = rdB s b))

/-- A completion whose entry the Keystone refused at acceptance, and a timeout, fail: the failure of a store is delivered to
its issuer as an imprecise exception with the address, ACCESS for status 3 and TIMEOUT for status 4. So does a completion
whose table entry's copies differ beyond correction: status 2 (ECCERR), counted in CSH_TBLERR.UNCORR. A timeout counts in
CSH_TMOCNT and triggers source 8. A completion that names no current consignment counts in CSH_LATE and triggers source 9;
no context's registers change. The access of a store that so completes may have been performed, or may still be: then its
late completion performs it. An access that receives BUSY at the C port is tried again, and counted, up to 8 times; a
store then fails with status 1, is counted in BNK_BUSY's upper half, and raises BUSERR imprecisely.
Readings of the model: log entries 16 and 63. -/
def Obligations.FailingConsignments : Prop :=
  (∀ (s : State) (e : Fin 3072) (count : BitVec 16) (u : Upset),
    let k := consOf s e.val
    let w := consWho k
    let undecided := fun (t : State) =>
      ((k.early ≠ none ∨ region k.addr = some .host) → t.mem = s.mem ∧ t.lateAcc = s.lateAcc) ∧
      (k.early = none → region k.addr ≠ some .host → (t.mem = s.mem ∧ t.lateAcc = s.lateAcc ++ [(e.val, k)]) ∨
        (t.mem = (performAt (freeD s).2 k).1.mem ∧ t.lateAcc = s.lateAcc))
    s.up = true → s.bne.ops = [] → (∀ x ∈ s.cons, x.2.kind.isBnop = false) → (getC s w).out = [] →
    (k.used = true → k.gen = count.toNat → k.done = none → k.orphan = false → k.fast = false → k.kind = .store →
      (k.early = some 3 → ∃ t, exec (.consignmentCompletion e count u .none) s = .next t ∧ consOf t e.val = { gen := k.gen } ∧
        SameMemory s t ∧ (getC t w).imprecise = (getC s w).imprecise ++
          [{ vec := 3, cstat := 3, addr := u32 k.addr, info := k.earlyInfo ||| finfo k.size e.val, write := true }]) ∧
      (sealedEntry k = false → ∃ t, exec (.consignmentCompletion e count u .double) s = .next t ∧ undecided t ∧
        consOf t e.val = { gen := k.gen } ∧
        fld (getR t aCshTblerr) 16 16 = satAdd 65535 (fld (getR s aCshTblerr) 16 16) 1 ∧
        (getC t w).imprecise = (getC s w).imprecise ++
          [{ vec := 11, cstat := 2, addr := u32 k.addr, info := finfo k.size e.val, write := true }]) ∧
      (k.first = none → k.tmo = false → k.early = none → sealedEntry k = false → retrying s e.val = false →
        ∃ t, exec (.consignmentTimeout (.entry e false) .none) s = .next t ∧
        undecided t ∧ consOf t e.val = { gen := k.gen } ∧
        fld (getR t aCshTmocnt) 0 32 = satAdd (2 ^ 32 - 1) (getR s aCshTmocnt).toNat 1 ∧
        (srcOf t 8).edgecnt = (srcOf s 8).edgecnt + 1 ∧
        (getC t w).imprecise = (getC s w).imprecise ++
          [{ vec := 12, cstat := 4, addr := u32 k.addr, info := finfo k.size e.val, write := true }])) ∧
    (k.used = false ∨ k.gen ≠ count.toNat → (∀ x ∈ s.lateAcc, x.1 = e.val → x.2.gen ≠ count.toNat) →
      ∃ t, exec (.consignmentCompletion e count u .none) s = .next t ∧ SameContexts s t ∧ SameMemory s t ∧
        fld (getR t aCshLate) 0 32 = satAdd (2 ^ 32 - 1) (getR s aCshLate).toNat 1 ∧
        (srcOf t 9).edgecnt = (srcOf s 9).edgecnt + 1) ∧
    (∀ q : Cons, k.used = false ∨ k.gen ≠ count.toNat → s.lateAcc = [(e.val, q)] → q.gen = count.toNat → unitReady s q = true →
      ∃ t, exec (.consignmentCompletion e count u .none) s = .next t ∧ t.lateAcc = [] ∧
        t.mem = (performAt { s with lateAcc := [] } q).1.mem)) ∧
  (∀ (s : State) (e : Fin 3072) (r : Rival),
    let k := consOf s e.val
    s.up = true → s.bne.ops = [] → (∀ x ∈ s.cons, x.2.kind.isBnop = false) → loses .c true false r = true →
    (getC s (consWho k)).out = [] → k.used = true → k.done = none → k.early = none → k.orphan = false → k.fast = false → k.kind = .store →
    region k.addr = some .bank →
    (k.tries < 8 → ∃ t, exec (.bankCRetry ⟨.entry e false, r⟩) s = .next t ∧ SameMemory s t ∧ SameContexts s t ∧
      consOf t e.val = { k with tries := k.tries + 1, half := false } ∧
      fld (getR t aBnkBusy) 0 16 = satAdd 65535 (fld (getR s aBnkBusy) 0 16) 1) ∧
    (8 ≤ k.tries → ∃ t, exec (.bankCRetry ⟨.entry e false, r⟩) s = .next t ∧ SameMemory s t ∧ consOf t e.val = { gen := k.gen } ∧
      fld (getR t aBnkBusy) 16 16 = satAdd 65535 (fld (getR s aBnkBusy) 16 16) 1 ∧
      (getC t (.coach k.coach)).imprecise = (getC s (.coach k.coach)).imprecise ++
        [{ vec := 10, cstat := 1, addr := u32 k.addr, info := finfo k.size e.val, write := true }]))

/-- LDP and LDPD of a bank address take the lowest free entry of the shared pool and push its ticket. TAKE of a ticket whose
consignment completed with status 0 pushes its data and frees the entry; TEST pushes whether it has completed, and an
invalid ticket raises ILLEGAL with reason 4.
Readings of the model: log entry 8. -/
def Obligations.Tickets : Prop :=
  ∀ (s : State) (l : LaneUse) (w : Who), s.up = true → Issues s l w 1 →
    let m := numOf s w
    (∀ (a : Word) (wide : Bool) (e : Nat), let n := if wide then 8 else 4
      Takes s w [.val a] [] 1 0 → regionN a.toNat n = some .bank → forward s w a.toNat n = .none →
      ownerRefusal s (reqOf s ⟨w, l.set.val⟩) a.toNat n .load = none → ticketsHeld s m < quotaOf s m - 1 →
      entriesHeld s m < quotaOf s m → poolEntry s = some e → queued s 5 < 8 →
      let g := ((consOf s e).gen + 1) % 65536
      ∃ t, exec (if wide then .ldpd l else .ldp l) s = .next t ∧ SameMemory s t ∧ SameOthers s t w ∧
        consOf t e = entryIn s l w e (.ldp wide) a.toNat n 0 ∧
        seen (getC t w) = seen (advance (restack 1 [.val (BitVec.ofNat 32
          ((if wide then 2 ^ 31 else 0) + m * 2 ^ 16 + g % 16 * 2 ^ 12 + e))] (getC s w)) (getC s w).pc 1)) ∧
    (∀ (v : Word) (e : Nat) (d : DWord), ticketEntry s ⟨w, l.set.val⟩ v = some e → (consOf s e).done = some 0 →
      (consOf s e).data = d →
      ((consOf s e).kind = .ldp false → Takes s w [.val v] [] 1 0 →
        exec (.takeTicket ⟨l, .none⟩) s = ends s l w 1 .seq (freeCons (modC s w (restack 1 [.val (loW d)])) e)) ∧
      ((consOf s e).kind = .ldp true → Takes s w [.val v] [] 2 0 →
        exec (.takeTicket ⟨l, .none⟩) s = ends s l w 1 .seq (freeCons (modC s w (restack 1 [.val (hiW d), .val (loW d)])) e))) ∧
    (∀ (v : Word) (e : Nat), Takes s w [.val v] [] 2 0 → ticketEntry s ⟨w, l.set.val⟩ v = some e →
      exec (.testTicket ⟨l, .none⟩) s = ends s l w 1 .seq (modC s w (restack 1
        [.val (if (consOf s e).done.isSome then 0xFFFFFFFF else 0), .val v]))) ∧
    (∀ (v : Word) (u : Upset), Takes s w [.val v] [] 2 0 → ticketEntry s ⟨w, l.set.val⟩ v = none →
      exec (.takeTicket ⟨l, u⟩) s = raises s l w { vec := 1, reason := 4 } ∧
      exec (.testTicket ⟨l, u⟩) s = raises s l w { vec := 1, reason := 4 })

/-- FENCE ends at once when every consignment of its issuer has completed and no imprecise exception is pending; of those that
are it raises the oldest, which is thereby taken unless the waybill chain is full. While a consignment is open it waits, HELD,
without a boundary before its end.
Readings of the model: log entry 20. -/
def Obligations.FenceWaits : Prop :=
  ∀ (s : State) (l : LaneUse) (w : Who), Issues s l w 1 →
    let es := openOf s w (fun _ => true)
    (es = [] → (getC s w).imprecise = [] → exec (.fence l) s = ends s l w 1 .seq s) ∧
    (∀ i r, es = [] → (getC s w).imprecise = i :: r → exec (.fence l) s =
      let t := raiseItem (modC s w (fun c => takeItem c i)) w i
      ends s l w 1 .gone (if fullChain t w then raiseItem s w i else t)) ∧
    (es ≠ [] → exec (.fence l) s = .next (settle (setGap
      (modC s w (fun c => { c with drain := true, held := some (.cons es), step := false })) l.set.val false)))

/-- An atomic on an aligned bank word outside the locked vector table, after all earlier accesses of its issuer, takes an
entry and stalls its coach. Its completion reads the word, writes what R100 says, and pushes the old value; no other byte
changes.
Readings of the model: log entries 16 and 27. -/
def Obligations.Atomics : Prop :=
  (∀ (s : State) (l : LaneUse) (w : Who) (a v x : Word) (i : Instr) (op : AtomicOp) (pops : List Entry) (y : Word),
    (i, op, pops, y) ∈ [(Instr.cas l, AtomicOp.cas, [Entry.val a, .val v, .val x], x), (.fadd l, .fadd, [.val a, .val v], 0),
      (.xchg l, .xchg, [.val a, .val v], 0), (.fand l, .fand, [.val a, .val v], 0), (.forOp l, .for_, [.val a, .val v], 0)] →
    s.up = true → Issues s l w 1 → Takes s w pops [] 1 0 → (vtlock s && inVectors a.toNat 4) = false → a.toNat % 4 = 0 →
    openOf s w (fun _ => true) = [] → AdmitsOpen s l w .atomic a.toNat 4 →
    ∃ t, exec i s = .next t ∧ SameMemory s t ∧ SameContexts s t ∧
      consOf t (numOf s w) = entryFor s l w (.atomic op v y) a.toNat 4 0 ∧ (getC t w).held = some .sealedAcc ∧
      (getC t w).stall = some { pops := pops.length, push := [0], len := 1, waits := some (numOf s w) }) ∧
  (∀ (s : State) (e : Fin 3072) (count : BitVec 16) (op : AtomicOp) (v y : Word) (p : Nat),
    let k := consOf s e.val
    let w := consWho k
    s.up = true → k.used = true → k.gen = count.toNat → k.done = none → k.early = none → k.orphan = false →
    k.kind = .atomic op v y → k.size = 4 → region k.addr = some .bank → k.addr % 4 = 0 →
    (bankN s (bankOf k.addr)).pwr = 0 → eccAt s (k.addr / 8 * 8) = 0 → behind s k = false →
    retrying s e.val = false → heldBack s k = false → (getC s w).out = [] → copying s (bankOf k.addr) = false →
    (getC s w).stall = some { pops := p, push := [0], len := 1, waits := some e.val } →
    let old := rd32 s k.addr
    let new := match op with | .cas => if old = y then v else old | .fadd => old + v | .xchg => v | .fand => old &&& v | .for_ => old ||| v
    ∃ t, exec (.consignmentCompletion e count .none .none) s = .next t ∧ rd32 t k.addr = new ∧
      (∀ b, b < k.addr ∨ k.addr + 4 ≤ b → rdB t b = rdB s b) ∧ (getC t w).stall = none ∧ SameOthers s t w ∧
      seen (getC t w) = seen (advance (restack p [.val old] (getC s w)) (getC s w).pc 1))

/-- CSRR, CSRW, CSRRI and CSRWI of a register that the ring may access, in a unit that is always on, stall their coach for
the unit's response, once the outbound queue of its island has room. The response to a read, which nothing sent before it to
that island holds back, pushes the word that the register answers; the response to a write of
RNG_GSTAGE[k] stores the value there. No byte of memory changes.
Readings of the model: log entry 19. -/
def Obligations.ControlSpaceAccess : Prop :=
  (∀ (s : State) (l : LaneUse) (w : Who) (a v : Word) (r : Reg), regOf a.toNat = some r → ringOf (getC s w) ≤ r.ring →
    a.toNat % 4 = 0 → regionN a.toNat 4 = some .csr → csrSwitch a.toNat = none → l.set = 0 → a.toNat ≠ aSvoCmd →
    openOf s w (toIsland (csrUnit a.toNat)) = [] → queued s (islandOf a.toNat) < 8 →
    let stalled := fun (len : Nat) (st : Stall) =>
      ends s l w len .stay (modC { s with order := s.order + 1 } w (fun c =>
        { c with stall := some { st with order := s.order }, held := some .sealedAcc }))
    (Issues s l w 1 → Takes s w [.val a] [] 1 0 →
      exec (.csrr l) s = stalled 1 { pops := 1, push := [0], len := 1, op := some (.read a.toNat) }) ∧
    (Issues s l w 1 → Takes s w [.val a, .val v] [] 0 0 →
      exec (.csrw l) s = stalled 1 { pops := 2, push := [], len := 1, op := some (.write a.toNat v) }) ∧
    (∀ i : BitVec 24, a = 0xE0000000 + i.zeroExtend 32 → Issues s l w 4 →
      (Takes s w [] [] 1 0 →
        exec (.csrri l i) s = stalled 4 { pops := 0, push := [0], len := 4, op := some (.read a.toNat) }) ∧
      (Takes s w [.val v] [] 0 0 →
        exec (.csrwi l i) s = stalled 4 { pops := 1, push := [], len := 4, op := some (.write a.toNat v) }))) ∧
  (∀ (s : State) (c : BitVec 10) (p len q : Nat) (n : Fin 6) (u : Upset), s.up = true →
    let w := whoOf s c.toNat
    let k := getC s w
    (∀ a, let st : Stall := { pops := p, push := [0], len := len, op := some (.read a), order := q }
      k.stall = some st → sealedBack s st = false →
      ∃ t, exec (.sealedResponse c n u) s = .next t ∧ (getC t w).stall = none ∧ SameMemory s t ∧
        (getC t w).dhead = .val (readReg s w a).2 :: k.dhead.drop p) ∧
    (∀ (j : Fin 4) (v : Word), let st : Stall := { pops := p, push := [], len := len, op := some (.write (aRngGstage + 4 * j.val) v), order := q }
      k.stall = some st → sealedBack s st = false →
      ∃ t, exec (.sealedResponse c n u) s = .next t ∧ (getC t w).stall = none ∧ SameMemory s t ∧
        getR t (aRngGstage + 4 * j.val) = v ∧ seen (getC t w) = seen (advance (restack p [] k) k.pc len)))

/-! ### Coaches (R56 to R58, R92 to R96, R128, R133) -/

/-- YIELD sends its coach to the tail of its queue; WAIT takes the wake word, or waits with PC unchanged while no bit is
set; the fast context may do neither. WAKE sets bit WAKE of a coach; a thread in ring 3 may wake its own group only. ARM
arms the timer, disarms it for 0, and fires it for a time that has passed. BRK raises BREAK with its code, after its own PC and loop have
been dealt with; one that meets a full waybill chain raises it without that, and runs again.
Readings of the model: log entries 24 and 25. -/
def Obligations.SchedulingInstructions : Prop :=
  ∀ (s : State) (l : LaneUse) (n : Nat) (w : Who),
    (Issues s l (.coach n) 1 → exec (.yield l) s = ends s l (.coach n) 1 .seq (makeReady s n)) ∧
    (Issues s l (.coach n) 1 → Takes s (.coach n) [] [] 1 0 →
      ((coachOf s n).wake ≠ 0 → exec (.waitWake l) s = ends s l (.coach n) 1 .seq (modC s (.coach n) (fun c =>
        { restack 0 [.val ((coachOf s n).wake.zeroExtend 32)] c with wake := 0 }))) ∧
      ((coachOf s n).wake = 0 → ∃ t, exec (.waitWake l) s = .next t ∧ (coachOf t n).st = .wait ∧ SameContexts s t ∧
        SameMemory s t ∧ SameRegisters s t)) ∧
    (Issues s l .fast 1 → exec (.yield l) s = raises s l .fast { vec := 9 } ∧
      exec (.waitWake l) s = raises s l .fast { vec := 9 }) ∧
    (∀ v : Word, Issues s l w 1 → Takes s w [.val v] [] 0 0 →
      (v.toNat < 1024 → (ringOf (getC s w) ≠ 3 ∨ v.toNat / 32 = numOf s w / 32) →
        exec (.wake l) s = ends s l w 1 .seq (wake (modC s w (restack 1 [])) v.toNat 8)) ∧
      (v.toNat < 1024 → ringOf (getC s w) = 3 → v.toNat / 32 ≠ numOf s w / 32 →
        exec (.wake l) s = raises s l w { vec := 9 }) ∧
      (1024 ≤ v.toNat → exec (.wake l) s = raises s l w { vec := 1, reason := 5 })) ∧
    (∀ lo hi : Word, Issues s l w 1 → Takes s w [.val hi, .val lo] [] 0 0 →
      let m : Who := .coach (numOf s w)
      let u := modC s w (restack 2 [])
      let t := fun d : Option DWord => modC u m (fun c => { c with timer := d })
      (mkD hi lo = 0 → exec (.arm l) s = ends s l w 1 .seq (t none)) ∧
      (s.mls.time.toNat < (mkD hi lo).toNat → exec (.arm l) s = ends s l w 1 .seq (t (some (mkD hi lo)))) ∧
      (mkD hi lo ≠ 0 → (mkD hi lo).toNat ≤ s.mls.time.toNat →
        exec (.arm l) s = ends s l w 1 .seq (wake (t none) (numOf s w) 4))) ∧
    (∀ i : BitVec 8, Issues s l w 2 → exec (.brk l i) s =
      let x : XItem := { vec := 15, reason := i }
      let t := raiseItem (modC s w (fun c => advance c c.pc 2)) w x
      ends s l w 2 .gone (if fullChain t w then raiseItem s w x else t))

/-- SPAWN of a coach that holds no thread loads it from its descriptor and makes it READY, and pushes true; it pushes false
when the coach cannot take a thread. KILL of another coach at a boundary, by a ring below 2 or its keeper, frees the coach: it
keeps its registers, loses its heads, and its open consignments are discarded. KILL of coach 0, or by another, raises PRIV; of a
coach without a thread it changes nothing.
Readings of the model: log entry 17, and 22 for what a killed coach keeps. -/
def Obligations.SpawnAndKill : Prop :=
  (∀ (s : State) (l : LaneUse) (w : Who) (v d : Word), Issues s l w 1 → Takes s w [.val v, .val d] [] 1 0 →
    v.toNat < 1024 → ringOf (getC s w) ≤ 1 →
    let n := v.toNat
    let g := fun k => rd32 s (d.toNat + 4 * k)
    (vacantCoach s n = false → exec (.spawn l) s = ends s l w 1 .seq (modC s w (restack 2 [.val 0]))) ∧
    (vacantCoach s n = true → w ≠ .coach n → d.toNat % 64 = 0 → Accessible s w (reqOf s ⟨w, l.set.val⟩) .load d.toNat 64 →
      ringOf (getC s w) ≤ fld (g 1) 0 2 → (bit (g 1) 16 = true → ringOf (getC s w) = 0) → g 1 &&& 0xFFFE00C0 = 0 →
      g 10 &&& 0xFFFFFC00 = 0 → g 11 &&& 0xFFFFFFCC = 0 → (g 12).toNat % 64 = 0 → bankRange (g 12).toNat 192 = true →
      ∃ t, exec (.spawn l) s = .next t ∧ ((coachOf t n).st = .ready ∨ (coachOf t n).st = .run) ∧ SameMemory s t ∧
        seen (coachOf t n) = ([g 0, g 1, g 2, g 3, 1, 0, g 4, g 5, g 6, g 7, g 14, g 15, 0, 0, 0, g 8, g 9, g 10, g 11,
          0, 0, 0], [.val (g 13)], []) ∧
        getR t (aCshParka + 4 * n) = g 12 ∧ (∀ a, a ≠ aCshParka + 4 * n → a ≠ aCshPool → getR t a = getR s a) ∧
        seen (getC t w) = seen (advance (restack 2 [.val 0xFFFFFFFF] (getC s w)) (getC s w).pc 1) ∧
        (∀ x, x ≠ w → x ≠ .coach n → seen (getC t x) = seen (getC s x)))) ∧
  ∀ (s : State) (l : LaneUse) (w : Who) (v : Word), Issues s l w 1 → Takes s w [.val v] [] 0 0 → v.toNat < 1024 →
    let n := v.toNat
    let may := ringOf (getC s w) ≤ 1 ∨ fld (coachOf s n).keeper 0 10 = numOf s w
    (n = 0 ∨ ¬ may → exec (.kill l) s = raises s l w { vec := 9 }) ∧
    (n ≠ 0 → may → (coachOf s n).st = .free ∨ (coachOf s n).st = .parked →
      exec (.kill l) s = ends s l w 1 .seq (modC s w (restack 1 []))) ∧
    (n ≠ 0 → may → (coachOf s n).st ≠ .free → (coachOf s n).st ≠ .parked → fastHeld s n = false → w ≠ .coach n →
      (coachOf s n).stall = none → (coachOf s n).drain = false →
      ∃ t, exec (.kill l) s = .next t ∧ (coachOf t n).st = .free ∧ SameMemory s t ∧
        seen (coachOf t n) = (regList (coachOf s n) ++ [(coachOf s n).xcause, (coachOf s n).xaddr, (coachOf s n).xinfo], [], []) ∧
        seen (getC t w) = seen (advance (restack 1 [] (getC s w)) (getC s w).pc 1) ∧
        (∀ x, x ≠ w → x ≠ .coach n → seen (getC t x) = seen (getC s x)) ∧
        (∀ e, (consOf t e).used = true → (consOf t e).coach = n → (consOf t e).orphan = true))

/-- Coach 0 cannot be killed, parked or halted by request: PARK executed by it, and PARKC and KILL of it, raise PRIV, and a
write of 0 to CSH_HALTREQ is ignored. -/
def Obligations.CoachZeroIsExempt : Prop :=
  (∀ (s : State) (l : LaneUse) (w : Who),
    (Issues s l (.coach 0) 1 → exec (.park l) s = raises s l (.coach 0) { vec := 9 }) ∧
    (Issues s l w 1 → Takes s w [.val 0] [] 1 0 → exec (.parkc l) s = raises s l w { vec := 9 }) ∧
    (Issues s l w 1 → Takes s w [.val 0] [] 0 0 → exec (.kill l) s = raises s l w { vec := 9 })) ∧
  (∀ (s : State) (c : BitVec 10) (v : Word), MayAccess s c 0 → fld v 0 10 = 0 →
    exec (.cshHaltreq c v) s = .next (settle s))

/-- PARK, and PARKC of another coach at a boundary or of its own, write the image of R56 once every consignment of the coach
has completed without failure and its heads are spilled (state `u`), and leave the coach PARKED. A coach that parks itself goes
on after its instruction, under the loop-back decision. UNPARK loads an image that passes the check into a coach without a
thread, and into one that the image does not come from stores the new ORIGIN.
Readings of the model: log entries 17 and 22. -/
def Obligations.ParkAndUnpark : Prop :=
  (∀ (s s1 u : State) (l : LaneUse) (n k : Nat) (w : Who) (i : Instr) (f : Coach → Coach),
    let c := coachOf s n
    let on := modC s w (fun c => advance c c.pc 1)
    (i = .park l ∧ w = .coach n ∧ k = l.set.val ∧ s1 = on ∧ f = id) ∨
      (i = .parkc l ∧ n < 1024 ∧ Takes s w [.val (u32 n)] [] 1 0 ∧
        (ringOf (getC s w) = 0 ∨ fld c.keeper 0 10 = numOf s w) ∧ c.st.live = true ∧ fastHeld s n = false ∧
        ((w ≠ .coach n ∧ c.stall = none ∧ c.drain = false ∧ k = laneOfCoach s n ∧ s1 = modC s w id ∧ f = id) ∨
         (w = .coach n ∧ k = l.set.val ∧ s1 = on ∧ f = restack 1 [.val 0xFFFFFFFF]))) →
    Issues s l w 1 → n ≠ 0 → openOf s (.coach n) (fun _ => true) = [] → c.out = [] →
    (∀ e ∈ s.div, ∀ d, e.2 = some d → d.coach ≠ n) → parkFailure s n = none →
    (do spillAll ⟨.coach n, k⟩ .d true; spillAll ⟨.coach n, k⟩ .r true : M Unit)
      (modC (dropTickets s1 n) (.coach n) (fun c => f { c with out := [] })) = .ok ((), u) →
    let a := (getR s (aCshParka + 4 * n)).toNat
    Accessible u (.coach n) ⟨n, ringOf c, decide (k ≠ 0)⟩ .store a 192 →
    ∃ t, exec i s = .next t ∧ (coachOf t n).st = .parked ∧
      (∀ j, j < 48 → rd32 t (a + 4 * j) = (parkImage u n a).getD j 0) ∧
      (∀ b, b < spareBase → b < a ∨ a + 192 ≤ b → rdB t b = rdB u b)) ∧
  (∀ (s : State) (l : LaneUse) (w : Who) (a v : Word), Issues s l w 1 → Takes s w [.val v, .val a] [] 0 0 →
    v.toNat < 1024 → vacantCoach s v.toNat = true → w ≠ .coach v.toNat → a.toNat % 64 = 0 →
    Accessible s w (reqOf s ⟨w, l.set.val⟩) .load a.toNat 192 →
    let g := fun k => rd32 s (a.toNat + 4 * k)
    let r := ringOf (getC s w)
    imageOk ((List.range 24).map (fun k => rd64 s (a.toNat + 8 * k))) = true →
    (1 < r → fld (g 38) 0 10 = numOf s w) → (r ≠ 0 → fld (g 40) 0 10 = v.toNat) →
    ∃ t, exec (.unpark l) s = .next t ∧ (coachOf t v.toNat).st.live = true ∧ SameMemory s t ∧
      getR t (aCshParka + 4 * v.toNat) = a ∧
      (fld (g 40) 0 10 ≠ v.toNat → NewStore s t w (a.toNat + 0xA0) 4 (BitVec.ofNat 64 (0x10000 + v.toNat))) ∧
      seen (coachOf t v.toNat) = ([g 0, setBit (g 1) 18 false, g 2, g 3, g 4, g 5, g 32, g 33, g 34, g 35, g 6, g 7, g 8, g 9,
        g 10, g 36, g 37, g 38, g 39, 0, 0, 0], (List.range (fld (g 11) 0 4)).map (fun i => .val (g (12 + i))),
        (List.range (fld (g 11) 8 4)).map (fun i => .val (g (20 + i)))))

/-! ### Gates and returns (R97 to R99, R155 to R159, R175, R176, R182) -/

/-- GATE n through a present entry that admits the ring enters the routine in the entry's ring, with the caller's STATUS and
return address on the return stack; where the entry switches stacks (bit 30, off the exception stack), the caller's stack
registers lie below them on the exception stack, the two deepest in stores that the gate issues. A number beyond RNG_GATECNT raises GATE with reason 1.
Readings of the model: log entry 17. -/
def Obligations.GateEntry : Prop :=
  ∀ (s : State) (l : LaneUse) (w : Who) (i : BitVec 16), s.up = true → Issues s l w 3 →
    let c := getC s w
    let n := i.toNat % 1024
    let a := (getR s aRngGatebase).toNat + 16 * n
    let g := fun k => rd32 s (a + 4 * k)
    let ret := c.pc + 3
    (1024 ≤ i.toNat → exec (.gate l i) s = raises s l w { vec := 1, reason := 6 }) ∧
    (i.toNat < 1024 → fld (getR s aRngGatecnt) 0 11 ≤ n → exec (.gate l i) s = raises s l w { vec := 8, reason := 1 }) ∧
    (i.toNat < 1024 → n < fld (getR s aRngGatecnt) 0 11 → regionN a 16 = some .rom ∨ Accessible s w ⟨numOf s w, 0, decide (l.set ≠ 0)⟩ .load a 16 →
      bit (g 1) 31 = true → g 1 &&& 0x38F0FCFF = 0 → g 3 = g 0 ^^^ g 1 ^^^ g 2 ^^^ 0x6A7E0000 ^^^ u32 n →
      bit (g 1) (16 + ringOf c) = true → fld (g 1) 8 2 ≤ ringOf c →
      (bit (g 1) 30 = false ∨ switches s ⟨w, l.set.val⟩ = false → Takes s w [] [] 0 2 →
        exec (.gate l i) s = ends s l w 3 .jump (modC s w (fun d => { rerack 0 [.val ret, .val (setBit c.status 6 false)] d with
          status := setFld c.status 0 2 (fld (g 1) 8 2), pc := g 0 }))) ∧
      (∀ (args : List Word) (u : State), bit (g 1) 30 = true → switches s ⟨w, l.set.val⟩ = true →
        args.length = fld (g 1) 24 3 → Takes s w (args.map .val) [] 0 0 →
        (do spillAll ⟨w, l.set.val⟩ .d; spillAll ⟨w, l.set.val⟩ .r : M Unit) (modC s w (restack args.length [])) = .ok ((), u) →
        let k := getC u w
        let x := k.xrsp.toNat
        2 ≤ xcapOf u .r → 8 ≤ x → Storable u l w (x - 8) 8 →
        ∃ t, exec (.gate l i) s = .next t ∧ SameMemory u t ∧
          NewStore u t w (x - 4) 4 (k.dsp.zeroExtend 64) ∧ NewStore u t w (x - 8) 4 (k.ddepth.zeroExtend 64) ∧
          (getC t w).rhead = [.val ret, .val (setBit k.status 6 true), .val k.rdepth, .val k.rsp] ∧
          (getC t w).dhead = args.map .val ∧ (getC t w).pc = g 0 ∧ (getC t w).status = setFld k.status 0 2 (fld (g 1) 8 2) ∧
          (getC t w).dsp = k.xdsp ∧ (getC t w).rsp = k.xrsp - 8 ∧ (getC t w).ddepth = u32 args.length ∧
          (getC t w).rdepth = 6))

/-- RETG takes return address and STATUS from the return stack: a link of a higher ring or the same one. RETX from a handler
in service mode restores the frame below WBP when nothing pending is admitted under its STATUS; in strongbox mode it leaves
the most recently entered level; in the fast context it ends the handler.
Readings of the model: log entry 17. -/
def Obligations.Returns : Prop :=
  ∀ (s : State) (l : LaneUse),
    (∀ (w : Who) (ret st : Word), Issues s l w 1 → Takes s w [] [.val ret, .val st] 0 0 →
      (fld st 0 2 < ringOf (getC s w) → exec (.retg l) s = raises s l w { vec := 8, reason := 7 }) ∧
      (ringOf (getC s w) ≤ fld st 0 2 → bit st 6 = false →
        exec (.retg l) s = ends s l w 1 .jump (modC s w (fun c =>
          { syncImprc { rerack 2 [] c with status := st &&& 0x000FFF3F } with pc := ret })))) ∧
    (∀ (w : Who) (ret st rd sr : Word) (res : List Word), Issues s l w 1 → headOnly s w = false →
      let c := getC s w
      c.rhead = [.val ret, .val st, .val rd, .val sr] → c.rdepth = 6 → c.dhead = res.map .val → res.length ≤ 8 →
      c.ddepth = u32 res.length → bit st 6 = true → ringOf c ≤ fld st 0 2 →
      c.rsp.toNat + 8 < 2 ^ 32 → Accessible s w (reqOf s ⟨w, l.set.val⟩) .load c.rsp.toNat 8 →
      ∃ t, exec (.retg l) s = .next t ∧ SameMemory s t ∧ SameRegistersBut [aCshPool] s t ∧ SameOthers s t w ∧ (getC t w).pc = ret ∧
        (getC t w).status = setBit (st &&& 0x000FFF3F) 18 (!c.imprecise.isEmpty) ∧ (getC t w).dhead = res.map .val ∧
        (getC t w).rhead = [] ∧ (getC t w).dsp = rd32 s (c.rsp.toNat + 4) ∧ (getC t w).rsp = sr ∧
        (getC t w).ddepth = rd32 s c.rsp.toNat + u32 res.length ∧ (getC t w).rdepth = rd) ∧
    (∀ n, svc s = true → s.up = true → Issues s l (.coach n) 1 →
      let c := coachOf s n
      let a := (c.wbp - 128).toNat
      let g := fun k => rd32 s (a + 4 * k)
      (bit c.status 17 = false → exec (.retx l) s = raises s l (.coach n) { vec := 14, reason := 1 }) ∧
      (bit c.status 17 = true → Accessible s (.coach n) (reqOf s ⟨.coach n, l.set.val⟩) .load a 128 →
        g 31 = u32 (0x57A7 * 65536 + a % 65536) → frameStatusOk (g 1) (ringOf c) = true → headsOk (g 11) (g 4) (g 5) = true →
        boundaryItem s n { c with status := g 1 } = none →
        ∃ t, exec (.retx l) s = .next t ∧ SameMemory s t ∧ SameRegistersBut [aCshPool] s t ∧ SameOthers s t (.coach n) ∧
          seen (coachOf t n) = ([g 0, setBit (g 1) 18 (!c.imprecise.isEmpty), g 2, g 3, g 4, g 5, c.dlim, c.rlim, c.xdsp,
            c.xrsp, g 6, g 7, g 8, g 9, g 10, c.wbp - 128, c.wblim, c.keeper, c.ccfg, c.xcause, c.xaddr, c.xinfo],
            (List.range (fld (g 11) 0 4)).map (fun i => .val (g (12 + i))),
            (List.range (fld (g 11) 8 4)).map (fun i => .val (g (20 + i)))))) ∧
    (svc s = false → s.up = true → Issues s l (.coach 0) 1 → ∀ k r, s.sbOrder = k :: r →
      let b := sboxOf s k
      ∃ t, exec (.retx l) s = .next t ∧ sboxOf t k = { b with occ := false } ∧ t.sbOrder = r ∧ SameMemory s t ∧
        (coachOf t 0).pc = b.pc ∧ (coachOf t 0).dhead = (b.head.take (min 8 (fld b.cause 28 4))).map .val ∧
        (coachOf t 0).status = setBit b.status 18 (!(coachOf s 0).imprecise.isEmpty)) ∧
    (s.up = true → Issues s l .fast 1 → ∃ t, exec (.retx l) s = .next t ∧ t.fastOn = none ∧ t.fast = {} ∧ SameMemory s t ∧
      SameRegisters s t ∧ SameOthers s t .fast)

/-! ### Heads and memory, borrowed cycles, direct inputs, instruction caches (R36, R37, R59, R60, R106, R110, R121, R241) -/

/-- A push onto a full head first stores the deepest entry below DSP, posted as any store is; and a pop of an empty head reads
the entry at DSP. A push that would spill below the limit raises DSTACK with nothing changed. Shown for LIT and DROP.
Readings of the model: log entries 17 and 26. -/
def Obligations.SpillsAndFills : Prop :=
  ∀ (s : State) (l : LaneUse) (w : Who), Issues s l w 1 → headOnly s w = false → (getC s w).rhead.length ≤ 4 →
    let c := getC s w
    let q := reqOf s ⟨w, l.set.val⟩
    (∀ (n : BitVec 4) (h : List Entry) (v : Word), h.length = 7 → c.dhead = h ++ [.val v] →
      (spillLimit s .d c + 4 ≤ c.dsp.toNat → Storable s l w (c.dsp.toNat - 4) 4 →
        ∃ t, exec (.lit l n) s = .next t ∧ NewStore s t w (c.dsp.toNat - 4) 4 (v.zeroExtend 64) ∧ SameMemory s t ∧
          SameRegistersBut [aCshPool, aCshPoolwait] s t ∧ SameOthers s t w ∧
          seen (getC t w) = seen (advance { c with
            dsp := c.dsp - 4, dhead := .val (n.zeroExtend 32) :: h, ddepth := c.ddepth + 1 } c.pc 1)) ∧
      (c.dsp.toNat < spillLimit s .d c + 4 → exec (.lit l n) s = raises s l w { vec := 5 })) ∧
    (c.dhead = [] → 0 < c.ddepth.toNat → Accessible s w q .load c.dsp.toNat 4 →
      ∃ t, exec (.drop l) s = .next t ∧ SameMemory s t ∧ SameRegistersBut [aCshPool] s t ∧ SameOthers s t w ∧
        seen (getC t w) = seen (advance { c with dsp := c.dsp + 4, ddepth := c.ddepth - 1 } c.pc 1))

/-- In the cycle after a taken transfer the lane may issue one instruction of the coach it has preselected, shown for LIT;
without such a cycle a borrowing instruction does nothing. Which instructions may borrow is the model's reading: log entry
14.
Readings of the model: log entry 14. -/
def Obligations.BorrowedCycle : Prop :=
  ∀ (s : State) (l : LaneUse) (k : BitVec 4), l.borrowed = true → lsRuns s l.set.val = true →
    (l.set == 0 && fastReady s) = false → (∀ op, overrideOf s op = none) →
    (∀ n, l.set.val ∈ s.gaps → best s l.set.val = some n → atBoundary s (.coach n) = none → (coachOf s n).drain = false →
      (coachOf s n).window = none → (coachOf s n).out = [] → (coachOf s n).stall = none →
      fetchAll s ⟨.coach n, l.set.val⟩ (fetchWords (coachOf s n).pc.toNat 1) = .ok → Takes s (.coach n) [] [] 1 0 →
      ∃ t, exec (.lit l k) s = .next t ∧ l.set.val ∉ t.gaps ∧ SameMemory s t ∧ SameRegisters s t ∧
        SameOthers s t (.coach n) ∧ seen (coachOf t n) =
          seen (advance (restack 0 [.val (k.zeroExtend 32)] (coachOf s n)) (coachOf s n).pc 1)) ∧
    (l.set.val ∉ s.gaps → exec (.lit l k) s = .next (settle s))

/-- IN.AGREE in the voting set pushes the majority of three samples, of two that of the lower occupied position. IN.RAW
pushes the majority sample where some position has it, else A's; of two, that of the lower occupied position; every lane
whose sample differs is marked, and a difference counts in KEY_INCNT. A free lane pushes its own sample. -/
def Obligations.DirectInputs : Prop :=
  ∀ (s : State) (l : LaneUse) (w : Who) (x y z : Word), Issues s l w 1 → Takes s w [] [] 1 0 →
    let push := fun v : Word => ends s l w 1 .seq (modC s w (restack 0 [.val v]))
    let maj := (x &&& y) ||| (x &&& z) ||| (y &&& z)
    let low := sampleAt x y z (([0, 1, 2].filter (fun p => (laneAt s p).isSome)).headD 0)
    (l.set ≠ 0 → exec (.inRaw l x y z) s = push x ∧ exec (.inAgree l x y z) s = push x) ∧
    (l.set = 0 → exec (.inAgree l x y z) s = push (if s.lnc.set = .triplex then maj else low)) ∧
    (l.set = 0 →
      let ref := if s.lnc.set = .triplex then (if x = maj ∨ y = maj ∨ z = maj then maj else x) else low
      let odd := fun n : Nat => ∃ p, p < 3 ∧ laneAt s p = some n ∧ sampleAt x y z p ≠ ref
      ∃ t, exec (.inRaw l x y z) s = .next t ∧ SameMemory s t ∧ SameOthers s t w ∧
        seen (getC t w) = seen (advance (restack 0 [.val ref] (getC s w)) (getC s w).pc 1) ∧
        (∀ n d, (n, d) ∈ t.lnc.marks ↔ (n, d) ∈ s.lnc.marks ∨ (odd n ∧ d = numOf s w)) ∧
        ((∃ n, odd n) → (getR t aKeyIncnt).toNat = satAdd (2 ^ 32 - 1) (getR s aKeyIncnt).toNat 1) ∧
        ((¬ ∃ n, odd n) → SameRegisters s t))

/-- ICINV drops every cached line that holds a byte of its range, ICINVA all lines, in rings 0 and 1; else PRIV. A fill of a
line of a bank that admits the fetch and holds no error in the line makes the line cached.
Readings of the model: log entry 29. -/
def Obligations.InstructionCaches : Prop :=
  (∀ (s : State) (l : LaneUse) (w : Who) (a n : Word), Issues s l w 2 →
    (Takes s w [.val n, .val a] [] 0 0 →
      (1 < ringOf (getC s w) → exec (.icinv l) s = raises s l w { vec := 9 }) ∧
      (ringOf (getC s w) ≤ 1 → ∃ t, exec (.icinv l) s = .next t ∧ SameMemory s t ∧ SameRegisters s t ∧
        seen (getC t w) = seen (advance (restack 2 [] (getC s w)) (getC s w).pc 2) ∧
        ∀ key line b, line ∈ t.icache.get [] key → ¬ (a.toNat ≤ b ∧ b < a.toNat + n.toNat ∧ b / 32 = line))) ∧
    (1 < ringOf (getC s w) → exec (.icinva l) s = raises s l w { vec := 9 }) ∧
    (ringOf (getC s w) ≤ 1 → ∃ t, exec (.icinva l) s = .next t ∧ t.icache = [] ∧ SameMemory s t ∧ SameRegisters s t ∧
      seen (getC t w) = seen (advance (getC s w) (getC s w).pc 2))) ∧
  (∀ (s : State) (l : Fin 3) (w : Who) (a : Nat), lsRuns s l.val = true → issuer s l.val = some w →
    (getC s w).held = none → (getC s w).stall = none → (getC s w).window = none → (getC s w).out = [] →
    (getC s w).told = [] → missedWord s ⟨w, l.val⟩ (getC s w).pc.toNat = some a →
    region a = some .bank → cPort s (bankOf a) (reqOf s ⟨w, l.val⟩) .load = .ok →
    (∀ x ∈ fillOrder a, eccAt s x = 0) →
    ∃ t, exec (.missFill l .none) s = .next t ∧ icHas t l.val (a / 32) = true ∧ SameMemory s t ∧ SameRegisters s t ∧
      SameContexts s t)

/-! ### Long memory instructions and customer routines (R87 to R91, R270 to R275) -/

/-- MOVE, FILL and MCMP take their operands when `n` is 0. Else a step of `m` bytes, at most `k` of them and fitting the entries
that the coach can hold, shown for bank memory that the core can access and for runs that do not overlap, issues the stores of
its bytes, word by word, or compares them, and leaves the entries for the rest, with PC unchanged. No store but these is
issued, and memory changes only as they complete.
Readings of the model: log entries 17, 18 and 23. -/
def Obligations.LongMemoryInstructions : Prop :=
  ∀ (s : State) (l : LaneUse) (w : Who) (k : Fin 65) (h : HostWords) (n src dst v acc : Word), Issues s l w 1 →
    let c := getC s w
    let q := reqOf s ⟨w, l.set.val⟩
    let words := fun (a : Word) (m : Nat) => stepChunks a.toNat m
    let size := stepSize s ⟨w, l.set.val⟩ k n
    let rest := fun (es : List Word) (t : State) =>
      SameMemory s t ∧ SameRegistersBut [aCshPool, aCshPoolwait] s t ∧ SameOthers s t w ∧
        seen (getC t w) = seen { c with dhead := es.map .val ++ c.dhead.drop es.length }
    let stores := fun (m : Nat) (t : State) (v : Nat → Nat → Nat) =>
      ∀ a j d, NewStore s t w a j d ↔ (a, j) ∈ words dst m ∧ d = BitVec.ofNat 64 (v a j)
    (Takes s w [.val n, .val dst, .val src] [] 0 0 →
      (n = 0 → ∃ t, exec (.moveMem l k h) s = .next t ∧ SameMemory s t ∧ SameRegisters s t ∧ SameOthers s t w ∧
        seen (getC t w) = seen (advance (restack 3 [] c) c.pc 1)) ∧
      (n ≠ 0 → src.toNat + n.toNat ≤ dst.toNat ∨ dst.toNat + n.toNat ≤ src.toNat →
        let m := size (fun m => (words src m).length + (words dst m).length)
        (moveRun s w src dst n).2 ≤ (moveRun s w src dst n).1 → Accessible s w q .load src.toNat m → Storable s l w dst.toNat m →
        ∃ t, exec (.moveMem l k h) s = .next t ∧ rest [n - u32 m, dst + u32 m, src + u32 m] t ∧
          stores m t (fun a j => rdN s (src.toNat + (a - dst.toNat)) j))) ∧
    (Takes s w [.val v, .val n, .val dst] [] 0 0 →
      (n = 0 → exec (.fillMem l k) s = ends s l w 1 .seq (modC s w (restack 3 []))) ∧
      (n ≠ 0 →
        let m := size (fun m => (words dst m).length)
        Storable s l w dst.toNat m →
        ∃ t, exec (.fillMem l k) s = .next t ∧ rest [v, n - u32 m, dst + u32 m] t ∧
          stores m t (fun _ j => v.toNat % 256 * ((256 ^ j - 1) / 255)))) ∧
    (Takes s w [.val acc, .val n, .val dst, .val src] [] 1 0 →
      (n = 0 → exec (.mcmp l k h) s =
        ends s l w 1 .seq (modC s w (restack 4 [.val (if acc = 0 then 0xFFFFFFFF else 0)]))) ∧
      (n ≠ 0 →
        let m := size (fun m => (words src m).length + (words dst m).length)
        Accessible s w q .load src.toNat m → Accessible s w q .load dst.toNat m →
        ∃ t, exec (.mcmp l k h) s = .next t ∧
          rest [(List.range m).foldl (fun x j => x ||| (rdB s (src.toNat + j) ^^^ rdB s (dst.toNat + j)).zeroExtend 32) acc,
            n - u32 m, dst + u32 m, src + u32 m] t))

/-- CUSTn without a dispatch entry raises ILLEGAL with reason 3, and in a ring that its entry does not admit PRIV. Through
an entry with two inputs and one output, a routine of the one microword ALU code, source A T0, source B T1, destination U0
and END replaces the two entries by the ALU's result, T0 being the top one. An override entry of the vendor patch that names
ADD has ADD do what such a routine of the patch says.
Readings of the model: log entries 13, 17 and 47. -/
def Obligations.CustomerRoutines : Prop :=
  (∀ (s : State) (l : LaneUse) (w : Who) (e : Nat) (a b r : Word) (code : Nat),
    Issues { s with mcs := { s.mcs with vact := [] } } l w 1 → (getC s w).routine = none → (getC s w).got = [] →
    Takes s w [.val b, .val a] [] 1 0 →
    overrideOf s 0x20 = some e → s.mcs.sw ≠ some false →
    (code, r) ∈ [(1, b + a), (2, b - a), (8, b &&& a), (9, b ||| a), (10, b ^^^ a)] →
    s.mcs.vact.get 0 e = 2 ^ 110 + code * 2 ^ 88 + 2 ^ 80 →
    exec (.add l) s = ends s l w 1 .seq (modC s w (restack 2 [.val r]))) ∧
  ∀ (s : State) (l : LaneUse) (w : Who) (k : BitVec 4), Issues s l w 1 →
    (getC s w).routine = none → (getC s w).got = [] →
    let d := u32 (s.mcs.cact.get 0 (1024 + k.toNat))
    (bit d 31 = false → exec (.custn l k) s = raises s l w { vec := 1, reason := 3 }) ∧
    (bit d 31 = true → fld d 28 2 < ringOf (getC s w) → exec (.custn l k) s = raises s l w { vec := 9 }) ∧
    (∀ (a b r : Word) (code : Nat), (code, r) ∈ [(1, b + a), (2, b - a), (8, b &&& a), (9, b ||| a), (10, b ^^^ a)] →
      Takes s w [.val b, .val a] [] 1 0 → bit d 31 = true → bit d 30 = false → ringOf (getC s w) ≤ fld d 28 2 →
      fld d 24 4 = 1 → fld d 20 4 = 2 → fld d 10 10 = 0 → s.mcs.sw ≠ some true →
      s.mcs.cact.get 0 (fld d 0 10) = 2 ^ 110 + code * 2 ^ 88 + 2 ^ 80 →
      exec (.custn l k) s = ends s l w 1 .seq (modC s w (restack 2 [.val r])))

/-! ### Big-number engine (R101 to R103, R334 to R354) -/

/-- BNOP takes the lowest free pool entry and pushes its ticket, with bit 30 set; a slot above 7 raises ILLEGAL with reason
5. To an engine that is ON and that no older store or submission holds up, the operation it admits then runs in its slots;
one that is OFF or CLOSING completes it with status 3, and refuses a BNKEY with ACCESS. BNKEY, BNPOLL, BNABORT and BNKLD from
lane set 0, with the engine ON and no store of the issuer to it open, stall their coach for the engine's response. The response to BNKEY pushes the ticket
and starts an operation that the engine admits; that to BNPOLL pushes the slot's state, 0 IDLE, 1 RUNNING, 2 ABORTING; that to
BNABORT leaves the slot's group ABORTING, or raises PRIV where the coach may not abort what has taken the slot; that to BNKLD of a well-formed key loads it and clears its 80 bytes.
Readings of the model: log entries 19 and 42. -/
def Obligations.EngineSubmission : Prop :=
  (∀ (s : State) (l : LaneUse) (w : Who) (v cmd : Word) (e : Nat), Issues s l w 1 → Takes s w [.val v, .val cmd] [] 1 0 →
    let m := numOf s w
    let g := ((consOf s e).gen + 1) % 65536
    (8 ≤ v.toNat → exec (.bnop l) s = raises s l w { vec := 1, reason := 5 }) ∧
    (v.toNat < 8 → queued s 8 < 8 → ticketsHeld s m < quotaOf s m - 1 → entriesHeld s m < quotaOf s m →
      poolEntry s = some e →
      ∃ t, exec (.bnop l) s = .next t ∧ SameMemory s t ∧ SameOthers s t w ∧
        seen (getC t w) = seen (advance (restack 2 [.val (BitVec.ofNat 32
          (2 ^ 30 + m * 2 ^ 16 + g % 16 * 2 ^ 12 + e))] (getC s w)) (getC s w).pc 1) ∧
        (unitSt s 0 = 0 ∨ unitSt s 0 = 3 → (consOf t e).early = some 3 ∧ (consOf t e).kind = .engine v.toNat false) ∧
        (unitSt s 0 = 2 → s.mret = [] → (∀ x ∈ s.cons, toIsland 10 x.2 = false ∧ x.2.kind.isBnop = false) →
          (∀ x ∈ s.bne.ops, ∀ o, x.2 = some o → o.entry ≠ e) →
          decideSubmit s cmd v.toNat ⟨m, ringOf (getC s w), decide (l.set ≠ 0)⟩ false = .runs →
          eopOf t v.toNat = some ⟨cmdSlots cmd, cmd, m, false, e, g, false⟩))) ∧
  (∀ (s : State) (l : LaneUse) (w : Who) (v u : Word), Issues s l w 1 → l.set = 0 → unitSt s 0 = 0 ∨ unitSt s 0 = 3 →
    openOf s w (toIsland 10) = [] → queued s 8 < 8 → Takes s w [.val v, .val u] [] 1 0 → v.toNat < 8 →
    exec (.bnkey l) s = raises s l w { vec := 3 }) ∧
  ((∀ (s : State) (l : LaneUse) (w : Who) (v u : Word), Issues s l w 1 → l.set = 0 → unitSt s 0 = 2 →
    openOf s w (toIsland 10) = [] → queued s 8 < 8 →
    let m := numOf s w
    let waits := fun (st : Stall) => ends s l w 1 .stay (modC { s with order := s.order + 1 } w (fun c =>
      { c with stall := some { st with order := s.order }, held := some .sealedAcc }))
    (∀ e, Takes s w [.val v, .val u] [] 1 0 → v.toNat < 8 → ticketsHeld s m < quotaOf s m - 1 →
      entriesHeld s m < quotaOf s m → poolEntry s = some e →
      ∃ t, exec (.bnkey l) s = .next t ∧ SameMemory s t ∧ SameContexts s t ∧ (getC t w).held = some .sealedAcc ∧
        (getC t w).stall = some { pops := 2, push := [BitVec.ofNat 32 (2 ^ 30 + m * 2 ^ 16 +
          ((consOf s e).gen + 1) % 65536 % 16 * 2 ^ 12 + e)], len := 1, op := some (.submit v.toNat u e), order := s.order + 1 }) ∧
    (Takes s w [.val v] [] 1 0 → v.toNat < 8 →
      exec (.bnpoll l) s = waits { pops := 1, push := [0], len := 1, op := some (.poll v.toNat) }) ∧
    (Takes s w [.val v] [] 1 0 → v.toNat < 8 → ringOf (getC s w) ≤ 1 ∨ slotState s v.toNat = 0 →
      exec (.bnabort l) s = waits { pops := 1, push := [], len := 1, op := some (.abort v.toNat) }) ∧
    (Takes s w [.val v, .val u] [] 1 0 → v.toNat < 1024 → ringOf (getC s w) = 0 → u.toNat % 8 = 0 →
      inOpmem u.toNat 80 = true →
      exec (.bnkld l) s = waits { pops := 2, push := [], len := 1, op := some (.load u.toNat v.toNat) })) ∧
  (∀ (s : State) (c : BitVec 10) (p i q : Nat), s.up = true → (∀ x ∈ s.cons, heldBnop s x = false) →
    let w := whoOf s c.toNat
    let k := getC s w
    (∀ st, k.stall = some st → sealedBack s st = false) →
    (∀ cmd e tk, k.stall = some { pops := 2, push := [tk], len := 1, op := some (.submit i cmd e), order := q } →
      decideSubmit s cmd i ⟨numOf s w, ringOf k, false⟩ true = .runs →
      ∃ t, exec (.sealedResponse c 0 .none) s = .next t ∧ SameMemory s t ∧ SameRegisters s t ∧
        eopOf t i = some ⟨cmdSlots cmd, cmd, numOf s w, true, e, (consOf s e).gen, false⟩ ∧
        seen (getC t w) = seen (advance (restack 2 [.val tk] k) k.pc 1)) ∧
    (k.stall = some { pops := 1, push := [0], len := 1, op := some (.poll i), order := q } →
      ∃ t, exec (.sealedResponse c 0 .none) s = .next t ∧ SameMemory s t ∧ SameRegisters s t ∧
        seen (getC t w) = seen (advance (restack 1 [.val (BitVec.ofNat 32 (slotState s i))] k) k.pc 1)) ∧
    (∀ b o, k.stall = some { pops := 1, push := [], len := 1, op := some (.abort i), order := q } → groupOf s i = some (b, o) →
      s.bne.cload = none → mayAbort s w i = true → ∃ t, exec (.sealedResponse c 0 .none) s = .next t ∧ SameMemory s t ∧
        eopOf t b = some { o with aborting := true } ∧ seen (getC t w) = seen (advance (restack 1 [] k) k.pc 1)) ∧
    (k.stall = some { pops := 1, push := [], len := 1, op := some (.abort i), order := q } →
      mayAbort s w i = false →
      exec (.sealedResponse c 0 .none) s = .next (settle (pumpEngine (raiseItem (dropFetch (modC s w (fun d => { d with
        stall := none, held := none })) w) w { vec := vPRIV })))) ∧
    (∀ a, k.stall = some { pops := 2, push := [], len := 1, op := some (.load a p), order := q } →
      let d := rd64 s (a + 72)
      d.toNat % 16 = 1 ∨ d.toNat % 16 = 2 → d &&& 0xFFFFFFFFFF00F0E0 = 0 → keyInUse s p = false →
      slotState s ((a - opBase) / 0x800) = 0 → slotState s ((a + 79 - opBase) / 0x800) = 0 → s.bne.zeroing = false →
      (wordsOf a 72).all (fun b => decide (eccAt s b < 2)) = true → (wordsOf (a + 72) 8).all (fun b => decide (eccAt s b < 2)) = true →
      ∃ t, exec (.sealedResponse c 0 .none) s = .next t ∧ kBytes (keyOf t p) = rdN s a 72 ∧ kDesc (keyOf t p) = d.toNat ∧
        getR t aBneKld = u32 p ∧
        (∀ b, rdB t b = if a ≤ b ∧ b < a + 80 then unlisted b else rdB s b) ∧
        seen (getC t w) = seen (advance (restack 2 [] k) k.pc 1))))

/-- The end of an operation of the engine frees its slots, writes its result word to BNE_RESULT of each and completes its
consignment with that word; each row ends only an operation with its own code. MODADD, MODSUB and MODMUL on operands that
fit and hold no error leave their result in cell 1, and they and MODINV change no other byte.
Readings of the model: log entry 43. -/
def Obligations.EngineOperations : Prop :=
  ∀ (s : State) (b : Fin 8) (o : EOp) (i : Instr) (code : Nat), s.up = true → Finishes s b.val o → o.aborting = false →
    (i, code) ∈ [(.modadd b, 0x01), (.modsub b, 0x02), (.modmul b, 0x03), (.modinv b, 0x04), (.modexp b, 0x05),
      (.rsacrt b, 0x06), (.ecmul b, 0x10), (.ecmulg b, 0x11), (.oncurve b, 0x12), (.xmul b, 0x13), (.ecdsaver b, 0x14),
      (.ecdsasign b, 0x15), (.ecdh b, 0x16), (.keygen b, 0x17), (.ecpub b, 0x18), (.keyclr b, 0x19)] →
    let r := runOp s b.val o
    let word : Word := if r.fault.isSome then 0x06000000 else u32 r.flags
    let area := opBase + b.val * 0x800
    let len := 8 * ((cmdSize o.cmd + 63) / 64)
    let n := rdN s (area + 8) len
    let x := rdN s (area + 8 + len) len % n
    let y := rdN s (area + 8 + 2 * len) len
    (cmdOp o.cmd ≠ code → exec i s = .next (settle (pumpEngine s))) ∧
    (cmdOp o.cmd = code →
      ∃ t, exec i s = .next t ∧ eopOf t b.val = none ∧ (∀ j, j < o.slots → getR t (aBneResult + 4 * (b.val + j)) = word) ∧
        (consOf t o.entry).done = some 0 ∧ (consOf t o.entry).data = word.zeroExtend 64 ∧ SameContexts s t ∧
        (code ≤ 4 → n % 2 = 1 → 8 + 3 * len ≤ o.slots * 0x800 → badOperand s b.val o = false →
          (code = 1 → rdN t (area + 8 + len) len = (x + y) % n) ∧
          (code = 2 → y < n → rdN t (area + 8 + len) len = (x + (n - y)) % n) ∧
          (code = 3 → rdN t (area + 8 + len) len = x * y % n) ∧
          (∀ a, a < area + 8 + len ∨ area + 8 + 2 * len ≤ a → rdB t a = rdB s a)))

/-- The other ends in the engine: a FAULT, with the state of the random generator, an abort, a curve load and its check, a
zeroisation.
Readings of the model: log entry 33. -/
def Obligations.EngineService : Prop :=
  ∀ s : State, s.up = true →
    (∀ (b : Fin 8) (o : EOp) (f : Fin 3) (rng : Bool), Finishes s b.val o → o.aborting = false →
      ∃ t, exec (.engineOperationComplete b (some f) rng) s = .next t ∧ eopOf t b.val = none ∧
        (unitSt s 0 = 2 → t.bne.rngerr = (s.bne.rngerr || rng)) ∧
        (∀ j, j < o.slots → getR t (aBneResult + 4 * (b.val + j)) = 0x06000000) ∧
        fld (getR t aBneFault) 16 16 = satAdd 65535 (fld (getR s aBneFault) 16 16) 1 ∧
        fld (getR t aBneFault) 0 16 = f.val * 2 ^ 14 + b.val * 2 ^ 8 + cmdOp o.cmd) ∧
    (∀ (b : Fin 8) (o : EOp), Finishes s b.val o → o.aborting = true →
      ∃ t, exec (.abortComplete b) s = .next t ∧ eopOf t b.val = none ∧
        (∀ j, j < o.slots → getR t (aBneResult + 4 * (b.val + j)) = 0x0BAD0BAD) ∧
        ∀ a, rdB t a = if opBase + b.val * 0x800 ≤ a ∧ a < opBase + (b.val + o.slots) * 0x800 then unlisted a else rdB s a) ∧
    (∀ (c : BitVec 10) (v : Word), MayAccess s c 0 → unitSt s 0 = 2 → Acked s c 10 →
      4 ≤ fld v 16 4 → s.bne.cload = none → (s.bne.curves.get {} (fld v 16 4)).state ≠ 1 → curveInUse s (fld v 16 4) = false →
      slotState s (fld v 0 3) = 0 →
      ∃ t, exec (.bneCloadWrite c v) s = .next t ∧ t.bne.cload = some (fld v 16 4, fld v 0 3) ∧
        (t.bne.curves.get {} (fld v 16 4)).state = 1 ∧ SameMemory s t ∧ SameContexts s t ∧ bit (getR t aBneCload) 31 = false) ∧
    (∀ k i, s.bne.cload = some (k, i) →
      ∃ t, exec .curveCheckDone s = .next t ∧ t.bne.cload = none ∧ SameMemory s t ∧ SameContexts s t ∧
        ((t.bne.curves.get {} k).state = 2 ↔ (t.bne.curves.get {} k).code = 0) ∧
        ((t.bne.curves.get {} k).state = 2 ∨ (t.bne.curves.get {} k).state = 3)) ∧
    (s.bne.zeroing = false → ∃ t, exec .zeroisation s = .next t ∧ t.bne.zeroing = true ∧ bit (getR t aBneZero) 0 = true ∧
      (∀ b, b < 8 → ∀ o, eopOf s b = some o → eopOf t b = some { o with aborting := o.aborting || o.key }) ∧
      t.bne.keys = s.bne.keys ∧ SameMemory s t ∧ SameContexts s t) ∧
    (s.bne.zeroing = true → ∃ t, exec .zeroisationDone s = .next t ∧ t.bne.zeroing = false ∧ t.bne.keys = [] ∧
      bit (getR t aBneZero) 0 = false ∧ fld (getR t aBneZero) 16 16 = satAdd 65535 (fld (getR s aBneZero) 16 16) 1 ∧
      SameMemory s t ∧ SameContexts s t)

/-! ### Boundaries and timers (R136, R139, R151, R169 to R171, R181, R182) -/

/-- A boundary of a running coach takes its item: WAYBILL_ENTRY in service mode, where stores of what R170 says go to the frame
at WBP and the handler starts; STRONGBOX_ENTRY in strongbox mode, where level L2 (an event) or L1 (a fault) is entered. FAST_ENTRY
starts a fresh fast context. At the end of its quantum a coach gives way to a READY coach of its class, and a due timer is
disarmed and sets bit TIMER.
Readings of the model: log entries 15, 53 and 57. -/
def Obligations.BoundaryEntries : Prop :=
  ∀ s : State,
    (∀ (l : Fin 3) (n : Nat) (x : XItem), svc s = true → lsRuns s l.val = true → (l == 0 && fastReady s) = false →
      issuer s l.val = some (.coach n) → (coachOf s n).held = none → (coachOf s n).stall = none →
      (coachOf s n).drain = false → (coachOf s n).step = false → (coachOf s n).pexc = none → (coachOf s n).window = none →
      (coachOf s n).out = [] → boundaryItem s n (coachOf s n) = some x → x.vec ≠ 13 → waybillRoom (coachOf s n) = true →
      pendingEntries (coachOf s n) = [] →
      let c := if x.vec = 32 then coachOf s n else takeItem (coachOf s n) x
      let a := c.wbp.toNat
      let ring := handlerRing s x.vec (ringOf c)
      let cause := causeWord x.vec x.vec x.reason x false 0
      let mask := if x.vec = 32 then itemPri s x else vpri s x.vec
      let st := setFld (setFld (setBit (setBit c.status 17 true) 19 false) 0 2 ring) 8 8 mask
      ownerRefusal s ⟨n, ring, decide (laneOfCoach s n ≠ 0)⟩ (phys a) 128 .store = none →
      ∃ t, exec (.waybillEntry l) s = .next t ∧ SameMemory s t ∧ SameRegistersBut [aCshPool, aCshPoolwait] s t ∧
        SameOthers s t (.coach n) ∧
        (∀ k, k < 16 →
          let word := fun j => (frameBody (coachOf s n) ++ [cause, x.addr, x.info, u32 (0x57A7 * 65536 + a % 65536)]).getD j 0
          NewStore s t (.coach n) (a + 8 * k) 8 (mkD (word (2 * k + 1)) (word (2 * k)))) ∧
        seen (coachOf t n) = ([u32 (0x10000 + 16 * x.vec), setBit (setBit st 18 (!c.imprecise.isEmpty)) 16 (holdOf c),
          if onXAt s .d c c.dsp then c.dsp else c.xdsp, if onXAt s .r c c.rsp then c.rsp else c.xrsp, 0, 0, c.dlim, c.rlim,
          c.xdsp, c.xrsp, c.a, c.b, c.lstart, c.lend, c.lcount, c.wbp + 128, c.wblim, c.keeper, c.ccfg, cause, x.addr,
          x.info], [], [])) ∧
    (∀ x : XItem, svc s = false → lsRuns s 0 = true → issuer s 0 = some (.coach 0) → (coachOf s 0).held = none →
      (coachOf s 0).stall = none → (coachOf s 0).drain = false → (coachOf s 0).step = false → (coachOf s 0).pexc = none →
      (coachOf s 0).l3Req = false →
      (coachOf s 0).window = none → boundaryItem s 0 (coachOf s 0) = some x → pendingEntries (coachOf s 0) = [] →
      let c := coachOf s 0
      let enters := fun (k : Nat) (mask : Nat) (t : State) =>
        let cause := causeWord x.vec x.vec x.reason x false c.dhead.length
        SameMemory s t ∧ SameRegisters s t ∧ SameOthers s t (.coach 0) ∧
        sboxOf t k = ⟨c.pc, c.status, cause, x.addr, headWords 8 c.dhead, true⟩ ∧ t.sbOrder = k :: s.sbOrder ∧
        (coachOf t 0).pc = u32 (16 * (k + 1)) ∧ (coachOf t 0).dhead = [] ∧ (coachOf t 0).ddepth = 0 ∧
        (coachOf t 0).rhead = c.rhead ∧ bit (coachOf t 0).status 17 = true ∧ fld (coachOf t 0).status 8 8 = mask % 256 ∧
        (coachOf t 0).xcause = cause ∧ (coachOf t 0).xaddr = x.addr ∧ (coachOf t 0).xinfo = x.info
      (x.vec = 32 → ∃ t, exec .strongboxEntry s = .next t ∧ enters 2 (itemPri s x) t) ∧
      (x.vec ≠ 32 → x.vec ≠ 15 → (sboxOf s 1).occ = false →
        ∃ t, exec .strongboxEntry s = .next t ∧ enters 1 (vpri s x.vec) t)) ∧
    (lsRuns s 0 = true → fastReady s = true →
      let f := getR s aCshFastcfg
      ∃ t, exec .fastEntry s = .next t ∧ t.fastOn = some s.run0 ∧ t.fastPend = false ∧ SameMemory s t ∧ SameRegisters s t ∧
        SameOthers s t .fast ∧
        seen t.fast = (0x10210 :: u32 (fld f 16 8 * 256 + fld f 12 2) :: List.replicate 20 0, [], [])) ∧
    (∀ (l : Fin 3) (n : Nat), lsRuns s l.val = true → runOf s l.val = some n → (l = 0 → s.fastOn = none) →
      quantumOf s (coachOf s n).qclass ≠ 0 →
      (∃ m ∈ s.queue, m ≠ n ∧ selectable s l.val m = true ∧ (coachOf s m).qclass = (coachOf s n).qclass) →
      exec (.quantumEnd l) s = .next (settle (setRun (makeReady s n) l.val none))) ∧
    (∀ (b : BitVec 10) (d : DWord), let n := b.toNat
      (coachOf s n).timer = some d → (∃ k, s.mls.tick = some k ∧ d.toNat ≤ k.toNat) → s.mret = [] → s.mtr = [] →
      ∃ t, exec (.timerFire b) s = .next t ∧ SameProgram s t ∧ SameRegisters s t ∧ (coachOf t n).timer = none ∧
        ((coachOf s n).st.live = true → isFastCoach s n = false → (coachOf t n).wake = (coachOf s n).wake ||| 4 ∧
          ((coachOf s n).st = .wait → (coachOf s n).haltReq = false →
            (coachOf t n).st = .ready ∨ (coachOf t n).st = .run)))

/-! ### Event controller (R186 to R212) -/

/-- A selected transition of a line sets PEND, or adds to the coalescing count, or is absorbed with OVR, and a storm
disables the source; the coaches that listen to a source that becomes visible are woken. The other transitions, the
coalescing time and the storm window. Claims, completion, software triggers and configuration on behalf of a coach. A claim
answers PRIO, the line and the number, and moves the source from PEND to ACTIVE; a failed one answers 0x3FF and counts in
EVC_SPUR. A completion by the claimant or by ring 0 or 1 ends ACTIVE, and a level source still asserted is pending again.
The configuration of a source is not written while EN stays 1. A difference between the controller's copies is recorded and
repaired, and what one copy alone would send is sent.
Readings of the model: log entries 35, 36, and 81 for a storm declared again. -/
def Obligations.EventController : Prop :=
  (∀ (s : State) (n : BitVec 9),
    let i := n.toNat
    let x := srcOf s i
    let sense := srcSense s i
    let lim := fld (getR s aEvcStormN) 0 16
    let storms := lim ≠ 0 ∧ lim < x.stormCnt + 1
    (64 ≤ i → s.up = true → ∀ merged : Bool,
      let y := { x with line := if 4 ≤ sense then (if merged then x.line else !x.line) else decide (sense = 0 ∨ sense = 2)
                        fresh := false }
      let z := { y with edgecnt := x.edgecnt + 1, ovr := x.ovr || merged
                        stamp := if srcStamp s i then s.mls.time else x.stamp }
      let found := 1 < sense ∨ x.fresh = true ∨ x.line = decide (sense = 1)
      let counts := 1 < sense ∧ x.coal < fld (scoal s i) 16 8
      ∃ t, exec (.eventTrigger n merged) s = .next t ∧ SameProgram s t ∧ SameRegistersBut (eventRegs i ++ eventRegs 7) s t ∧
        (∀ j, j ∉ [i, 7, 27] → srcOf t j = srcOf s j) ∧
        (¬ found → srcOf t i = y ∧ SameRegisters s t) ∧
        (found → isFastSrc s i = false →
          (x.pend = true → srcOf t i = { z with ovr := true }) ∧
          (x.pend = false → counts → srcOf t i = { z with coal := x.coal + 1 }) ∧
          (x.pend = false → ¬ counts → ¬ storms →
            srcOf t i = { z with pend := true, coal := 0, stormCnt := x.stormCnt + 1 } ∧
            (srcEn s i = true → x.active = false → s.mret = [] → s.mtr = [] → ∀ c, inListening s i c = true → (coachOf s c).st.live = true →
              isFastCoach s c = false → (coachOf t c).wake.getLsbD 0 = true)) ∧
          (x.pend = false → ¬ counts → storms → bit (getR t (aEvcScfg + 4 * i)) 31 = false ∧
            srcOf t i = { z with pend := true, coal := 0, stormCnt := x.stormCnt + 1, storm := true }))) ∧
    (64 ≤ i → s.up = false → ∀ merged : Bool, ∃ t, exec (.eventTrigger n merged) s = .next t ∧ SameProgram s t ∧
      SameRegisters s t ∧ (∀ j, j ≠ i → srcOf t j = srcOf s j) ∧ srcOf t i = { x with
        line := if 4 ≤ sense then (if merged then x.line else !x.line) else decide (sense = 0 ∨ sense = 2) }) ∧
    (64 ≤ i → s.up = true → sense ≠ 4 → ∃ t, exec (.unselectedTransition n) s = .next t ∧ SameProgram s t ∧ SameRegisters s t ∧
      srcOf t i = { x with line := decide (sense = 1 ∨ sense = 3), fresh := false } ∧ ∀ j, j ≠ i → srcOf t j = srcOf s j) ∧
    (x.coal ≠ 0 → fld (scoal s i) 0 16 ≠ 0 → isLevel s i = false → isFastSrc s i = false → i = 7 ∨ ¬ storms →
      ∃ t, exec (.coalesceTimeout n) s = .next t ∧ SameProgram s t ∧ SameRegisters s t ∧
        srcOf t i = { x with pend := true, coal := 0, stormCnt := x.stormCnt + 1 } ∧ ∀ j, j ≠ i → srcOf t j = srcOf s j) ∧
    (∃ t, exec .stormWindowEnd s = .next t ∧ SameProgram s t ∧ SameRegisters s t ∧
      ∀ j, srcOf t j = { srcOf s j with stormCnt := 0 })) ∧
  (∀ (s : State) (c : BitVec 10) (n : BitVec 9) (v : Word),
    let w := whoOf s c.toNat
    let m := numOf s w
    let i := n.toNat
    let x := srcOf s i
    let claims := fun (k : Nat) (t : State) =>
      t.bus = u32 (srcPrio s k * 2 ^ 24 + (if 64 ≤ k ∧ (srcOf s k).line = true then 2 ^ 16 else 0) + k) ∧ SameRegisters s t ∧
      srcOf t k = { srcOf s k with pend := false, active := true, claimant := m } ∧ ∀ j, j ≠ k → srcOf t j = srcOf s j
    let fails := fun (t : State) => t.bus = 0x3FF ∧ (∀ j, srcOf t j = srcOf s j) ∧ SameRegistersBut [aEvcSpur] s t ∧
      (getR t aEvcSpur).toNat = satAdd (2 ^ 32 - 1) (getR s aEvcSpur).toNat 1
    let first := fun k => inView s k m = true ∧
      ∀ j, inView s j m = true → srcPrio s k < srcPrio s j ∨ (srcPrio s k = srcPrio s j ∧ k ≤ j)
    (MayAccess s c 3 →
      (∃ t, exec (.evcClaim c n) s = .next t ∧ SameProgram s t ∧
        (srcReserved i = false → visible s i = true → isFastSrc s i = false → inDelivery s i m = true ∨ ringOf (getC s w) = 0 → claims i t) ∧
        (srcReserved i = true → t.bus = 0 ∧ SameRegisters s t ∧ ∀ j, srcOf t j = srcOf s j) ∧
        (srcReserved i = false →
          visible s i = false ∨ isFastSrc s i = true ∨ (inDelivery s i m = false ∧ ringOf (getC s w) ≠ 0) → fails t)) ∧
      (∃ t, exec (.evcClaimtop c) s = .next t ∧ SameProgram s t ∧ (∀ k, first k → claims k t) ∧
        ((∀ k, inView s k m = false) → fails t)) ∧
      (∃ t, exec (.evcCpl c v) s = .next t ∧ SameProgram s t ∧
        (let k := fld v 0 10
         let y := srcOf s k
         let mine := k < 512 ∧ y.active = true ∧ (y.claimant = m ∨ ringOf (getC s w) ≤ 1)
         (mine → isFastSrc s k = false → (∀ j, j ∉ [k, 7, 27] → srcOf t j = srcOf s j) ∧
           (isLevel s k = false ∨ asserted s k = false → SameRegisters s t ∧
             srcOf t k = { y with active := false, claimant := 0 }) ∧
           (isLevel s k = true → asserted s k = true → y.pend = false → fld (getR s aEvcStormN) 0 16 = 0 →
             srcOf t k = { y with active := false, claimant := 0, pend := true, coal := 0, stormCnt := y.stormCnt + 1 }))))) ∧
    (MayAccess s c 2 → ∀ (k : Fin 16) (b : Nat), b < 32 → v = u32 (2 ^ b) →
      let j := 32 * k.val + b
      let y := srcOf s j
      srcReserved j = false → isFastSrc s j = false → y.pend = false → isLevel s j = true ∨ fld (scoal s j) 16 8 ≤ y.coal →
      j ≠ 27 → (fld (getR s aEvcStormN) 0 16 = 0 ∨ (j ≠ 7 ∧ y.stormCnt < fld (getR s aEvcStormN) 0 16)) →
      ∃ t, exec (.evcPendset c k v) s = .next t ∧ SameProgram s t ∧ SameRegistersBut (eventRegs j) s t ∧
        srcOf t j = { y with pend := true, coal := 0, stormCnt := y.stormCnt + 1
                             stamp := if srcStamp s j then s.mls.time else y.stamp } ∧
        ∀ h, h ∉ [j, 7, 27] → srcOf t h = srcOf s h) ∧
    (MayAccess s c 1 →
      (srcReserved i = true ∨ (srcEn s i = true ∧ bit v 31 = true) →
        exec (.evcScfgWrite c n v) s = .next (settle s)) ∧
      (srcReserved i = false → srcEn s i = false ∨ bit v 31 = false → isFastSrc s i = false →
        let sense := if i < 64 then 2 else if fld v 24 3 ≤ 4 then fld v 24 3 else srcSense s i
        ∃ t, exec (.evcScfgWrite c n v) s = .next t ∧ SameProgram s t ∧ SameRegistersBut [aEvcScfg + 4 * i] s t ∧
          getR t (aEvcScfg + 4 * i) = setBit (setFld (v &&& 0xF0FF0000) 24 3 sense) 31 (bit v 31 && !x.storm) ∧
          srcOf t i = { x with fresh := x.fresh || decide (sense ≠ srcSense s i) } ∧ ∀ j, j ≠ i → srcOf t j = srcOf s j)) ∧
    (s.up = true →
      let notes := fun (cfg : Bool) (k : Nat) (t : State) => SameMemory s t ∧
        getR t aEvcFault = u32 (satAdd 65535 (fld (getR s aEvcFault) 16 16) 1 * 2 ^ 16 + (if cfg then 2 ^ 15 else 0) + k)
      (srcReserved i = false → ∃ t, exec (.evcCopyDifference (.dynamic n)) s = .next t ∧ notes false i t ∧
        (i ∉ [0, 2, 7, 27] → isFastSrc s i = false →
          srcOf t i = { x with pend := true, active := false, claimant := 0, coal := 0 })) ∧
      (srcReserved i = false → ∃ t, exec (.evcCopyDifference (.config n)) s = .next t ∧ notes true i t ∧
        getR t (aEvcScfg + 4 * i) = 0x02FF0000 ∧ getR t (aEvcStgt + 4 * i) = 0 ∧ getR t (aEvcScoal + 4 * i) = 0) ∧
      (∀ d : CopySends, ∃ t, exec (.evcCopyDifference (.output d)) s = .next t ∧ notes false 0 t ∧
        (s.mret = [] → s.mtr = [] →
          (∀ k : BitVec 10, d = .wake k → (coachOf s k.toNat).st.live = true → isFastCoach s k.toNat = false →
            (coachOf t k.toNat).wake.getLsbD 0 = true) ∧
          (d = .fast → fastEn s = true → t.fastPend = true)) ∧
        ∀ (k : BitVec 10) (j : BitVec 9), d = .offer k j → (coachOf s k.toNat).st = .ready ∨ (coachOf s k.toNat).st = .run →
          ∃ o, (coachOf t k.toNat).offered = some (j.toNat, o)) ∧
      (∀ a st, a ≠ aEvcFault → csrUnit a = 2 → (getC s w).stall = some st → st.op = some (.read a) → st.waits = none →
        st.stele = none → st.divides = none →
        ∃ t, exec (.evcCopyDifference (.response c)) s = .next t ∧ (getC t w).stall = none ∧
          getR t aEvcFault = u32 (satAdd 65535 (fld (getR s aEvcFault) 16 16) 1 * 2 ^ 16))))

/-- A write of EVC_FAST that changes EN or SRC takes effect only when the source it releases and the source it designates each
have EN 0 and ACTIVE 0; else it only sets ERR. A write of EVC_CPL that completes no source changes no source, counts in
EVC_BADCPL.BAD, and records number, coach, and whether the source was ACTIVE under another claimant. -/
def Obligations.FastDesignationAndBadCompletions : Prop :=
  ∀ (s : State) (c : BitVec 10) (v : Word),
    let w := whoOf s c.toNat
    let m := numOf s w
    let k := fld v 0 10
    let y := srcOf s k
    (MayAccess s c 0 →
      let old := getR s aEvcFast
      let busy := fun k => srcEn s k = true ∨ (srcOf s k).active = true
      ∃ t, exec (.evcFastWrite c v) s = .next t ∧ SameProgram s t ∧ SameRegistersBut [aEvcFast] s t ∧
        (∀ j, srcOf t j = srcOf s j) ∧
        getR t aEvcFast =
          (if bit v 31 = bit old 31 ∧ fld v 0 9 = fld old 0 9 then setBit old 30 false
           else if srcReserved (fld v 0 9) = true ∨ (bit old 31 = true ∧ busy (fld old 0 9)) ∨
             (bit v 31 = true ∧ busy (fld v 0 9)) then setBit old 30 true
           else v &&& 0x800001FF)) ∧
    (MayAccess s c 3 → ¬ (k < 512 ∧ y.active = true ∧ (y.claimant = m ∨ ringOf (getC s w) ≤ 1)) →
      ∃ t, exec (.evcCpl c v) s = .next t ∧ SameProgram s t ∧ (∀ j, srcOf t j = srcOf s j) ∧
        SameRegistersBut [aEvcBadcpl, aEvcBadcplLast] s t ∧
        fld (getR t aEvcBadcpl) 0 16 = satAdd 65535 (fld (getR s aEvcBadcpl) 0 16) 1 ∧
        getR t aEvcBadcplLast = u32 ((if k < 512 ∧ y.active = true ∧ y.claimant ≠ m then 2 ^ 31 else 0) + m * 2 ^ 16 + k))

/-! ### Milestone time and the ledger (R213 to R225) -/

/-- Reads capture the time or a source's stamp. STEP sets the time from MLS_SET unless its nanoseconds are out of range,
STEPPPS waits for an edge, ACQ starts acquisition over. An accepted edge records its phase error and steps or slews the
time; holdover, the reference's alarms and a counter difference leave their bits in MLS_STATUS.
Readings of the model: log entries 4 and 79. -/
def Obligations.MilestoneTime : Prop :=
  ∀ (s : State) (c : BitVec 10),
    let m := actor s c
    let time := s.mls.time
    let sec : Nat := time.toNat / 2 ^ 30
    let ns : Nat := time.toNat % 2 ^ 30
    let at_ := fun (sec ns : Nat) => (BitVec.ofNat 64 (sec * 2 ^ 30 + ns) : DWord)
    let set := mkD (getR s aMlsSetHi) (getR s aMlsSetLo)
    let setTime := at_ (set.toNat / 2 ^ 30) (set.toNat % 2 ^ 30 / 5 * 5)
    let room := s.mls.sq.length < 4096 ∧ s.mls.gap = none ∧ ∀ e ∈ s.mls.sq, e.cycle ≠ s.cycles
    let status := fun t => getR t aMlsStatus
    let refRegs := [aMlsStatus, aMlsFreq, aMlsPpserr, aMlsCtl] ++ eventRegs 25 ++ eventRegs 26 ++ eventRegs 7
    (MayAccess s c 3 → ∃ t, exec (.mlsTimeLoRead c) s = .next t ∧ SameProgram s t ∧ SameRegisters s t ∧ t.mls = s.mls ∧
      t.bus = time.truncate 32 ∧ (coachOf t m).timeCap = some time) ∧
    (MayAccess s c 2 → ∀ n : BitVec 9, ∃ t, exec (.mlsLstampLoRead c n) s = .next t ∧ SameProgram s t ∧
      SameRegisters s t ∧ t.bus = (srcOf s n.toNat).stamp.truncate 32 ∧
      (coachOf t m).stampCap = some (n.toNat, (srcOf s n.toNat).stamp)) ∧
    (MayAccess s c 0 →
      let ctl := fun t => getR t aMlsCtl
      let ok := fld (getR s aMlsSetLo) 0 30 < 1000000000
      (ok → ∃ t, exec (.stepTime c) s = .next t ∧ SameProgram s t ∧ SameRegistersBut (aMlsCtl :: eventRegs 27) s t ∧
        t.mls.time = setTime ∧ t.mls.slew = 0 ∧ ctl t = setBit (ctl s) 31 false ∧
        (room → t.mls.sq = s.mls.sq ++ [⟨setTime, s.cycles, 3, stampFlags s false, 0, time⟩])) ∧
      (ok → ∃ t, exec (.steppps c) s = .next t ∧ SameProgram s t ∧ SameRegistersBut [aMlsCtl] s t ∧
        t.mls = (if bit (ctl s) 2 = true then s.mls else { s.mls with slew := 0, frac := 0 }) ∧
        ctl t = setBit (setBit (ctl s) 31 false) 1 true) ∧
      (¬ ok → ∀ i, i ∈ [Instr.stepTime c, .steppps c] → ∃ t, exec i s = .next t ∧ SameProgram s t ∧
        SameRegistersBut [aMlsCtl] s t ∧ t.mls = s.mls ∧ ctl t = setBit (ctl s) 31 true) ∧
      (∃ t, exec (.acq c) s = .next t ∧ SameProgram s t ∧ SameRegistersBut refRegs s t ∧ t.mls.acquiring = true ∧
        t.mls.good = 0 ∧ bit (status t) 0 = false ∧ t.mls.time = time)) ∧
    (s.up = true → ∀ width : BitVec 30,
      let e : Int := if ns ≤ 500000000 then ns else (ns : Int) - 1000000000
      let fits := 1000 ≤ width.toNat ∧ width.toNat ≤ 500000000
      let near := s.mls.acquiring = true ∨ bit (status s) 1 = true ∨
        ∀ d, s.mls.lastEdge = some d → (spanNs time d - 1000000000).natAbs ≤ 100000
      let far := s.mls.acquiring = true ∨ 1000 < e.natAbs
      let disc := bit (getR s aMlsCtl) 2
      (¬ (fits ∧ near) → exec (.ppsEdge width) s = .next (settle s)) ∧
      (fits → near → ∃ t, exec (.ppsEdge width) s = .next t ∧ SameProgram s t ∧ SameRegistersBut refRegs s t ∧
        getR t aMlsPpserr = BitVec.ofInt 32 e ∧ bit (status t) 1 = false ∧ bit (status t) 3 = false ∧
        bit (status t) 4 = false ∧ t.mls.acquiring = false ∧ t.mls.lastEdge = some t.mls.time ∧
        bit (status t) 0 = (if 200 < e.natAbs then false
          else if e.natAbs ≤ 40 ∧ 3 ≤ s.mls.good then true else bit (status s) 0) ∧
        (bit (getR s aMlsCtl) 1 = true → bit (getR t aMlsCtl) 1 = false ∧
          (if fld (getR s aMlsSetLo) 0 30 < 1000000000 then t.mls.time = setTime
            else t.mls.time = time ∧ bit (getR t aMlsCtl) 31 = true)) ∧
        (bit (getR s aMlsCtl) 1 = false →
          (disc = false → t.mls.time = time ∧ t.mls.slew = s.mls.slew) ∧
          (disc = true → far → t.mls.time = at_ (if 500000000 < ns then sec + 1 else sec) 0 ∧ t.mls.slew = 0) ∧
          (disc = true → ¬ far → t.mls.time = time ∧ t.mls.slew = e ∧ (getR t aMlsFreq).toInt.natAbs ≤ 200000)))) ∧
    (s.up = true →
      let held := fun t => bit (status t) 0 = false ∧ bit (status t) 1 = true ∧ SameProgram s t ∧ t.mls.time = time ∧
        SameRegistersBut refRegs s t ∧
        getR t aMlsFreq = BitVec.ofInt 32 (if s.mls.corrs = [] then 0 else s.mls.corrs.sum / (s.mls.corrs.length : Int))
      (∃ t, exec .ppsHoldover s = .next t ∧ held t) ∧
      (∃ t, exec .trefReversed s = .next t ∧ SameProgram s t ∧ SameRegistersBut refRegs s t ∧
        status t = setBit (status s) 2 (!bit (status s) 2)) ∧
      (∀ short, ∃ t, exec (.trefOpenOrShort short) s = .next t ∧ held t ∧ bit (status t) (if short then 4 else 3) = true) ∧
      (∃ t, exec .milestoneCounterDifference s = .next t ∧ SameMemory s t ∧ t.mls.time = time ∧
        status t = setBit (status s ||| 0x20) 0 false ∧ t.mls.good = 0))

/-- At its turn the ledger writer takes the front of the stamp queue and writes TIME, HEAD, DATA and CHAIN into the slot of the
head; a failed word sets WRFAIL and leaves the sequence as it is. INIT, the end of a clear and of the reset search, and
software records.
Readings of the model: log entries 74 and 81. -/
def Obligations.Ledger : Prop :=
  ∀ (s : State) (c : BitVec 10),
    let k := s.mls.lhead
    let a := 0x20009400 + 32 * k
    let lstat := getR s aMlsLstat
    (s.up = true → ∀ (e : Stamp) (r : List Stamp), s.mls.sq = e :: r → bit (getR s aMlsLctl) 0 = false →
      mayLedger s = true → ledgerHeld s = false → s.stl.late = [] →
      let head := s.mls.lseq % 2 ^ 32 * 2 ^ 32 + e.kind * 2 ^ 24 + e.flags * 2 ^ 16 + e.id
      let chain := chainOf s.mls.lchain.toNat e.time.toNat head e.data.toNat
      let next := fun t : State => t.mls.lhead = (k + 1) % 2048 ∧ SameContexts s t ∧ ∀ b, b < a ∨ a + 32 ≤ b → rdB t b = rdB s b
      ∀ tries : Vector (Fin 6) 4,
        ((∀ x ∈ tries.toList, x ≠ 5) → ∃ t, exec (.ledgerRecordWrite tries) s = .next t ∧ next t ∧
          t.mls.lseq = (s.mls.lseq + 1) % 2 ^ 32 ∧ t.mls.lchain = BitVec.ofNat 64 chain ∧ rdN t a 8 = e.time.toNat ∧
          rdN t (a + 8) 8 = head % 2 ^ 64 ∧ rdN t (a + 16) 8 = e.data.toNat ∧ rdN t (a + 24) 8 = chain % 2 ^ 64 ∧
          ((∀ x ∈ tries.toList, x = 0) → k ≠ 2047 → t.mls.sq = r ∧ SameRegisters s t)) ∧
        ((∃ x ∈ tries.toList, x = 5) → ∃ t, exec (.ledgerRecordWrite tries) s = .next t ∧ next t ∧ t.mls.lseq = s.mls.lseq ∧
          t.mls.lchain = s.mls.lchain ∧ bit (getR t aMlsLstat) 29 = true)) ∧
    (MayAccess s c 0 → ∃ t, exec (.initLedger c) s = .next t ∧ SameProgram s t ∧ SameRegistersBut [aMlsLctl] s t ∧
      getR t aMlsLctl = getR s aMlsLctl ||| 1) ∧
    (s.up = true → bit (getR s aMlsLctl) 0 = true → mayLedger s = true → ledgerHeld s = false → (keystoneNext s).isSome = true →
      s.mls.cleared < 8191 → let w := 0x20009400 + 8 * s.mls.cleared
      ∃ t, exec .ledgerClearDone s = .next t ∧ SameContexts s t ∧ bit (getR t aMlsLctl) 0 = true ∧
        t.mls.cleared = s.mls.cleared + 1 ∧ ∀ b, b < w ∨ w + 8 ≤ b → rdB t b = rdB s b) ∧
    (s.up = true → bit (getR s aMlsLctl) 0 = true → mayLedger s = true → ledgerHeld s = false → keystoneNext s = none →
      s.mls.cleared < 8192 →
      ∃ t, exec .ledgerClearDone s = .next t ∧ SameContexts s t ∧
        bit (getR t aMlsLctl) 0 = false ∧ t.mls.lhead = 0 ∧ t.mls.lseq = 1 ∧ t.mls.lchain = 0 ∧
        (∀ b, b < 0x20009400 + 8 * s.mls.cleared ∨ 0x20019400 ≤ b → rdB t b = rdB s b) ∧
        (∀ a, a ∉ [aMlsLctl, aStlSlow, aStlRowlast, aStlWrfail] ++ eventRegs 10 →
          (a < aStlRow ∨ aStlRow + 4096 ≤ a) → getR t a = getR s a) ∧
        (fld (getR t aStlWrfail) 16 16 = fld (getR s aStlWrfail) 16 16 → fld (getR s aStlWrfail) 16 16 < 65535 →
          ∀ b, 0x20009400 + 8 * s.mls.cleared ≤ b → b < 0x20019400 → rdB t b = 0)) ∧
    (s.up = true → bit lstat 31 = false →
      ∃ t, exec .ledgerSearchDone s = .next t ∧ SameProgram s t ∧ SameRegistersBut [aMlsLstat, aStlEcc, aStlEccaddr] s t ∧
        bit (getR t aMlsLstat) 31 = true ∧
        (newestRecord s = none → bit (getR t aMlsLstat) 30 = true ∧
          t.mls = { s.mls with lhead := 0, lseq := 1, lchain := 0 }) ∧
        ∀ j q, newestRecord s = some (j, q) → getR t aMlsLstat = lstat ||| 0x80000000 ∧ t.mls = { s.mls with
          lhead := (j + 1) % 2048, lseq := (q + 1) % 2 ^ 32, lchain := BitVec.ofNat 64 (rdN s (0x20009400 + 32 * j + 24) 8) }) ∧
    (MayAccess s c 1 → ∀ v : Word, ∃ t, exec (.mlsLsoftWrite c v) s = .next t ∧ SameProgram s t ∧
      SameRegistersBut (eventRegs 27) s t ∧
      (s.mls.sq.length < 4096 → s.mls.gap = none → (∀ e ∈ s.mls.sq, e.cycle ≠ s.cycles) →
        t.mls.sq = s.mls.sq ++ [⟨s.mls.time, s.cycles, 5, stampFlags s false, actor s c, v.zeroExtend 64⟩]) ∧
      (4096 ≤ s.mls.sq.length → t.mls.sq = s.mls.sq ∧ (s.mls.gap ≠ none ∨ (srcStamp s 27 = false ∧ srcStamp s 7 = false) →
        (getR t aMlsSqLost).toNat = satAdd (2 ^ 32 - 1) (getR s aMlsSqLost).toNat 1)))

/-! ### Supervised outputs, tamper mesh, attack policy (R226 to R231, R256, R257) -/

/-- SVO_CMD writes the command latches of the channels it selects, unless a channel's MINRING refuses the ring (PRIV) or the
outputs are held, and so do the lanes of the set their enable copies; SVO_CTL.RELEASE ends the hold. An enable line that comes
to disagree with another sets VDIS and is an event of the attack policy. Dark pulses, the checks of the loops and of the mesh leave their flags and
counts. An event of the attack policy adds 1 to the policy count, and beyond THRESH it declares an attack.
Readings of the model: log entry 44. -/
def Obligations.OutputsAndPolicy : Prop :=
  ∀ (s : State) (c : BitVec 10),
    let heldNow := bit (getR s aSvoCtl) 0
    let latch := s.mls.latch
    (MayAccess s c 3 → ∀ v : Word,
      let w := whoOf s c.toNat
      let refused := ∃ n, n < 4 ∧ bit v (16 + n) = true ∧ fld (getR s (aSvoCfg + 4 * n)) 2 2 < ringOf (getC s w)
      (refused → exec (.svoCmdWrite c v) s =
        .next (settle (raiseItem s w { vec := 9, addr := 0xE0040000, write := true, info := 0x8000 }))) ∧
      (¬ refused → heldNow = true → exec (.svoCmdWrite c v) s = .next (settle s)) ∧
      (¬ refused → heldNow = false → ∃ t, exec (.svoCmdWrite c v) s = .next t ∧ SameProgram s t ∧
        SameRegistersBut (eventRegs 27) s t ∧
        (∀ n, n < 4 → t.mls.latch.getLsbD n = if bit v (16 + n) then bit v n else latch.getLsbD n) ∧
        ∀ n l, n < 4 → l < 4 → bit v (16 + n) = true → (laneOf s l).role = .voter ∨ (laneOf s l).role = .pair →
          (laneOf t l).enable.getLsbD n = bit v n)) ∧
    (MayAccess s c 0 → ∃ t, exec (.svoRelease c) s = .next t ∧ SameProgram s t ∧ t.mls.latch = latch ∧
      SameRegistersBut (aSvoCtl :: eventRegs 27) s t ∧ getR t aSvoCtl = getR s aSvoCtl &&& ~~~1) ∧
    (s.up = true → ∀ n : Fin 4,
      let on := latch.getLsbD n.val = true ∧ padVote s n.val = true
      let stat := aSvoStat + 4 * n.val
      let faulty := fun (f : BitVec 5) (t : State) => SameProgram s t ∧ t.mls.latch = latch ∧ t.mls.dark = s.mls.dark ∧
        SameRegistersBut ([stat, aSvoFcnt] ++ eventRegs (29 + n.val) ++ eventRegs 7) s t ∧
        getR t stat = getR s stat ||| u32 (2 * f.toNat) ∧ (getR t aSvoFcnt).toNat = satAdd (2 ^ 32 - 1)
          (getR s aSvoFcnt).toNat ((List.range 5).filter (fun i => f.getLsbD i)).length
      (∀ f, ¬ on → s.mls.dark ≠ some n.val → ∃ t, exec (.offSupervisionFault n f) s = .next t ∧ faulty f t) ∧
      (on → bit (getR s (aSvoCfg + 4 * n.val)) 0 = true → s.mls.dark = none →
        exec (.darkPulse n .begin_) s = .next (settle { s with mls := { s.mls with dark := some n.val } })) ∧
      (s.mls.dark = some n.val →
        (∀ f, ∃ t, exec (.darkPulse n (.check f)) s = .next t ∧ faulty f t) ∧
        exec (.darkPulse n .end_) s = .next (settle { s with mls := { s.mls with dark := none } })) ∧
      (let p := getR s aKeyPolicy
       let count := satAdd 4095 (fld (getR s aKeyPcount) 0 12) 1
       let attacks := fld p 0 12 ≠ 0 ∧ fld p 0 12 < count ∧ bit (getR s aKeyAttack) 31 = false
       let others := fun (p : Nat) => ∃ q, q < 3 ∧ q ≠ p ∧ (laneAt s q).isSome = true ∧ enLine s n.val q = enLine s n.val p
       let flipped := fun (l : Nat) => withEnable (laneOf s l).enable n.val (!(laneOf s l).enable.getLsbD n.val)
       ∀ p : Fin 3,
       (laneAt s p.val = none → exec (.enableDisagreement ⟨n, p⟩) s = .next (settle s)) ∧
       (∀ l, laneAt s p.val = some l → s.lnc.set ≠ .failstop → ¬ others p.val →
        ∃ t, exec (.enableDisagreement ⟨n, p⟩) s = .next t ∧ SameProgram s t ∧ SameRegisters s t ∧ t.mls = s.mls ∧
          laneOf t l = { laneOf s l with enable := flipped l } ∧ ∀ k, k ≠ l → laneOf t k = laneOf s k) ∧
       (∀ l, laneAt s p.val = some l → s.lnc.set ≠ .failstop → others p.val →
       ∃ t, exec (.enableDisagreement ⟨n, p⟩) s = .next t ∧ SameProgram s t ∧ SameRegistersBut (stat :: policyRegs) s t ∧
        getR t stat = getR s stat ||| 0x40 ∧ fld (getR t aKeyPcount) 0 12 = count ∧
        fld (getR t aKeyPcount) 16 12 = max count (fld (getR s aKeyPcount) 16 12) ∧
        fld (getR t aKeyPclass) 20 4 = satAdd 15 (fld (getR s aKeyPclass) 20 4) 1 ∧
        (¬ attacks → SameRegistersBut [stat, aKeyPcount, aKeyPclass] s t ∧ t.mls = s.mls ∧ (laneOf t l).enable = flipped l) ∧
        (attacks → getR t aKeyAttack = u32 (2 ^ 31 + fld p 24 4 * 2 ^ 24 + satAdd 65535 (fld (getR s aKeyAttack) 0 16) 1) ∧
          (bit p 24 = true → t.bne.zeroing = true) ∧ (bit p 26 = true → bit (getR t aSvoCtl) 0 = true) ∧
          (bit p 27 = true → bit (getR t aZwLifecycle) 31 = true))))) ∧
    (s.up = true → ∀ bad short : BitVec 8,
      ∃ t, exec (.tamperMeshCheck bad short) s = .next t ∧ SameProgram s t ∧
        ∀ k, k < 8 → let on := bit (getR s aTmpCtl) k
          t.mls.mesh.get 0 k = (if on = true ∧ bad.getLsbD k = true then 1 else 0) ∧
          bit (getR t aTmpStat) k = (bit (getR s aTmpStat) k || (on && bad.getLsbD k && s.mls.mesh.get 0 k == 1)) ∧
          bit (getR t aTmpStat) (8 + k) = (bit (getR s aTmpStat) (8 + k) || (on && short.getLsbD k))) ∧
    (∃ t, exec .policyWindowEnd s = .next t ∧ SameProgram s t ∧ SameRegistersBut [aKeyPcount] s t ∧
      fld (getR t aKeyPcount) 0 12 = 0 ∧ fld (getR t aKeyPcount) 16 16 = fld (getR s aKeyPcount) 16 16)

/-! ### Lanes and Keystone (R233 to R256) -/

/-- Mismatches among the outputs the positions present: an OUTPUT mismatch takes the odd lane out of the voting set, one of
marked lanes alone begins a partial resynchronisation, an unresolved one restarts the core at L0 (shown with no sealed access
in progress), and a checkpoint keeps the signature or takes out the lane whose signature
differs, whose partial resynchronisation brings it back.
Readings of the model: log entries 51 and 54. -/
def Obligations.Mismatches : Prop :=
  ∀ (s : State) (c : BitVec 10),
    let logged := fun (kind p n b m : Nat) (t : State) =>
      getR t aKeyMmlog0 = u32 (kind * 2 ^ 30 + p * 2 ^ 28 + n * 2 ^ 26 + m * 2 ^ 16 + b * 2 ^ 8) ∧
      getR t aKeyMmlog1 = s.mls.time.truncate 32
    let reports := fun (m : Nat) (t : State) => (bit (getR s aKeyCtl) 1 = false → SameContexts s t) ∧
      (bit (getR s aKeyCtl) 1 = true → let w := whoOf s m
        (getC t w).imprecise = (getC s w).imprecise ++ [{ vec := 18 }] ∧ SameOthers s t w)
    (∀ (o : Outputs) (p : Fin 3) (b n : Nat), issuing s = true → s.lnc.set = .triplex →
      (∀ q, q < 3 → (laneAt s q).isSome = true) → laneAt s p.val = some n → isMarked s n = false →
      let vote := (o.a &&& o.b) ||| (o.a &&& o.c) ||| (o.b &&& o.c)
      (∀ q, q < 3 → (outputAt o q ≠ vote ↔ q = p.val)) → b < 176 →
      (∀ i, i ≤ b → ((outputAt o p.val).getLsbD i ≠ vote.getLsbD i ↔ i = b)) →
      ∃ t, exec (.outputMismatch o.a o.b o.c) s = .next t ∧ SameMemory s t ∧ logged 0 p.val n b (outCoach vote) t ∧
        reports (outCoach vote) t ∧
        fld (getR t aKeyMmcnt) 16 16 = satAdd 65535 (fld (getR s aKeyMmcnt) 16 16) 1 ∧ t.lnc.set = .duplex ∧
        (laneOf t n).role = .test ∧ (laneOf t n).pos = 3 ∧ (laneOf t n).suspect = false ∧
        (s.lnc.join = none → ∀ k, laneIn s .spare = some k →
          (laneOf t k).role = .joining ∧ ∃ q src, q < 3 ∧ t.lnc.join = some ⟨k, q, none, src⟩)) ∧
    (∀ o : Outputs, issuing s = true → differing s o ≠ [] → (∀ p ∈ differing s o, markedAt s p = true) →
      s.lnc.resync = none → s.lnc.set = .triplex → ∃ t, exec (.outputMismatch o.a o.b o.c) s = .next t ∧ SameProgram s t ∧
        SameRegisters s t ∧ t.lnc.set = .duplex ∧ ∃ n p, t.lnc.resync = some (n, p) ∧ laneAt s p = some n ∧ (laneOf t n).pos = 3) ∧
    (∀ (o : Outputs) (p n : Nat) (r : List Nat), issuing s = true → differing s o = p :: r →
      s.lnc.set = .triplex ∧ r ≠ [] ∧ markedAt s p = false ∨ s.lnc.set ≠ .triplex ∧ (∀ q, q < 3 → markedAt s q = false) →
      (∀ w, (getC s w).stall = none) →
      let at_ := if s.lnc.set = .triplex then p else (occupied s).headD 0
      laneAt s at_ = some n →
      ∃ t, exec (.unresolvedMismatch o.a o.b o.c) s = .next t ∧ SameMemory s t ∧
        logged 3 at_ n (lowestBit (diffBits s o) 0) (outCoach (outputAt o at_)) t ∧
        getR t aRngCtl = 0 ∧ getR t aRngLock = 0 ∧ bit (getR t aSvoCtl) 0 = true ∧ bit (getR t aCshFastcfg) 31 = false ∧
        t.l0cnt = satAdd 65535 s.l0cnt 1 ∧ t.mcs = {} ∧ t.fastOn = none ∧ t.sbOrder = [] ∧
        (∀ k, k ≠ 0 → (coachOf t k).st = .free) ∧ ((coachOf t 0).st = .ready ∨ (coachOf t 0).st = .run) ∧
        (coachOf t 0).pc = 0x10 ∧ (coachOf t 0).status = 0x00010000 ∧ (coachOf t 0).dhead = [] ∧
        (let r := coachOf s (s.run0.getD 0)
         (sboxOf t 0).pc = r.pc ∧ (sboxOf t 0).status = r.status ∧ fld (sboxOf t 0).cause 8 8 = 1 ∧ (sboxOf t 0).occ = true)) ∧
    (issuing s = true → let m := c.toNat
      laneOfCoach s m = 0 →
      (s.lnc.marks = [] → ∃ t, exec (.checkpoint c none) s = .next t ∧ SameProgram s t ∧ SameRegisters s t ∧
        t.lnc = { s.lnc with sig := signature s m }) ∧
      (∀ (p : Fin 3) (b : Fin 64) (n : Nat), s.lnc.set = .triplex → laneAt s p.val = some n → isMarked s n = false →
        ∃ t, exec (.checkpoint c (some (p, b))) s = .next t ∧ SameMemory s t ∧ logged 1 p.val n (176 + b.val) m t ∧
          reports m t ∧
          fld (getR t aKeyMmcnt) 0 16 = satAdd 65535 (fld (getR s aKeyMmcnt) 0 16) 1 ∧ t.lnc.set = .duplex ∧
          t.lnc.resync = some (n, p.val) ∧ (laneOf t n).suspect = true ∧ (laneOf t n).pos = 3 ∧
          (laneOf t n).role = (laneOf s n).role)) ∧
    (∀ n p, s.lnc.resync = some (n, p) → s.lnc.due = [] → laneIn s .spare = none →
      ∃ t, exec .partialResync s = .next t ∧ SameProgram s t ∧ SameRegisters s t ∧ t.lnc.resync = none ∧
        laneOf t n = { laneOf s n with pos := p } ∧ (∀ k, k ≠ n → laneOf t k = laneOf s k) ∧
        (∀ e ∈ t.lnc.marks, e.1 ≠ n) ∧ (isPaired s = true → t.lnc.set = s.lnc.set) ∧ (isPaired s = false →
        (t.lnc.set = .triplex ↔ ∀ q, q < 3 → (laneAt t q).isSome = true) ∧ (t.lnc.set = .triplex ∨ t.lnc.set = .duplex)))

/-- Joins, self-tests and retirement, rotation, comparator tests, the clock voter, and the lane modes.
Readings of the model: log entries 54, and 81 for the sweep's order and the relabelling at a join. -/
def Obligations.LaneService : Prop :=
  ∀ (s : State) (c : BitVec 10),
    let idle := s.lnc.set = .triplex ∧ s.lnc.join = none ∧ s.lnc.resync = none
    let mayRotate := bit (getR s aKeyCtl) 0 = true ∧ svc s = true ∧ idle
    let rotates := fun (t : State) => ∀ k v, mayRotate → laneIn s .spare = some k → outgoing s = some v →
      (laneOf t k).role = .joining ∧ t.lnc.rotDue = false ∧
      t.lnc.join = some ⟨k, if (laneOf s v).pos = 0 then 2 else (laneOf s v).pos, some v, sourceOf s (some v)⟩
    (∀ j : Join, s.lnc.join = some j → s.lnc.busy = false → laneIn s .spare = none →
      ∃ t, exec .laneJoin s = .next t ∧ SameProgram s t ∧ t.lnc.join = none ∧ (laneOf t j.lane).role = .voter ∧
        (laneOf t j.lane).pos = j.pos ∧ (∀ n, j.source = some n → (laneOf t j.lane).enable = (laneOf s n).enable) ∧
        ∀ v, j.leaves = some v → v ≠ j.lane → (laneOf t v).role = .test ∧ (laneOf t v).pos = 3 ∧ t.lnc.sweeping = true ∧
          t.lnc.sweep = 0 ∧ t.lnc.rotReq = false) ∧
    (∀ n : Fin 4, s.up = true → (laneOf s n.val).role = .test →
      let x := laneOf s n.val
      (s.lnc.rotDue = false → s.lnc.rotReq = false → s.lnc.set ≠ .duplex →
        ∃ t, exec (.laneSelfTestEnd n true) s = .next t ∧ SameProgram s t ∧ SameRegisters s t ∧
          laneOf t n.val = { x with role := .spare, lastfail := false, aborted := false, passed := some s.cycles, tested := some s.cycles } ∧
          ∀ k, k ≠ n.val → laneOf t k = laneOf s k) ∧
      (s.lnc.set = .duplex → s.lnc.join = none → s.lnc.resync = none → laneIn s .spare = none →
        (∃ p, p < 3 ∧ laneAt s p = none) → ∃ t, exec (.laneSelfTestEnd n true) s = .next t ∧ SameProgram s t ∧ SameRegisters s t ∧
          (laneOf t n.val).role = .joining ∧ ∃ p src, t.lnc.join = some ⟨n.val, p, none, src⟩) ∧
      (∃ t, exec (.laneSelfTestEnd n false) s = .next t ∧ SameProgram s t ∧ laneOf t n.val = { x with
        role := .retired, pos := 3, lastfail := true, aborted := false, tested := some s.cycles, retcnt := satAdd 3 x.retcnt 1
        perm := x.perm || decide (1 ≤ x.retcnt) } ∧ ((unretired t).length < 2 → t.lnc.set = .failstop))) ∧
    (s.up = true → ∃ t, exec .rotationDue s = .next t ∧ SameProgram s t ∧ SameRegisters s t ∧ rotates t ∧
      (¬ mayRotate → t.lnc = { s.lnc with rotDue := true })) ∧
    (MayAccess s c 0 → ∃ t, exec (.lncRotreq c) s = .next t ∧ SameProgram s t ∧ SameRegisters s t ∧ rotates t ∧
      t.lnc.rotReq = true ∧ (¬ mayRotate → t.lnc = { s.lnc with rotReq := true })) ∧
    (s.lnc.sweeping = true → ∀ pass, ∃ t, exec (.comparatorInjection pass) s = .next t ∧ SameProgram s t ∧
      t.lnc.sweep = s.lnc.sweep + 1 ∧ t.lnc.sweeping = decide (s.lnc.sweep + 1 < 732) ∧
      (pass = true → SameRegisters s t ∧ ∀ k, laneOf t k = laneOf s k) ∧
      (pass = false → let q := sweepPlace s.lnc.sweep
        bit (getR t aKeyStat) 13 = true ∧ fld (getR t aKeyStat) 14 2 = q.1 % 4 ∧ fld (getR t aKeyStat) 16 8 = q.2 % 256 ∧
        (bit (getR s aKeyCtl) 2 = true → bit (getR t aSvoCtl) 0 = true))) ∧
    (s.up = true → ∀ n : Fin 3,
      let st := getR s aKeyStat
      (fld st 0 3 = 0 ∨ bit st n.val = true → ∃ t, exec (.oscillatorFault n) s = .next t ∧ SameProgram s t ∧
        SameRegistersBut (aKeyStat :: policyRegs ++ eventRegs 36) s t ∧
        getR t aKeyStat = setBit (setBit st n.val true) (9 + n.val) true) ∧
      (fld st 0 3 ≠ 0 → bit st n.val = false → ∃ t, exec (.oscillatorFault n) s = .next t ∧ t.up = false ∧
        t.pwr.cause = 4 ∧ bit (getR t aClkStatus) 11 = true) ∧
      (∃ t, exec (.oscillatorReenable n) s = .next t ∧ SameProgram s t ∧ SameRegistersBut [aKeyStat] s t ∧
        getR t aKeyStat = setBit st n.val false)) ∧
    exec .onDemandOscillatorStop s = .next (settle { s with pwr := { s.pwr with osc := false } }) ∧
    (MayAccess s c 0 →
      let may := svc s = true ∧ s.lnc.set = .triplex ∧ (unretired s).length = 4
      (s.lnc.paired = false → ¬ may → ∃ t, exec (.handoverToPaired c) s = .next t ∧ SameProgram s t ∧ SameRegisters s t ∧
        t.lnc = { s.lnc with err := true }) ∧
      (s.lnc.paired = false → may → s.lnc.join = none → ∀ a b d o, laneAt s 0 = some a → laneAt s 1 = some b →
        laneAt s 2 = some d → outrider s = some o →
        ∃ t, exec (.handoverToPaired c) s = .next t ∧ SameProgram s t ∧ t.lnc.set = .paired ∧ t.lnc.paired = true ∧
          t.lnc.busy = false ∧ t.lnc.err = false ∧ t.lnc.part0 = getR s aCshFreepart0 ∧ t.lnc.part1 = getR s aCshFreepart1 ∧
          (laneOf t a).role = .pair ∧ (laneOf t d).role = .pair ∧ (laneOf t b).role = .free ∧ (laneOf t o).role = .free) ∧
      (s.lnc.set = .paired → ∀ a d x y, laneAt s 0 = some a → laneAt s 2 = some d → laneAt s 1 = none →
        s.lnc.resync = none → freeLanes s = [x, y] → ∃ t, exec (.handoverToVoted c) s = .next t ∧ SameProgram s t ∧ SameRegisters s t ∧
          t.lnc.set = .duplex ∧ t.lnc.paired = false ∧ (laneOf t a).role = .voter ∧ (laneOf t d).role = .voter ∧
          (laneOf t x).role = .joining ∧ (laneOf t y).role = .test ∧ t.lnc.join = some ⟨x, 1, none, some a⟩) ∧
      (s.lnc.set ≠ .paired → exec (.handoverToVoted c) s = .next (settle s)) ∧
      (∀ v : Word, let n := fld v 0 2
        ∃ t, exec (.lncRetest c v) s = .next t ∧ SameProgram s t ∧ SameRegisters s t ∧
          laneOf t n = (if (laneOf s n).role = .retired ∧ (laneOf s n).perm = false then { laneOf s n with role := .test }
            else laneOf s n) ∧ ∀ k, k ≠ n → laneOf t k = laneOf s k))

/-! ### Microstore (R258 to R268) -/

/-- Staging writes, reads, clears and identifiers; digests; and the switch, which exchanges the buffers of a region and
their identifiers, or is refused with the first reason that holds. `r` is true for the customer region.
Readings of the model: log entry 48. -/
def Obligations.Microstore : Prop :=
  ∀ (s : State) (c : BitVec 10) (r : Bool),
    let ctl := fun t => getR t aMcsCtl
    let status := fun t => getR t aMcsStatus
    let ident := if r then aMcsCstaged else aMcsStaged
    let version := if r then aMcsCversion else aMcsVersion
    let buffer := fun (t : State) => if r then t.mcs.cstg else t.mcs.vstg
    let active := fun (t : State) => if r then t.mcs.cact else t.mcs.vact
    let lo := if r then 2 else 0
    let code := fun r => if r then 3 else 2
    let digesting := fun r => code r ∈ s.mcs.dig
    let same := fun (t : State) => SameProgram s t ∧ t.lnc = s.lnc
    (MayAccess s c 0 → ∀ (i : BitVec 11) (v : Word),
      let n := i.toNat
      let slot := n < if r then 1040 else 1088
      let frozen := s.mcs.sw.isSome = true ∨ digesting r
      let d := fun k => (getR s (aMcsSdata + 4 * k)).toNat
      (slot → ¬ frozen → ∃ t, exec (.mcsStageWrite c r i) s = .next t ∧ same t ∧ bit (ctl t) 31 = false ∧
        SameRegistersBut [aMcsSaddr, aMcsCtl, aMcsStatus, ident] s t ∧ fld (status t) lo 2 = 1 ∧ getR t ident = 0 ∧
        (buffer t).get 0 n = (if n < 1024 then d 0 + d 1 * 2 ^ 32 + d 2 * 2 ^ 64 + d 3 % 2 ^ 16 * 2 ^ 96 else d 0) ∧
        (∀ j, j ≠ n → (buffer t).get 0 j = (buffer s).get 0 j) ∧ active t = active s) ∧
      (¬ slot ∨ frozen → ∃ t, exec (.mcsStageWrite c r i) s = .next t ∧ same t ∧ t.mcs = s.mcs ∧ bit (ctl t) 31 = true ∧
        SameRegistersBut [aMcsSaddr, aMcsCtl] s t) ∧
      (slot → ∃ t, exec (.mcsStageRead c r i) s = .next t ∧ same t ∧ t.mcs = s.mcs ∧
        (∀ k, k < 4 → getR t (aMcsSdata + 4 * k) = u32 ((buffer s).get 0 n / 2 ^ (32 * k))) ∧
        ∀ a, a ≠ aMcsSaddr → (a < aMcsSdata ∨ aMcsSdata + 16 ≤ a) → getR t a = getR s a) ∧
      (¬ slot → ∃ t, exec (.mcsStageRead c r i) s = .next t ∧ same t ∧ t.mcs = s.mcs ∧ bit (ctl t) 31 = true ∧
        SameRegistersBut [aMcsSaddr, aMcsCtl] s t) ∧
      (∃ t, exec (.mcsClear c r) s = .next t ∧ same t ∧ t.mcs = s.mcs ∧ SameRegistersBut [aMcsCtl] s t ∧
        bit (ctl t) (if r then 3 else 2) = true ∧ bit (ctl t) 31 = false) ∧
      (∃ t, exec (.mcsStagedWrite c r v) s = .next t ∧ same t ∧ t.mcs = s.mcs ∧ SameRegistersBut [ident, aMcsStatus] s t ∧
        getR t ident = v ∧ fld (status t) lo 2 = (if v ≠ 0 then 2 else if fld (status s) lo 2 = 0 then 0 else 1)) ∧
      (digesting r → exec (.mcsStagedDigest c r) s = .next (settle s)) ∧
      (¬ digesting r → digesting (!r) → ∃ t, exec (.mcsStagedDigest c r) s = .next t ∧ same t ∧ SameRegistersBut [aMcsCtl] s t ∧
        t.mcs = { s.mcs with dig := s.mcs.dig ++ [code r] } ∧ bit (ctl t) (if r then 5 else 4) = true ∧ bit (ctl t) 31 = false) ∧
      (¬ digesting r → ¬ digesting (!r) → ∃ t, exec (.mcsStagedDigest c r) s = .next t ∧ same t ∧
        t.mcs = { s.mcs with dig := s.mcs.dig ++ [code r] } ∧
        bit (status t) 30 = true ∧ bit (status t) 29 = r ∧ bit (ctl t) (if r then 5 else 4) = true ∧
        ∀ k, k < 8 → getR t (aMcsSdigest + 4 * k) = 0) ∧
      (let reason := if fld (status s) lo 2 = 1 then 1 else if s.lnc.set ≠ .triplex ∧ s.lnc.set ≠ .duplex then 2
         else if s.mcs.sw ≠ none then 3 else if s.lnc.busy = true then 4
         else if bit (ctl s) (if r then 3 else 2) = true then 5 else 0
       ∃ t, exec (.mcsSwitch c r) s = .next t ∧ same t ∧ SameRegistersBut [aMcsCtl, aMcsStatus] s t ∧
        (reason = 0 → t.mcs = { s.mcs with sw := some r } ∧ bit (status t) 31 = true ∧ bit (ctl t) 31 = false) ∧
        (reason ≠ 0 → t.mcs = s.mcs ∧ bit (ctl t) 31 = true ∧ fld (status t) 8 4 = reason))) ∧
    (bit (ctl s) (if r then 3 else 2) = true → ∃ t, exec (.stagedClearDone r) s = .next t ∧ same t ∧ buffer t = [] ∧
      active t = active s ∧ fld (status t) lo 2 = 0 ∧ getR t ident = 0 ∧ bit (ctl t) (if r then 3 else 2) = false ∧
      SameRegistersBut [aMcsCtl, aMcsStatus, ident] s t) ∧
    (s.up = true → ∀ d rest, s.mcs.dig = d :: rest → d < 4 → r = (d == 1 || d == 3) →
      let base := if d = 0 then aMcsDigest else if d = 1 then aMcsCdigest else aMcsSdigest
      ∃ t, exec .digestDone s = .next t ∧ same t ∧ (2 ≤ d → bit (ctl t) (if r then 5 else 4) = false) ∧
        (2 ≤ d → code (!r) ∈ rest → t.mcs.dig = rest.filter (· ≠ code (!r)) ++ [code (!r)] ∧ bit (status t) 29 = !r ∧
          ∀ k, k < 8 → getR t (base + 4 * k) = 0) ∧
        (d < 2 ∨ code (!r) ∉ rest → t.mcs = { s.mcs with dig := rest } ∧ (rest = [] → bit (status t) 30 = false) ∧
          ∀ k, k < 8 → getR t (base + 4 * k) =
            u32 (leNat (((bufferDigest r (if 2 ≤ d then buffer s else active s) (getR s (if 2 ≤ d then ident else version))).drop
              (4 * k)).take 4)))) ∧
    (s.mcs.sw = some r → insideRoutine r false s.fast = true ∨ (∃ e ∈ s.coach, insideRoutine r false e.2 = true) →
      exec .microcodeExchange s = .next (settle s)) ∧
    (s.mcs.sw = some r → insideRoutine r false s.fast = false → (∀ e ∈ s.coach, insideRoutine r false e.2 = false) → ∃ t, exec .microcodeExchange s = .next t ∧ same t ∧ active t = buffer s ∧ buffer t = active s ∧
      getR t version = getR s ident ∧ getR t ident = getR s version ∧ t.mcs.sw = none ∧ bit (status t) 31 = false ∧
      fld (status t) lo 2 = (if getR s version ≠ 0 then 2 else 0) ∧ bit (status t) 30 = true ∧
      ∀ k, k < 8 → getR t ((if r then aMcsCdigest else aMcsDigest) + 4 * k) = 0)

/-! ### Banks (R276 to R295) -/

/-- Ownership and hand-over, power requests and transitions, write-back and scrub, and the accesses of the E port. A
refused write of BNK_OWNER or BNK_PWR sets ERR and changes nothing else. The spare bank: GO starts a copy, ABORT discards
it, each step copies one word, and the switch puts the spare in the bank's place.
Readings of the model: log entries 40 and 55. -/
def Obligations.BankService : Prop :=
  (∀ (s : State) (c : BitVec 10) (v : Word),
    let others := fun (n : Nat) (t : State) => ∀ k, k ≠ n → bankN t k = bankN s k
    (∀ n : Fin 32,
      let b := bankN s n.val
      let base := 0x10000000 + n.val * 0x10000
      (s.up = true → ∀ (w : BitVec 13) (wr : Option (BitVec 8 × DWord)) (r : Option Rival),
        let a := base + 8 * w.toNat
        let mine := b.own = .owned ∧ fld b.owner 18 2 = 2
        let busy := if b.e.acc = some (w.toNat, wr.isSome) then b.e.busy else 0
        let loses_ := r.any (loses .e wr.isSome (decide (4 ≤ busy)))
        let go := fun u => exec (.bankERetry ⟨n, w, wr, r, u⟩) s
        (¬ mine → ∀ u, ∃ t, go u = .next t ∧ SameProgram s t ∧ SameRegistersBut [aBnkDeny, aBnkDenylast] s t ∧
          others n t ∧ bankN t n.val = { b with e := ⟨none, 0, some .error⟩ } ∧
          (getR t aBnkDeny).toNat = satAdd (2 ^ 32 - 1) (getR s aBnkDeny).toNat 1 ∧
          getR t aBnkDenylast = u32 (2 ^ 30 + (if wr.isSome = true then 2 ^ 29 else 0) +
            (if b.own = .owned then 0 else 2 ^ 22) + n.val * 2 ^ 16 + w.toNat)) ∧
        (mine → b.pwr = 0 → loses_ = true → ∀ u, ∃ t, go u = .next t ∧ SameProgram s t ∧ SameRegistersBut [aBnkColl] s t ∧
          others n t ∧ bankN t n.val = { b with e := { b.e with acc := some (w.toNat, wr.isSome), busy := busy + 1 } } ∧
          fld (getR t aBnkColl) 0 16 = satAdd 65535 (fld (getR s aBnkColl) 0 16) 1) ∧
        (mine → b.pwr = 0 → loses_ = false → eccAt s a = 0 →
          (wr = none → ∃ t, go .none = .next t ∧ SameProgram s t ∧ SameRegisters s t ∧ others n t ∧
            bankN t n.val = { b with e := ⟨none, 0, some (.data (rd64 s a))⟩ }) ∧
          (wr = none → ∃ t, go .double = .next t ∧ SameProgram s t ∧ others n t ∧
            bankN t n.val = { b with e := ⟨none, 0, some .error⟩ }) ∧
          (∀ be d, wr = some (be, d) → ∃ t, go .none = .next t ∧ SameContexts s t ∧ SameRegisters s t ∧ others n t ∧
            bankN t n.val = { b with e := ⟨none, 0, some .done⟩ } ∧
            (∀ i, i < 8 → rdB t (a + i) = if be.getLsbD i = true then (d >>> (8 * i)).truncate 8 else rdB s (a + i)) ∧
            ∀ k, k < spareBase → k < a ∨ a + 8 ≤ k → rdB t k = rdB s k))) ∧
      (MayAccess s c 0 → Acked s c 7 →
        let refused := b.own ≠ .owned ∨ (bit v 31 = true ∧ b.pwr ≠ 0) ∨ (n = 0 ∧ vtlock s = true) ∨ copying s n.val = true
        (refused → ∃ t, exec (.bnkOwnerWrite c n v) s = .next t ∧ SameProgram s t ∧ SameRegisters s t ∧ others n t ∧
          bankN t n.val = { b with err := true }) ∧
        (¬ refused → ∃ t, exec (.bnkOwnerWrite c n v) s = .next t ∧ SameProgram s t ∧ others n t ∧
          SameRegistersBut [aBnkOwner + 4 * n.val] s t ∧ getR t (aBnkOwner + 4 * n.val) = v &&& 0x800D1F73 ∧
          (bankN t n.val).own = .handing ∧ (bankN t n.val).next = v &&& 0x800D1F73 ∧ (bankN t n.val).owner = b.owner)) ∧
      (b.own = .handing → acceptedAt s n.val = false → ∃ t, exec (.handingEnd n) s = .next t ∧ SameProgram s t ∧
        SameRegisters s t ∧ others n t ∧ bankN t n.val =
          (if bit b.next 31 = true then { b with own := .wiping } else { b with own := .owned, owner := b.next })) ∧
      (b.own = .handing → acceptedAt s n.val = true → exec (.handingEnd n) s = .next (settle s)) ∧
      (b.own = .wiping → ∃ t, exec (.wipeEnd n) s = .next t ∧ SameContexts s t ∧ SameRegisters s t ∧ others n t ∧
        bankN t n.val = { b with own := .owned, owner := b.next } ∧
        (∀ a, rdB t a = if base ≤ a ∧ a < base + 0x10000 then 0 else rdB s a) ∧
        ∀ a, eccAt t a = if base ≤ a ∧ a < base + 0x10000 then 0 else eccAt s a)) ∧
    (∀ n : Fin 33,
      let b := bankN s n.val
      let base := if n.val = 32 then spareBase else 0x10000000 + n.val * 0x10000
      let used := n.val = 32 ∧ bit (getR s aBnkMap) 31 = true
      let active := s.up = true ∧ b.pwr = 0 ∧ ¬ used
      (MayAccess s c 1 → Acked s c 7 → ¬ used →
        let req := fld v 0 2
        let a := aBnkPwr + 4 * n.val
        let refused := (n.val = 0 ∧ vtlock s = true ∧ (req = 1 ∨ req = 2)) ∨ copying s n.val = true ∨
          (b.own = .wiping ∧ (req = 1 ∨ req = 2))
        (refused → ∃ t, exec (.bnkPwrWrite c n v) s = .next t ∧ SameProgram s t ∧ SameRegisters s t ∧ others n t ∧
          bankN t n.val = { b with err := true }) ∧
        (¬ refused → ∃ t, exec (.bnkPwrWrite c n v) s = .next t ∧ SameProgram s t ∧ SameRegistersBut [a] s t ∧ others n t ∧
          bit (getR t a) 4 = bit v 4 ∧ fld (getR t a) 0 2 = (if req = 3 then fld (getR s a) 0 2 else req) ∧
          (req = 3 → bankN t n.val = b) ∧
          (req ≠ 3 → (b.pwr = 0 → (bankN t n.val).pwr = if req = 1 then 1 else if req = 2 then 4 else 0) ∧
            (b.pwr = 2 → (bankN t n.val).pwr = if req = 0 then 3 else if req = 2 then 4 else 2) ∧
            (b.pwr = 5 → (bankN t n.val).pwr = if req = 2 then 5 else 3) ∧
            (b.pwr ∈ [1, 3, 4] → bankN t n.val = { b with latched := if req = pwrTarget b then none else some req })))) ∧
      (s.up = true → ¬ used → b.pwr = 1 ∨ b.pwr = 4 → acceptedAt s n.val (·.live) = true →
        exec (.bankPowerTransitionEnd n) s = .next (settle s)) ∧
      (s.up = true → ¬ used → b.latched = none → b.pwr = 3 ∨ acceptedAt s n.val (·.live) = false →
        let called := autowake s n.val = true ∧ awaited s n.val = true
        let ends := fun (x : Bank) => ∃ t, exec (.bankPowerTransitionEnd n) s = .next t ∧ SameContexts s t ∧
          SameRegisters s t ∧ others n t ∧ bankN t n.val = x ∧
          ∀ a, rdB t a = if b.pwr = 4 ∧ base ≤ a ∧ a < base + 0x10000 then unlisted a else rdB s a
        (b.pwr = 1 → ¬ called → ends { b with pwr := 2 }) ∧
        (b.pwr = 1 → called → ∃ t, exec (.bankPowerTransitionEnd n) s = .next t ∧ SameProgram s t ∧ others n t ∧
          SameRegistersBut [aBnkPwr + 4 * n.val] s t ∧ fld (getR t (aBnkPwr + 4 * n.val)) 0 2 = 0 ∧
          bankN t n.val = { b with pwr := 3, fromOff := false }) ∧
        (b.pwr = 4 → ends { b with pwr := 5 }) ∧
        (b.pwr = 3 → b.fromOff = false ∨ b.thenRetain = false → ends { b with pwr := 0, fromOff := false }) ∧
        (b.pwr = 3 → b.fromOff = true → b.thenRetain = true →
          ends { b with pwr := 1, fromOff := false, thenRetain := false })) ∧
      (s.up = true → ¬ used → b.pwr = 1 → b.latched = some 0 → acceptedAt s n.val (·.live) = false → ∃ t, exec (.bankPowerTransitionEnd n) s = .next t ∧
        SameProgram s t ∧ bankN t n.val = { b with pwr := 3, fromOff := false, latched := none }) ∧
      (∀ w : BitVec 13, let a := base + 8 * w.toNat
        (active → eccAt s a = 1 → ∃ t, exec (.eccWriteback n w) s = .next t ∧ SameProgram s t ∧ SameRegisters s t ∧
          ∀ x, eccAt t x = if x = a then 0 else eccAt s x) ∧
        (¬ (active ∧ eccAt s a = 1) → exec (.eccWriteback n w) s = .next (settle s))) ∧
      (active → bit (getR s aBnkScrub) 31 = true → b.scrub < 8192 →
        let w := b.scrub
        let a := base + 8 * w
        let moves := fun t : State => SameProgram s t ∧ others n t ∧ bankN t n.val = { b with scrub := (w + 1) % 8192 }
        let counts := fun (lo : Nat) (top : Nat) (t : State) => moves t ∧
          fld (getR t aBnkEcc) lo 16 = satAdd 65535 (fld (getR s aBnkEcc) lo 16) 1 ∧
          getR t aBnkEccaddr = u32 (top + n.val * 2 ^ 16 + w)
        (eccAt s a = 0 → ∃ t, exec (.scrubRead n .none) s = .next t ∧ moves t ∧ SameRegisters s t) ∧
        (eccAt s a = 0 → ∃ t, exec (.scrubRead n .single) s = .next t ∧ counts 0 (2 ^ 30) t ∧ eccAt t a = 1) ∧
        (∃ t, exec (.scrubRead n .double) s = .next t ∧ counts 16 (2 ^ 31 + 2 ^ 30) t ∧ eccAt t a = 2)))) ∧
  (∀ (s : State) (c : BitVec 10),
    let w := getR s aBnkSpare
    let n := (bankN s 32).copyOf
    let k := fld w 0 14
    let base := 0x10000000 + n * 0x10000
    (MayAccess s c 0 → Acked s c 7 →
      (∀ b : Fin 32,
        let refused := bit (getR s aBnkMap) 31 = true ∨ fld w 24 2 = 1 ∨ (bankN s 32).pwr ≠ 0 ∨ (bankN s b.val).pwr ≠ 0 ∨
          (bankN s b.val).own ≠ .owned
        ∃ t, exec (.spareGo c b) s = .next t ∧ SameProgram s t ∧ SameRegistersBut [aBnkSpare] s t ∧
          getR t aBnkSpare = (if refused then setBit w 29 true else u32 (2 ^ 24 + b.val * 2 ^ 16)) ∧
          (bankN t 32).copyOf = if refused then n else b.val) ∧
      (fld w 24 2 = 1 → ∃ t, exec (.spareAbort c) s = .next t ∧ SameContexts s t ∧ SameRegistersBut [aBnkSpare] s t ∧
        fld (getR t aBnkSpare) 24 2 = 0 ∧ fld (getR t aBnkSpare) 0 14 = 0 ∧ fld (getR t aBnkSpare) 16 5 = fld w 16 5 ∧
        ∀ b, rdB t b = if spareBase ≤ b ∧ b < spareBase + 0x10000 then 0 else rdB s b)) ∧
    (s.up = true → fld w 24 2 = 1 → k < 8192 → n < 32 → (bankN s 32).pwr = 0 →
      let a := base + 8 * k
      let d := spareBase + 8 * k
      let copied := fun t : State => SameContexts s t ∧ rd64 t d = rd64 s a ∧ fld (getR t aBnkSpare) 0 14 = k + 1 ∧
        fld (getR t aBnkSpare) 16 5 = fld w 16 5 ∧ fld (getR t aBnkSpare) 24 2 = 1 ∧ ∀ b, b < d ∨ d + 8 ≤ b → rdB t b = rdB s b
      (eccAt s a ≤ 1 → ∃ t, exec (.spareCopyWord .none) s = .next t ∧ copied t ∧ eccAt t d = 0 ∧
        getR t aBnkMap = getR s aBnkMap) ∧
      (∃ t, exec (.spareCopyWord .double) s = .next t ∧ copied t ∧ eccAt t d = 2 ∧
        fld (getR t aBnkMap) 0 14 = satAdd 16383 (fld (getR s aBnkMap) 0 14) 1)) ∧
    (s.up = true → Canonical s → fld w 24 2 = 1 → k = 8192 → n < 32 →
      ∃ t, exec .spareSwitch s = .next t ∧ SameContexts s t ∧ SameRegistersBut [aBnkSpare, aBnkMap] s t ∧
        getR t aBnkSpare = setFld w 24 2 2 ∧
        getR t aBnkMap = u32 (2 ^ 31 + n * 2 ^ 16 + fld (getR s aBnkMap) 0 14) ∧
        (∀ i, i < 0x10000 → rdB t (base + i) = rdB s (spareBase + i)) ∧
        ∀ b, b < spareBase → b < base ∨ base + 0x10000 ≤ b → rdB t b = rdB s b))

/-! ### Stele, configuration and calibration (R303 to R314) -/

/-- The remap of a weak row and its commit, the scan of the configuration copies, applying and restoring a calibration
record, and one step of the trims.
Readings of the model: log entries 45, 46 and 74. -/
def Obligations.SteleAndCalibration : Prop :=
  ∀ (s : State) (c : BitVec 10),
    let st := getR s aStlStatus
    let cal := fun t => getR t aCalStatus
    (s.up = true →
      (bit st 30 = true ∨ fld st 0 7 = 0 ∨ mayCopy s = false ∨ (∀ q, q < 1024 → bit (getR s (aStlRow + 4 * q)) 31 = false) →
        exec .rowRemap s = .next (settle s)) ∧
      (∀ r, bit st 30 = false → fld st 0 7 ≠ 0 → mayCopy s = true → r < 1024 → bit (getR s (aStlRow + 4 * r)) 31 = true →
        (∀ q, q < r → bit (getR s (aStlRow + 4 * q)) 31 = false) →
        let row := (List.range 32).map (fun i => 0x20000000 + 256 * r + 8 * i)
        ∃ t, exec .rowRemap s = .next t ∧ SameProgram s t ∧ SameRegistersBut [aStlStatus, aStlEcc, aStlEccaddr] s t ∧
          getR t aStlStatus = setFld (setBit st 30 true) 16 10 r ∧ t.stl.bad = row.filter (fun w => decide (2 ≤ eccAt s w)) ∧
          ((∀ w ∈ row, eccAt s w < 2) → SameRegistersBut [aStlStatus] s t)) ∧
      (bit st 30 = false ∨ mayCopy s = false → exec .remapCommit s = .next (settle s)) ∧
      (bit st 30 = true → mayCopy s = true → let r := fld st 16 10
        ∃ t, exec .remapCommit s = .next t ∧ SameProgram s t ∧
          getR t (aStlRow + 4 * r) = u32 (2 ^ 30 + (64 - fld st 0 7) % 64 * 2 ^ 24) ∧
          getR t aStlStatus = setFld (setFld (setBit st 30 false) 16 10 0) 0 7 (fld st 0 7 - 1) ∧
          getR t aStlRowlast = u32 (2 ^ 31 + r) ∧
          ∀ i, i < 32 → let a := 0x20000000 + 256 * r + 8 * i
            eccAt t a = if a ∈ s.stl.bad then eccAt s a else 0) ∧
      (bit (getR s aCfgCtl) 0 = true → ∃ t, exec .scanDone s = .next t ∧ SameProgram s t ∧
        SameRegistersBut [aCfgCtl, aCfgStatus, aStlEcc, aStlEccaddr] s t ∧ bit (getR t aCfgCtl) 0 = false ∧
        bit (getR t aCfgStatus) 29 = cfgValid s false ∧ bit (getR t aCfgStatus) 30 = cfgValid s true ∧
        bit (getR t aCfgStatus) 27 = (cfgValid s true &&
          (!cfgValid s false || newerSeq (rdN s 0x20003000 4) (rdN s 0x20002000 4)))) ∧
      (∀ src seq ws, s.stl.restore = none → s.stl.apply = some (src, seq, ws) → ws.length = 8 →
        ∃ t, exec .trimStep s = .next t ∧ SameProgram s t ∧
          (∀ k, 1 ≤ k → k ≤ 8 → trimNow t k = stepWord k (trimNow s k) (ws.getD (k - 1) 0)) ∧
          ((∀ k, 1 ≤ k → k ≤ 8 → trimNow t k = ws.getD (k - 1) 0) → t.stl.apply = none ∧ bit (cal t) 31 = false ∧
            fld (cal t) 27 2 = src % 4 ∧ getR t aCalSeq = if src = 0 then 0 else u32 seq) ∧
          ((∃ k, 1 ≤ k ∧ k ≤ 8 ∧ trimNow t k ≠ ws.getD (k - 1) 0) → t.stl = s.stl ∧ cal t = cal s)) ∧
      (∀ src w v r, s.stl.restore = some (src, (w, v) :: r) → let tries := restoreTries s
        let others := fun (t : State) => SameContexts s t ∧ ∀ b, b < w ∨ w + 8 ≤ b → rdB t b = rdB s b
        (mayRestore s = false → exec .trimStep s = .next (settle s)) ∧
        (mayRestore s = true → tries ≤ 4 → r ≠ [] → ∃ t, exec .trimStep s = .next t ∧ others t ∧
          rdN t w 8 = v % 2 ^ 64 ∧ t.stl.restore = some (src, r) ∧ (tries = 0 → SameRegisters s t)) ∧
        (mayRestore s = true → tries ≤ 4 → r = [] → ∃ t, exec .trimStep s = .next t ∧ others t ∧
          rdN t w 8 = v % 2 ^ 64 ∧ t.stl.restore = none ∧ (userOk t src = false → bit (cal t) 30 = true ∧ bit (cal t) 31 = false)) ∧
        (mayRestore s = true → 4 < tries → ∃ t, exec .trimStep s = .next t ∧ others t ∧ t.stl.restore = none ∧
          t.stl.apply = s.stl.apply ∧ src ∈ t.stl.lost ∧ bit (cal t) 30 = true ∧ bit (cal t) 31 = false))) ∧
    (MayAccess s c 0 →
      (∃ t, exec (.scanCfg c) s = .next t ∧ SameProgram s t ∧ SameRegistersBut [aCfgCtl] s t ∧
        getR t aCfgCtl = getR s aCfgCtl ||| 1) ∧
      (∀ b : Bool, let src := if b then 2 else 1
        let fails := fun (t : State) => SameProgram s t ∧ SameRegistersBut [aCalStatus, aStlEcc, aStlEccaddr] s t ∧
          t.stl = s.stl ∧
          bit (cal t) 30 = true ∧ bit (cal t) 31 = bit (cal s) 31
        (bit (cal s) 31 = true → ∃ t, exec (.applyCal c b) s = .next t ∧ fails t) ∧
        (bit (cal s) 31 = false → userOk s src = false → ∃ t, exec (.applyCal c b) s = .next t ∧ fails t ∧
          bit (cal t) (if b then 25 else 26) = false ∧ bit (cal t) (if b then 26 else 25) = bit (cal s) (if b then 26 else 25)) ∧
        (bit (cal s) 31 = false → userOk s src = true → (∃ k, 1 ≤ k ∧ k ≤ 8 ∧ trimNow s k ≠ (calWords s src).getD (k - 1) 0) →
          ∃ t, exec (.applyCal c b) s = .next t ∧ SameProgram s t ∧
            SameRegistersBut [aCalStatus, aStlEcc, aStlEccaddr] s t ∧ t.stl.apply = some (src, recordSeq s (calAddr src), calWords s src) ∧ bit (cal t) 30 = false ∧
            bit (cal t) 31 = true)) ∧
      (let a := calAddr (restoreTarget s)
        let seq := restoreSeq s
        let ws := restoreWrites s
        let only := fun (t : State) => SameProgram s t ∧ SameRegistersBut [aCalStatus, aStlEcc, aStlEccaddr] s t
        (bit (cal s) 31 = true ∨ factoryOk s = false → ∀ tries, ∃ t, exec (.restoreCal c tries) s = .next t ∧ only t ∧ t.stl = s.stl ∧
          cal t = cal s ||| 0x40000000) ∧
        (bit (cal s) 31 = false → factoryOk s = true → ∀ tries : Vector (Fin 6) 11, ∃ t, exec (.restoreCal c tries) s = .next t ∧ only t ∧
          bit (cal t) 31 = true ∧ bit (cal t) 30 = false ∧ t.stl.restore = some (restoreTarget s, ws) ∧
          (s.stl.restore = none → t.stl = { s.stl with restore := some (restoreTarget s, ws), tries := tries.toList.map (·.val) })) ∧
        ws.length = 11 ∧ ws[0]? = some (a, 0) ∧ ws[9]? = some (a, 0xCA1B * 2 ^ 48 + 8 * 2 ^ 32 + seq) ∧
        (∀ k, 1 ≤ k → k ≤ 8 → ws[k]? = some (a + 8 * k, (rd64 s (0x20001000 + 8 * k)).toNat)) ∧
        ∃ crc, crc < 2 ^ 32 ∧ ws[10]? = some (a + 0x7F8, seq * 2 ^ 32 + crc)))

/-! ### Flash interface (R315 to R333) -/

/-- The command sequences start a program or an erase when every cycle is admitted; SUSPEND and RESUME act on a running or
suspended erase, and are refused with status 3 and a code in FLI_ERR when there is none. INV empties both stores. The steps
of the flash engine: line reads and prefetches, the ends of macro steps with their retries and errors, the journal
writes that start and end an erase, and the suspends.
Readings of the model: log entries 56 and 57. -/
def Obligations.FlashCommands : Prop :=
  (∀ (s : State) (c : BitVec 10) (addr : BitVec 26),
    let w := whoOf s c.toNat
    let m := actor s c
    let a := 0x30000000 + addr.toNat
    let pring := fld (getR s aFliCfg) 4 2
    let next := match s.fli.jnew with | none => (0, 1) | some (k, q) => ((k + 1) % 128, (q + 1) % 2 ^ 32)
    (MayAccess s c pring → unitSt s 1 = 2 → s.fli.seq = none →
      (∀ (z : Fin 4) (v : DWord), let n := 2 ^ z.val
        let word := a / 8 * 8
        let sh := 8 * (a - word)
        a + n ≤ word + 8 → addr.toNat + n ≤ flashBytes s → macroBusy s = false → flashProtected s a = false →
        flashErased s word = true → inErase s a = false → bit (getR s aStlStatus) 31 = false →
        ∃ t, exec (.programFlash c addr z v) s = .next t ∧ SameProgram s t ∧ SameRegisters s t ∧ t.fli.seq = none ∧
          t.fli.era = s.fli.era ∧ (∀ l, l ∈ t.fli.pbuf ∨ l ∈ t.fli.bcache → l ≠ a / 32) ∧
          t.fli.prog = some ⟨false, m, word, BitVec.ofNat 64 (2 ^ 64 - 1 - (2 ^ (8 * n) - 1) * 2 ^ sh +
            v.toNat % 2 ^ (8 * n) * 2 ^ sh), false, 0, 0, 0, false⟩) ∧
      (addr.toNat < flashBytes s → s.fli.prog = none → s.fli.era = none → s.fli.repair = [] → flashProtected s a = false →
        bit (getR s aStlStatus) 31 = false →
        ∃ t, exec (.sectorErase c addr) s = .next t ∧ SameProgram s t ∧ SameRegistersBut [aFliSuscnt] s t ∧
          getR t aFliSuscnt = 0 ∧ t.fli.seq = none ∧ t.fli.prog = none ∧
          (∀ l, l ∈ t.fli.pbuf ∨ l ∈ t.fli.bcache → 32 * l / 4096 ≠ a / 4096) ∧
          t.fli.era = some ⟨true, m, a / 4096 * 4096, 0, true, next.1, next.2, 0, false⟩) ∧
      (addr.toNat < flashBytes s →
        let refused := fun t : State => SameMemory s t ∧ t.fli = s.fli ∧
          getR t aFliErr = u32 (4 * 2 ^ 28 + addr.toNat) ∧ bit (getR t aFliStatus) 31 = true ∧
          (getC t w).imprecise = (getC s w).imprecise ++ [{ vec := 3, cstat := 3, addr := u32 a, write := true }]
        (∀ o, s.fli.era = some o → o.begin_ = false → s.fli.susp = false → s.fli.going = false → s.fli.fin = none →
          ∃ t, exec (.suspendErase c addr) s = .next t ∧ SameProgram s t ∧ SameRegisters s t ∧ t.fli = { s.fli with
            swsus := true, resume := false, going := bit (getR s aFliCfg) 0, want := !bit (getR s aFliCfg) 0 }) ∧
        (s.fli.susp = true → ∃ t, exec (.suspendErase c addr) s = .next t ∧ SameProgram s t ∧ SameRegisters s t ∧
          t.fli = { s.fli with swsus := true, resume := false }) ∧
        (s.fli.era = none → s.fli.susp = false → ∃ t, exec (.suspendErase c addr) s = .next t ∧ refused t) ∧
        (s.fli.susp = true → ∃ t, exec (.resumeErase c addr) s = .next t ∧ SameProgram s t ∧ SameRegisters s t ∧
          t.fli = if s.fli.prog.isSome = true then { s.fli with swsus := false, resume := true }
            else { s.fli with swsus := false, susp := false, resume := false, want := false }) ∧
        (s.fli.susp = false → ∃ t, exec (.resumeErase c addr) s = .next t ∧ refused t))) ∧
    (MayAccess s c 0 → Acked s c 9 → unitSt s 1 = 2 → ∃ t, exec (.invFlash c) s = .next t ∧ SameProgram s t ∧ SameRegisters s t ∧
      t.fli = { s.fli with bcache := [], pbuf := [] })) ∧
  (∀ s : State,
    let modF := fun (f : Fli → Fli) => { s with fli := f s.fli }
    let fails := fun (code a : Nat) (t : State) => getR t aFliErr = u32 (code * 2 ^ 28 + (a - 0x30000000) % 2 ^ 26) ∧
      bit (getR t aFliStatus) 31 = true ∧ SameContexts s t
    let running := ∃ o, s.fli.era = some o ∧ o.begin_ = false ∧ s.fli.susp = false ∧ s.fli.fin = none
    exec .sequenceTimeout s = .next (settle (modF (fun f => { f with seq := none }))) ∧
    (s.fli.want = true → running → s.fli.going = false →
      exec .suspendIssue s = .next (settle (modF (fun f => { f with want := false, going := true })))) ∧
    (s.fli.susp = true → s.fli.swsus = false → s.fli.prog = none → exec .readSuspendResume s =
      .next (settle (modF (fun f => { f with susp := false, resume := false, want := false })))) ∧
    (s.up = true →
      (∀ (line : BitVec 21) (target : Bool), let l := 0x1800000 + line.toNat
        unitSt s 1 = 2 → 32 * line.toNat < flashBytes s → inErase s (32 * l) = false → l ∉ s.fli.bcache → l ∉ s.fli.pbuf →
        s.fli.prog = none → ¬ running → (∀ i, i < 4 → eccAt s (32 * l + 8 * i) = 0) →
        ∃ t, exec (.flashLineRead line target .none) s = .next t ∧ SameProgram s t ∧ SameRegisters s t ∧
          t.fli.last = some l ∧ (target = true → bit (getR s aFliCfg) 9 = true → t.fli.bcache = (l :: s.fli.bcache).take 16) ∧
          (target = false → t.fli.bcache = s.fli.bcache)) ∧
      (∀ k, unitSt s 1 = 2 → bit (getR s aFliCfg) 8 = true → s.fli.prog = none → ¬ running → nextPrefetch s = some k →
        ((∀ i, i < 4 → eccAt s (32 * k + 8 * i) = 0) →
          exec .prefetchRead s = .next (settle (modF (fun f => { f with pbuf := f.pbuf ++ [k] })))) ∧
        (∀ i, i < 4 → 2 ≤ eccAt s (32 * k + 8 * i) →
          exec .prefetchRead s = .next (settle (modF (fun f => { f with pskip := f.pskip ++ [k] }))))) ∧
      (s.fli.going = true → ∀ pass, ∃ t, exec (.macroDone pass) s = .next t ∧ SameProgram s t ∧
        t.fli = { s.fli with susp := true, going := false, want := false } ∧
        fld (getR t aFliSuscnt) 0 16 = satAdd 65535 (fld (getR s aFliSuscnt) 0 16) 1) ∧
      (∀ o, s.fli.going = false → s.fli.prog = some o → s.fli.resume = false →
        (∃ t, exec (.macroDone true) s = .next t ∧ SameContexts s t ∧ t.fli.prog = none ∧ rd64 t o.addr = o.data ∧
          eccAt t o.addr = 0 ∧ t.fli.fprog.get 0 o.addr = 1 ∧ ∀ b, b < o.addr ∨ o.addr + 8 ≤ b → rdB t b = rdB s b) ∧
        (o.retries < 3 → exec (.macroDone false) s =
          .next (settle (modF (fun f => { f with prog := some { o with retries := o.retries + 1 } })))) ∧
        (3 ≤ o.retries → ∃ t, exec (.macroDone false) s = .next t ∧ t.fli.prog = none ∧ fails 8 o.addr t ∧
          ∀ b, b < o.addr ∨ o.addr + 8 ≤ b → rdB t b = rdB s b) ∧
        (∃ t, exec .macroStepTimeout s = .next t ∧ t.fli.prog = none ∧ fails 9 o.addr t ∧
          ∀ b, b < o.addr ∨ o.addr + 8 ≤ b → rdB t b = rdB s b)) ∧
      (∀ o, s.fli.going = false → s.fli.prog = none → s.fli.era = some o → o.begin_ = false → s.fli.susp = false →
        s.fli.fin = none → s.fli.repair = [] → 0x30000000 ≤ o.addr → o.addr + 4096 ≤ 0x34000000 → o.slot < 128 →
        let outside := fun (t : State) => ∀ b, (b < o.addr ∨ o.addr + 4096 ≤ b) → rdB t b = rdB s b
        (∃ t, exec (.macroDone true) s = .next t ∧ SameContexts s t ∧ t.fli.era = some o ∧ t.fli.fin = some 0x5D ∧ outside t ∧
          (∀ b, o.addr ≤ b → b < o.addr + 4096 → rdB t b = 0xFF)) ∧
        (o.retries < 3 → exec (.macroDone false) s =
          .next (settle (modF (fun f => { f with era := some { o with retries := o.retries + 1 } })))) ∧
        (3 ≤ o.retries → ∃ t, exec (.macroDone false) s = .next t ∧ SameContexts s t ∧ t.fli.era = some o ∧
          t.fli.fin = some 0x5F ∧ outside t) ∧
        (∃ t, exec .macroStepTimeout s = .next t ∧ t.fli.era = none ∧ fails 9 o.addr t ∧ outside t)) ∧
      (∀ o, s.fli.era = some o → bit (getR s aStlStatus) 31 = false → o.slot < 128 → s.fli.repair = [] → s.stl.late = [] →
        let j := 0x20005000 + 8 * o.slot
        let entry := fun kind => (kind * 2 ^ 56 + o.seq * 2 ^ 16 + (o.addr - 0x30000000) / 4096) % 2 ^ 64
        let others := fun (t : State) => ∀ b, b < j ∨ j + 8 ≤ b → rdB t b = rdB s b
        (o.begin_ = false → s.fli.fin = some 0x5D → ∃ t, exec (.journalWriteDone 0) s = .next t ∧ SameContexts s t ∧
          t.fli.era = none ∧ t.fli.fin = none ∧ rdN t j 8 = entry 0x5D ∧ getR t aFliErr = getR s aFliErr ∧ others t) ∧
        (o.begin_ = false → s.fli.fin = some 0x5F → ∃ t, exec (.journalWriteDone 0) s = .next t ∧ SameContexts s t ∧
          t.fli.era = none ∧ t.fli.fin = none ∧ rdN t j 8 = entry 0x5F ∧ fails 8 o.addr t ∧ others t) ∧
        (o.begin_ = true → ∃ t, exec (.journalWriteDone 0) s = .next t ∧ SameContexts s t ∧ SameRegisters s t ∧
          t.fli = { s.fli with era := some { o with begin_ := false }, jnew := some (o.slot, o.seq) } ∧
          rdN t j 8 = entry 0x5B ∧ others t) ∧
        (o.begin_ = true → ∃ t, exec (.journalWriteDone 5) s = .next t ∧ t.fli.era = none ∧ fails 10 o.addr t ∧ others t))))

/-! ### Reset, supply, clocks, units, lifecycle, wrapper (R357 to R378) -/

/-- Power-on, a brown-out, RSTB_N and SWRST reset the block: the stele, the flash array (but for what a running program
or erase was writing) and the commands that wait stay, the coaches and every other memory are as before any program, every
register outside the kept ones has its reset value, and LOCK survives all but a power-on. Release of reset then starts the
block: a comparator that fails its test, or no valid boot header, ends in BLK_FAIL; otherwise the image is loaded and coach
0 enters it, with four lanes in TRIPLEX.
Readings of the model: log entries 3, 49 and 50. -/
def Obligations.ResetAndStartUp : Prop :=
  ∀ (s : State) (c : BitVec 10) (x : StartUp),
    let resets := fun (k : Nat) (t : State) => t.up = false ∧ t.pwr.cause = (if s.up = true then k else min s.pwr.cause k) ∧
      t.pending = s.pending ∧ (∀ a, keptAddr a = false → rdB t a = unlisted a) ∧
      (∀ a, keptAddr a = true → (∀ o, s.fli.prog = some o → a < o.addr ∨ o.addr + 8 ≤ a) →
        (∀ o, s.fli.era = some o → a < o.addr ∨ o.addr + 4096 ≤ a) → rdB t a = rdB s a) ∧
      (∀ n, coachOf t n = {}) ∧ (∀ e, consOf t e = {}) ∧ t.queue = [] ∧
      (∀ a, (a < aStlRow ∨ aStlRow + 4096 ≤ a) →
        a ∉ [aBnkMap, aZwLifecycle, aStlStatus, aClkStatus, aBneZero, aKeyAttack, aKeyPolicy] → getR t a = csrReset a) ∧
      getR t aBnkMap = getR s aBnkMap ∧ fld (getR t aZwLifecycle) 0 2 = fld (getR s aZwLifecycle) 0 2 ∧
      bit (getR t aZwLifecycle) 31 = (bit (getR s aZwLifecycle) 31 && k != 1)
    let coach0 := ∀ n, n < 32 → (bankN s n).own = .owned ∧ coreAdmits (bankN s n).owner ⟨0, 0, false⟩ .store = true ∧
      (bankN s n).pwr = 0
    let u := { s with fli := { s.fli with size := x.size.val } }
    let image := fun (h : Nat) (b t : State) => (coachOf t 0).pc = u32 (bootWord b h 0x10) ∧
      ((coachOf t 0).haltReq = false → (coachOf t 0).st = .ready ∨ (coachOf t 0).st = .run) ∧
      ∀ i, i < bootWord b h 8 → rdB t (bootWord b h 0xC + i) = rdB b (h + 0x100 + i)
    (s.up = false → exec .powerOn s = .next (settle { s with pwr := { s.pwr with good := true } })) ∧
    (s.up = true → ∃ t, exec .powerOn s = .next t ∧ resets 1 t ∧ t.pwr.good = true) ∧
    (∃ t, exec .brownout s = .next t ∧ resets 2 t ∧ t.pwr.good = false) ∧
    (∃ t, exec .rstbN s = .next t ∧ resets 3 t ∧ t.pwr.good = s.pwr.good) ∧
    (MayAccess s c 0 → ∃ t, exec (.swrst c) s = .next t ∧ resets 6 t ∧ t.pwr.good = s.pwr.good) ∧
    (s.up = true → ringOf (getC s (whoOf s c.toNat)) = 1 → laneOfWho s (whoOf s c.toNat) = 0 →
      exec (.swrst c) s = .next (settle s)) ∧
    ((s.up = false ∧ s.pwr.good = false) ∨ (s.up = true ∧ s.pwr.boot = false) →
      exec (.resetRelease x) s = .next (settle s)) ∧
    (s.up = false → s.pwr.good = true →
      (x.cmp ≠ none → ∃ t, exec (.resetRelease x) s = .next t ∧ t.up = true ∧ fld (getR t aZwGcause) 24 3 = 1 ∧
        (coachOf t 0).st = .wait ∧ bit (getR t aSvoCtl) 0 = true) ∧
      (x.cmp = none → x.ports = [] → x.pass = 15 → (∀ n, n < 4 → (laneOf s n).role ≠ .retired) → s.fli.repair = [] →
        (∀ k, k < 128 → (journalSlot u k).1 ≠ 0x5B) → lifecycle s ≠ 3 →
        (∀ h, bootHeader u = some h → coach0 → ∃ t, exec (.resetRelease x) s = .next t ∧ t.up = true ∧ image h u t ∧
          (coachOf t 0).status = 0x00010000 ∧ (coachOf t 0).dhead = [] ∧ t.lnc.set = .triplex ∧
          laneAt t 0 = some 0 ∧ laneAt t 1 = some 1 ∧ laneAt t 2 = some 2 ∧ (laneOf t 3).role = .spare) ∧
        (bootHeader u = none → ∃ t, exec (.resetRelease x) s = .next t ∧ t.up = true ∧ fld (getR t aZwGcause) 24 3 = 3 ∧
          (coachOf t 0).st = .wait ∧ bit (getR t aSvoCtl) 0 = true))) ∧
    (s.up = true → s.pwr.boot = true → x.cmp = none → x.ports = [] → s.lnc.set ≠ .failstop → lifecycle s ≠ 3 →
      ∀ h, bootHeader s = some h → coach0 → ∃ t, exec (.resetRelease x) s = .next t ∧ t.pwr.boot = false ∧ image h s t)

/-- Supply and sensor alarms, temperature, and the clock monitors: their bits, counts and triggers. A second oscillator
fault resets the block.
Readings of the model: log entries 49 and 57. -/
def Obligations.MonitorsAndClocks : Prop :=
  ∀ s : State, s.up = true →
    let fired := fun (n : Nat) (t : State) => (srcOf t n).edgecnt = (srcOf s n).edgecnt + 1
    let sets := fun (a : Nat) (m : Word) (n : Nat) (t : State) => SameProgram s t ∧ getR t a = getR s a ||| m ∧ fired n t
    let sensor := fun (m : Word) (lo : Nat) (t : State) => sets aPwrAlarm m 34 t ∧
      SameRegistersBut (aPwrAlarm :: aPwrGlitch :: policyRegs ++ eventRegs 34) s t ∧
      fld (getR t aPwrGlitch) lo 16 = satAdd 65535 (fld (getR s aPwrGlitch) lo 16) 1 ∧
      fld (getR t aKeyPcount) 0 12 = satAdd 4095 (fld (getR s aKeyPcount) 0 12) 1
    let clears := fun (i : Nat) (t : State) => SameProgram s t ∧ SameRegistersBut [aClkStatus] s t ∧
      getR t aClkStatus = getR s aClkStatus &&& ~~~(u32 (2 ^ (8 + i)))
    (∃ t, exec .earlyWarning s = .next t ∧ sets aPwrAlarm 3 34 t ∧ bit (getR t aStlStatus) 31 = true ∧
      SameRegistersBut ([aPwrAlarm, aStlStatus] ++ eventRegs 34) s t) ∧
    (s.stl.late = [] → s.fli.repair = [] → s.fli.redo = [] → (∀ r, r < 1024 → newlyWeak s r = false) →
      ∃ t, exec .earlyWarningClear s = .next t ∧ SameProgram s t ∧
      SameRegistersBut [aPwrAlarm, aStlStatus] s t ∧ getR t aPwrAlarm = getR s aPwrAlarm &&& ~~~1 ∧
      getR t aStlStatus = getR s aStlStatus &&& ~~~0x80000000) ∧
    (∃ t, exec .glitch s = .next t ∧ sensor 4 0 t) ∧
    (∃ t, exec .railFault s = .next t ∧ sensor 0x40 0 t) ∧
    (∃ t, exec .lightAlarm s = .next t ∧ sensor 0x20 16 t) ∧
    (∀ low : Bool, ∃ t, exec (.temperatureCrossing low) s = .next t ∧ sets aPwrAlarm (if low then 0x10 else 8) 35 t ∧
      SameRegistersBut (aPwrAlarm :: eventRegs 35) s t) ∧
    (∃ t, exec .refclkFault s = .next t ∧ sets aClkStatus 0x101 36 t ∧ bit (getR t aMlsStatus) 0 = false ∧
      bit (getR t aMlsStatus) 1 = true) ∧
    (∃ t, exec .refclkReturn s = .next t ∧ clears 0 t) ∧
    (∀ flash : Bool,
      (∃ t, exec (.hostClockFault flash) s = .next t ∧ sets aClkStatus (if flash then 0x404 else 0x202) 36 t ∧
        SameRegistersBut (aClkStatus :: eventRegs 36) s t) ∧
      (∃ t, exec (.hostClockReturn flash) s = .next t ∧ clears (if flash then 2 else 1) t)) ∧
    (oscOff s = 0 → exec .secondOscillatorFault s = .next (settle s)) ∧
    (oscOff s ≠ 0 → ∃ t, exec .secondOscillatorFault s = .next t ∧ t.up = false ∧ t.pwr.cause = 4 ∧
      bit (getR t aClkStatus) 11 = true ∧ ∀ n, coachOf t n = {})

/-- CLK_LANE stores codes 0 to 5, refuses a change of LSET while the lanes change over, and marks one it takes as BUSY; PWR_UNIT opens and closes a unit,
a request during a transition is latched and honoured at its end; a lifecycle step needs its key and is one way.
Readings of the model: log entry 31. -/
def Obligations.ClockUnitLifecycle : Prop :=
  ∀ (s : State) (c : BitVec 10),
    (MayAccess s c 0 → ∀ code : BitVec 3,
      let w := getR s aClkLane
      let takes := fun (lo : Nat) => if code.toNat ≤ 5 then code.toNat else fld w lo 3
      let changing := s.lnc.busy = true ∨ ∃ j, s.lnc.join = some j ∧ j.leaves ≠ none
      let only := fun (t : State) => SameProgram s t ∧ SameRegistersBut [aClkLane] s t ∧ t.pwr = { s.pwr with osc := true }
      (takes 0 ≠ fld w 0 3 → changing → ∃ t, exec (.clkLaneLset c code) s = .next t ∧ only t ∧
        getR t aClkLane = setBit w 31 true) ∧
      (takes 0 = fld w 0 3 ∨ ¬ changing → ∃ t, exec (.clkLaneLset c code) s = .next t ∧ only t ∧
        getR t aClkLane = u32 (b2n (bit w 30 || decide (takes 0 ≠ fld w 0 3)) * 2 ^ 30 + fld w 4 3 * 16 + takes 0)) ∧
      (∃ t, exec (.clkLaneFree c code) s = .next t ∧ only t ∧
        getR t aClkLane = u32 (b2n (bit w 30) * 2 ^ 30 + takes 4 * 16 + fld w 0 3))) ∧
    (∀ u : Fin 3,
      let a := aPwrUnit + 4 * u.val
      let st := unitSt s u.val
      let pend := fun t => bit (getR t a) 8
      let others := fun (t : State) => ∀ k, k < 3 → k ≠ u.val → unitSt t k = unitSt s k
      (MayAccess s c 0 → ∀ v : Word, ∃ t, exec (.pwrUnitWrite c u v) s = .next t ∧ SameContexts s t ∧ others t ∧
        bit (getR t a) 0 = bit v 0 ∧
        (st = 0 → unitSt t u.val = if bit v 0 = true then 1 else 0) ∧ (st = 1 → unitSt t u.val = 1 ∧ pend t = !bit v 0) ∧
        (st = 2 → unitSt t u.val = if bit v 0 = true then 2 else 3) ∧ (st = 3 → unitSt t u.val = 3 ∧ pend t = bit v 0)) ∧
      (s.up = true →
        (st = 1 → ∃ t, exec (.unitTransitionEnd u) s = .next t ∧ others t ∧ pend t = false ∧
          (unitSt t u.val = if pend s = true then 3 else 2) ∧
          (u = 0 → pend s = false → (∀ e ∈ s.cons, e.2.used = false) →
            ∀ b, 0xF0000000 ≤ b → b < 0xF0004000 → rdB t b = 0)) ∧
        (st = 3 → closeReady s u.val = true → ∃ t, exec (.unitTransitionEnd u) s = .next t ∧ others t ∧ pend t = false ∧
          unitSt t u.val = if pend s = true then 1 else 0))) ∧
    (MayAccess s c 0 → ∀ v : Word,
      let w := getR s aZwLifecycle
      let locked := bit w 31
      let cur := fld w 0 2
      let new := fld v 0 2
      let steps := fld v 8 8 = 0x6C ∧ cur < new ∧ (new = 3 ∨ (locked = false ∧ new = cur + 1))
      let range := fun b => 0x20005400 ≤ b ∧ b < 0x20009400
      ∃ t, exec (.zwLifecycleWrite c v) s = .next t ∧ SameContexts s t ∧
        (¬ (steps ∧ new = 3) → SameRegistersBut [aZwLifecycle] s t ∧ SameMemory s t ∧ t.stl = s.stl) ∧
        (steps → fld (getR t aZwLifecycle) 0 2 = new) ∧ (¬ steps → fld (getR t aZwLifecycle) 0 2 = cur) ∧
        bit (getR t aZwLifecycle) 2 = (if locked = true then bit w 2 else bit v 2) ∧
        bit (getR t aZwLifecycle) 30 = (bit w 30 && !bit v 30) ∧ bit (getR t aZwLifecycle) 31 = (locked || bit v 31) ∧
        (steps → new = 3 → t.bne.zeroing = true ∧ bit (getR t aBneZero) 0 = (bit (getR s aBneZero) 0 || !s.bne.zeroing) ∧
          (∀ a, a ∉ [aZwLifecycle, aBneZero, aStlSlow, aStlRowlast, aStlWrfail] ++ eventRegs 10 →
            (a < aStlRow ∨ aStlRow + 4096 ≤ a) → getR t a = getR s a)) ∧
        (steps → new = 3 → bit (getR s aStlStatus) 31 = true → SameMemory s t ∧ ∃ ws, t.stl.late = s.stl.late ++ ws ∧
          ws.length = 0x800 ∧ ∀ i, i < 0x800 → ws[i]? = some ⟨0x20005400 + 8 * i, 8, true, false, 0⟩) ∧
        (steps → new = 3 → bit (getR s aStlStatus) 31 = false → journalWaits s = false → s.stl.late = [] →
          ledgerWaits s = false → (∀ n, srcStamp s n = false) →
          (∀ b, ¬ range b → rdB t b = rdB s b) ∧ t.stl.late = [] ∧
          (fld (getR t aStlWrfail) 16 16 = fld (getR s aStlWrfail) 16 16 → fld (getR s aStlWrfail) 16 16 < 65535 →
            ∀ b, range b → rdB t b = 0)))

/-- The test wrapper: an instruction that the lifecycle and LOCK admit is in force and has its operation; another, and a reserved
code, becomes WS_BYPASS with WDENY; leaving WS_INTEST or WS_MBIST resets the block.
Readings of the model: log entries 32 and 74. -/
def Obligations.TestWrapper : Prop :=
  ∀ s : State,
    let life := getR s aZwLifecycle
    let l := fld life 0 2
    let free := bit life 31 = false
    let put := fun (k : Nat) (d : DWord) => { s with pwr := { s.pwr with wir := k, wdr := d } }
    let in_ := fun (k : Nat) => put k s.pwr.wdr
    let refused := occurs (orR (in_ 0) aZwLifecycle 0x40000000)
    let inert := s.pwr.wir ≠ 3 ∧ s.pwr.wir ≠ 4
    (inert →
      (∀ code : BitVec 8, (code.toNat < 8 → exec (.wsBypass code) s = .next (settle (in_ 0))) ∧
        (8 ≤ code.toNat → exec (.wsBypass code) s = refused)) ∧ exec .wrstn s = .next (settle (in_ 0)) ∧
      exec .wsIdcode s = .next (settle (put 1 (mkD (getR s aZwIdent) (0x00020100 ||| Config.fixRev.zeroExtend 32)))) ∧
      exec .wsStatus s = .next (settle (put 5 (mkD life (gcauseWord s)))) ∧
      (free ∧ l ≤ 1 → exec .wsExtest s = .next (settle (in_ 2))) ∧ (¬ (free ∧ l ≤ 1) → exec .wsExtest s = refused) ∧
      (free ∧ l = 0 → exec .wsIntest s = .next (settle (in_ 3))) ∧ (¬ (free ∧ l = 0) → exec .wsIntest s = refused) ∧
      (free ∧ (l = 0 ∨ l = 3) → exec .wsMbist s = .next (settle (in_ 4))) ∧
      (¬ (free ∧ (l = 0 ∨ l = 3)) → exec .wsMbist s = refused) ∧
      (∀ d, let ok := free ∧ (l ≤ 1 ∨ (l = 2 ∧ bit life 2 = true))
        (ok → exec (.wsL3 d) s = .next (settle (modC (put 6 d) (.coach 0) (fun c => { c with l3Req := true })))) ∧
        (¬ ok → exec (.wsL3 d) s = refused)) ∧
      (∀ (w : BitVec 15) (d : Option (DWord × Fin 6)), let a := 0x20000000 + 8 * w.toNat
        (¬ (free ∧ l = 0) → exec (.wsStele w d) s = refused) ∧
        (free → l = 0 → d = none → eccAt s a = 0 → exec (.wsStele w d) s = .next (settle (put 7 (rd64 s a)))) ∧
        (free → l = 0 → ∀ v tries, d = some (v, tries) →
          (bit (getR s aStlStatus) 31 = true → exec (.wsStele w d) s =
            .next (settle { in_ 7 with stl := { s.stl with late := s.stl.late ++ [⟨a, 8, true, false, v.toNat⟩] } })) ∧
          (bit (getR s aStlStatus) 31 = false → mayKeystone s = true → ledgerClearing s = false →
            ∃ t, exec (.wsStele w d) s = .next t ∧
            SameContexts s t ∧ t.pwr.wir = 7 ∧ (tries = 0 → SameRegisters s t) ∧
            (tries ≠ 5 → rd64 t a = v ∧ eccAt t a = 0) ∧
            (tries = 5 → fld (getR t aStlWrfail) 16 16 = satAdd 65535 (fld (getR s aStlWrfail) 16 16) 1 ∧
              fld (getR t aStlWrfail) 0 15 = w.toNat) ∧
            ∀ b, b < a ∨ a + 8 ≤ b → rdB t b = rdB s b)))) ∧
    (¬ inert → (∀ code, ∃ t, exec (.wsBypass code) s = .next t ∧ t.up = false ∧ t.pwr.wir = 0 ∧ (s.up = true → t.pwr.cause = 5)) ∧
      ∃ t, exec .wrstn s = .next t ∧ t.up = false ∧ t.pwr.wir = 0 ∧ (s.up = true → t.pwr.cause = 5))

/-! ### Host port (R371 to R375) -/

/-- Inbound requests: answered only while the port is ON, DENIED while SLVEN is 0, outside the banks' words, or where the
bank is not the host's; BUSY on a lost collision or while AUTOWAKE wakes the bank; otherwise a READ answers the word, a
WRITE stores the bytes BE names, RELEASE hands the bank back without a wipe, and DOORBELL sets its bits and triggers source
39. Responses of the host: an unknown tag is counted, a BUSY within the limit waits to be sent again, and a final response
completes the consignment: a store ends, a load's value enters the heads, a failure is delivered to the coach (shown with no
other request waiting to be sent).
Readings of the model: log entries 40 and 80. -/
def Obligations.HostPort : Prop :=
  (∀ (s : State) (addr : Word) (tag : BitVec 12) (d : DWord) (be : BitVec 8) (r : Option Rival) (u : Upset),
    let a := addr.toNat
    let n := bankOf a
    let b := bankN s n
    let sent := fun (st : Nat) (x : DWord) (t : State) => t.hpt.last = some ⟨tag.toNat, st, x⟩ ∧ t.hpt.out = s.hpt.out
    let same := fun (t : State) => SameProgram s t ∧ SameRegisters s t ∧ t.bank = s.bank
    let word := 0x10000000 ≤ a ∧ a < 0x10200000 ∧ a % 8 = 0
    let on := s.up = true ∧ unitSt s 2 = 2 ∧ bit (getR s aHptCfg) 0 = true
    let hosts := b.own = .owned ∧ fld b.owner 18 2 = 3
    let lost := fun (wr : Bool) => r.any (loses .h wr false)
    let row := fun (wr : Bool) => if wr then Instr.hostWrite addr be d tag r u else .hostRead addr tag r u
    let access := [row false, row true]
    (∀ i ∈ access ++ [.releaseBank addr tag, .doorbell d tag],
      (s.up = false ∨ unitSt s 2 ≠ 2 → exec i s = .next (settle s)) ∧
      (s.up = true → unitSt s 2 = 2 → bit (getR s aHptCfg) 0 = false → ∃ t, exec i s = .next t ∧ same t ∧ sent 3 0 t)) ∧
    (on → be ≠ 0 → ∀ i ∈ access,
      (¬ word → ∃ t, exec i s = .next t ∧ same t ∧ sent 3 0 t) ∧
      (word → ¬ hosts → ∃ t, exec i s = .next t ∧ SameProgram s t ∧ SameRegistersBut [aBnkDeny, aBnkDenylast] s t ∧
        sent 3 0 t ∧ (getR t aBnkDeny).toNat = satAdd (2 ^ 32 - 1) (getR s aBnkDeny).toNat 1) ∧
      (word → hosts → b.pwr = 2 → bit (getR s (aBnkPwr + 4 * n)) 4 = true → ∃ t, exec i s = .next t ∧ SameProgram s t ∧
        sent 1 0 t ∧ (bankN t n).pwr = 3) ∧
      (word → hosts → b.pwr = 0 → ∀ wr, i = row wr → lost wr = true → ∃ t, exec i s = .next t ∧ SameProgram s t ∧
        SameRegistersBut [aBnkColl] s t ∧ sent 1 0 t ∧
        fld (getR t aBnkColl) 16 16 = satAdd 65535 (fld (getR s aBnkColl) 16 16) 1)) ∧
    (on → word → be = 0 → ∃ t, exec (row true) s = .next t ∧ same t ∧ sent 0 0 t) ∧
    (on → word → hosts → b.pwr = 0 → eccAt s a = 0 →
      (lost false = false → u = .none → ∃ t, exec (row false) s = .next t ∧ same t ∧ sent 0 (rd64 s a) t) ∧
      (lost false = false → u = .double → ∃ t, exec (row false) s = .next t ∧ SameProgram s t ∧ sent 2 0 t ∧ eccAt t a = 2) ∧
      (lost true = false → u = .none → be ≠ 0 → ∃ t, exec (row true) s = .next t ∧ SameContexts s t ∧
        SameRegisters s t ∧ t.bank = s.bank ∧ sent 0 0 t ∧ eccAt t a = 0 ∧
        (∀ i, i < 8 → rdB t (a + i) = if be.getLsbD i = true then (d >>> (8 * i)).truncate 8 else rdB s (a + i)) ∧
        ∀ k, k < spareBase → k < a ∨ a + 8 ≤ k → rdB t k = rdB s k)) ∧
    (on → let v := b.beforeHost &&& 0x7FFFFFFF
      let may := 0x10000000 ≤ a ∧ a < 0x10200000 ∧ hosts ∧ ¬ (n = 0 ∧ vtlock s = true) ∧ copying s n = false
      (¬ may → ∃ t, exec (.releaseBank addr tag) s = .next t ∧ same t ∧ sent 3 0 t) ∧
      (may → ∃ t, exec (.releaseBank addr tag) s = .next t ∧ SameProgram s t ∧ SameRegistersBut [aBnkOwner + 4 * n] s t ∧
        sent 0 0 t ∧ getR t (aBnkOwner + 4 * n) = v ∧ (∀ k, k ≠ n → bankN t k = bankN s k) ∧ (bankN t n).own = .handing ∧
        (bankN t n).next = v ∧ (bankN t n).hrel = true ∧ (bankN t n).owner = b.owner)) ∧
    (on → ∃ t, exec (.doorbell d tag) s = .next t ∧ SameProgram s t ∧ sent 0 0 t ∧
      SameRegistersBut (aHptDbell :: eventRegs 39) s t ∧ getR t aHptDbell = getR s aHptDbell ||| d.truncate 32 ∧
      (srcOf t 39).edgecnt = (srcOf s 39).edgecnt + 1)) ∧
  (∀ (s : State) (tag : BitVec 12) (stat : BitVec 2) (d : DWord),
    let g := tag.toNat
    let st := stat.toNat
    (∀ o, outOf s g = some o → o.busy = true → exec (.hostBusyResend tag) s =
      .next (settle { s with hpt := { s.hpt with out := s.hpt.out.set none g (some { o with busy := false }) } })) ∧
    (s.up = true → unitSt s 2 ≠ 0 →
      (outOf s g = none → ∃ t, exec (.hostResponse tag stat d) s = .next t ∧ SameProgram s t ∧
        SameRegistersBut [aHptErr] s t ∧ t.cons = s.cons ∧
        fld (getR t aHptErr) 24 8 = satAdd 255 (fld (getR s aHptErr) 24 8) 1) ∧
      ∀ o : OutReq, outOf s g = some o →
        let k := consOf s o.entry
        let w := consWho k
        let limit := fld (getR s aHptCfg) 4 4
        let p := hostPart k
        let part := hostBytes p.1 p.2 d
        let final := o.gone = false ∧ (st = 1 → limit ≤ o.tries) ∧ k.used = true ∧ k.gen = o.gen ∧ k.done = none ∧
          k.tag = some g ∧ k.orphan = false ∧ k.first = none ∧ (∀ e ∈ s.cons, unsent e.2 = false)
        let freed := fun (t : State) => outOf t g = none ∧ consOf t o.entry = { gen := k.gen } ∧
          ∀ e, e ≠ o.entry → consOf t e = consOf s e
        (o.gone = true → ∃ t, exec (.hostResponse tag stat d) s = .next t ∧ SameProgram s t ∧ SameRegisters s t ∧
          t.cons = s.cons ∧ outOf t g = none) ∧
        (o.gone = false → st = 1 → o.tries < limit → ∃ t, exec (.hostResponse tag stat d) s = .next t ∧ SameProgram s t ∧
          SameRegisters s t ∧ t.cons = s.cons ∧ outOf t g = some { o with busy := true, tries := o.tries + 1 }) ∧
        (final → st = 0 → k.kind = .store → (wordParts k.addr k.size).length = 1 →
          ∃ t, exec (.hostResponse tag stat d) s = .next t ∧ SameProgram s t ∧ SameRegisters s t ∧ freed t) ∧
        (final → st = 0 → ∀ sg, k.kind = .load sg → (wordParts k.addr k.size).length = 1 →
          let x := BitVec.ofNat 64 part
          let fills := fun (h : List Entry) => h.map (fun e =>
            if e = .load o.entry false then .val (extend sg k.size x) else if e = .load o.entry true then .val (hiW x) else e)
          ∃ t, exec (.hostResponse tag stat d) s = .next t ∧ SameMemory s t ∧ SameRegisters s t ∧ SameOthers s t w ∧ freed t ∧
            (getC t w).dhead = fills (getC s w).dhead ∧ (getC t w).rhead = fills (getC s w).rhead) ∧
        (final → st = 0 → (wordParts k.addr k.size).length = 2 → unitSt s 2 = 2 →
          (region k.addr = some .host → k.early = none → (k.kind = .store ∨ ∃ sg, k.kind = .load sg) →
          ∃ t, exec (.hostResponse tag stat d) s = .next t ∧ SameProgram s t ∧ SameRegisters s t ∧
            (consOf t o.entry).first = some (BitVec.ofNat 64 part) ∧ (consOf t o.entry).done = none)) ∧
        (final → st ≠ 0 → k.fast = false → k.kind = .store →
          let lo := if st = 1 then 16 else if st = 2 then 8 else 0
          ∃ t, exec (.hostResponse tag stat d) s = .next t ∧ SameMemory s t ∧ SameOthers s t w ∧ freed t ∧
            SameRegistersBut [aHptErr] s t ∧ fld (getR t aHptErr) lo 8 = satAdd 255 (fld (getR s aHptErr) lo 8) 1 ∧
            (getC t w).imprecise = (getC s w).imprecise ++
              [consItem k (if st = 3 then 3 else 6) (u32 (sizeCode k.size * 2 ^ 14 + o.entry))])))

/-! ### Registers of the scheduler and the rings, and the crossings between islands (R12 to R22, R104, R129 to R132, R152,
R160, R162, R184) -/

/-- A register outside the ring's set raises PRIV in the coach and is neither read nor written; an unaligned address raises
ALIGN, an address outside every range ACCESS. A read-and-clear register answers and clears, an unassigned offset reads 0.
What a read answers appears in the model's own response word.
Readings of the model: log entries 7 and 34. -/
def Obligations.RegisterAccess : Prop :=
  ∀ (s : State) (c : BitVec 10) (addr v : Word), s.up = true →
    let a := addr.toNat
    let w := whoOf s c.toNat
    let raised := fun (vec : Nat) (wr : Bool) => occurs (raiseItem s w { vec := vec, addr := addr, write := wr, info := 0x8000 })
    let both := fun (vec : Nat) =>
      exec (.registerWrite c addr v) s = raised vec true ∧ exec (.rsRead c addr) s = raised vec false
    let ready := (∀ u, csrSwitch a = some u → unitSt s u = 2) ∧ laneOfWho s w = 0 ∧ Acked s c (csrUnit a)
    let reads := fun (x : Word) (t : State) => exec (.rsRead c addr) s = .next t ∧ SameProgram s t ∧ t.bus = x
    (region a = none → both 3) ∧
    (regionN a 4 = some .csr → a % 4 ≠ 0 → both 4) ∧
    (regionN a 4 = some .csr → a % 4 = 0 →
      (∀ r, regOf a = some r → r.ring < ringOf (getC s w) → both 9) ∧
      (∀ u, csrSwitch a = some u → unitSt s u = 0 ∨ unitSt s u = 3 ∨ laneOfWho s w ≠ 0 → (∀ r, regOf a = some r → ringOf (getC s w) ≤ r.ring) →
        exec (.rsRead c addr) s = raised 3 false) ∧
      (ready → regOf a = none → ∃ t, reads 0 t ∧ SameRegisters s t) ∧
      (ready → ∀ r, regOf a = some r → ringOf (getC s w) ≤ r.ring →
        (a ∈ clearedByRead → ∃ t, reads (getR s a) t ∧ SameRegistersBut [a] s t ∧ getR t a = 0) ∧
        (a ∈ countClearedByRead → ∃ t, reads (getR s a) t ∧ SameRegistersBut [a] s t ∧
          getR t a = setFld (getR s a) 16 16 0) ∧
        (a = aRngXcause → ∃ t, reads (getC s w).xcause t ∧ SameRegisters s t) ∧
        (aRngGstage ≤ a → a < aRngGstage + 16 → (∃ t, reads (getR s a) t ∧ SameRegisters s t) ∧
          ∃ t, exec (.registerWrite c addr v) s = .next t ∧ SameProgram s t ∧ SameRegistersBut [a] s t ∧ getR t a = v)))

/-- Halt and resume, the designated fast coach, the gate commit, service mode and the two locks.
Readings of the model: log entries 37, 38 and 39. -/
def Obligations.SchedulerAndRings : Prop :=
  ∀ (s : State) (c : BitVec 10) (v : Word),
    (let n := fld v 0 10
     let k := coachOf s n
     let may := n ≠ 0 ∧ fastHeld s n = false ∧ k.st.live = true ∧ k.st ≠ .halt
     (MayAccess s c 0 →
       (¬ may → exec (.cshHaltreq c v) s = .next (settle s)) ∧
       (may → k.st = .wait ∨ (n ∈ s.queue ∧ k.stall = none ∧ k.drain = false) →
         ∃ t, exec (.cshHaltreq c v) s = .next t ∧ SameProgram s t ∧ SameRegisters s t ∧ (coachOf t n).st = .halt ∧
           (coachOf t n).hpc = k.pc ∧ (coachOf t n).hcause = 0 ∧ (coachOf t n).haltReq = false ∧ runOf t 0 ≠ some n) ∧
       (may → k.st ≠ .wait → k.stall ≠ none → ∃ t, exec (.cshHaltreq c v) s = .next t ∧ SameProgram s t ∧
         SameRegisters s t ∧ (coachOf t n).haltReq = true ∧ (coachOf t n).st ≠ .halt)) ∧
     (MayAccess s c 1 →
       (k.st ≠ .halt → exec (.cshResume c v) s = .next (settle s)) ∧
       (k.st = .halt → k.haltReq = false → ∃ t, exec (.cshResume c v) s = .next t ∧ SameProgram s t ∧ SameRegisters s t ∧
         ((coachOf t n).st = .ready ∨ (coachOf t n).st = .run)))) ∧
    (MayAccess s c 0 →
      (let old := getR s aCshFastcfg
       let only := fun (t : State) => SameProgram s t ∧ SameRegistersBut [aCshFastcfg] s t
       (bit old 31 = true → ∃ t, exec (.cshFastcfgWrite c v) s = .next t ∧ only t ∧
         getR t aCshFastcfg = setBit (setFld old 16 8 (fld v 16 8)) 31 (bit v 31)) ∧
       (bit old 31 = false → ∃ t, exec (.cshFastcfgWrite c v) s = .next t ∧ only t ∧ getR t aCshFastcfg =
         setBit (v &&& 0x00FF33FF) 31 (bit v 31 && !(coachOf s (fld v 0 10)).st.live && s.fastOn.isNone))) ∧
      (let n := fld v 0 10
       let a := (getR s aRngGatebase).toNat + 16 * n
       let p := phys a
       let x : Iss := ⟨whoOf s c.toNat, 0⟩
       let inside := n < fld (getR s aRngGatecnt) 0 11 ∧ bankRange a 16 = true
       let only := fun (t : State) => SameProgram s t ∧ SameRegistersBut [aRngGcommit] s t
       (¬ inside → ∃ t, exec (.rngGcommit c v) s = .next t ∧ only t ∧
         getR t aRngGcommit = u32 (2 ^ 31 + n * 2 ^ 20)) ∧
       (inside → vtlock s = true → inVectors a 16 = true → ∃ t, exec (.rngGcommit c v) s = .next t ∧ only t ∧
         getR t aRngGcommit = u32 (2 ^ 31 + n * 2 ^ 20 + 3 * 2 ^ 16)) ∧
       (inside → (vtlock s && inVectors a 16) = false → p % 16 = 0 → openOver s x.who a 16 (fun _ => true) = [] →
         ownerRefusal s (reqOf s x) p 16 .store = none → (bankN s (bankOf p)).pwr = 0 →
         ∃ t, exec (.rngGcommit c v) s = .next t ∧ SameContexts s t ∧ SameRegistersBut [aRngGcommit] s t ∧
           getR t aRngGcommit = u32 (n * 2 ^ 20) ∧ (∀ k, k < 4 → rd32 t (p + 4 * k) = getR s (aRngGstage + 4 * k)) ∧
           ∀ b, b < spareBase → b < p ∨ p + 16 ≤ b → rdB t b = rdB s b)) ∧
      (let free := (sboxOf s 1).occ = false ∧ (sboxOf s 2).occ = false ∧ (sboxOf s 3).occ = false
       (vtlock s = true → free → exec (.svc c) s = .next (settle (orR s aRngCtl 1))) ∧
       (¬ (vtlock s = true ∧ free) → exec (.svc c) s = .next (settle s))) ∧
      exec (.vtlock c) s = .next (settle (orR s aRngLock 1)) ∧
      exec (.gtlock c) s = .next (settle (orR s aRngLock 2)))

/-- A retried crossing is counted; an exhausted one is logged, counts towards the attack policy, and what it carried decides
the rest: an open consignment completes with status 2, after its unit has performed a store whose response was lost, a sealed access raises BUSERR, an internal item is kept and offered
again.
Readings of the model: log entries 52 and 73. -/
def Obligations.Crossings : Prop :=
  ∀ (s : State) (src dst : BitVec 4) (item : MtrItem),
    let retried := fun (t : State) =>
      (getR t aZwMtrRetry).toNat = satAdd (2 ^ 32 - 1) (getR s aZwMtrRetry).toNat 1
    let n := fld (getR s aZwMtrFail) 0 12
    let logged := fun (t : State) => retried t ∧ bit (getR t aZwMtrFail) 31 = (bit (getR s aZwMtrFail) 31 || n == 0xFFF) ∧
      fld (getR t aZwMtrFail) 24 4 = src.toNat ∧ fld (getR t aZwMtrFail) 20 4 = dst.toNat ∧
      fld (getR t aZwMtrFail) 0 12 = satAdd 0xFFF n 1 ∧
      fld (getR t aKeyPcount) 0 12 = satAdd 4095 (fld (getR s aKeyPcount) 0 12) 1
    let now := sequenceOn s src dst
    let kept := if now.isSome then none else s.mtr.find? (fun j => keptFor src dst j && item == .internal j.load)
    let left := match kept with | some j => s.mtr.erase j | none => s.mtr
    let m0 := now.getD ⟨src.toNat, dst.toNat, item, 0, sentBehind s item, (kept.map (·.arisen)).getD false, kept.bind (·.entry)⟩
    let mayTry := fun (k : Nat) => (now = none ∧ k = 0 ∧ linked s src dst = true ∧ carries s src dst item = true) ∨
      ∃ m, now = some m ∧ m.item = item ∧ m.tries = k
    let quiet := fun (t : State) => sequenceOn t src dst = none
    let others := s.mret.filter (fun m => !(m.src == src.toNat && m.dst == dst.toNat))
    let still := others = [] ∧ (∀ j ∈ s.mtr, j.waits = false ∧ j.arisen = true) ∧ ∀ k ∈ s.cons, k.2.kind.isBnop = false
    let woken := fun (c : BitVec 10) (b : BitVec 4) (t : State) =>
      (coachOf s c.toNat).st.live = true → isFastCoach s c.toNat = false →
        (coachOf t c.toNat).wake = (coachOf s c.toNat).wake ||| b
    let s1 : State := { bumpR s aZwMtrRetry 0 32 1 with mret := others }
    let s2 := policy (setR s1 aZwMtrFail (mtrFailWord (getR s1 aZwMtrFail) src dst)) pcMORTAR
    (s.up = true →
      (∀ k, s.mtr.find? (keptFor src dst) = some k →
        (quiet s → ∃ t, exec (.mortarReoffer src dst) s = .next t ∧ SameContexts s t ∧
          ((∀ n, k.load ≠ .stamp n) → t.mtr = s.mtr.erase k ∧ SameMemory s t ∧ SameRegisters s t) ∧
          (k.arisen = false → t.mtr = s.mtr.erase k ∧ SameMemory s t ∧ SameRegisters s t) ∧
          (k.arisen = true → (∀ c b, k.load = .wake c b → woken c b t) ∧
            (k.load = .fast → fastEn s = true → t.fastPend = true))) ∧
        (¬ quiet s → exec (.mortarReoffer src dst) s = .next (settle s))) ∧
      (s.mtr.find? (keptFor src dst) = none → exec (.mortarReoffer src dst) s = .next (settle s)) ∧
      (∀ m f, now = some m → m.item ≠ item ∨ 3 ≤ m.tries → exec (.mortarRetry src dst item f) s = .next (settle s)) ∧
      (now = none → linked s src dst = false ∨ carries s src dst item = false → ∀ f,
        exec (.mortarRetry src dst item f) s = .next (settle s)) ∧
      (∀ k, mayTry k → k < 2 → ∃ t, exec (.mortarRetry src dst item true) s = .next t ∧ SameProgram s t ∧
        SameRegistersBut [aZwMtrRetry] s t ∧ retried t ∧ t.mtr = left ∧
        sequenceOn t src dst = some { m0 with tries := k + 1 }) ∧
      (∀ k, mayTry k → k < 3 → still → ∃ t, exec (.mortarRetry src dst item false) s = .next t ∧ retried t ∧ quiet t ∧
        SameContexts s t ∧ ((∀ n, item ≠ .internal (.stamp n)) → t.mtr = left) ∧
        (∀ c b, item = .internal (.wake c b) → m0.arisen = true → woken c b t) ∧
        ((∀ d, item ≠ .internal d) → SameMemory s t ∧ SameRegistersBut [aZwMtrRetry] s t)) ∧
      (mayTry 2 → still →
      (∀ d, item = .internal d → ∃ t, exec (.mortarRetry src dst item true) s = .next t ∧ SameProgram s t ∧ logged t ∧ quiet t ∧
        t.mtr = s.mtr ++ [⟨src.toNat, dst.toNat, d, m0.entry, m0.arisen, false⟩]) ∧
      (∀ (e : Fin 3072) (half : Bool), item = .open_ e half → isResponse src dst = false →
        (consOf s e.val).used = true → (consOf s e.val).done = none →
        (consOf s e.val).orphan = false → (consOf s e.val).fast = false → (consOf s e.val).kind = .store →
        (∀ w, (getC s w).stall = none ∧ (getC s w).out = []) → (∀ k ∈ s.cons, unsent k.2 = false) →
        let k := consOf s e.val
        let w := consWho k
        let lost := u32 (sizeCode k.size * 2 ^ 14 + e.val) ||| u32 (src.toNat * 2 ^ 28 + dst.toNat * 2 ^ 24 + 2 ^ 23)
        (half = false ∨ (partsOf k).length ≠ 2 →
          ∃ t, exec (.mortarRetry src dst item true) s = .next t ∧ SameMemory s t ∧ SameOthers s t w ∧ logged t ∧
            consOf t e.val = { gen := k.gen } ∧ (getC t w).imprecise = (getC s w).imprecise ++
              [if k.first = none then consItem k 2 lost else consItem k 5 (half2 true 2 ||| lost)]) ∧
        (∀ u, half = true → (partsOf k).length = 2 → firstHalf s2 k = some u →
          ∃ t, exec (.mortarRetry src dst item true) s = .next t ∧ t.mem = u.mem ∧ consOf t e.val = { gen := k.gen } ∧
            (getC t w).imprecise = (getC s w).imprecise ++ [consItem k 5 (half2 true 2 ||| lost)])) ∧
      (∀ e : Fin 3072, item = .open_ e false → isResponse src dst = true → (consOf s e.val).used = true → (consOf s e.val).done = none →
        (consOf s e.val).early = none → (consOf s e.val).first = none → region (consOf s e.val).addr ≠ some .host →
        (consOf s e.val).orphan = false → (consOf s e.val).kind = .store → (∀ w, (getC s w).stall = none) →
        let k := consOf s e.val
        ∃ t, exec (.mortarRetry src dst item true) s = .next t ∧ consOf t e.val = { gen := k.gen } ∧
          t.mem = (performAt s2 k).1.mem) ∧
      (∀ (c : BitVec 10) (st : Stall) (a : Nat), item = .sealed_ c → isResponse src dst = false → (getC s (whoOf s c.toNat)).stall = some st →
        st.op = some (.read a) → st.stele = none → st.waits = none → st.divides = none → st.tick = none →
        let w := whoOf s c.toNat
        logged s2 ∧ exec (.mortarRetry src dst item true) s =
          occurs (pumpEngine (flushChannel (raiseItem (modC s2 w (fun d => { d with
            stall := none, held := none, waited := false, fetched := [], told := [], routine := none
            dsp := d.dsp - u32 (4 * st.fills), dhead := d.dhead.take (d.dhead.length - st.fills) })) w
            { vec := 10, addr := u32 a, info := u32 (2 * 2 ^ 14) |||
              u32 (src.toNat * 2 ^ 28 + dst.toNat * 2 ^ 24 + 2 ^ 23) }) src dst)))))
end

