-- ==== Sys2Proof/Laws/State.lean ====
section
/-! SUPPORT. What each update of the state leaves unchanged, field by field, and what it writes. -/

namespace Sys2Proof.Machine

variable (s : State)

/-! ### setR -/

@[simp] theorem setR_pending (a : Nat) (v : Word) : (setR s a v).pending = s.pending := rfl
@[simp] theorem setR_mem (a : Nat) (v : Word) : (setR s a v).mem = s.mem := rfl
@[simp] theorem setR_ecc (a : Nat) (v : Word) : (setR s a v).ecc = s.ecc := rfl
@[simp] theorem setR_bus (a : Nat) (v : Word) : (setR s a v).bus = s.bus := rfl
@[simp] theorem setR_draws (a : Nat) (v : Word) : (setR s a v).draws = s.draws := rfl
@[simp] theorem setR_cycles (a : Nat) (v : Word) : (setR s a v).cycles = s.cycles := rfl
@[simp] theorem setR_up (a : Nat) (v : Word) : (setR s a v).up = s.up := rfl
@[simp] theorem setR_coach (a : Nat) (v : Word) : (setR s a v).coach = s.coach := rfl
@[simp] theorem setR_fast (a : Nat) (v : Word) : (setR s a v).fast = s.fast := rfl
@[simp] theorem setR_fastOn (a : Nat) (v : Word) : (setR s a v).fastOn = s.fastOn := rfl
@[simp] theorem setR_fastPend (a : Nat) (v : Word) : (setR s a v).fastPend = s.fastPend := rfl
@[simp] theorem setR_queue (a : Nat) (v : Word) : (setR s a v).queue = s.queue := rfl
@[simp] theorem setR_run0 (a : Nat) (v : Word) : (setR s a v).run0 = s.run0 := rfl
@[simp] theorem setR_run1 (a : Nat) (v : Word) : (setR s a v).run1 = s.run1 := rfl
@[simp] theorem setR_run2 (a : Nat) (v : Word) : (setR s a v).run2 = s.run2 := rfl
@[simp] theorem setR_gaps (a : Nat) (v : Word) : (setR s a v).gaps = s.gaps := rfl
@[simp] theorem setR_div (a : Nat) (v : Word) : (setR s a v).div = s.div := rfl
@[simp] theorem setR_cons (a : Nat) (v : Word) : (setR s a v).cons = s.cons := rfl
@[simp] theorem setR_order (a : Nat) (v : Word) : (setR s a v).order = s.order := rfl
@[simp] theorem setR_sbox (a : Nat) (v : Word) : (setR s a v).sbox = s.sbox := rfl
@[simp] theorem setR_sbOrder (a : Nat) (v : Word) : (setR s a v).sbOrder = s.sbOrder := rfl
@[simp] theorem setR_l0cnt (a : Nat) (v : Word) : (setR s a v).l0cnt = s.l0cnt := rfl
@[simp] theorem setR_src (a : Nat) (v : Word) : (setR s a v).src = s.src := rfl
@[simp] theorem setR_bank (a : Nat) (v : Word) : (setR s a v).bank = s.bank := rfl
@[simp] theorem setR_lnc (a : Nat) (v : Word) : (setR s a v).lnc = s.lnc := rfl
@[simp] theorem setR_mls (a : Nat) (v : Word) : (setR s a v).mls = s.mls := rfl
@[simp] theorem setR_fli (a : Nat) (v : Word) : (setR s a v).fli = s.fli := rfl
@[simp] theorem setR_bne (a : Nat) (v : Word) : (setR s a v).bne = s.bne := rfl
@[simp] theorem setR_stl (a : Nat) (v : Word) : (setR s a v).stl = s.stl := rfl
@[simp] theorem setR_mcs (a : Nat) (v : Word) : (setR s a v).mcs = s.mcs := rfl
@[simp] theorem setR_hpt (a : Nat) (v : Word) : (setR s a v).hpt = s.hpt := rfl
@[simp] theorem setR_pwr (a : Nat) (v : Word) : (setR s a v).pwr = s.pwr := rfl
@[simp] theorem setR_icache (a : Nat) (v : Word) : (setR s a v).icache = s.icache := rfl
@[simp] theorem setR_mtr (a : Nat) (v : Word) : (setR s a v).mtr = s.mtr := rfl
@[simp] theorem setR_mret (a : Nat) (v : Word) : (setR s a v).mret = s.mret := rfl
@[simp] theorem setR_moves (a : Nat) (v : Word) : (setR s a v).moves = s.moves := rfl
@[simp] theorem setR_lateAcc (a : Nat) (v : Word) : (setR s a v).lateAcc = s.lateAcc := rfl

/-! ### setCoach -/

@[simp] theorem setCoach_pending (n : Nat) (c : Coach) : (setCoach s n c).pending = s.pending := rfl
@[simp] theorem setCoach_mem (n : Nat) (c : Coach) : (setCoach s n c).mem = s.mem := rfl
@[simp] theorem setCoach_ecc (n : Nat) (c : Coach) : (setCoach s n c).ecc = s.ecc := rfl
@[simp] theorem setCoach_csr (n : Nat) (c : Coach) : (setCoach s n c).csr = s.csr := rfl
@[simp] theorem setCoach_bus (n : Nat) (c : Coach) : (setCoach s n c).bus = s.bus := rfl
@[simp] theorem setCoach_draws (n : Nat) (c : Coach) : (setCoach s n c).draws = s.draws := rfl
@[simp] theorem setCoach_cycles (n : Nat) (c : Coach) : (setCoach s n c).cycles = s.cycles := rfl
@[simp] theorem setCoach_up (n : Nat) (c : Coach) : (setCoach s n c).up = s.up := rfl
@[simp] theorem setCoach_fast (n : Nat) (c : Coach) : (setCoach s n c).fast = s.fast := rfl
@[simp] theorem setCoach_fastOn (n : Nat) (c : Coach) : (setCoach s n c).fastOn = s.fastOn := rfl
@[simp] theorem setCoach_fastPend (n : Nat) (c : Coach) : (setCoach s n c).fastPend = s.fastPend := rfl
@[simp] theorem setCoach_queue (n : Nat) (c : Coach) : (setCoach s n c).queue = s.queue := rfl
@[simp] theorem setCoach_run0 (n : Nat) (c : Coach) : (setCoach s n c).run0 = s.run0 := rfl
@[simp] theorem setCoach_run1 (n : Nat) (c : Coach) : (setCoach s n c).run1 = s.run1 := rfl
@[simp] theorem setCoach_run2 (n : Nat) (c : Coach) : (setCoach s n c).run2 = s.run2 := rfl
@[simp] theorem setCoach_gaps (n : Nat) (c : Coach) : (setCoach s n c).gaps = s.gaps := rfl
@[simp] theorem setCoach_div (n : Nat) (c : Coach) : (setCoach s n c).div = s.div := rfl
@[simp] theorem setCoach_cons (n : Nat) (c : Coach) : (setCoach s n c).cons = s.cons := rfl
@[simp] theorem setCoach_order (n : Nat) (c : Coach) : (setCoach s n c).order = s.order := rfl
@[simp] theorem setCoach_sbox (n : Nat) (c : Coach) : (setCoach s n c).sbox = s.sbox := rfl
@[simp] theorem setCoach_sbOrder (n : Nat) (c : Coach) : (setCoach s n c).sbOrder = s.sbOrder := rfl
@[simp] theorem setCoach_l0cnt (n : Nat) (c : Coach) : (setCoach s n c).l0cnt = s.l0cnt := rfl
@[simp] theorem setCoach_src (n : Nat) (c : Coach) : (setCoach s n c).src = s.src := rfl
@[simp] theorem setCoach_bank (n : Nat) (c : Coach) : (setCoach s n c).bank = s.bank := rfl
@[simp] theorem setCoach_lnc (n : Nat) (c : Coach) : (setCoach s n c).lnc = s.lnc := rfl
@[simp] theorem setCoach_mls (n : Nat) (c : Coach) : (setCoach s n c).mls = s.mls := rfl
@[simp] theorem setCoach_fli (n : Nat) (c : Coach) : (setCoach s n c).fli = s.fli := rfl
@[simp] theorem setCoach_bne (n : Nat) (c : Coach) : (setCoach s n c).bne = s.bne := rfl
@[simp] theorem setCoach_stl (n : Nat) (c : Coach) : (setCoach s n c).stl = s.stl := rfl
@[simp] theorem setCoach_mcs (n : Nat) (c : Coach) : (setCoach s n c).mcs = s.mcs := rfl
@[simp] theorem setCoach_hpt (n : Nat) (c : Coach) : (setCoach s n c).hpt = s.hpt := rfl
@[simp] theorem setCoach_pwr (n : Nat) (c : Coach) : (setCoach s n c).pwr = s.pwr := rfl
@[simp] theorem setCoach_icache (n : Nat) (c : Coach) : (setCoach s n c).icache = s.icache := rfl
@[simp] theorem setCoach_mtr (n : Nat) (c : Coach) : (setCoach s n c).mtr = s.mtr := rfl
@[simp] theorem setCoach_mret (n : Nat) (c : Coach) : (setCoach s n c).mret = s.mret := rfl
@[simp] theorem setCoach_moves (n : Nat) (c : Coach) : (setCoach s n c).moves = s.moves := rfl
@[simp] theorem setCoach_lateAcc (n : Nat) (c : Coach) : (setCoach s n c).lateAcc = s.lateAcc := rfl

/-! ### setCons -/

@[simp] theorem setCons_pending (e : Nat) (k : Cons) : (setCons s e k).pending = s.pending := rfl
@[simp] theorem setCons_mem (e : Nat) (k : Cons) : (setCons s e k).mem = s.mem := rfl
@[simp] theorem setCons_ecc (e : Nat) (k : Cons) : (setCons s e k).ecc = s.ecc := rfl
@[simp] theorem setCons_csr (e : Nat) (k : Cons) : (setCons s e k).csr = s.csr := rfl
@[simp] theorem setCons_bus (e : Nat) (k : Cons) : (setCons s e k).bus = s.bus := rfl
@[simp] theorem setCons_draws (e : Nat) (k : Cons) : (setCons s e k).draws = s.draws := rfl
@[simp] theorem setCons_cycles (e : Nat) (k : Cons) : (setCons s e k).cycles = s.cycles := rfl
@[simp] theorem setCons_up (e : Nat) (k : Cons) : (setCons s e k).up = s.up := rfl
@[simp] theorem setCons_coach (e : Nat) (k : Cons) : (setCons s e k).coach = s.coach := rfl
@[simp] theorem setCons_fast (e : Nat) (k : Cons) : (setCons s e k).fast = s.fast := rfl
@[simp] theorem setCons_fastOn (e : Nat) (k : Cons) : (setCons s e k).fastOn = s.fastOn := rfl
@[simp] theorem setCons_fastPend (e : Nat) (k : Cons) : (setCons s e k).fastPend = s.fastPend := rfl
@[simp] theorem setCons_queue (e : Nat) (k : Cons) : (setCons s e k).queue = s.queue := rfl
@[simp] theorem setCons_run0 (e : Nat) (k : Cons) : (setCons s e k).run0 = s.run0 := rfl
@[simp] theorem setCons_run1 (e : Nat) (k : Cons) : (setCons s e k).run1 = s.run1 := rfl
@[simp] theorem setCons_run2 (e : Nat) (k : Cons) : (setCons s e k).run2 = s.run2 := rfl
@[simp] theorem setCons_gaps (e : Nat) (k : Cons) : (setCons s e k).gaps = s.gaps := rfl
@[simp] theorem setCons_div (e : Nat) (k : Cons) : (setCons s e k).div = s.div := rfl
@[simp] theorem setCons_order (e : Nat) (k : Cons) : (setCons s e k).order = s.order := rfl
@[simp] theorem setCons_sbox (e : Nat) (k : Cons) : (setCons s e k).sbox = s.sbox := rfl
@[simp] theorem setCons_sbOrder (e : Nat) (k : Cons) : (setCons s e k).sbOrder = s.sbOrder := rfl
@[simp] theorem setCons_l0cnt (e : Nat) (k : Cons) : (setCons s e k).l0cnt = s.l0cnt := rfl
@[simp] theorem setCons_src (e : Nat) (k : Cons) : (setCons s e k).src = s.src := rfl
@[simp] theorem setCons_bank (e : Nat) (k : Cons) : (setCons s e k).bank = s.bank := rfl
@[simp] theorem setCons_lnc (e : Nat) (k : Cons) : (setCons s e k).lnc = s.lnc := rfl
@[simp] theorem setCons_mls (e : Nat) (k : Cons) : (setCons s e k).mls = s.mls := rfl
@[simp] theorem setCons_fli (e : Nat) (k : Cons) : (setCons s e k).fli = s.fli := rfl
@[simp] theorem setCons_bne (e : Nat) (k : Cons) : (setCons s e k).bne = s.bne := rfl
@[simp] theorem setCons_stl (e : Nat) (k : Cons) : (setCons s e k).stl = s.stl := rfl
@[simp] theorem setCons_mcs (e : Nat) (k : Cons) : (setCons s e k).mcs = s.mcs := rfl
@[simp] theorem setCons_hpt (e : Nat) (k : Cons) : (setCons s e k).hpt = s.hpt := rfl
@[simp] theorem setCons_pwr (e : Nat) (k : Cons) : (setCons s e k).pwr = s.pwr := rfl
@[simp] theorem setCons_icache (e : Nat) (k : Cons) : (setCons s e k).icache = s.icache := rfl
@[simp] theorem setCons_mtr (e : Nat) (k : Cons) : (setCons s e k).mtr = s.mtr := rfl
@[simp] theorem setCons_mret (e : Nat) (k : Cons) : (setCons s e k).mret = s.mret := rfl
@[simp] theorem setCons_moves (e : Nat) (k : Cons) : (setCons s e k).moves = s.moves := rfl
@[simp] theorem setCons_lateAcc (e : Nat) (k : Cons) : (setCons s e k).lateAcc = s.lateAcc := rfl

/-! ### setSrc -/

@[simp] theorem setSrc_pending (n : Nat) (x : Src) : (setSrc s n x).pending = s.pending := rfl
@[simp] theorem setSrc_mem (n : Nat) (x : Src) : (setSrc s n x).mem = s.mem := rfl
@[simp] theorem setSrc_ecc (n : Nat) (x : Src) : (setSrc s n x).ecc = s.ecc := rfl
@[simp] theorem setSrc_csr (n : Nat) (x : Src) : (setSrc s n x).csr = s.csr := rfl
@[simp] theorem setSrc_bus (n : Nat) (x : Src) : (setSrc s n x).bus = s.bus := rfl
@[simp] theorem setSrc_draws (n : Nat) (x : Src) : (setSrc s n x).draws = s.draws := rfl
@[simp] theorem setSrc_cycles (n : Nat) (x : Src) : (setSrc s n x).cycles = s.cycles := rfl
@[simp] theorem setSrc_up (n : Nat) (x : Src) : (setSrc s n x).up = s.up := rfl
@[simp] theorem setSrc_coach (n : Nat) (x : Src) : (setSrc s n x).coach = s.coach := rfl
@[simp] theorem setSrc_fast (n : Nat) (x : Src) : (setSrc s n x).fast = s.fast := rfl
@[simp] theorem setSrc_fastOn (n : Nat) (x : Src) : (setSrc s n x).fastOn = s.fastOn := rfl
@[simp] theorem setSrc_fastPend (n : Nat) (x : Src) : (setSrc s n x).fastPend = s.fastPend := rfl
@[simp] theorem setSrc_queue (n : Nat) (x : Src) : (setSrc s n x).queue = s.queue := rfl
@[simp] theorem setSrc_run0 (n : Nat) (x : Src) : (setSrc s n x).run0 = s.run0 := rfl
@[simp] theorem setSrc_run1 (n : Nat) (x : Src) : (setSrc s n x).run1 = s.run1 := rfl
@[simp] theorem setSrc_run2 (n : Nat) (x : Src) : (setSrc s n x).run2 = s.run2 := rfl
@[simp] theorem setSrc_gaps (n : Nat) (x : Src) : (setSrc s n x).gaps = s.gaps := rfl
@[simp] theorem setSrc_div (n : Nat) (x : Src) : (setSrc s n x).div = s.div := rfl
@[simp] theorem setSrc_cons (n : Nat) (x : Src) : (setSrc s n x).cons = s.cons := rfl
@[simp] theorem setSrc_order (n : Nat) (x : Src) : (setSrc s n x).order = s.order := rfl
@[simp] theorem setSrc_sbox (n : Nat) (x : Src) : (setSrc s n x).sbox = s.sbox := rfl
@[simp] theorem setSrc_sbOrder (n : Nat) (x : Src) : (setSrc s n x).sbOrder = s.sbOrder := rfl
@[simp] theorem setSrc_l0cnt (n : Nat) (x : Src) : (setSrc s n x).l0cnt = s.l0cnt := rfl
@[simp] theorem setSrc_bank (n : Nat) (x : Src) : (setSrc s n x).bank = s.bank := rfl
@[simp] theorem setSrc_lnc (n : Nat) (x : Src) : (setSrc s n x).lnc = s.lnc := rfl
@[simp] theorem setSrc_mls (n : Nat) (x : Src) : (setSrc s n x).mls = s.mls := rfl
@[simp] theorem setSrc_fli (n : Nat) (x : Src) : (setSrc s n x).fli = s.fli := rfl
@[simp] theorem setSrc_bne (n : Nat) (x : Src) : (setSrc s n x).bne = s.bne := rfl
@[simp] theorem setSrc_stl (n : Nat) (x : Src) : (setSrc s n x).stl = s.stl := rfl
@[simp] theorem setSrc_mcs (n : Nat) (x : Src) : (setSrc s n x).mcs = s.mcs := rfl
@[simp] theorem setSrc_hpt (n : Nat) (x : Src) : (setSrc s n x).hpt = s.hpt := rfl
@[simp] theorem setSrc_pwr (n : Nat) (x : Src) : (setSrc s n x).pwr = s.pwr := rfl
@[simp] theorem setSrc_icache (n : Nat) (x : Src) : (setSrc s n x).icache = s.icache := rfl
@[simp] theorem setSrc_mtr (n : Nat) (x : Src) : (setSrc s n x).mtr = s.mtr := rfl
@[simp] theorem setSrc_mret (n : Nat) (x : Src) : (setSrc s n x).mret = s.mret := rfl
@[simp] theorem setSrc_moves (n : Nat) (x : Src) : (setSrc s n x).moves = s.moves := rfl
@[simp] theorem setSrc_lateAcc (n : Nat) (x : Src) : (setSrc s n x).lateAcc = s.lateAcc := rfl

/-! ### setBank -/

@[simp] theorem setBank_pending (n : Nat) (b : Bank) : (setBank s n b).pending = s.pending := rfl
@[simp] theorem setBank_mem (n : Nat) (b : Bank) : (setBank s n b).mem = s.mem := rfl
@[simp] theorem setBank_ecc (n : Nat) (b : Bank) : (setBank s n b).ecc = s.ecc := rfl
@[simp] theorem setBank_csr (n : Nat) (b : Bank) : (setBank s n b).csr = s.csr := rfl
@[simp] theorem setBank_bus (n : Nat) (b : Bank) : (setBank s n b).bus = s.bus := rfl
@[simp] theorem setBank_draws (n : Nat) (b : Bank) : (setBank s n b).draws = s.draws := rfl
@[simp] theorem setBank_cycles (n : Nat) (b : Bank) : (setBank s n b).cycles = s.cycles := rfl
@[simp] theorem setBank_up (n : Nat) (b : Bank) : (setBank s n b).up = s.up := rfl
@[simp] theorem setBank_coach (n : Nat) (b : Bank) : (setBank s n b).coach = s.coach := rfl
@[simp] theorem setBank_fast (n : Nat) (b : Bank) : (setBank s n b).fast = s.fast := rfl
@[simp] theorem setBank_fastOn (n : Nat) (b : Bank) : (setBank s n b).fastOn = s.fastOn := rfl
@[simp] theorem setBank_fastPend (n : Nat) (b : Bank) : (setBank s n b).fastPend = s.fastPend := rfl
@[simp] theorem setBank_queue (n : Nat) (b : Bank) : (setBank s n b).queue = s.queue := rfl
@[simp] theorem setBank_run0 (n : Nat) (b : Bank) : (setBank s n b).run0 = s.run0 := rfl
@[simp] theorem setBank_run1 (n : Nat) (b : Bank) : (setBank s n b).run1 = s.run1 := rfl
@[simp] theorem setBank_run2 (n : Nat) (b : Bank) : (setBank s n b).run2 = s.run2 := rfl
@[simp] theorem setBank_gaps (n : Nat) (b : Bank) : (setBank s n b).gaps = s.gaps := rfl
@[simp] theorem setBank_div (n : Nat) (b : Bank) : (setBank s n b).div = s.div := rfl
@[simp] theorem setBank_cons (n : Nat) (b : Bank) : (setBank s n b).cons = s.cons := rfl
@[simp] theorem setBank_order (n : Nat) (b : Bank) : (setBank s n b).order = s.order := rfl
@[simp] theorem setBank_sbox (n : Nat) (b : Bank) : (setBank s n b).sbox = s.sbox := rfl
@[simp] theorem setBank_sbOrder (n : Nat) (b : Bank) : (setBank s n b).sbOrder = s.sbOrder := rfl
@[simp] theorem setBank_l0cnt (n : Nat) (b : Bank) : (setBank s n b).l0cnt = s.l0cnt := rfl
@[simp] theorem setBank_src (n : Nat) (b : Bank) : (setBank s n b).src = s.src := rfl
@[simp] theorem setBank_lnc (n : Nat) (b : Bank) : (setBank s n b).lnc = s.lnc := rfl
@[simp] theorem setBank_mls (n : Nat) (b : Bank) : (setBank s n b).mls = s.mls := rfl
@[simp] theorem setBank_fli (n : Nat) (b : Bank) : (setBank s n b).fli = s.fli := rfl
@[simp] theorem setBank_bne (n : Nat) (b : Bank) : (setBank s n b).bne = s.bne := rfl
@[simp] theorem setBank_stl (n : Nat) (b : Bank) : (setBank s n b).stl = s.stl := rfl
@[simp] theorem setBank_mcs (n : Nat) (b : Bank) : (setBank s n b).mcs = s.mcs := rfl
@[simp] theorem setBank_hpt (n : Nat) (b : Bank) : (setBank s n b).hpt = s.hpt := rfl
@[simp] theorem setBank_pwr (n : Nat) (b : Bank) : (setBank s n b).pwr = s.pwr := rfl
@[simp] theorem setBank_icache (n : Nat) (b : Bank) : (setBank s n b).icache = s.icache := rfl
@[simp] theorem setBank_mtr (n : Nat) (b : Bank) : (setBank s n b).mtr = s.mtr := rfl
@[simp] theorem setBank_mret (n : Nat) (b : Bank) : (setBank s n b).mret = s.mret := rfl
@[simp] theorem setBank_moves (n : Nat) (b : Bank) : (setBank s n b).moves = s.moves := rfl
@[simp] theorem setBank_lateAcc (n : Nat) (b : Bank) : (setBank s n b).lateAcc = s.lateAcc := rfl

/-! ### setLane -/

@[simp] theorem setLane_pending (n : Nat) (x : Lane) : (setLane s n x).pending = s.pending := rfl
@[simp] theorem setLane_mem (n : Nat) (x : Lane) : (setLane s n x).mem = s.mem := rfl
@[simp] theorem setLane_ecc (n : Nat) (x : Lane) : (setLane s n x).ecc = s.ecc := rfl
@[simp] theorem setLane_csr (n : Nat) (x : Lane) : (setLane s n x).csr = s.csr := rfl
@[simp] theorem setLane_bus (n : Nat) (x : Lane) : (setLane s n x).bus = s.bus := rfl
@[simp] theorem setLane_draws (n : Nat) (x : Lane) : (setLane s n x).draws = s.draws := rfl
@[simp] theorem setLane_cycles (n : Nat) (x : Lane) : (setLane s n x).cycles = s.cycles := rfl
@[simp] theorem setLane_up (n : Nat) (x : Lane) : (setLane s n x).up = s.up := rfl
@[simp] theorem setLane_coach (n : Nat) (x : Lane) : (setLane s n x).coach = s.coach := rfl
@[simp] theorem setLane_fast (n : Nat) (x : Lane) : (setLane s n x).fast = s.fast := rfl
@[simp] theorem setLane_fastOn (n : Nat) (x : Lane) : (setLane s n x).fastOn = s.fastOn := rfl
@[simp] theorem setLane_fastPend (n : Nat) (x : Lane) : (setLane s n x).fastPend = s.fastPend := rfl
@[simp] theorem setLane_queue (n : Nat) (x : Lane) : (setLane s n x).queue = s.queue := rfl
@[simp] theorem setLane_run0 (n : Nat) (x : Lane) : (setLane s n x).run0 = s.run0 := rfl
@[simp] theorem setLane_run1 (n : Nat) (x : Lane) : (setLane s n x).run1 = s.run1 := rfl
@[simp] theorem setLane_run2 (n : Nat) (x : Lane) : (setLane s n x).run2 = s.run2 := rfl
@[simp] theorem setLane_gaps (n : Nat) (x : Lane) : (setLane s n x).gaps = s.gaps := rfl
@[simp] theorem setLane_div (n : Nat) (x : Lane) : (setLane s n x).div = s.div := rfl
@[simp] theorem setLane_cons (n : Nat) (x : Lane) : (setLane s n x).cons = s.cons := rfl
@[simp] theorem setLane_order (n : Nat) (x : Lane) : (setLane s n x).order = s.order := rfl
@[simp] theorem setLane_sbox (n : Nat) (x : Lane) : (setLane s n x).sbox = s.sbox := rfl
@[simp] theorem setLane_sbOrder (n : Nat) (x : Lane) : (setLane s n x).sbOrder = s.sbOrder := rfl
@[simp] theorem setLane_l0cnt (n : Nat) (x : Lane) : (setLane s n x).l0cnt = s.l0cnt := rfl
@[simp] theorem setLane_src (n : Nat) (x : Lane) : (setLane s n x).src = s.src := rfl
@[simp] theorem setLane_bank (n : Nat) (x : Lane) : (setLane s n x).bank = s.bank := rfl
@[simp] theorem setLane_mls (n : Nat) (x : Lane) : (setLane s n x).mls = s.mls := rfl
@[simp] theorem setLane_fli (n : Nat) (x : Lane) : (setLane s n x).fli = s.fli := rfl
@[simp] theorem setLane_bne (n : Nat) (x : Lane) : (setLane s n x).bne = s.bne := rfl
@[simp] theorem setLane_stl (n : Nat) (x : Lane) : (setLane s n x).stl = s.stl := rfl
@[simp] theorem setLane_mcs (n : Nat) (x : Lane) : (setLane s n x).mcs = s.mcs := rfl
@[simp] theorem setLane_hpt (n : Nat) (x : Lane) : (setLane s n x).hpt = s.hpt := rfl
@[simp] theorem setLane_pwr (n : Nat) (x : Lane) : (setLane s n x).pwr = s.pwr := rfl
@[simp] theorem setLane_icache (n : Nat) (x : Lane) : (setLane s n x).icache = s.icache := rfl
@[simp] theorem setLane_mtr (n : Nat) (x : Lane) : (setLane s n x).mtr = s.mtr := rfl
@[simp] theorem setLane_mret (n : Nat) (x : Lane) : (setLane s n x).mret = s.mret := rfl
@[simp] theorem setLane_moves (n : Nat) (x : Lane) : (setLane s n x).moves = s.moves := rfl
@[simp] theorem setLane_lateAcc (n : Nat) (x : Lane) : (setLane s n x).lateAcc = s.lateAcc := rfl

/-! ### modLnc -/

@[simp] theorem modLnc_pending (f : Lnc → Lnc) : (modLnc s f).pending = s.pending := rfl
@[simp] theorem modLnc_mem (f : Lnc → Lnc) : (modLnc s f).mem = s.mem := rfl
@[simp] theorem modLnc_ecc (f : Lnc → Lnc) : (modLnc s f).ecc = s.ecc := rfl
@[simp] theorem modLnc_csr (f : Lnc → Lnc) : (modLnc s f).csr = s.csr := rfl
@[simp] theorem modLnc_bus (f : Lnc → Lnc) : (modLnc s f).bus = s.bus := rfl
@[simp] theorem modLnc_draws (f : Lnc → Lnc) : (modLnc s f).draws = s.draws := rfl
@[simp] theorem modLnc_cycles (f : Lnc → Lnc) : (modLnc s f).cycles = s.cycles := rfl
@[simp] theorem modLnc_up (f : Lnc → Lnc) : (modLnc s f).up = s.up := rfl
@[simp] theorem modLnc_coach (f : Lnc → Lnc) : (modLnc s f).coach = s.coach := rfl
@[simp] theorem modLnc_fast (f : Lnc → Lnc) : (modLnc s f).fast = s.fast := rfl
@[simp] theorem modLnc_fastOn (f : Lnc → Lnc) : (modLnc s f).fastOn = s.fastOn := rfl
@[simp] theorem modLnc_fastPend (f : Lnc → Lnc) : (modLnc s f).fastPend = s.fastPend := rfl
@[simp] theorem modLnc_queue (f : Lnc → Lnc) : (modLnc s f).queue = s.queue := rfl
@[simp] theorem modLnc_run0 (f : Lnc → Lnc) : (modLnc s f).run0 = s.run0 := rfl
@[simp] theorem modLnc_run1 (f : Lnc → Lnc) : (modLnc s f).run1 = s.run1 := rfl
@[simp] theorem modLnc_run2 (f : Lnc → Lnc) : (modLnc s f).run2 = s.run2 := rfl
@[simp] theorem modLnc_gaps (f : Lnc → Lnc) : (modLnc s f).gaps = s.gaps := rfl
@[simp] theorem modLnc_div (f : Lnc → Lnc) : (modLnc s f).div = s.div := rfl
@[simp] theorem modLnc_cons (f : Lnc → Lnc) : (modLnc s f).cons = s.cons := rfl
@[simp] theorem modLnc_order (f : Lnc → Lnc) : (modLnc s f).order = s.order := rfl
@[simp] theorem modLnc_sbox (f : Lnc → Lnc) : (modLnc s f).sbox = s.sbox := rfl
@[simp] theorem modLnc_sbOrder (f : Lnc → Lnc) : (modLnc s f).sbOrder = s.sbOrder := rfl
@[simp] theorem modLnc_l0cnt (f : Lnc → Lnc) : (modLnc s f).l0cnt = s.l0cnt := rfl
@[simp] theorem modLnc_src (f : Lnc → Lnc) : (modLnc s f).src = s.src := rfl
@[simp] theorem modLnc_bank (f : Lnc → Lnc) : (modLnc s f).bank = s.bank := rfl
@[simp] theorem modLnc_mls (f : Lnc → Lnc) : (modLnc s f).mls = s.mls := rfl
@[simp] theorem modLnc_fli (f : Lnc → Lnc) : (modLnc s f).fli = s.fli := rfl
@[simp] theorem modLnc_bne (f : Lnc → Lnc) : (modLnc s f).bne = s.bne := rfl
@[simp] theorem modLnc_stl (f : Lnc → Lnc) : (modLnc s f).stl = s.stl := rfl
@[simp] theorem modLnc_mcs (f : Lnc → Lnc) : (modLnc s f).mcs = s.mcs := rfl
@[simp] theorem modLnc_hpt (f : Lnc → Lnc) : (modLnc s f).hpt = s.hpt := rfl
@[simp] theorem modLnc_pwr (f : Lnc → Lnc) : (modLnc s f).pwr = s.pwr := rfl
@[simp] theorem modLnc_icache (f : Lnc → Lnc) : (modLnc s f).icache = s.icache := rfl
@[simp] theorem modLnc_mtr (f : Lnc → Lnc) : (modLnc s f).mtr = s.mtr := rfl
@[simp] theorem modLnc_mret (f : Lnc → Lnc) : (modLnc s f).mret = s.mret := rfl
@[simp] theorem modLnc_moves (f : Lnc → Lnc) : (modLnc s f).moves = s.moves := rfl
@[simp] theorem modLnc_lateAcc (f : Lnc → Lnc) : (modLnc s f).lateAcc = s.lateAcc := rfl

/-! ### setSbox -/

@[simp] theorem setSbox_pending (l : Nat) (b : SBox) : (setSbox s l b).pending = s.pending := rfl
@[simp] theorem setSbox_mem (l : Nat) (b : SBox) : (setSbox s l b).mem = s.mem := rfl
@[simp] theorem setSbox_ecc (l : Nat) (b : SBox) : (setSbox s l b).ecc = s.ecc := rfl
@[simp] theorem setSbox_csr (l : Nat) (b : SBox) : (setSbox s l b).csr = s.csr := rfl
@[simp] theorem setSbox_bus (l : Nat) (b : SBox) : (setSbox s l b).bus = s.bus := rfl
@[simp] theorem setSbox_draws (l : Nat) (b : SBox) : (setSbox s l b).draws = s.draws := rfl
@[simp] theorem setSbox_cycles (l : Nat) (b : SBox) : (setSbox s l b).cycles = s.cycles := rfl
@[simp] theorem setSbox_up (l : Nat) (b : SBox) : (setSbox s l b).up = s.up := rfl
@[simp] theorem setSbox_coach (l : Nat) (b : SBox) : (setSbox s l b).coach = s.coach := rfl
@[simp] theorem setSbox_fast (l : Nat) (b : SBox) : (setSbox s l b).fast = s.fast := rfl
@[simp] theorem setSbox_fastOn (l : Nat) (b : SBox) : (setSbox s l b).fastOn = s.fastOn := rfl
@[simp] theorem setSbox_fastPend (l : Nat) (b : SBox) : (setSbox s l b).fastPend = s.fastPend := rfl
@[simp] theorem setSbox_queue (l : Nat) (b : SBox) : (setSbox s l b).queue = s.queue := rfl
@[simp] theorem setSbox_run0 (l : Nat) (b : SBox) : (setSbox s l b).run0 = s.run0 := rfl
@[simp] theorem setSbox_run1 (l : Nat) (b : SBox) : (setSbox s l b).run1 = s.run1 := rfl
@[simp] theorem setSbox_run2 (l : Nat) (b : SBox) : (setSbox s l b).run2 = s.run2 := rfl
@[simp] theorem setSbox_gaps (l : Nat) (b : SBox) : (setSbox s l b).gaps = s.gaps := rfl
@[simp] theorem setSbox_div (l : Nat) (b : SBox) : (setSbox s l b).div = s.div := rfl
@[simp] theorem setSbox_cons (l : Nat) (b : SBox) : (setSbox s l b).cons = s.cons := rfl
@[simp] theorem setSbox_order (l : Nat) (b : SBox) : (setSbox s l b).order = s.order := rfl
@[simp] theorem setSbox_sbOrder (l : Nat) (b : SBox) : (setSbox s l b).sbOrder = s.sbOrder := rfl
@[simp] theorem setSbox_l0cnt (l : Nat) (b : SBox) : (setSbox s l b).l0cnt = s.l0cnt := rfl
@[simp] theorem setSbox_src (l : Nat) (b : SBox) : (setSbox s l b).src = s.src := rfl
@[simp] theorem setSbox_bank (l : Nat) (b : SBox) : (setSbox s l b).bank = s.bank := rfl
@[simp] theorem setSbox_lnc (l : Nat) (b : SBox) : (setSbox s l b).lnc = s.lnc := rfl
@[simp] theorem setSbox_mls (l : Nat) (b : SBox) : (setSbox s l b).mls = s.mls := rfl
@[simp] theorem setSbox_fli (l : Nat) (b : SBox) : (setSbox s l b).fli = s.fli := rfl
@[simp] theorem setSbox_bne (l : Nat) (b : SBox) : (setSbox s l b).bne = s.bne := rfl
@[simp] theorem setSbox_stl (l : Nat) (b : SBox) : (setSbox s l b).stl = s.stl := rfl
@[simp] theorem setSbox_mcs (l : Nat) (b : SBox) : (setSbox s l b).mcs = s.mcs := rfl
@[simp] theorem setSbox_hpt (l : Nat) (b : SBox) : (setSbox s l b).hpt = s.hpt := rfl
@[simp] theorem setSbox_pwr (l : Nat) (b : SBox) : (setSbox s l b).pwr = s.pwr := rfl
@[simp] theorem setSbox_icache (l : Nat) (b : SBox) : (setSbox s l b).icache = s.icache := rfl
@[simp] theorem setSbox_mtr (l : Nat) (b : SBox) : (setSbox s l b).mtr = s.mtr := rfl
@[simp] theorem setSbox_mret (l : Nat) (b : SBox) : (setSbox s l b).mret = s.mret := rfl
@[simp] theorem setSbox_moves (l : Nat) (b : SBox) : (setSbox s l b).moves = s.moves := rfl
@[simp] theorem setSbox_lateAcc (l : Nat) (b : SBox) : (setSbox s l b).lateAcc = s.lateAcc := rfl

/-! ### setDiv -/

@[simp] theorem setDiv_pending (l : Nat) (d : Option Divider) : (setDiv s l d).pending = s.pending := rfl
@[simp] theorem setDiv_mem (l : Nat) (d : Option Divider) : (setDiv s l d).mem = s.mem := rfl
@[simp] theorem setDiv_ecc (l : Nat) (d : Option Divider) : (setDiv s l d).ecc = s.ecc := rfl
@[simp] theorem setDiv_csr (l : Nat) (d : Option Divider) : (setDiv s l d).csr = s.csr := rfl
@[simp] theorem setDiv_bus (l : Nat) (d : Option Divider) : (setDiv s l d).bus = s.bus := rfl
@[simp] theorem setDiv_draws (l : Nat) (d : Option Divider) : (setDiv s l d).draws = s.draws := rfl
@[simp] theorem setDiv_cycles (l : Nat) (d : Option Divider) : (setDiv s l d).cycles = s.cycles := rfl
@[simp] theorem setDiv_up (l : Nat) (d : Option Divider) : (setDiv s l d).up = s.up := rfl
@[simp] theorem setDiv_coach (l : Nat) (d : Option Divider) : (setDiv s l d).coach = s.coach := rfl
@[simp] theorem setDiv_fast (l : Nat) (d : Option Divider) : (setDiv s l d).fast = s.fast := rfl
@[simp] theorem setDiv_fastOn (l : Nat) (d : Option Divider) : (setDiv s l d).fastOn = s.fastOn := rfl
@[simp] theorem setDiv_fastPend (l : Nat) (d : Option Divider) : (setDiv s l d).fastPend = s.fastPend := rfl
@[simp] theorem setDiv_queue (l : Nat) (d : Option Divider) : (setDiv s l d).queue = s.queue := rfl
@[simp] theorem setDiv_run0 (l : Nat) (d : Option Divider) : (setDiv s l d).run0 = s.run0 := rfl
@[simp] theorem setDiv_run1 (l : Nat) (d : Option Divider) : (setDiv s l d).run1 = s.run1 := rfl
@[simp] theorem setDiv_run2 (l : Nat) (d : Option Divider) : (setDiv s l d).run2 = s.run2 := rfl
@[simp] theorem setDiv_gaps (l : Nat) (d : Option Divider) : (setDiv s l d).gaps = s.gaps := rfl
@[simp] theorem setDiv_cons (l : Nat) (d : Option Divider) : (setDiv s l d).cons = s.cons := rfl
@[simp] theorem setDiv_order (l : Nat) (d : Option Divider) : (setDiv s l d).order = s.order := rfl
@[simp] theorem setDiv_sbox (l : Nat) (d : Option Divider) : (setDiv s l d).sbox = s.sbox := rfl
@[simp] theorem setDiv_sbOrder (l : Nat) (d : Option Divider) : (setDiv s l d).sbOrder = s.sbOrder := rfl
@[simp] theorem setDiv_l0cnt (l : Nat) (d : Option Divider) : (setDiv s l d).l0cnt = s.l0cnt := rfl
@[simp] theorem setDiv_src (l : Nat) (d : Option Divider) : (setDiv s l d).src = s.src := rfl
@[simp] theorem setDiv_bank (l : Nat) (d : Option Divider) : (setDiv s l d).bank = s.bank := rfl
@[simp] theorem setDiv_lnc (l : Nat) (d : Option Divider) : (setDiv s l d).lnc = s.lnc := rfl
@[simp] theorem setDiv_mls (l : Nat) (d : Option Divider) : (setDiv s l d).mls = s.mls := rfl
@[simp] theorem setDiv_fli (l : Nat) (d : Option Divider) : (setDiv s l d).fli = s.fli := rfl
@[simp] theorem setDiv_bne (l : Nat) (d : Option Divider) : (setDiv s l d).bne = s.bne := rfl
@[simp] theorem setDiv_stl (l : Nat) (d : Option Divider) : (setDiv s l d).stl = s.stl := rfl
@[simp] theorem setDiv_mcs (l : Nat) (d : Option Divider) : (setDiv s l d).mcs = s.mcs := rfl
@[simp] theorem setDiv_hpt (l : Nat) (d : Option Divider) : (setDiv s l d).hpt = s.hpt := rfl
@[simp] theorem setDiv_pwr (l : Nat) (d : Option Divider) : (setDiv s l d).pwr = s.pwr := rfl
@[simp] theorem setDiv_icache (l : Nat) (d : Option Divider) : (setDiv s l d).icache = s.icache := rfl
@[simp] theorem setDiv_mtr (l : Nat) (d : Option Divider) : (setDiv s l d).mtr = s.mtr := rfl
@[simp] theorem setDiv_mret (l : Nat) (d : Option Divider) : (setDiv s l d).mret = s.mret := rfl
@[simp] theorem setDiv_moves (l : Nat) (d : Option Divider) : (setDiv s l d).moves = s.moves := rfl
@[simp] theorem setDiv_lateAcc (l : Nat) (d : Option Divider) : (setDiv s l d).lateAcc = s.lateAcc := rfl

/-! ### setGap -/

@[simp] theorem setGap_pending (l : Nat) (b : Bool) : (setGap s l b).pending = s.pending := rfl
@[simp] theorem setGap_mem (l : Nat) (b : Bool) : (setGap s l b).mem = s.mem := rfl
@[simp] theorem setGap_ecc (l : Nat) (b : Bool) : (setGap s l b).ecc = s.ecc := rfl
@[simp] theorem setGap_csr (l : Nat) (b : Bool) : (setGap s l b).csr = s.csr := rfl
@[simp] theorem setGap_bus (l : Nat) (b : Bool) : (setGap s l b).bus = s.bus := rfl
@[simp] theorem setGap_draws (l : Nat) (b : Bool) : (setGap s l b).draws = s.draws := rfl
@[simp] theorem setGap_cycles (l : Nat) (b : Bool) : (setGap s l b).cycles = s.cycles := rfl
@[simp] theorem setGap_up (l : Nat) (b : Bool) : (setGap s l b).up = s.up := rfl
@[simp] theorem setGap_coach (l : Nat) (b : Bool) : (setGap s l b).coach = s.coach := rfl
@[simp] theorem setGap_fast (l : Nat) (b : Bool) : (setGap s l b).fast = s.fast := rfl
@[simp] theorem setGap_fastOn (l : Nat) (b : Bool) : (setGap s l b).fastOn = s.fastOn := rfl
@[simp] theorem setGap_fastPend (l : Nat) (b : Bool) : (setGap s l b).fastPend = s.fastPend := rfl
@[simp] theorem setGap_queue (l : Nat) (b : Bool) : (setGap s l b).queue = s.queue := rfl
@[simp] theorem setGap_run0 (l : Nat) (b : Bool) : (setGap s l b).run0 = s.run0 := rfl
@[simp] theorem setGap_run1 (l : Nat) (b : Bool) : (setGap s l b).run1 = s.run1 := rfl
@[simp] theorem setGap_run2 (l : Nat) (b : Bool) : (setGap s l b).run2 = s.run2 := rfl
@[simp] theorem setGap_div (l : Nat) (b : Bool) : (setGap s l b).div = s.div := rfl
@[simp] theorem setGap_cons (l : Nat) (b : Bool) : (setGap s l b).cons = s.cons := rfl
@[simp] theorem setGap_order (l : Nat) (b : Bool) : (setGap s l b).order = s.order := rfl
@[simp] theorem setGap_sbox (l : Nat) (b : Bool) : (setGap s l b).sbox = s.sbox := rfl
@[simp] theorem setGap_sbOrder (l : Nat) (b : Bool) : (setGap s l b).sbOrder = s.sbOrder := rfl
@[simp] theorem setGap_l0cnt (l : Nat) (b : Bool) : (setGap s l b).l0cnt = s.l0cnt := rfl
@[simp] theorem setGap_src (l : Nat) (b : Bool) : (setGap s l b).src = s.src := rfl
@[simp] theorem setGap_bank (l : Nat) (b : Bool) : (setGap s l b).bank = s.bank := rfl
@[simp] theorem setGap_lnc (l : Nat) (b : Bool) : (setGap s l b).lnc = s.lnc := rfl
@[simp] theorem setGap_mls (l : Nat) (b : Bool) : (setGap s l b).mls = s.mls := rfl
@[simp] theorem setGap_fli (l : Nat) (b : Bool) : (setGap s l b).fli = s.fli := rfl
@[simp] theorem setGap_bne (l : Nat) (b : Bool) : (setGap s l b).bne = s.bne := rfl
@[simp] theorem setGap_stl (l : Nat) (b : Bool) : (setGap s l b).stl = s.stl := rfl
@[simp] theorem setGap_mcs (l : Nat) (b : Bool) : (setGap s l b).mcs = s.mcs := rfl
@[simp] theorem setGap_hpt (l : Nat) (b : Bool) : (setGap s l b).hpt = s.hpt := rfl
@[simp] theorem setGap_pwr (l : Nat) (b : Bool) : (setGap s l b).pwr = s.pwr := rfl
@[simp] theorem setGap_icache (l : Nat) (b : Bool) : (setGap s l b).icache = s.icache := rfl
@[simp] theorem setGap_mtr (l : Nat) (b : Bool) : (setGap s l b).mtr = s.mtr := rfl
@[simp] theorem setGap_mret (l : Nat) (b : Bool) : (setGap s l b).mret = s.mret := rfl
@[simp] theorem setGap_moves (l : Nat) (b : Bool) : (setGap s l b).moves = s.moves := rfl
@[simp] theorem setGap_lateAcc (l : Nat) (b : Bool) : (setGap s l b).lateAcc = s.lateAcc := rfl

/-! ### modMls -/

@[simp] theorem modMls_pending (f : Mls → Mls) : (modMls s f).pending = s.pending := rfl
@[simp] theorem modMls_mem (f : Mls → Mls) : (modMls s f).mem = s.mem := rfl
@[simp] theorem modMls_ecc (f : Mls → Mls) : (modMls s f).ecc = s.ecc := rfl
@[simp] theorem modMls_csr (f : Mls → Mls) : (modMls s f).csr = s.csr := rfl
@[simp] theorem modMls_bus (f : Mls → Mls) : (modMls s f).bus = s.bus := rfl
@[simp] theorem modMls_draws (f : Mls → Mls) : (modMls s f).draws = s.draws := rfl
@[simp] theorem modMls_cycles (f : Mls → Mls) : (modMls s f).cycles = s.cycles := rfl
@[simp] theorem modMls_up (f : Mls → Mls) : (modMls s f).up = s.up := rfl
@[simp] theorem modMls_coach (f : Mls → Mls) : (modMls s f).coach = s.coach := rfl
@[simp] theorem modMls_fast (f : Mls → Mls) : (modMls s f).fast = s.fast := rfl
@[simp] theorem modMls_fastOn (f : Mls → Mls) : (modMls s f).fastOn = s.fastOn := rfl
@[simp] theorem modMls_fastPend (f : Mls → Mls) : (modMls s f).fastPend = s.fastPend := rfl
@[simp] theorem modMls_queue (f : Mls → Mls) : (modMls s f).queue = s.queue := rfl
@[simp] theorem modMls_run0 (f : Mls → Mls) : (modMls s f).run0 = s.run0 := rfl
@[simp] theorem modMls_run1 (f : Mls → Mls) : (modMls s f).run1 = s.run1 := rfl
@[simp] theorem modMls_run2 (f : Mls → Mls) : (modMls s f).run2 = s.run2 := rfl
@[simp] theorem modMls_gaps (f : Mls → Mls) : (modMls s f).gaps = s.gaps := rfl
@[simp] theorem modMls_div (f : Mls → Mls) : (modMls s f).div = s.div := rfl
@[simp] theorem modMls_cons (f : Mls → Mls) : (modMls s f).cons = s.cons := rfl
@[simp] theorem modMls_order (f : Mls → Mls) : (modMls s f).order = s.order := rfl
@[simp] theorem modMls_sbox (f : Mls → Mls) : (modMls s f).sbox = s.sbox := rfl
@[simp] theorem modMls_sbOrder (f : Mls → Mls) : (modMls s f).sbOrder = s.sbOrder := rfl
@[simp] theorem modMls_l0cnt (f : Mls → Mls) : (modMls s f).l0cnt = s.l0cnt := rfl
@[simp] theorem modMls_src (f : Mls → Mls) : (modMls s f).src = s.src := rfl
@[simp] theorem modMls_bank (f : Mls → Mls) : (modMls s f).bank = s.bank := rfl
@[simp] theorem modMls_lnc (f : Mls → Mls) : (modMls s f).lnc = s.lnc := rfl
@[simp] theorem modMls_fli (f : Mls → Mls) : (modMls s f).fli = s.fli := rfl
@[simp] theorem modMls_bne (f : Mls → Mls) : (modMls s f).bne = s.bne := rfl
@[simp] theorem modMls_stl (f : Mls → Mls) : (modMls s f).stl = s.stl := rfl
@[simp] theorem modMls_mcs (f : Mls → Mls) : (modMls s f).mcs = s.mcs := rfl
@[simp] theorem modMls_hpt (f : Mls → Mls) : (modMls s f).hpt = s.hpt := rfl
@[simp] theorem modMls_pwr (f : Mls → Mls) : (modMls s f).pwr = s.pwr := rfl
@[simp] theorem modMls_icache (f : Mls → Mls) : (modMls s f).icache = s.icache := rfl
@[simp] theorem modMls_mtr (f : Mls → Mls) : (modMls s f).mtr = s.mtr := rfl
@[simp] theorem modMls_mret (f : Mls → Mls) : (modMls s f).mret = s.mret := rfl
@[simp] theorem modMls_moves (f : Mls → Mls) : (modMls s f).moves = s.moves := rfl
@[simp] theorem modMls_lateAcc (f : Mls → Mls) : (modMls s f).lateAcc = s.lateAcc := rfl

/-! ### modFli -/

@[simp] theorem modFli_pending (f : Fli → Fli) : (modFli s f).pending = s.pending := rfl
@[simp] theorem modFli_mem (f : Fli → Fli) : (modFli s f).mem = s.mem := rfl
@[simp] theorem modFli_ecc (f : Fli → Fli) : (modFli s f).ecc = s.ecc := rfl
@[simp] theorem modFli_csr (f : Fli → Fli) : (modFli s f).csr = s.csr := rfl
@[simp] theorem modFli_bus (f : Fli → Fli) : (modFli s f).bus = s.bus := rfl
@[simp] theorem modFli_draws (f : Fli → Fli) : (modFli s f).draws = s.draws := rfl
@[simp] theorem modFli_cycles (f : Fli → Fli) : (modFli s f).cycles = s.cycles := rfl
@[simp] theorem modFli_up (f : Fli → Fli) : (modFli s f).up = s.up := rfl
@[simp] theorem modFli_coach (f : Fli → Fli) : (modFli s f).coach = s.coach := rfl
@[simp] theorem modFli_fast (f : Fli → Fli) : (modFli s f).fast = s.fast := rfl
@[simp] theorem modFli_fastOn (f : Fli → Fli) : (modFli s f).fastOn = s.fastOn := rfl
@[simp] theorem modFli_fastPend (f : Fli → Fli) : (modFli s f).fastPend = s.fastPend := rfl
@[simp] theorem modFli_queue (f : Fli → Fli) : (modFli s f).queue = s.queue := rfl
@[simp] theorem modFli_run0 (f : Fli → Fli) : (modFli s f).run0 = s.run0 := rfl
@[simp] theorem modFli_run1 (f : Fli → Fli) : (modFli s f).run1 = s.run1 := rfl
@[simp] theorem modFli_run2 (f : Fli → Fli) : (modFli s f).run2 = s.run2 := rfl
@[simp] theorem modFli_gaps (f : Fli → Fli) : (modFli s f).gaps = s.gaps := rfl
@[simp] theorem modFli_div (f : Fli → Fli) : (modFli s f).div = s.div := rfl
@[simp] theorem modFli_cons (f : Fli → Fli) : (modFli s f).cons = s.cons := rfl
@[simp] theorem modFli_order (f : Fli → Fli) : (modFli s f).order = s.order := rfl
@[simp] theorem modFli_sbox (f : Fli → Fli) : (modFli s f).sbox = s.sbox := rfl
@[simp] theorem modFli_sbOrder (f : Fli → Fli) : (modFli s f).sbOrder = s.sbOrder := rfl
@[simp] theorem modFli_l0cnt (f : Fli → Fli) : (modFli s f).l0cnt = s.l0cnt := rfl
@[simp] theorem modFli_src (f : Fli → Fli) : (modFli s f).src = s.src := rfl
@[simp] theorem modFli_bank (f : Fli → Fli) : (modFli s f).bank = s.bank := rfl
@[simp] theorem modFli_lnc (f : Fli → Fli) : (modFli s f).lnc = s.lnc := rfl
@[simp] theorem modFli_mls (f : Fli → Fli) : (modFli s f).mls = s.mls := rfl
@[simp] theorem modFli_bne (f : Fli → Fli) : (modFli s f).bne = s.bne := rfl
@[simp] theorem modFli_stl (f : Fli → Fli) : (modFli s f).stl = s.stl := rfl
@[simp] theorem modFli_mcs (f : Fli → Fli) : (modFli s f).mcs = s.mcs := rfl
@[simp] theorem modFli_hpt (f : Fli → Fli) : (modFli s f).hpt = s.hpt := rfl
@[simp] theorem modFli_pwr (f : Fli → Fli) : (modFli s f).pwr = s.pwr := rfl
@[simp] theorem modFli_icache (f : Fli → Fli) : (modFli s f).icache = s.icache := rfl
@[simp] theorem modFli_mtr (f : Fli → Fli) : (modFli s f).mtr = s.mtr := rfl
@[simp] theorem modFli_mret (f : Fli → Fli) : (modFli s f).mret = s.mret := rfl
@[simp] theorem modFli_moves (f : Fli → Fli) : (modFli s f).moves = s.moves := rfl
@[simp] theorem modFli_lateAcc (f : Fli → Fli) : (modFli s f).lateAcc = s.lateAcc := rfl

/-! ### modBne -/

@[simp] theorem modBne_pending (f : Bne → Bne) : (modBne s f).pending = s.pending := rfl
@[simp] theorem modBne_mem (f : Bne → Bne) : (modBne s f).mem = s.mem := rfl
@[simp] theorem modBne_ecc (f : Bne → Bne) : (modBne s f).ecc = s.ecc := rfl
@[simp] theorem modBne_csr (f : Bne → Bne) : (modBne s f).csr = s.csr := rfl
@[simp] theorem modBne_bus (f : Bne → Bne) : (modBne s f).bus = s.bus := rfl
@[simp] theorem modBne_draws (f : Bne → Bne) : (modBne s f).draws = s.draws := rfl
@[simp] theorem modBne_cycles (f : Bne → Bne) : (modBne s f).cycles = s.cycles := rfl
@[simp] theorem modBne_up (f : Bne → Bne) : (modBne s f).up = s.up := rfl
@[simp] theorem modBne_coach (f : Bne → Bne) : (modBne s f).coach = s.coach := rfl
@[simp] theorem modBne_fast (f : Bne → Bne) : (modBne s f).fast = s.fast := rfl
@[simp] theorem modBne_fastOn (f : Bne → Bne) : (modBne s f).fastOn = s.fastOn := rfl
@[simp] theorem modBne_fastPend (f : Bne → Bne) : (modBne s f).fastPend = s.fastPend := rfl
@[simp] theorem modBne_queue (f : Bne → Bne) : (modBne s f).queue = s.queue := rfl
@[simp] theorem modBne_run0 (f : Bne → Bne) : (modBne s f).run0 = s.run0 := rfl
@[simp] theorem modBne_run1 (f : Bne → Bne) : (modBne s f).run1 = s.run1 := rfl
@[simp] theorem modBne_run2 (f : Bne → Bne) : (modBne s f).run2 = s.run2 := rfl
@[simp] theorem modBne_gaps (f : Bne → Bne) : (modBne s f).gaps = s.gaps := rfl
@[simp] theorem modBne_div (f : Bne → Bne) : (modBne s f).div = s.div := rfl
@[simp] theorem modBne_cons (f : Bne → Bne) : (modBne s f).cons = s.cons := rfl
@[simp] theorem modBne_order (f : Bne → Bne) : (modBne s f).order = s.order := rfl
@[simp] theorem modBne_sbox (f : Bne → Bne) : (modBne s f).sbox = s.sbox := rfl
@[simp] theorem modBne_sbOrder (f : Bne → Bne) : (modBne s f).sbOrder = s.sbOrder := rfl
@[simp] theorem modBne_l0cnt (f : Bne → Bne) : (modBne s f).l0cnt = s.l0cnt := rfl
@[simp] theorem modBne_src (f : Bne → Bne) : (modBne s f).src = s.src := rfl
@[simp] theorem modBne_bank (f : Bne → Bne) : (modBne s f).bank = s.bank := rfl
@[simp] theorem modBne_lnc (f : Bne → Bne) : (modBne s f).lnc = s.lnc := rfl
@[simp] theorem modBne_mls (f : Bne → Bne) : (modBne s f).mls = s.mls := rfl
@[simp] theorem modBne_fli (f : Bne → Bne) : (modBne s f).fli = s.fli := rfl
@[simp] theorem modBne_stl (f : Bne → Bne) : (modBne s f).stl = s.stl := rfl
@[simp] theorem modBne_mcs (f : Bne → Bne) : (modBne s f).mcs = s.mcs := rfl
@[simp] theorem modBne_hpt (f : Bne → Bne) : (modBne s f).hpt = s.hpt := rfl
@[simp] theorem modBne_pwr (f : Bne → Bne) : (modBne s f).pwr = s.pwr := rfl
@[simp] theorem modBne_icache (f : Bne → Bne) : (modBne s f).icache = s.icache := rfl
@[simp] theorem modBne_mtr (f : Bne → Bne) : (modBne s f).mtr = s.mtr := rfl
@[simp] theorem modBne_mret (f : Bne → Bne) : (modBne s f).mret = s.mret := rfl
@[simp] theorem modBne_moves (f : Bne → Bne) : (modBne s f).moves = s.moves := rfl
@[simp] theorem modBne_lateAcc (f : Bne → Bne) : (modBne s f).lateAcc = s.lateAcc := rfl

/-! ### modMcs -/

@[simp] theorem modMcs_pending (f : Mcs → Mcs) : (modMcs s f).pending = s.pending := rfl
@[simp] theorem modMcs_mem (f : Mcs → Mcs) : (modMcs s f).mem = s.mem := rfl
@[simp] theorem modMcs_ecc (f : Mcs → Mcs) : (modMcs s f).ecc = s.ecc := rfl
@[simp] theorem modMcs_csr (f : Mcs → Mcs) : (modMcs s f).csr = s.csr := rfl
@[simp] theorem modMcs_bus (f : Mcs → Mcs) : (modMcs s f).bus = s.bus := rfl
@[simp] theorem modMcs_draws (f : Mcs → Mcs) : (modMcs s f).draws = s.draws := rfl
@[simp] theorem modMcs_cycles (f : Mcs → Mcs) : (modMcs s f).cycles = s.cycles := rfl
@[simp] theorem modMcs_up (f : Mcs → Mcs) : (modMcs s f).up = s.up := rfl
@[simp] theorem modMcs_coach (f : Mcs → Mcs) : (modMcs s f).coach = s.coach := rfl
@[simp] theorem modMcs_fast (f : Mcs → Mcs) : (modMcs s f).fast = s.fast := rfl
@[simp] theorem modMcs_fastOn (f : Mcs → Mcs) : (modMcs s f).fastOn = s.fastOn := rfl
@[simp] theorem modMcs_fastPend (f : Mcs → Mcs) : (modMcs s f).fastPend = s.fastPend := rfl
@[simp] theorem modMcs_queue (f : Mcs → Mcs) : (modMcs s f).queue = s.queue := rfl
@[simp] theorem modMcs_run0 (f : Mcs → Mcs) : (modMcs s f).run0 = s.run0 := rfl
@[simp] theorem modMcs_run1 (f : Mcs → Mcs) : (modMcs s f).run1 = s.run1 := rfl
@[simp] theorem modMcs_run2 (f : Mcs → Mcs) : (modMcs s f).run2 = s.run2 := rfl
@[simp] theorem modMcs_gaps (f : Mcs → Mcs) : (modMcs s f).gaps = s.gaps := rfl
@[simp] theorem modMcs_div (f : Mcs → Mcs) : (modMcs s f).div = s.div := rfl
@[simp] theorem modMcs_cons (f : Mcs → Mcs) : (modMcs s f).cons = s.cons := rfl
@[simp] theorem modMcs_order (f : Mcs → Mcs) : (modMcs s f).order = s.order := rfl
@[simp] theorem modMcs_sbox (f : Mcs → Mcs) : (modMcs s f).sbox = s.sbox := rfl
@[simp] theorem modMcs_sbOrder (f : Mcs → Mcs) : (modMcs s f).sbOrder = s.sbOrder := rfl
@[simp] theorem modMcs_l0cnt (f : Mcs → Mcs) : (modMcs s f).l0cnt = s.l0cnt := rfl
@[simp] theorem modMcs_src (f : Mcs → Mcs) : (modMcs s f).src = s.src := rfl
@[simp] theorem modMcs_bank (f : Mcs → Mcs) : (modMcs s f).bank = s.bank := rfl
@[simp] theorem modMcs_lnc (f : Mcs → Mcs) : (modMcs s f).lnc = s.lnc := rfl
@[simp] theorem modMcs_mls (f : Mcs → Mcs) : (modMcs s f).mls = s.mls := rfl
@[simp] theorem modMcs_fli (f : Mcs → Mcs) : (modMcs s f).fli = s.fli := rfl
@[simp] theorem modMcs_bne (f : Mcs → Mcs) : (modMcs s f).bne = s.bne := rfl
@[simp] theorem modMcs_stl (f : Mcs → Mcs) : (modMcs s f).stl = s.stl := rfl
@[simp] theorem modMcs_hpt (f : Mcs → Mcs) : (modMcs s f).hpt = s.hpt := rfl
@[simp] theorem modMcs_pwr (f : Mcs → Mcs) : (modMcs s f).pwr = s.pwr := rfl
@[simp] theorem modMcs_icache (f : Mcs → Mcs) : (modMcs s f).icache = s.icache := rfl
@[simp] theorem modMcs_mtr (f : Mcs → Mcs) : (modMcs s f).mtr = s.mtr := rfl
@[simp] theorem modMcs_mret (f : Mcs → Mcs) : (modMcs s f).mret = s.mret := rfl
@[simp] theorem modMcs_moves (f : Mcs → Mcs) : (modMcs s f).moves = s.moves := rfl
@[simp] theorem modMcs_lateAcc (f : Mcs → Mcs) : (modMcs s f).lateAcc = s.lateAcc := rfl

/-! ### modHpt -/

@[simp] theorem modHpt_pending (f : Hpt → Hpt) : (modHpt s f).pending = s.pending := rfl
@[simp] theorem modHpt_mem (f : Hpt → Hpt) : (modHpt s f).mem = s.mem := rfl
@[simp] theorem modHpt_ecc (f : Hpt → Hpt) : (modHpt s f).ecc = s.ecc := rfl
@[simp] theorem modHpt_csr (f : Hpt → Hpt) : (modHpt s f).csr = s.csr := rfl
@[simp] theorem modHpt_bus (f : Hpt → Hpt) : (modHpt s f).bus = s.bus := rfl
@[simp] theorem modHpt_draws (f : Hpt → Hpt) : (modHpt s f).draws = s.draws := rfl
@[simp] theorem modHpt_cycles (f : Hpt → Hpt) : (modHpt s f).cycles = s.cycles := rfl
@[simp] theorem modHpt_up (f : Hpt → Hpt) : (modHpt s f).up = s.up := rfl
@[simp] theorem modHpt_coach (f : Hpt → Hpt) : (modHpt s f).coach = s.coach := rfl
@[simp] theorem modHpt_fast (f : Hpt → Hpt) : (modHpt s f).fast = s.fast := rfl
@[simp] theorem modHpt_fastOn (f : Hpt → Hpt) : (modHpt s f).fastOn = s.fastOn := rfl
@[simp] theorem modHpt_fastPend (f : Hpt → Hpt) : (modHpt s f).fastPend = s.fastPend := rfl
@[simp] theorem modHpt_queue (f : Hpt → Hpt) : (modHpt s f).queue = s.queue := rfl
@[simp] theorem modHpt_run0 (f : Hpt → Hpt) : (modHpt s f).run0 = s.run0 := rfl
@[simp] theorem modHpt_run1 (f : Hpt → Hpt) : (modHpt s f).run1 = s.run1 := rfl
@[simp] theorem modHpt_run2 (f : Hpt → Hpt) : (modHpt s f).run2 = s.run2 := rfl
@[simp] theorem modHpt_gaps (f : Hpt → Hpt) : (modHpt s f).gaps = s.gaps := rfl
@[simp] theorem modHpt_div (f : Hpt → Hpt) : (modHpt s f).div = s.div := rfl
@[simp] theorem modHpt_cons (f : Hpt → Hpt) : (modHpt s f).cons = s.cons := rfl
@[simp] theorem modHpt_order (f : Hpt → Hpt) : (modHpt s f).order = s.order := rfl
@[simp] theorem modHpt_sbox (f : Hpt → Hpt) : (modHpt s f).sbox = s.sbox := rfl
@[simp] theorem modHpt_sbOrder (f : Hpt → Hpt) : (modHpt s f).sbOrder = s.sbOrder := rfl
@[simp] theorem modHpt_l0cnt (f : Hpt → Hpt) : (modHpt s f).l0cnt = s.l0cnt := rfl
@[simp] theorem modHpt_src (f : Hpt → Hpt) : (modHpt s f).src = s.src := rfl
@[simp] theorem modHpt_bank (f : Hpt → Hpt) : (modHpt s f).bank = s.bank := rfl
@[simp] theorem modHpt_lnc (f : Hpt → Hpt) : (modHpt s f).lnc = s.lnc := rfl
@[simp] theorem modHpt_mls (f : Hpt → Hpt) : (modHpt s f).mls = s.mls := rfl
@[simp] theorem modHpt_fli (f : Hpt → Hpt) : (modHpt s f).fli = s.fli := rfl
@[simp] theorem modHpt_bne (f : Hpt → Hpt) : (modHpt s f).bne = s.bne := rfl
@[simp] theorem modHpt_stl (f : Hpt → Hpt) : (modHpt s f).stl = s.stl := rfl
@[simp] theorem modHpt_mcs (f : Hpt → Hpt) : (modHpt s f).mcs = s.mcs := rfl
@[simp] theorem modHpt_pwr (f : Hpt → Hpt) : (modHpt s f).pwr = s.pwr := rfl
@[simp] theorem modHpt_icache (f : Hpt → Hpt) : (modHpt s f).icache = s.icache := rfl
@[simp] theorem modHpt_mtr (f : Hpt → Hpt) : (modHpt s f).mtr = s.mtr := rfl
@[simp] theorem modHpt_mret (f : Hpt → Hpt) : (modHpt s f).mret = s.mret := rfl
@[simp] theorem modHpt_moves (f : Hpt → Hpt) : (modHpt s f).moves = s.moves := rfl
@[simp] theorem modHpt_lateAcc (f : Hpt → Hpt) : (modHpt s f).lateAcc = s.lateAcc := rfl

/-! ### modPwr -/

@[simp] theorem modPwr_pending (f : Pwr → Pwr) : (modPwr s f).pending = s.pending := rfl
@[simp] theorem modPwr_mem (f : Pwr → Pwr) : (modPwr s f).mem = s.mem := rfl
@[simp] theorem modPwr_ecc (f : Pwr → Pwr) : (modPwr s f).ecc = s.ecc := rfl
@[simp] theorem modPwr_csr (f : Pwr → Pwr) : (modPwr s f).csr = s.csr := rfl
@[simp] theorem modPwr_bus (f : Pwr → Pwr) : (modPwr s f).bus = s.bus := rfl
@[simp] theorem modPwr_draws (f : Pwr → Pwr) : (modPwr s f).draws = s.draws := rfl
@[simp] theorem modPwr_cycles (f : Pwr → Pwr) : (modPwr s f).cycles = s.cycles := rfl
@[simp] theorem modPwr_up (f : Pwr → Pwr) : (modPwr s f).up = s.up := rfl
@[simp] theorem modPwr_coach (f : Pwr → Pwr) : (modPwr s f).coach = s.coach := rfl
@[simp] theorem modPwr_fast (f : Pwr → Pwr) : (modPwr s f).fast = s.fast := rfl
@[simp] theorem modPwr_fastOn (f : Pwr → Pwr) : (modPwr s f).fastOn = s.fastOn := rfl
@[simp] theorem modPwr_fastPend (f : Pwr → Pwr) : (modPwr s f).fastPend = s.fastPend := rfl
@[simp] theorem modPwr_queue (f : Pwr → Pwr) : (modPwr s f).queue = s.queue := rfl
@[simp] theorem modPwr_run0 (f : Pwr → Pwr) : (modPwr s f).run0 = s.run0 := rfl
@[simp] theorem modPwr_run1 (f : Pwr → Pwr) : (modPwr s f).run1 = s.run1 := rfl
@[simp] theorem modPwr_run2 (f : Pwr → Pwr) : (modPwr s f).run2 = s.run2 := rfl
@[simp] theorem modPwr_gaps (f : Pwr → Pwr) : (modPwr s f).gaps = s.gaps := rfl
@[simp] theorem modPwr_div (f : Pwr → Pwr) : (modPwr s f).div = s.div := rfl
@[simp] theorem modPwr_cons (f : Pwr → Pwr) : (modPwr s f).cons = s.cons := rfl
@[simp] theorem modPwr_order (f : Pwr → Pwr) : (modPwr s f).order = s.order := rfl
@[simp] theorem modPwr_sbox (f : Pwr → Pwr) : (modPwr s f).sbox = s.sbox := rfl
@[simp] theorem modPwr_sbOrder (f : Pwr → Pwr) : (modPwr s f).sbOrder = s.sbOrder := rfl
@[simp] theorem modPwr_l0cnt (f : Pwr → Pwr) : (modPwr s f).l0cnt = s.l0cnt := rfl
@[simp] theorem modPwr_src (f : Pwr → Pwr) : (modPwr s f).src = s.src := rfl
@[simp] theorem modPwr_bank (f : Pwr → Pwr) : (modPwr s f).bank = s.bank := rfl
@[simp] theorem modPwr_lnc (f : Pwr → Pwr) : (modPwr s f).lnc = s.lnc := rfl
@[simp] theorem modPwr_mls (f : Pwr → Pwr) : (modPwr s f).mls = s.mls := rfl
@[simp] theorem modPwr_fli (f : Pwr → Pwr) : (modPwr s f).fli = s.fli := rfl
@[simp] theorem modPwr_bne (f : Pwr → Pwr) : (modPwr s f).bne = s.bne := rfl
@[simp] theorem modPwr_stl (f : Pwr → Pwr) : (modPwr s f).stl = s.stl := rfl
@[simp] theorem modPwr_mcs (f : Pwr → Pwr) : (modPwr s f).mcs = s.mcs := rfl
@[simp] theorem modPwr_hpt (f : Pwr → Pwr) : (modPwr s f).hpt = s.hpt := rfl
@[simp] theorem modPwr_icache (f : Pwr → Pwr) : (modPwr s f).icache = s.icache := rfl
@[simp] theorem modPwr_mtr (f : Pwr → Pwr) : (modPwr s f).mtr = s.mtr := rfl
@[simp] theorem modPwr_mret (f : Pwr → Pwr) : (modPwr s f).mret = s.mret := rfl
@[simp] theorem modPwr_moves (f : Pwr → Pwr) : (modPwr s f).moves = s.moves := rfl
@[simp] theorem modPwr_lateAcc (f : Pwr → Pwr) : (modPwr s f).lateAcc = s.lateAcc := rfl

/-! ### wrB -/

@[simp] theorem wrB_pending (a : Nat) (v : Byte) : (wrB s a v).pending = s.pending := rfl
@[simp] theorem wrB_ecc (a : Nat) (v : Byte) : (wrB s a v).ecc = s.ecc := rfl
@[simp] theorem wrB_csr (a : Nat) (v : Byte) : (wrB s a v).csr = s.csr := rfl
@[simp] theorem wrB_bus (a : Nat) (v : Byte) : (wrB s a v).bus = s.bus := rfl
@[simp] theorem wrB_draws (a : Nat) (v : Byte) : (wrB s a v).draws = s.draws := rfl
@[simp] theorem wrB_cycles (a : Nat) (v : Byte) : (wrB s a v).cycles = s.cycles := rfl
@[simp] theorem wrB_up (a : Nat) (v : Byte) : (wrB s a v).up = s.up := rfl
@[simp] theorem wrB_coach (a : Nat) (v : Byte) : (wrB s a v).coach = s.coach := rfl
@[simp] theorem wrB_fast (a : Nat) (v : Byte) : (wrB s a v).fast = s.fast := rfl
@[simp] theorem wrB_fastOn (a : Nat) (v : Byte) : (wrB s a v).fastOn = s.fastOn := rfl
@[simp] theorem wrB_fastPend (a : Nat) (v : Byte) : (wrB s a v).fastPend = s.fastPend := rfl
@[simp] theorem wrB_queue (a : Nat) (v : Byte) : (wrB s a v).queue = s.queue := rfl
@[simp] theorem wrB_run0 (a : Nat) (v : Byte) : (wrB s a v).run0 = s.run0 := rfl
@[simp] theorem wrB_run1 (a : Nat) (v : Byte) : (wrB s a v).run1 = s.run1 := rfl
@[simp] theorem wrB_run2 (a : Nat) (v : Byte) : (wrB s a v).run2 = s.run2 := rfl
@[simp] theorem wrB_gaps (a : Nat) (v : Byte) : (wrB s a v).gaps = s.gaps := rfl
@[simp] theorem wrB_div (a : Nat) (v : Byte) : (wrB s a v).div = s.div := rfl
@[simp] theorem wrB_cons (a : Nat) (v : Byte) : (wrB s a v).cons = s.cons := rfl
@[simp] theorem wrB_order (a : Nat) (v : Byte) : (wrB s a v).order = s.order := rfl
@[simp] theorem wrB_sbox (a : Nat) (v : Byte) : (wrB s a v).sbox = s.sbox := rfl
@[simp] theorem wrB_sbOrder (a : Nat) (v : Byte) : (wrB s a v).sbOrder = s.sbOrder := rfl
@[simp] theorem wrB_l0cnt (a : Nat) (v : Byte) : (wrB s a v).l0cnt = s.l0cnt := rfl
@[simp] theorem wrB_src (a : Nat) (v : Byte) : (wrB s a v).src = s.src := rfl
@[simp] theorem wrB_bank (a : Nat) (v : Byte) : (wrB s a v).bank = s.bank := rfl
@[simp] theorem wrB_lnc (a : Nat) (v : Byte) : (wrB s a v).lnc = s.lnc := rfl
@[simp] theorem wrB_mls (a : Nat) (v : Byte) : (wrB s a v).mls = s.mls := rfl
@[simp] theorem wrB_fli (a : Nat) (v : Byte) : (wrB s a v).fli = s.fli := rfl
@[simp] theorem wrB_bne (a : Nat) (v : Byte) : (wrB s a v).bne = s.bne := rfl
@[simp] theorem wrB_stl (a : Nat) (v : Byte) : (wrB s a v).stl = s.stl := rfl
@[simp] theorem wrB_mcs (a : Nat) (v : Byte) : (wrB s a v).mcs = s.mcs := rfl
@[simp] theorem wrB_hpt (a : Nat) (v : Byte) : (wrB s a v).hpt = s.hpt := rfl
@[simp] theorem wrB_pwr (a : Nat) (v : Byte) : (wrB s a v).pwr = s.pwr := rfl
@[simp] theorem wrB_icache (a : Nat) (v : Byte) : (wrB s a v).icache = s.icache := rfl
@[simp] theorem wrB_mtr (a : Nat) (v : Byte) : (wrB s a v).mtr = s.mtr := rfl
@[simp] theorem wrB_mret (a : Nat) (v : Byte) : (wrB s a v).mret = s.mret := rfl
@[simp] theorem wrB_moves (a : Nat) (v : Byte) : (wrB s a v).moves = s.moves := rfl
@[simp] theorem wrB_lateAcc (a : Nat) (v : Byte) : (wrB s a v).lateAcc = s.lateAcc := rfl

/-! ### setEcc -/

@[simp] theorem setEcc_pending (a k : Nat) : (setEcc s a k).pending = s.pending := rfl
@[simp] theorem setEcc_mem (a k : Nat) : (setEcc s a k).mem = s.mem := rfl
@[simp] theorem setEcc_csr (a k : Nat) : (setEcc s a k).csr = s.csr := rfl
@[simp] theorem setEcc_bus (a k : Nat) : (setEcc s a k).bus = s.bus := rfl
@[simp] theorem setEcc_draws (a k : Nat) : (setEcc s a k).draws = s.draws := rfl
@[simp] theorem setEcc_cycles (a k : Nat) : (setEcc s a k).cycles = s.cycles := rfl
@[simp] theorem setEcc_up (a k : Nat) : (setEcc s a k).up = s.up := rfl
@[simp] theorem setEcc_coach (a k : Nat) : (setEcc s a k).coach = s.coach := rfl
@[simp] theorem setEcc_fast (a k : Nat) : (setEcc s a k).fast = s.fast := rfl
@[simp] theorem setEcc_fastOn (a k : Nat) : (setEcc s a k).fastOn = s.fastOn := rfl
@[simp] theorem setEcc_fastPend (a k : Nat) : (setEcc s a k).fastPend = s.fastPend := rfl
@[simp] theorem setEcc_queue (a k : Nat) : (setEcc s a k).queue = s.queue := rfl
@[simp] theorem setEcc_run0 (a k : Nat) : (setEcc s a k).run0 = s.run0 := rfl
@[simp] theorem setEcc_run1 (a k : Nat) : (setEcc s a k).run1 = s.run1 := rfl
@[simp] theorem setEcc_run2 (a k : Nat) : (setEcc s a k).run2 = s.run2 := rfl
@[simp] theorem setEcc_gaps (a k : Nat) : (setEcc s a k).gaps = s.gaps := rfl
@[simp] theorem setEcc_div (a k : Nat) : (setEcc s a k).div = s.div := rfl
@[simp] theorem setEcc_cons (a k : Nat) : (setEcc s a k).cons = s.cons := rfl
@[simp] theorem setEcc_order (a k : Nat) : (setEcc s a k).order = s.order := rfl
@[simp] theorem setEcc_sbox (a k : Nat) : (setEcc s a k).sbox = s.sbox := rfl
@[simp] theorem setEcc_sbOrder (a k : Nat) : (setEcc s a k).sbOrder = s.sbOrder := rfl
@[simp] theorem setEcc_l0cnt (a k : Nat) : (setEcc s a k).l0cnt = s.l0cnt := rfl
@[simp] theorem setEcc_src (a k : Nat) : (setEcc s a k).src = s.src := rfl
@[simp] theorem setEcc_bank (a k : Nat) : (setEcc s a k).bank = s.bank := rfl
@[simp] theorem setEcc_lnc (a k : Nat) : (setEcc s a k).lnc = s.lnc := rfl
@[simp] theorem setEcc_mls (a k : Nat) : (setEcc s a k).mls = s.mls := rfl
@[simp] theorem setEcc_fli (a k : Nat) : (setEcc s a k).fli = s.fli := rfl
@[simp] theorem setEcc_bne (a k : Nat) : (setEcc s a k).bne = s.bne := rfl
@[simp] theorem setEcc_stl (a k : Nat) : (setEcc s a k).stl = s.stl := rfl
@[simp] theorem setEcc_mcs (a k : Nat) : (setEcc s a k).mcs = s.mcs := rfl
@[simp] theorem setEcc_hpt (a k : Nat) : (setEcc s a k).hpt = s.hpt := rfl
@[simp] theorem setEcc_pwr (a k : Nat) : (setEcc s a k).pwr = s.pwr := rfl
@[simp] theorem setEcc_icache (a k : Nat) : (setEcc s a k).icache = s.icache := rfl
@[simp] theorem setEcc_mtr (a k : Nat) : (setEcc s a k).mtr = s.mtr := rfl
@[simp] theorem setEcc_mret (a k : Nat) : (setEcc s a k).mret = s.mret := rfl
@[simp] theorem setEcc_moves (a k : Nat) : (setEcc s a k).moves = s.moves := rfl
@[simp] theorem setEcc_lateAcc (a k : Nat) : (setEcc s a k).lateAcc = s.lateAcc := rfl

/-! ### toTail -/

@[simp] theorem toTail_pending (n : Nat) : (toTail s n).pending = s.pending := rfl
@[simp] theorem toTail_mem (n : Nat) : (toTail s n).mem = s.mem := rfl
@[simp] theorem toTail_ecc (n : Nat) : (toTail s n).ecc = s.ecc := rfl
@[simp] theorem toTail_csr (n : Nat) : (toTail s n).csr = s.csr := rfl
@[simp] theorem toTail_bus (n : Nat) : (toTail s n).bus = s.bus := rfl
@[simp] theorem toTail_draws (n : Nat) : (toTail s n).draws = s.draws := rfl
@[simp] theorem toTail_cycles (n : Nat) : (toTail s n).cycles = s.cycles := rfl
@[simp] theorem toTail_up (n : Nat) : (toTail s n).up = s.up := rfl
@[simp] theorem toTail_coach (n : Nat) : (toTail s n).coach = s.coach := rfl
@[simp] theorem toTail_fast (n : Nat) : (toTail s n).fast = s.fast := rfl
@[simp] theorem toTail_fastOn (n : Nat) : (toTail s n).fastOn = s.fastOn := rfl
@[simp] theorem toTail_fastPend (n : Nat) : (toTail s n).fastPend = s.fastPend := rfl
@[simp] theorem toTail_run0 (n : Nat) : (toTail s n).run0 = s.run0 := rfl
@[simp] theorem toTail_run1 (n : Nat) : (toTail s n).run1 = s.run1 := rfl
@[simp] theorem toTail_run2 (n : Nat) : (toTail s n).run2 = s.run2 := rfl
@[simp] theorem toTail_gaps (n : Nat) : (toTail s n).gaps = s.gaps := rfl
@[simp] theorem toTail_div (n : Nat) : (toTail s n).div = s.div := rfl
@[simp] theorem toTail_cons (n : Nat) : (toTail s n).cons = s.cons := rfl
@[simp] theorem toTail_order (n : Nat) : (toTail s n).order = s.order := rfl
@[simp] theorem toTail_sbox (n : Nat) : (toTail s n).sbox = s.sbox := rfl
@[simp] theorem toTail_sbOrder (n : Nat) : (toTail s n).sbOrder = s.sbOrder := rfl
@[simp] theorem toTail_l0cnt (n : Nat) : (toTail s n).l0cnt = s.l0cnt := rfl
@[simp] theorem toTail_src (n : Nat) : (toTail s n).src = s.src := rfl
@[simp] theorem toTail_bank (n : Nat) : (toTail s n).bank = s.bank := rfl
@[simp] theorem toTail_lnc (n : Nat) : (toTail s n).lnc = s.lnc := rfl
@[simp] theorem toTail_mls (n : Nat) : (toTail s n).mls = s.mls := rfl
@[simp] theorem toTail_fli (n : Nat) : (toTail s n).fli = s.fli := rfl
@[simp] theorem toTail_bne (n : Nat) : (toTail s n).bne = s.bne := rfl
@[simp] theorem toTail_stl (n : Nat) : (toTail s n).stl = s.stl := rfl
@[simp] theorem toTail_mcs (n : Nat) : (toTail s n).mcs = s.mcs := rfl
@[simp] theorem toTail_hpt (n : Nat) : (toTail s n).hpt = s.hpt := rfl
@[simp] theorem toTail_pwr (n : Nat) : (toTail s n).pwr = s.pwr := rfl
@[simp] theorem toTail_icache (n : Nat) : (toTail s n).icache = s.icache := rfl
@[simp] theorem toTail_mtr (n : Nat) : (toTail s n).mtr = s.mtr := rfl
@[simp] theorem toTail_mret (n : Nat) : (toTail s n).mret = s.mret := rfl
@[simp] theorem toTail_moves (n : Nat) : (toTail s n).moves = s.moves := rfl
@[simp] theorem toTail_lateAcc (n : Nat) : (toTail s n).lateAcc = s.lateAcc := rfl

/-! ### toHead -/

@[simp] theorem toHead_pending (n : Nat) : (toHead s n).pending = s.pending := rfl
@[simp] theorem toHead_mem (n : Nat) : (toHead s n).mem = s.mem := rfl
@[simp] theorem toHead_ecc (n : Nat) : (toHead s n).ecc = s.ecc := rfl
@[simp] theorem toHead_csr (n : Nat) : (toHead s n).csr = s.csr := rfl
@[simp] theorem toHead_bus (n : Nat) : (toHead s n).bus = s.bus := rfl
@[simp] theorem toHead_draws (n : Nat) : (toHead s n).draws = s.draws := rfl
@[simp] theorem toHead_cycles (n : Nat) : (toHead s n).cycles = s.cycles := rfl
@[simp] theorem toHead_up (n : Nat) : (toHead s n).up = s.up := rfl
@[simp] theorem toHead_coach (n : Nat) : (toHead s n).coach = s.coach := rfl
@[simp] theorem toHead_fast (n : Nat) : (toHead s n).fast = s.fast := rfl
@[simp] theorem toHead_fastOn (n : Nat) : (toHead s n).fastOn = s.fastOn := rfl
@[simp] theorem toHead_fastPend (n : Nat) : (toHead s n).fastPend = s.fastPend := rfl
@[simp] theorem toHead_run0 (n : Nat) : (toHead s n).run0 = s.run0 := rfl
@[simp] theorem toHead_run1 (n : Nat) : (toHead s n).run1 = s.run1 := rfl
@[simp] theorem toHead_run2 (n : Nat) : (toHead s n).run2 = s.run2 := rfl
@[simp] theorem toHead_gaps (n : Nat) : (toHead s n).gaps = s.gaps := rfl
@[simp] theorem toHead_div (n : Nat) : (toHead s n).div = s.div := rfl
@[simp] theorem toHead_cons (n : Nat) : (toHead s n).cons = s.cons := rfl
@[simp] theorem toHead_order (n : Nat) : (toHead s n).order = s.order := rfl
@[simp] theorem toHead_sbox (n : Nat) : (toHead s n).sbox = s.sbox := rfl
@[simp] theorem toHead_sbOrder (n : Nat) : (toHead s n).sbOrder = s.sbOrder := rfl
@[simp] theorem toHead_l0cnt (n : Nat) : (toHead s n).l0cnt = s.l0cnt := rfl
@[simp] theorem toHead_src (n : Nat) : (toHead s n).src = s.src := rfl
@[simp] theorem toHead_bank (n : Nat) : (toHead s n).bank = s.bank := rfl
@[simp] theorem toHead_lnc (n : Nat) : (toHead s n).lnc = s.lnc := rfl
@[simp] theorem toHead_mls (n : Nat) : (toHead s n).mls = s.mls := rfl
@[simp] theorem toHead_fli (n : Nat) : (toHead s n).fli = s.fli := rfl
@[simp] theorem toHead_bne (n : Nat) : (toHead s n).bne = s.bne := rfl
@[simp] theorem toHead_stl (n : Nat) : (toHead s n).stl = s.stl := rfl
@[simp] theorem toHead_mcs (n : Nat) : (toHead s n).mcs = s.mcs := rfl
@[simp] theorem toHead_hpt (n : Nat) : (toHead s n).hpt = s.hpt := rfl
@[simp] theorem toHead_pwr (n : Nat) : (toHead s n).pwr = s.pwr := rfl
@[simp] theorem toHead_icache (n : Nat) : (toHead s n).icache = s.icache := rfl
@[simp] theorem toHead_mtr (n : Nat) : (toHead s n).mtr = s.mtr := rfl
@[simp] theorem toHead_mret (n : Nat) : (toHead s n).mret = s.mret := rfl
@[simp] theorem toHead_moves (n : Nat) : (toHead s n).moves = s.moves := rfl
@[simp] theorem toHead_lateAcc (n : Nat) : (toHead s n).lateAcc = s.lateAcc := rfl

/-! ### unqueue -/

@[simp] theorem unqueue_pending (n : Nat) : (unqueue s n).pending = s.pending := rfl
@[simp] theorem unqueue_mem (n : Nat) : (unqueue s n).mem = s.mem := rfl
@[simp] theorem unqueue_ecc (n : Nat) : (unqueue s n).ecc = s.ecc := rfl
@[simp] theorem unqueue_csr (n : Nat) : (unqueue s n).csr = s.csr := rfl
@[simp] theorem unqueue_bus (n : Nat) : (unqueue s n).bus = s.bus := rfl
@[simp] theorem unqueue_draws (n : Nat) : (unqueue s n).draws = s.draws := rfl
@[simp] theorem unqueue_cycles (n : Nat) : (unqueue s n).cycles = s.cycles := rfl
@[simp] theorem unqueue_up (n : Nat) : (unqueue s n).up = s.up := rfl
@[simp] theorem unqueue_coach (n : Nat) : (unqueue s n).coach = s.coach := rfl
@[simp] theorem unqueue_fast (n : Nat) : (unqueue s n).fast = s.fast := rfl
@[simp] theorem unqueue_fastOn (n : Nat) : (unqueue s n).fastOn = s.fastOn := rfl
@[simp] theorem unqueue_fastPend (n : Nat) : (unqueue s n).fastPend = s.fastPend := rfl
@[simp] theorem unqueue_run0 (n : Nat) : (unqueue s n).run0 = s.run0 := rfl
@[simp] theorem unqueue_run1 (n : Nat) : (unqueue s n).run1 = s.run1 := rfl
@[simp] theorem unqueue_run2 (n : Nat) : (unqueue s n).run2 = s.run2 := rfl
@[simp] theorem unqueue_gaps (n : Nat) : (unqueue s n).gaps = s.gaps := rfl
@[simp] theorem unqueue_div (n : Nat) : (unqueue s n).div = s.div := rfl
@[simp] theorem unqueue_cons (n : Nat) : (unqueue s n).cons = s.cons := rfl
@[simp] theorem unqueue_order (n : Nat) : (unqueue s n).order = s.order := rfl
@[simp] theorem unqueue_sbox (n : Nat) : (unqueue s n).sbox = s.sbox := rfl
@[simp] theorem unqueue_sbOrder (n : Nat) : (unqueue s n).sbOrder = s.sbOrder := rfl
@[simp] theorem unqueue_l0cnt (n : Nat) : (unqueue s n).l0cnt = s.l0cnt := rfl
@[simp] theorem unqueue_src (n : Nat) : (unqueue s n).src = s.src := rfl
@[simp] theorem unqueue_bank (n : Nat) : (unqueue s n).bank = s.bank := rfl
@[simp] theorem unqueue_lnc (n : Nat) : (unqueue s n).lnc = s.lnc := rfl
@[simp] theorem unqueue_mls (n : Nat) : (unqueue s n).mls = s.mls := rfl
@[simp] theorem unqueue_fli (n : Nat) : (unqueue s n).fli = s.fli := rfl
@[simp] theorem unqueue_bne (n : Nat) : (unqueue s n).bne = s.bne := rfl
@[simp] theorem unqueue_stl (n : Nat) : (unqueue s n).stl = s.stl := rfl
@[simp] theorem unqueue_mcs (n : Nat) : (unqueue s n).mcs = s.mcs := rfl
@[simp] theorem unqueue_hpt (n : Nat) : (unqueue s n).hpt = s.hpt := rfl
@[simp] theorem unqueue_pwr (n : Nat) : (unqueue s n).pwr = s.pwr := rfl
@[simp] theorem unqueue_icache (n : Nat) : (unqueue s n).icache = s.icache := rfl
@[simp] theorem unqueue_mtr (n : Nat) : (unqueue s n).mtr = s.mtr := rfl
@[simp] theorem unqueue_mret (n : Nat) : (unqueue s n).mret = s.mret := rfl
@[simp] theorem unqueue_moves (n : Nat) : (unqueue s n).moves = s.moves := rfl
@[simp] theorem unqueue_lateAcc (n : Nat) : (unqueue s n).lateAcc = s.lateAcc := rfl

/-! ### setRun -/

@[simp] theorem setRun_pending (l : Nat) (r : Option Nat) : (setRun s l r).pending = s.pending := by
  unfold setRun; split <;> [rfl; (split <;> rfl)]
@[simp] theorem setRun_mem (l : Nat) (r : Option Nat) : (setRun s l r).mem = s.mem := by
  unfold setRun; split <;> [rfl; (split <;> rfl)]
@[simp] theorem setRun_ecc (l : Nat) (r : Option Nat) : (setRun s l r).ecc = s.ecc := by
  unfold setRun; split <;> [rfl; (split <;> rfl)]
@[simp] theorem setRun_csr (l : Nat) (r : Option Nat) : (setRun s l r).csr = s.csr := by
  unfold setRun; split <;> [rfl; (split <;> rfl)]
@[simp] theorem setRun_bus (l : Nat) (r : Option Nat) : (setRun s l r).bus = s.bus := by
  unfold setRun; split <;> [rfl; (split <;> rfl)]
@[simp] theorem setRun_draws (l : Nat) (r : Option Nat) : (setRun s l r).draws = s.draws := by
  unfold setRun; split <;> [rfl; (split <;> rfl)]
@[simp] theorem setRun_cycles (l : Nat) (r : Option Nat) : (setRun s l r).cycles = s.cycles := by
  unfold setRun; split <;> [rfl; (split <;> rfl)]
@[simp] theorem setRun_up (l : Nat) (r : Option Nat) : (setRun s l r).up = s.up := by
  unfold setRun; split <;> [rfl; (split <;> rfl)]
@[simp] theorem setRun_coach (l : Nat) (r : Option Nat) : (setRun s l r).coach = s.coach := by
  unfold setRun; split <;> [rfl; (split <;> rfl)]
@[simp] theorem setRun_fast (l : Nat) (r : Option Nat) : (setRun s l r).fast = s.fast := by
  unfold setRun; split <;> [rfl; (split <;> rfl)]
@[simp] theorem setRun_fastOn (l : Nat) (r : Option Nat) : (setRun s l r).fastOn = s.fastOn := by
  unfold setRun; split <;> [rfl; (split <;> rfl)]
@[simp] theorem setRun_fastPend (l : Nat) (r : Option Nat) : (setRun s l r).fastPend = s.fastPend := by
  unfold setRun; split <;> [rfl; (split <;> rfl)]
@[simp] theorem setRun_queue (l : Nat) (r : Option Nat) : (setRun s l r).queue = s.queue := by
  unfold setRun; split <;> [rfl; (split <;> rfl)]
@[simp] theorem setRun_gaps (l : Nat) (r : Option Nat) : (setRun s l r).gaps = s.gaps := by
  unfold setRun; split <;> [rfl; (split <;> rfl)]
@[simp] theorem setRun_div (l : Nat) (r : Option Nat) : (setRun s l r).div = s.div := by
  unfold setRun; split <;> [rfl; (split <;> rfl)]
@[simp] theorem setRun_cons (l : Nat) (r : Option Nat) : (setRun s l r).cons = s.cons := by
  unfold setRun; split <;> [rfl; (split <;> rfl)]
@[simp] theorem setRun_order (l : Nat) (r : Option Nat) : (setRun s l r).order = s.order := by
  unfold setRun; split <;> [rfl; (split <;> rfl)]
@[simp] theorem setRun_sbox (l : Nat) (r : Option Nat) : (setRun s l r).sbox = s.sbox := by
  unfold setRun; split <;> [rfl; (split <;> rfl)]
@[simp] theorem setRun_sbOrder (l : Nat) (r : Option Nat) : (setRun s l r).sbOrder = s.sbOrder := by
  unfold setRun; split <;> [rfl; (split <;> rfl)]
@[simp] theorem setRun_l0cnt (l : Nat) (r : Option Nat) : (setRun s l r).l0cnt = s.l0cnt := by
  unfold setRun; split <;> [rfl; (split <;> rfl)]
@[simp] theorem setRun_src (l : Nat) (r : Option Nat) : (setRun s l r).src = s.src := by
  unfold setRun; split <;> [rfl; (split <;> rfl)]
@[simp] theorem setRun_bank (l : Nat) (r : Option Nat) : (setRun s l r).bank = s.bank := by
  unfold setRun; split <;> [rfl; (split <;> rfl)]
@[simp] theorem setRun_lnc (l : Nat) (r : Option Nat) : (setRun s l r).lnc = s.lnc := by
  unfold setRun; split <;> [rfl; (split <;> rfl)]
@[simp] theorem setRun_mls (l : Nat) (r : Option Nat) : (setRun s l r).mls = s.mls := by
  unfold setRun; split <;> [rfl; (split <;> rfl)]
@[simp] theorem setRun_fli (l : Nat) (r : Option Nat) : (setRun s l r).fli = s.fli := by
  unfold setRun; split <;> [rfl; (split <;> rfl)]
@[simp] theorem setRun_bne (l : Nat) (r : Option Nat) : (setRun s l r).bne = s.bne := by
  unfold setRun; split <;> [rfl; (split <;> rfl)]
@[simp] theorem setRun_stl (l : Nat) (r : Option Nat) : (setRun s l r).stl = s.stl := by
  unfold setRun; split <;> [rfl; (split <;> rfl)]
@[simp] theorem setRun_mcs (l : Nat) (r : Option Nat) : (setRun s l r).mcs = s.mcs := by
  unfold setRun; split <;> [rfl; (split <;> rfl)]
@[simp] theorem setRun_hpt (l : Nat) (r : Option Nat) : (setRun s l r).hpt = s.hpt := by
  unfold setRun; split <;> [rfl; (split <;> rfl)]
@[simp] theorem setRun_pwr (l : Nat) (r : Option Nat) : (setRun s l r).pwr = s.pwr := by
  unfold setRun; split <;> [rfl; (split <;> rfl)]
@[simp] theorem setRun_icache (l : Nat) (r : Option Nat) : (setRun s l r).icache = s.icache := by
  unfold setRun; split <;> [rfl; (split <;> rfl)]
@[simp] theorem setRun_mtr (l : Nat) (r : Option Nat) : (setRun s l r).mtr = s.mtr := by
  unfold setRun; split <;> [rfl; (split <;> rfl)]
@[simp] theorem setRun_mret (l : Nat) (r : Option Nat) : (setRun s l r).mret = s.mret := by
  unfold setRun; split <;> [rfl; (split <;> rfl)]
@[simp] theorem setRun_moves (l : Nat) (r : Option Nat) : (setRun s l r).moves = s.moves := by
  unfold setRun; split <;> [rfl; (split <;> rfl)]
@[simp] theorem setRun_lateAcc (l : Nat) (r : Option Nat) : (setRun s l r).lateAcc = s.lateAcc := by
  unfold setRun; split <;> [rfl; (split <;> rfl)]

/-! ### setC and modC -/

@[simp] theorem setC_pending (w : Who) (c : Coach) : (setC s w c).pending = s.pending := by cases w <;> rfl
@[simp] theorem setC_mem (w : Who) (c : Coach) : (setC s w c).mem = s.mem := by cases w <;> rfl
@[simp] theorem setC_ecc (w : Who) (c : Coach) : (setC s w c).ecc = s.ecc := by cases w <;> rfl
@[simp] theorem setC_csr (w : Who) (c : Coach) : (setC s w c).csr = s.csr := by cases w <;> rfl
@[simp] theorem setC_bus (w : Who) (c : Coach) : (setC s w c).bus = s.bus := by cases w <;> rfl
@[simp] theorem setC_draws (w : Who) (c : Coach) : (setC s w c).draws = s.draws := by cases w <;> rfl
@[simp] theorem setC_cycles (w : Who) (c : Coach) : (setC s w c).cycles = s.cycles := by cases w <;> rfl
@[simp] theorem setC_up (w : Who) (c : Coach) : (setC s w c).up = s.up := by cases w <;> rfl
@[simp] theorem setC_fastOn (w : Who) (c : Coach) : (setC s w c).fastOn = s.fastOn := by cases w <;> rfl
@[simp] theorem setC_fastPend (w : Who) (c : Coach) : (setC s w c).fastPend = s.fastPend := by cases w <;> rfl
@[simp] theorem setC_queue (w : Who) (c : Coach) : (setC s w c).queue = s.queue := by cases w <;> rfl
@[simp] theorem setC_run0 (w : Who) (c : Coach) : (setC s w c).run0 = s.run0 := by cases w <;> rfl
@[simp] theorem setC_run1 (w : Who) (c : Coach) : (setC s w c).run1 = s.run1 := by cases w <;> rfl
@[simp] theorem setC_run2 (w : Who) (c : Coach) : (setC s w c).run2 = s.run2 := by cases w <;> rfl
@[simp] theorem setC_gaps (w : Who) (c : Coach) : (setC s w c).gaps = s.gaps := by cases w <;> rfl
@[simp] theorem setC_div (w : Who) (c : Coach) : (setC s w c).div = s.div := by cases w <;> rfl
@[simp] theorem setC_cons (w : Who) (c : Coach) : (setC s w c).cons = s.cons := by cases w <;> rfl
@[simp] theorem setC_order (w : Who) (c : Coach) : (setC s w c).order = s.order := by cases w <;> rfl
@[simp] theorem setC_sbox (w : Who) (c : Coach) : (setC s w c).sbox = s.sbox := by cases w <;> rfl
@[simp] theorem setC_sbOrder (w : Who) (c : Coach) : (setC s w c).sbOrder = s.sbOrder := by cases w <;> rfl
@[simp] theorem setC_l0cnt (w : Who) (c : Coach) : (setC s w c).l0cnt = s.l0cnt := by cases w <;> rfl
@[simp] theorem setC_src (w : Who) (c : Coach) : (setC s w c).src = s.src := by cases w <;> rfl
@[simp] theorem setC_bank (w : Who) (c : Coach) : (setC s w c).bank = s.bank := by cases w <;> rfl
@[simp] theorem setC_lnc (w : Who) (c : Coach) : (setC s w c).lnc = s.lnc := by cases w <;> rfl
@[simp] theorem setC_mls (w : Who) (c : Coach) : (setC s w c).mls = s.mls := by cases w <;> rfl
@[simp] theorem setC_fli (w : Who) (c : Coach) : (setC s w c).fli = s.fli := by cases w <;> rfl
@[simp] theorem setC_bne (w : Who) (c : Coach) : (setC s w c).bne = s.bne := by cases w <;> rfl
@[simp] theorem setC_stl (w : Who) (c : Coach) : (setC s w c).stl = s.stl := by cases w <;> rfl
@[simp] theorem setC_mcs (w : Who) (c : Coach) : (setC s w c).mcs = s.mcs := by cases w <;> rfl
@[simp] theorem setC_hpt (w : Who) (c : Coach) : (setC s w c).hpt = s.hpt := by cases w <;> rfl
@[simp] theorem setC_pwr (w : Who) (c : Coach) : (setC s w c).pwr = s.pwr := by cases w <;> rfl
@[simp] theorem setC_icache (w : Who) (c : Coach) : (setC s w c).icache = s.icache := by cases w <;> rfl
@[simp] theorem setC_mtr (w : Who) (c : Coach) : (setC s w c).mtr = s.mtr := by cases w <;> rfl
@[simp] theorem setC_mret (w : Who) (c : Coach) : (setC s w c).mret = s.mret := by cases w <;> rfl
@[simp] theorem setC_moves (w : Who) (c : Coach) : (setC s w c).moves = s.moves := by cases w <;> rfl
@[simp] theorem setC_lateAcc (w : Who) (c : Coach) : (setC s w c).lateAcc = s.lateAcc := by cases w <;> rfl
@[simp] theorem modC_pending (w : Who) (f : Coach → Coach) : (modC s w f).pending = s.pending := by cases w <;> rfl
@[simp] theorem modC_mem (w : Who) (f : Coach → Coach) : (modC s w f).mem = s.mem := by cases w <;> rfl
@[simp] theorem modC_ecc (w : Who) (f : Coach → Coach) : (modC s w f).ecc = s.ecc := by cases w <;> rfl
@[simp] theorem modC_csr (w : Who) (f : Coach → Coach) : (modC s w f).csr = s.csr := by cases w <;> rfl
@[simp] theorem modC_bus (w : Who) (f : Coach → Coach) : (modC s w f).bus = s.bus := by cases w <;> rfl
@[simp] theorem modC_draws (w : Who) (f : Coach → Coach) : (modC s w f).draws = s.draws := by cases w <;> rfl
@[simp] theorem modC_cycles (w : Who) (f : Coach → Coach) : (modC s w f).cycles = s.cycles := by cases w <;> rfl
@[simp] theorem modC_up (w : Who) (f : Coach → Coach) : (modC s w f).up = s.up := by cases w <;> rfl
@[simp] theorem modC_fastOn (w : Who) (f : Coach → Coach) : (modC s w f).fastOn = s.fastOn := by cases w <;> rfl
@[simp] theorem modC_fastPend (w : Who) (f : Coach → Coach) : (modC s w f).fastPend = s.fastPend := by cases w <;> rfl
@[simp] theorem modC_queue (w : Who) (f : Coach → Coach) : (modC s w f).queue = s.queue := by cases w <;> rfl
@[simp] theorem modC_run0 (w : Who) (f : Coach → Coach) : (modC s w f).run0 = s.run0 := by cases w <;> rfl
@[simp] theorem modC_run1 (w : Who) (f : Coach → Coach) : (modC s w f).run1 = s.run1 := by cases w <;> rfl
@[simp] theorem modC_run2 (w : Who) (f : Coach → Coach) : (modC s w f).run2 = s.run2 := by cases w <;> rfl
@[simp] theorem modC_gaps (w : Who) (f : Coach → Coach) : (modC s w f).gaps = s.gaps := by cases w <;> rfl
@[simp] theorem modC_div (w : Who) (f : Coach → Coach) : (modC s w f).div = s.div := by cases w <;> rfl
@[simp] theorem modC_cons (w : Who) (f : Coach → Coach) : (modC s w f).cons = s.cons := by cases w <;> rfl
@[simp] theorem modC_order (w : Who) (f : Coach → Coach) : (modC s w f).order = s.order := by cases w <;> rfl
@[simp] theorem modC_sbox (w : Who) (f : Coach → Coach) : (modC s w f).sbox = s.sbox := by cases w <;> rfl
@[simp] theorem modC_sbOrder (w : Who) (f : Coach → Coach) : (modC s w f).sbOrder = s.sbOrder := by cases w <;> rfl
@[simp] theorem modC_l0cnt (w : Who) (f : Coach → Coach) : (modC s w f).l0cnt = s.l0cnt := by cases w <;> rfl
@[simp] theorem modC_src (w : Who) (f : Coach → Coach) : (modC s w f).src = s.src := by cases w <;> rfl
@[simp] theorem modC_bank (w : Who) (f : Coach → Coach) : (modC s w f).bank = s.bank := by cases w <;> rfl
@[simp] theorem modC_lnc (w : Who) (f : Coach → Coach) : (modC s w f).lnc = s.lnc := by cases w <;> rfl
@[simp] theorem modC_mls (w : Who) (f : Coach → Coach) : (modC s w f).mls = s.mls := by cases w <;> rfl
@[simp] theorem modC_fli (w : Who) (f : Coach → Coach) : (modC s w f).fli = s.fli := by cases w <;> rfl
@[simp] theorem modC_bne (w : Who) (f : Coach → Coach) : (modC s w f).bne = s.bne := by cases w <;> rfl
@[simp] theorem modC_stl (w : Who) (f : Coach → Coach) : (modC s w f).stl = s.stl := by cases w <;> rfl
@[simp] theorem modC_mcs (w : Who) (f : Coach → Coach) : (modC s w f).mcs = s.mcs := by cases w <;> rfl
@[simp] theorem modC_hpt (w : Who) (f : Coach → Coach) : (modC s w f).hpt = s.hpt := by cases w <;> rfl
@[simp] theorem modC_pwr (w : Who) (f : Coach → Coach) : (modC s w f).pwr = s.pwr := by cases w <;> rfl
@[simp] theorem modC_icache (w : Who) (f : Coach → Coach) : (modC s w f).icache = s.icache := by cases w <;> rfl
@[simp] theorem modC_mtr (w : Who) (f : Coach → Coach) : (modC s w f).mtr = s.mtr := by cases w <;> rfl
@[simp] theorem modC_mret (w : Who) (f : Coach → Coach) : (modC s w f).mret = s.mret := by cases w <;> rfl
@[simp] theorem modC_moves (w : Who) (f : Coach → Coach) : (modC s w f).moves = s.moves := by cases w <;> rfl
@[simp] theorem modC_lateAcc (w : Who) (f : Coach → Coach) : (modC s w f).lateAcc = s.lateAcc := by cases w <;> rfl

end Sys2Proof.Machine
end

