-- ==== Sys2Proof/Laws/Tables.lean ====
section
/-! SUPPORT. Sparse tables: what an entry reads as after a write, and that every operation keeps the canonical form. -/

namespace Sys2Proof.Machine

variable {α : Type}

/-! ### Reading after writing -/

theorem SMap.get_erase (d : α) (m : SMap α) (k j : Nat) :
    SMap.get d (m.erase k) j = if j = k then d else SMap.get d m j := by
  induction m with
  | nil => simp [SMap.erase, SMap.get]
  | cons e r ih =>
    obtain ⟨i, v⟩ := e
    by_cases h : i = k
    · subst h
      by_cases hj : j = i
      · subst hj; simp [SMap.erase, ih]
      · simp [SMap.erase, ih, SMap.get, hj, Ne.symm hj]
    · by_cases hj : i = j
      · subst hj; simp [SMap.erase, SMap.get, h]
      · simp [SMap.erase, SMap.get, h, hj, ih]

theorem SMap.get_insert (d : α) (m : SMap α) (k j : Nat) (v : α)
    (hk : ∀ e ∈ m, e.1 ≠ k) : SMap.get d (m.insert k v) j = if j = k then v else SMap.get d m j := by
  induction m with
  | nil => by_cases hj : j = k <;> simp [SMap.insert, SMap.get, hj, Ne.symm]
  | cons e r ih =>
    obtain ⟨i, w⟩ := e
    have hi : i ≠ k := hk (i, w) (by simp)
    have hr : ∀ e ∈ r, e.1 ≠ k := fun e he => hk e (by simp [he])
    by_cases hlt : k < i
    · by_cases hj : j = k
      · simp [SMap.insert, SMap.get, hlt, hj]
      · simp [SMap.insert, SMap.get, hlt, hj, Ne.symm hj]
    · by_cases hj : i = j
      · subst hj; simp [SMap.insert, SMap.get, hlt, hi]
      · simp [SMap.insert, SMap.get, hlt, hj, ih hr]

theorem SMap.not_mem_erase (m : SMap α) (k : Nat) : ∀ e ∈ SMap.erase m k, e.1 ≠ k := by
  induction m with
  | nil => simp [SMap.erase]
  | cons e r ih =>
    obtain ⟨i, v⟩ := e
    by_cases h : i = k
    · simpa [SMap.erase, h] using ih
    · simp only [SMap.erase, h, if_false, List.mem_cons]
      rintro e (rfl | he)
      · exact h
      · exact ih e he

theorem SMap.get_set [DecidableEq α] (d : α) (m : SMap α) (k j : Nat) (v : α) :
    SMap.get d (SMap.set d m k v) j = if j = k then v else SMap.get d m j := by
  unfold SMap.set
  by_cases h : v = d
  · subst h; simp [SMap.get_erase]
  · rw [if_neg h, SMap.get_insert _ _ _ _ _ (SMap.not_mem_erase m k), SMap.get_erase]
    by_cases hj : j = k <;> simp [hj]

/-- A table keyed with its own default at each key: reading after writing one entry. -/
theorem SMap.get_set_at [DecidableEq α] (d : Nat → α) (m : SMap α) (k j : Nat) (v : α) :
    SMap.get (d j) (SMap.set (d k) m k v) j = if j = k then v else SMap.get (d j) m j := by
  by_cases hj : j = k
  · subst hj; simp [SMap.get_set]
  · unfold SMap.set
    split
    · simp [SMap.get_erase, hj]
    · rw [SMap.get_insert _ _ _ _ _ (SMap.not_mem_erase m k), SMap.get_erase]
      simp [hj]

/-! ### The canonical form -/

theorem SMap.wfFrom_mono [DecidableEq α] (d : Nat → α) (m : SMap α) {lo lo' : Nat} (h : lo' ≤ lo)
    (hm : SMap.wfFrom d lo m = true) : SMap.wfFrom d lo' m = true := by
  cases m with
  | nil => rfl
  | cons e r =>
    obtain ⟨k, v⟩ := e
    simp only [SMap.wfFrom, Bool.and_eq_true, decide_eq_true_eq] at hm ⊢
    exact ⟨⟨by omega, hm.1.2⟩, hm.2⟩

theorem SMap.wfFrom_filter [DecidableEq α] (d : Nat → α) (p : Nat × α → Bool) (m : SMap α) (lo : Nat)
    (hm : SMap.wfFrom d lo m = true) : SMap.wfFrom d lo (m.filter p) = true := by
  induction m generalizing lo with
  | nil => rfl
  | cons e r ih =>
    obtain ⟨k, v⟩ := e
    simp only [SMap.wfFrom, Bool.and_eq_true, decide_eq_true_eq] at hm
    by_cases hp : p (k, v) = true
    · simp only [List.filter_cons, hp, if_true, SMap.wfFrom, Bool.and_eq_true, decide_eq_true_eq]
      exact ⟨hm.1, ih _ hm.2⟩
    · simp only [List.filter_cons, hp]
      exact ih _ (SMap.wfFrom_mono d r (by omega) hm.2)

theorem SMap.erase_eq_filter (m : SMap α) (k : Nat) : SMap.erase m k = m.filter (fun e => decide (e.1 ≠ k)) := by
  induction m with
  | nil => rfl
  | cons e r ih =>
    obtain ⟨i, v⟩ := e
    by_cases h : i = k <;> simp [SMap.erase, h, ih]

theorem SMap.wfFrom_erase [DecidableEq α] (d : Nat → α) (m : SMap α) (k lo : Nat)
    (hm : SMap.wfFrom d lo m = true) : SMap.wfFrom d lo (SMap.erase m k) = true := by
  rw [SMap.erase_eq_filter]; exact SMap.wfFrom_filter d _ m lo hm

theorem SMap.wfFrom_insert [DecidableEq α] (d : Nat → α) (m : SMap α) (k lo : Nat) (v : α) (hv : v ≠ d k)
    (hlo : lo ≤ k) (hk : ∀ e ∈ m, e.1 ≠ k) (hm : SMap.wfFrom d lo m = true) :
    SMap.wfFrom d lo (SMap.insert m k v) = true := by
  induction m generalizing lo with
  | nil => simp [SMap.insert, SMap.wfFrom, hlo, hv]
  | cons e r ih =>
    obtain ⟨i, w⟩ := e
    have hi : i ≠ k := hk (i, w) (by simp)
    simp only [SMap.wfFrom, Bool.and_eq_true, decide_eq_true_eq] at hm
    by_cases hlt : k < i
    · simp only [SMap.insert, hlt, if_true, SMap.wfFrom, Bool.and_eq_true, decide_eq_true_eq]
      exact ⟨⟨hlo, hv⟩, ⟨⟨hlt, hm.1.2⟩, hm.2⟩⟩
    · simp only [SMap.insert, hlt, if_false, SMap.wfFrom, Bool.and_eq_true, decide_eq_true_eq]
      exact ⟨hm.1, ih (i + 1) (by omega) (fun e he => hk e (by simp [he])) hm.2⟩

theorem SMap.wfFrom_set [DecidableEq α] (d : Nat → α) (m : SMap α) (k : Nat) (v : α)
    (hm : SMap.wfFrom d 0 m = true) : SMap.wfFrom d 0 (SMap.set (d k) m k v) = true := by
  unfold SMap.set
  split
  · exact SMap.wfFrom_erase d m k 0 hm
  · rename_i h
    exact SMap.wfFrom_insert d _ k 0 v h (Nat.zero_le _) (SMap.not_mem_erase m k) (SMap.wfFrom_erase d m k 0 hm)

theorem SMap.wfFrom_keep [DecidableEq α] (d : Nat → α) (p : Nat → Bool) (m : SMap α)
    (hm : SMap.wfFrom d 0 m = true) : SMap.wfFrom d 0 (SMap.keep p m) = true :=
  SMap.wfFrom_filter d _ m 0 hm

theorem SMap.get_keep (d : α) (p : Nat → Bool) (m : SMap α) (k : Nat) :
    SMap.get d (SMap.keep p m) k = if p k then SMap.get d m k else d := by
  induction m with
  | nil => simp [SMap.keep, SMap.get]
  | cons e r ih =>
    obtain ⟨i, v⟩ := e
    have ih' : SMap.get d (r.filter (fun e => p e.1)) k = if p k then SMap.get d r k else d := ih
    by_cases hp : p i = true
    · by_cases hi : i = k
      · subst hi; simp [SMap.keep, SMap.get, hp]
      · simp [SMap.keep, SMap.get, hp, hi, ih']
    · by_cases hi : i = k
      · subst hi; simp [SMap.keep, hp, ih']
      · simp [SMap.keep, SMap.get, hp, hi, ih']

/-! ### The tables of the state -/

@[simp] theorem getR_setR (s : State) (a b : Nat) (v : Word) : getR (setR s a v) b = if b = a then v else getR s b :=
  SMap.get_set_at csrReset s.csr a b v

@[simp] theorem coachOf_setCoach (s : State) (n m : Nat) (c : Coach) :
    coachOf (setCoach s n c) m = if m = n then c else coachOf s m := SMap.get_set ({} : Coach) s.coach n m c

@[simp] theorem consOf_setCons (s : State) (e f : Nat) (k : Cons) :
    consOf (setCons s e k) f = if f = e then k else consOf s f := SMap.get_set ({} : Cons) s.cons e f k

@[simp] theorem srcOf_setSrc (s : State) (n m : Nat) (x : Src) :
    srcOf (setSrc s n x) m = if m = n then x else srcOf s m := SMap.get_set ({} : Src) s.src n m x

@[simp] theorem bankN_setBank (s : State) (n m : Nat) (b : Bank) :
    bankN (setBank s n b) m = if m = n then b else bankN s m := SMap.get_set ({} : Bank) s.bank n m b

@[simp] theorem laneOf_setLane (s : State) (n m : Nat) (x : Lane) :
    laneOf (setLane s n x) m = if m = n then x else laneOf s m := SMap.get_set ({} : Lane) s.lnc.lanes n m x

@[simp] theorem sboxOf_setSbox (s : State) (l k : Nat) (b : SBox) :
    sboxOf (setSbox s l b) k = if k = l then b else sboxOf s k := SMap.get_set ({} : SBox) s.sbox l k b

@[simp] theorem divOf_setDiv (s : State) (l k : Nat) (d : Option Divider) :
    divOf (setDiv s l d) k = if k = l then d else divOf s k := SMap.get_set none s.div l k d

@[simp] theorem eccAt_setEcc (s : State) (a b k : Nat) : eccAt (setEcc s a k) b = if b = a then k else eccAt s b :=
  SMap.get_set 0 s.ecc a b k

@[simp] theorem getC_modC_self (s : State) (w : Who) (f : Coach → Coach) : getC (modC s w f) w = f (getC s w) := by
  cases w <;> simp [modC, setC, getC]

theorem getC_modC_other (s : State) (v w : Who) (f : Coach → Coach) (h : v ≠ w) : getC (modC s w f) v = getC s v := by
  cases v with
  | coach n =>
    cases w with
    | coach m =>
      have hn : n ≠ m := fun e => h (by rw [e])
      simp [modC, setC, getC, hn]
    | fast => rfl
  | fast =>
    cases w with
    | coach m => rfl
    | fast => exact absurd rfl h

end Sys2Proof.Machine
end

