-- ==== Sys2Proof/Laws/Issue.lean ====
section
/-! SUPPORT. One lemma for each shared operation of an instruction: issuing, the stack check, pops and pushes within the
heads, and the bodies of the common stack effects. -/

namespace Sys2Proof.Machine

/-! ### Contexts -/

theorem SMap.erase_of_not_mem {α : Type} (m : SMap α) (k : Nat) (h : ∀ e ∈ m, e.1 ≠ k) : SMap.erase m k = m := by
  rw [SMap.erase_eq_filter, List.filter_eq_self]
  intro e he; simpa using h e he

theorem SMap.erase_insert {α : Type} (m : SMap α) (k : Nat) (v : α) (h : ∀ e ∈ m, e.1 ≠ k) :
    SMap.erase (SMap.insert m k v) k = m := by
  induction m with
  | nil => simp [SMap.insert, SMap.erase]
  | cons e r ih =>
    obtain ⟨i, w⟩ := e
    have hi : i ≠ k := h (i, w) (by simp)
    have hr : ∀ e ∈ r, e.1 ≠ k := fun e he => h e (by simp [he])
    by_cases hlt : k < i
    · simp [SMap.insert, SMap.erase, hlt, hi, SMap.erase_of_not_mem r k hr]
    · simp [SMap.insert, SMap.erase, hlt, hi, ih hr]

theorem SMap.set_set {α : Type} [DecidableEq α] (d : α) (m : SMap α) (k : Nat) (v w : α) :
    SMap.set d (SMap.set d m k v) k w = SMap.set d m k w := by
  have e : SMap.erase (SMap.set d m k v) k = SMap.erase m k := by
    unfold SMap.set
    split
    · exact SMap.erase_of_not_mem _ _ (SMap.not_mem_erase m k)
    · exact SMap.erase_insert _ _ _ (SMap.not_mem_erase m k)
  rw [show SMap.set d (SMap.set d m k v) k w = if w = d then SMap.erase (SMap.set d m k v) k
    else (SMap.erase (SMap.set d m k v) k).insert k w from rfl, e]
  rfl

@[simp] theorem setCoach_setCoach (s : State) (n : Nat) (c d : Coach) : setCoach (setCoach s n c) n d = setCoach s n d := by
  unfold setCoach
  simp only [SMap.set_set]

/-- Two changes of one context are one. -/
@[simp] theorem modC_modC (s : State) (w : Who) (f g : Coach → Coach) :
    modC (modC s w f) w g = modC s w (fun c => g (f c)) := by
  cases w with
  | coach n => simp [modC, setC, getC]
  | fast => rfl

theorem modC_congr (s : State) (w : Who) (f g : Coach → Coach) (h : f (getC s w) = g (getC s w)) :
    modC s w f = modC s w g := by
  unfold modC; rw [h]

@[simp] theorem headOnly_modC (s : State) (w v : Who) (f : Coach → Coach) : headOnly (modC s w f) v = headOnly s v := by
  simp [headOnly, svc, getR]

/-! ### Issue -/

/-- A boundary that has taken nothing leaves a coach without an open window and without waiting stores as it was. -/
theorem ready_quiet {s : State} {w : Who} (hw : (getC s w).window = none) (ho : (getC s w).out = []) :
    ready s w = s := by
  simp [ready, closeWindow, postHold, hw, ho]

/-- An instruction that issues runs its body at once. -/
theorem issue_of_issues {s : State} {l : LaneUse} {w : Who} {len : Nat} (h : Issues s l w len) (body : Iss → M Flow)
    (k : Wait) : issue s l len body k = runBody s ⟨w, l.set.val⟩ len body k := by
  simp [issue, issueOwn, h.own, h.lane, h.who, h.notFast, h.notHeld, h.notStalled, h.notDraining, h.quiet, h.fetched,
    ready_quiet h.noWindow h.posted]

/-- With no vendor patch in force, a row dispatches into its own routine (R260). -/
theorem dispatch_of_issues {s : State} {l : LaneUse} {w : Who} {len : Nat} (h : Issues s l w len) (op : Nat)
    (body : Iss → M Flow) (k : Wait) : dispatchRow op s l len body k = runBody s ⟨w, l.set.val⟩ len body k := by
  simp only [dispatchRow, h.unpatched op, issue_of_issues h]

/-- A body that succeeds, and does not stall its coach, ends its instruction. -/
theorem runBody_ok {s t : State} {x : Iss} {len : Nat} {body : Iss → M Flow} {f : Flow} (k : Wait)
    (hb : body x s = .ok (f, t)) (hf : f ≠ .stay) : runBody s x len body k = complete t x (getC s x.who).pc len f := by
  cases f <;> simp_all [runBody]

/-- A body that succeeds, and does not stall its coach, ends its instruction. -/
theorem instr_ok {op : Nat} {s : State} {l : LaneUse} {w : Who} {len : Nat} {body : Iss → M Flow} {f : Flow} {t : State}
    (h : Issues s l w len) (hb : body ⟨w, l.set.val⟩ s = .ok (f, t)) (hf : f ≠ .stay) :
    instr op s l len body = ends s l w len f t := by
  simp only [instr, dispatch_of_issues h, ends, runBody_ok _ hb hf]

/-- A body that fails raises its exception on the state before it. -/
theorem instr_trap {op : Nat} {s : State} {l : LaneUse} {w : Who} {len : Nat} {body : Iss → M Flow} {i : XItem}
    (h : Issues s l w len) (hb : body ⟨w, l.set.val⟩ s = .error (.trap i id)) :
    instr op s l len body = raises s l w i := by
  simp only [instr, dispatch_of_issues h, raises, runBody, hb, id]

/-- A body that waits for entries that have not arrived holds its issuer. -/
theorem instr_hold_entries {op : Nat} {s : State} {l : LaneUse} {w : Who} {len : Nat} {body : Iss → M Flow}
    {es : List Entry} (h : Issues s l w len) (hb : body ⟨w, l.set.val⟩ s = .error (.hold (.entries es) none id)) :
    instr op s l len body = holds s l w (.entries es) := by
  simp [instr, dispatch_of_issues h, holds, runBody, hb, runHeld, holdFor, waitStarts, throw, throwThe, MonadExceptOf.throw,
    StateT.lift, Except.bind, bind]

/-! ### Stacks -/

/-- A stack whose head holds what is popped and has room for what is pushed admits the effect. -/
theorem stackFits_of (s : State) (w : Who) (k : Stk) (i o : Nat)
    (hd : headOnly s w = true ∨ i ≤ (depthOf k (getC s w)).toNat) (hf : (headOf k (getC s w)).length - i + o ≤ k.cap)
    (hl : i ≤ (headOf k (getC s w)).length) : stackFits s w k i o = true := by
  have hn : spillsFor k (getC s w) i o = 0 := by unfold spillsFor; omega
  unfold stackFits
  simp only [hn]
  split
  · simp [hl]
  · rename_i h
    rcases hd with hd | hd
    · exact absurd hd h
    · simp [hd]

theorem stackFits_none (s : State) (w : Who) (k : Stk) (h : (headOf k (getC s w)).length ≤ k.cap) :
    stackFits s w k 0 0 = true := by
  have hn : spillsFor k (getC s w) 0 0 = 0 := by simp [spillsFor]; omega
  unfold stackFits
  simp [hn]

/-- The whole effect of an instruction whose operands are in the heads is admitted. -/
theorem Takes.fits {s : State} {w : Who} {es rs : List Entry} {o ro : Nat} (h : Takes s w es rs o ro) :
    stackFits s w .d es.length o = true ∧ stackFits s w .r rs.length ro = true := by
  obtain ⟨r, hr⟩ := h.top
  obtain ⟨q, hq⟩ := h.rtop
  refine ⟨stackFits_of s w .d _ _ (h.deep.imp id And.left) h.room ?_, stackFits_of s w .r _ _ (h.deep.imp id And.right) h.rroom ?_⟩
  · simp [headOf, hr]
  · simp [headOf, hq]

theorem need_ok (s : State) (w : Who) (a b c d : Nat) (h1 : stackFits s w .d a b = true)
    (h2 : stackFits s w .r c d = true) : need w a b c d s = .ok ((), s) := by
  simp [need, h1, h2, bind, StateT.bind, get, getThe, MonadStateOf.get, StateT.get, pure, StateT.pure, Except.bind,
    Except.pure]

theorem popE_cons (s : State) (x : Iss) (e : Entry) (r : List Entry) (h : (getC s x.who).dhead = e :: r) :
    popE x .d s = .ok (e, modC s x.who (fun c => { c with dhead := r, ddepth := c.ddepth - 1 })) := by
  simp [popE, headOf, h, modI, setHead, setDepth, depthOf, bind, StateT.bind, get, getThe, MonadStateOf.get, StateT.get,
    pure, StateT.pure, Except.bind, Except.pure, modify, modifyGet, MonadStateOf.modifyGet, StateT.modifyGet]

theorem pop_val (s : State) (x : Iss) (v : Word) (r : List Entry) (h : (getC s x.who).dhead = .val v :: r) :
    pop x s = .ok (v, modC s x.who (fun c => { c with dhead := r, ddepth := c.ddepth - 1 })) := by
  simp [pop, popK, popE_cons s x _ _ h, valueOf, bind, StateT.bind, pure, StateT.pure, Except.bind, Except.pure]

theorem pushE_room (s : State) (x : Iss) (e : Entry) (h : (getC s x.who).dhead.length < 8) :
    pushE x .d e s = .ok ((), modC s x.who (fun c => { c with dhead := e :: c.dhead, ddepth := c.ddepth + 1 })) := by
  have hn : ¬ (getC s x.who).dhead.length = 8 := by omega
  simp [pushE, headOf, Stk.cap, hn, modI, setHead, setDepth, depthOf, bind, StateT.bind, get, getThe, MonadStateOf.get,
    StateT.get, pure, StateT.pure, Except.bind, Except.pure, modify, modifyGet, MonadStateOf.modifyGet,
    StateT.modifyGet]

theorem push_room (s : State) (x : Iss) (v : Word) (h : (getC s x.who).dhead.length < 8) :
    push x v s = .ok ((), modC s x.who (fun c => { c with dhead := .val v :: c.dhead, ddepth := c.ddepth + 1 })) :=
  pushE_room s x (.val v) h

theorem Takes.need {s : State} {w : Who} {es rs : List Entry} {o ro : Nat} (h : Takes s w es rs o ro) :
    Machine.need w es.length o rs.length ro s = .ok ((), s) := need_ok s w _ _ _ _ h.fits.1 h.fits.2

/-- Popping `n` values that lie in the head. -/
theorem popN_vals (x : Iss) (vs : List Word) (s : State) (r : List Entry) (hv : vs ≠ [])
    (h : (getC s x.who).dhead = vs.map .val ++ r) :
    popN x vs.length s = .ok (vs, modC s x.who (fun c => { c with dhead := r, ddepth := c.ddepth - u32 vs.length })) := by
  induction vs generalizing s with
  | nil => exact absurd rfl hv
  | cons v vs ih =>
    have h1 := pop_val s x v (vs.map .val ++ r) (by simpa using h)
    cases vs with
    | nil =>
      simp only [List.length_cons, List.length_nil, popN, bind, StateT.bind, Except.bind, h1]
      simp only [pure, StateT.pure, Except.pure, Except.ok.injEq, Prod.mk.injEq, true_and]
      exact modC_congr _ _ _ _ (by simp [u32])
    | cons u us =>
      have h2 := ih (modC s x.who (fun c => { c with dhead := (u :: us).map .val ++ r, ddepth := c.ddepth - 1 }))
        (by simp) (by simp)
      rw [List.length_cons, popN]
      simp only [bind, StateT.bind, Except.bind, h1, h2]
      simp only [pure, StateT.pure, Except.pure, Except.ok.injEq, Prod.mk.injEq, true_and, modC_modC]
      exact modC_congr _ _ _ _ (by
        simp only [Coach.mk.injEq, and_true, true_and, List.length_cons, u32]
        rw [BitVec.sub_eq_iff_eq_add, BitVec.sub_eq_iff_eq_add]; simp [BitVec.ofNat_add, BitVec.add_assoc])

/-- Pushing values onto a head with room. -/
theorem pushAll_room (x : Iss) (vs : List Word) (s : State) (hv : vs ≠ [])
    (h : (getC s x.who).dhead.length + vs.length ≤ 8) :
    pushAll x vs s = .ok ((), modC s x.who (fun c =>
      { c with dhead := vs.map .val ++ c.dhead, ddepth := c.ddepth + u32 vs.length })) := by
  induction vs with
  | nil => exact absurd rfl hv
  | cons v vs ih =>
    cases vs with
    | nil =>
      simp only [pushAll, bind, StateT.bind, Except.bind, pure, StateT.pure, Except.pure]
      rw [push_room s x v (by simp at h; omega)]
      simp only [Except.ok.injEq, Prod.mk.injEq, true_and]
      exact modC_congr _ _ _ _ (by simp [u32])
    | cons u us =>
      have h2 := ih (by simp) (by simp at h ⊢; omega)
      rw [pushAll]
      simp only [bind, StateT.bind, Except.bind, h2]
      rw [push_room _ x v (by simp at h ⊢; omega)]
      simp only [Except.ok.injEq, Prod.mk.injEq, true_and, modC_modC]
      exact modC_congr _ _ _ _ (by simp [u32, BitVec.ofNat_add, BitVec.add_assoc])

/-! ### Bodies of the common stack effects -/

theorem top_drop {s : State} {w : Who} {es rs : List Entry} {o ro : Nat} (h : Takes s w es rs o ro) :
    (getC s w).dhead = es ++ (getC s w).dhead.drop es.length := by
  obtain ⟨r, hr⟩ := h.top
  rw [hr]; simp

/-- ( -- v ) -/
theorem pushes_ok (s : State) (x : Iss) (v : Word) (h : Takes s x.who [] [] 1 0) :
    pushes v x s = .ok (.seq, modC s x.who (restack 0 [.val v])) := by
  have hn := h.need
  have hr := h.room
  simp only [List.length_nil, Nat.sub_zero] at hn hr
  simp only [pushes, bind, StateT.bind, Except.bind, hn, push_room s x v (by omega), pure, StateT.pure, Except.pure,
    Except.ok.injEq, Prod.mk.injEq, true_and]
  exact modC_congr _ _ _ _ (by simp [restack, u32])

/-- Values replaced by the values a function makes of them. -/
theorem rearrange_ok (s : State) (x : Iss) (vs : List Word) (f : List Word → List Word) (hv : vs ≠ []) (hf : f vs ≠ [])
    (h : Takes s x.who (vs.map .val) [] (f vs).length 0) :
    rearrange vs.length (f vs).length f x s = .ok (.seq, modC s x.who (restack vs.length ((f vs).map .val))) := by
  have hn := h.need
  have ht := top_drop h
  have hl := h.room
  simp only [List.length_map, List.length_nil] at hn ht hl
  have hlen : ((getC s x.who).dhead.drop vs.length).length = (getC s x.who).dhead.length - vs.length := by simp
  simp only [rearrange, bind, StateT.bind, Except.bind, hn, popN_vals x vs s _ hv ht]
  rw [pushAll_room x (f vs) _ hf (by simp only [getC_modC_self]; omega)]
  simp only [pure, StateT.pure, Except.pure, Except.ok.injEq, Prod.mk.injEq, true_and, modC_modC]
  exact modC_congr _ _ _ _ (by simp [restack])

/-- ( a -- f a ) -/
theorem unary_ok (s : State) (x : Iss) (f : Word → Word) (a : Word) (h : Takes s x.who [.val a] [] 1 0) :
    unary f x s = .ok (.seq, modC s x.who (restack 1 [.val (f a)])) := by
  have hn := h.need
  have ht := top_drop h
  have hl := h.room
  simp only [List.length_cons, List.length_nil, Nat.zero_add, List.cons_append, List.nil_append] at hn ht hl
  simp only [unary, bind, StateT.bind, Except.bind, hn, pop_val s x a _ ht]
  rw [push_room _ x (f a) (by simp only [getC_modC_self]; simp; omega)]
  simp only [pure, StateT.pure, Except.pure, Except.ok.injEq, Prod.mk.injEq, true_and, modC_modC]
  exact modC_congr _ _ _ _ (by simp [restack, u32])

/-- ( a b -- f a b ) -/
theorem binary_ok (s : State) (x : Iss) (f : Word → Word → Word) (a b : Word)
    (h : Takes s x.who [.val b, .val a] [] 1 0) :
    binary f x s = .ok (.seq, modC s x.who (restack 2 [.val (f a b)])) := by
  have hn := h.need
  have ht := top_drop h
  have hl := h.room
  simp only [List.length_cons, List.length_nil, Nat.zero_add, Nat.reduceAdd, List.cons_append, List.nil_append] at hn ht hl
  simp only [binary, bind, StateT.bind, Except.bind, hn, pop_val s x b _ ht]
  rw [pop_val _ x a ((getC s x.who).dhead.drop 2) (by simp)]
  simp only []
  rw [push_room _ x (f a b) (by simp only [getC_modC_self]; simp; omega)]
  simp only [pure, StateT.pure, Except.pure, Except.ok.injEq, Prod.mk.injEq, true_and, modC_modC]
  exact modC_congr _ _ _ _ (by
    simp only [restack, Coach.mk.injEq, and_true, true_and, List.length_cons,
      List.length_nil, u32, List.cons_append, List.nil_append]
    bv_omega)

end Sys2Proof.Machine
end

