-- ==== Sys2Proof/Laws/Memory.lean ====
section
/-! SUPPORT. Memory: what a byte reads as after each operation that changes memory, and that each keeps the canonical
form. -/

namespace Sys2Proof.Machine

/-! ### Reading after writing -/

/-- A byte reads as written; every other byte as before. -/
@[simp] theorem rdB_wrB (s : State) (a b : Nat) (v : Byte) : rdB (wrB s a v) b = if b = a then v else rdB s b :=
  SMap.get_set_at unlisted s.mem a b v

/-- Bytes outside the `n` written ones read as before. -/
theorem rdB_wrN_other (s : State) (a n v b : Nat) (h : b < a ∨ a + n ≤ b) : rdB (wrN s a n v) b = rdB s b := by
  induction n generalizing s a v with
  | zero => rfl
  | succ n ih =>
    have hb : b ≠ a := by omega
    simp only [wrN]
    rw [ih _ _ _ (by omega)]
    simp [hb]

/-- Byte `i` of the written ones reads as byte `i` of the value. -/
theorem rdB_wrN_same (s : State) (a n v i : Nat) (h : i < n) :
    rdB (wrN s a n v) (a + i) = BitVec.ofNat 8 (v / 256 ^ i) := by
  induction n generalizing s a v i with
  | zero => omega
  | succ n ih =>
    simp only [wrN]
    cases i with
    | zero => rw [rdB_wrN_other _ _ _ _ _ (by omega)]; simp
    | succ i =>
      have e : a + (i + 1) = (a + 1) + i := by omega
      rw [e, ih _ _ _ _ (by omega), Nat.div_div_eq_div_mul]
      congr 2
      rw [Nat.pow_succ, Nat.mul_comm]

/-- `n` bytes read back as the low `n` bytes of the value written there. -/
theorem rdN_wrN (s : State) (a n v : Nat) : rdN (wrN s a n v) a n = v % 256 ^ n := by
  have key : ∀ (m : Nat) (t : State) (b u : Nat),
      (∀ i, i < m → rdB t (b + i) = BitVec.ofNat 8 (u / 256 ^ i)) → rdN t b m = u % 256 ^ m := by
    intro m
    induction m with
    | zero => intro t b u _; simp [rdN, Nat.mod_one]
    | succ m ih =>
      intro t b u h
      have h0 := h 0 (by omega)
      have hr := ih t (b + 1) (u / 256) (fun i hi => by
        have := h (i + 1) (by omega)
        rw [show b + 1 + i = b + (i + 1) by omega, this, Nat.div_div_eq_div_mul, Nat.pow_succ, Nat.mul_comm])
      simp only [Nat.add_zero, Nat.pow_zero, Nat.div_one] at h0
      have e : (BitVec.ofNat 8 u).toNat = u % 256 := by simp
      simp only [rdN, h0, hr, e]
      rw [Nat.pow_succ' (m := 256), Nat.mod_mul (a := 256)]
  exact key n _ a v (fun i hi => rdB_wrN_same s a n v i hi)

/-- A cleared byte reads as one that nothing has written; every other byte as before. -/
theorem rdB_clrRange (s : State) (lo hi a : Nat) :
    rdB (clrRange s lo hi) a = if lo ≤ a ∧ a < hi then unlisted a else rdB s a := by
  simp only [rdB, clrRange, SMap.get_keep, Bool.or_eq_true, decide_eq_true_eq]
  by_cases h : a < lo ∨ hi ≤ a
  · rw [if_pos h, if_neg (by omega)]
  · rw [if_neg h, if_pos (by omega)]

/-! ### The canonical form -/

theorem wrB_canonical (s : State) (a : Nat) (v : Byte) (h : Canonical s) : Canonical (wrB s a v) :=
  SMap.wfFrom_set unlisted s.mem a v h

theorem wrN_canonical (s : State) (a n v : Nat) (h : Canonical s) : Canonical (wrN s a n v) := by
  induction n generalizing s a v with
  | zero => exact h
  | succ n ih => exact ih _ _ _ (wrB_canonical s a _ h)

theorem wr32_canonical (s : State) (a : Nat) (v : Word) (h : Canonical s) : Canonical (wr32 s a v) := wrN_canonical s a 4 _ h

theorem wr64_canonical (s : State) (a : Nat) (v : DWord) (h : Canonical s) : Canonical (wr64 s a v) := wrN_canonical s a 8 _ h

theorem keep_canonical (s : State) (p : Nat → Bool) (h : Canonical s) : Memory.wf (SMap.keep p s.mem) = true :=
  SMap.wfFrom_keep unlisted p s.mem h

theorem clrRange_canonical (s : State) (lo hi : Nat) (h : Canonical s) : Canonical (clrRange s lo hi) :=
  keep_canonical s (fun k => decide (k < lo) || decide (hi ≤ k)) h

theorem spareWrite_canonical (s : State) (a n v : Nat) (h : Canonical s) : Canonical (spareWrite s a n v) := by
  unfold spareWrite
  split
  · exact wrN_canonical s _ n v h
  · exact wrN_canonical (freeD s).2 _ n _ h

theorem bankPut_canonical (s : State) (a n v : Nat) (h : Canonical s) : Canonical (bankPut s a n v) := by
  unfold bankPut
  dsimp only
  split
  · exact spareWrite_canonical _ a n v (wrN_canonical s a n v h)
  · exact wrN_canonical s a n v h

/-- What keeps the canonical form at each step keeps it through a list. -/
theorem foldl_canonical {α : Type} (f : State → α → State) (hf : ∀ s e, Canonical s → Canonical (f s e)) (l : List α)
    (s : State) (h : Canonical s) : Canonical (l.foldl f s) := by
  induction l generalizing s with
  | nil => exact h
  | cons e l ih => exact ih _ (hf s e h)

theorem reset_canonical : Memory.wf State.reset.mem = true := rfl

/-- Where two states hold the same memory, one is canonical when the other is. -/
theorem Canonical.of_mem_eq {s t : State} (h : t.mem = s.mem) (hs : Canonical s) : Canonical t := by
  unfold Canonical at *; rw [h]; exact hs

theorem openWord_canonical (f : Bool) (s : State) (a : Nat) (h : Canonical s) : Canonical (openWord f s a) := by
  have key : ∀ (t : State) (v e : Nat) (g : Fli → Fli), Canonical t →
      Canonical (modFli (setEcc (wrN t a 8 v) a e) g) :=
    fun t v e g ht => Canonical.of_mem_eq (by simp only [modFli, setEcc_mem]) (wrN_canonical t a 8 v ht)
  exact key _ _ _ _ (show Canonical (freeD (freeD s).2).2 from h)

theorem openWords_canonical (s : State) (a n : Nat) (h : Canonical s) : Canonical (openWords s a n) := by
  induction n generalizing s a with
  | zero => exact h
  | succ n ih => exact ih _ _ (openWord_canonical false s a h)

theorem moveArray_canonical (s : State) (src dst : Nat) (h : Canonical s) : Canonical (moveArray s src dst) := by
  unfold moveArray
  exact foldl_canonical _ (fun t e ht => Canonical.of_mem_eq (setEcc_mem ..) ht) _ _
    (foldl_canonical _ (fun t e ht => wrB_canonical t _ e.2 ht) _ _
      (clrRange_canonical _ _ _ (clrRange_canonical _ _ _ h)))

end Sys2Proof.Machine
end

