-- ==== Sys2Proof/Laws/Settle.lean ====
section
/-! SUPPORT. What the schedulers can change at the end of a command: of a coach its state, its HELD reason, its halt request
and record, the class and attribute under which it is queued, its takeover window, which a switch-in closes, and an unanswered offer; the queue; and
which coach each lane set runs. -/

namespace Sys2Proof.Machine

/-- The coach `d` is `c` but for what the schedulers own. -/
def SameThread (c d : Coach) : Prop :=
  ∃ st held hr h1 h2 h3 h4 qc qa wi off, d = { c with
    window := wi, offered := off, st := st, held := held, haltReq := hr, hpc := h1, hcause := h2, haddr := h3, hinfo := h4, qclass := qc, qattr := qa }

theorem SameThread.refl (c : Coach) : SameThread c c := ⟨_, _, _, _, _, _, _, _, _, _, _, rfl⟩

theorem SameThread.trans {c d e : Coach} (h : SameThread c d) (g : SameThread d e) : SameThread c e := by
  obtain ⟨_, _, _, _, _, _, _, _, _, _, _, rfl⟩ := h
  obtain ⟨_, _, _, _, _, _, _, _, _, _, _, rfl⟩ := g
  exact ⟨_, _, _, _, _, _, _, _, _, _, _, rfl⟩

/-- State `t` is `s` but for what the schedulers own. -/
structure Settled (s t : State) : Prop where
  pending : t.pending = s.pending
  mem : t.mem = s.mem
  ecc : t.ecc = s.ecc
  csr : t.csr = s.csr
  bus : t.bus = s.bus
  draws : t.draws = s.draws
  cycles : t.cycles = s.cycles
  up : t.up = s.up
  fastOn : t.fastOn = s.fastOn
  fastPend : t.fastPend = s.fastPend
  gaps : t.gaps = s.gaps
  div : t.div = s.div
  cons : t.cons = s.cons
  order : t.order = s.order
  sbox : t.sbox = s.sbox
  sbOrder : t.sbOrder = s.sbOrder
  l0cnt : t.l0cnt = s.l0cnt
  src : t.src = s.src
  bank : t.bank = s.bank
  lnc : t.lnc = s.lnc
  mls : t.mls = s.mls
  fli : t.fli = s.fli
  bne : t.bne = s.bne
  stl : t.stl = s.stl
  mcs : t.mcs = s.mcs
  hpt : t.hpt = s.hpt
  pwr : t.pwr = s.pwr
  icache : t.icache = s.icache
  mtr : t.mtr = s.mtr
  mret : t.mret = s.mret
  moves : t.moves = s.moves
  lateAcc : t.lateAcc = s.lateAcc
  fast : SameThread s.fast t.fast
  coach : ∀ n, SameThread (coachOf s n) (coachOf t n)

theorem Settled.refl (s : State) : Settled s s where
  pending := rfl
  mem := rfl
  ecc := rfl
  csr := rfl
  bus := rfl
  draws := rfl
  cycles := rfl
  up := rfl
  fastOn := rfl
  fastPend := rfl
  gaps := rfl
  div := rfl
  cons := rfl
  order := rfl
  sbox := rfl
  sbOrder := rfl
  l0cnt := rfl
  src := rfl
  bank := rfl
  lnc := rfl
  mls := rfl
  fli := rfl
  bne := rfl
  stl := rfl
  mcs := rfl
  hpt := rfl
  pwr := rfl
  icache := rfl
  mtr := rfl
  mret := rfl
  moves := rfl
  lateAcc := rfl
  fast := .refl _
  coach _ := .refl _

theorem Settled.trans {s t u : State} (h : Settled s t) (g : Settled t u) : Settled s u where
  pending := g.pending.trans h.pending
  mem := g.mem.trans h.mem
  ecc := g.ecc.trans h.ecc
  csr := g.csr.trans h.csr
  bus := g.bus.trans h.bus
  draws := g.draws.trans h.draws
  cycles := g.cycles.trans h.cycles
  up := g.up.trans h.up
  fastOn := g.fastOn.trans h.fastOn
  fastPend := g.fastPend.trans h.fastPend
  gaps := g.gaps.trans h.gaps
  div := g.div.trans h.div
  cons := g.cons.trans h.cons
  order := g.order.trans h.order
  sbox := g.sbox.trans h.sbox
  sbOrder := g.sbOrder.trans h.sbOrder
  l0cnt := g.l0cnt.trans h.l0cnt
  src := g.src.trans h.src
  bank := g.bank.trans h.bank
  lnc := g.lnc.trans h.lnc
  mls := g.mls.trans h.mls
  fli := g.fli.trans h.fli
  bne := g.bne.trans h.bne
  stl := g.stl.trans h.stl
  mcs := g.mcs.trans h.mcs
  hpt := g.hpt.trans h.hpt
  pwr := g.pwr.trans h.pwr
  icache := g.icache.trans h.icache
  mtr := g.mtr.trans h.mtr
  mret := g.mret.trans h.mret
  moves := g.moves.trans h.moves
  lateAcc := g.lateAcc.trans h.lateAcc
  fast := h.fast.trans g.fast
  coach n := (h.coach n).trans (g.coach n)

/-! ### Each part of the schedulers -/

theorem settled_setCoach (s : State) (n : Nat) (c : Coach) (h : SameThread (coachOf s n) c) : Settled s (setCoach s n c) :=
  { Settled.refl s with
    fast := .refl _
    coach := fun m => by
      rw [coachOf_setCoach]
      split
      · rename_i e; rw [e]; exact h
      · exact .refl _ }

theorem settled_setRun (s : State) (l : Nat) (r : Option Nat) : Settled s (setRun s l r) := by
  unfold setRun; split
  · exact { Settled.refl s with fast := .refl _, coach := fun _ => .refl _ }
  · split <;> exact { Settled.refl s with fast := .refl _, coach := fun _ => .refl _ }

theorem settled_toTail (s : State) (n : Nat) : Settled s (toTail s n) :=
  { Settled.refl s with fast := .refl _, coach := fun _ => .refl _ }

theorem settled_toHead (s : State) (n : Nat) : Settled s (toHead s n) :=
  { Settled.refl s with fast := .refl _, coach := fun _ => .refl _ }

theorem sameThread_unhold (s : State) (n : Nat) (c : Coach) : SameThread c (unhold s n c) := by
  have d : SameThread c (dropOffer s n c) := by
    unfold dropOffer; split
    · split
      · exact .refl _
      · exact ⟨_, _, _, _, _, _, _, _, _, _, _, rfl⟩
    · exact .refl _
  unfold unhold; split
  · split
    · exact d
    · exact d.trans ⟨_, _, _, _, _, _, _, _, _, _, _, rfl⟩
  · exact d

theorem SMap.get_map {α : Type} (d : α) (f : Nat → α → α) (m : SMap α) (k : Nat) (h : f k d = d) :
    SMap.get d (m.map (fun e => (e.1, f e.1 e.2))) k = f k (SMap.get d m k) := by
  induction m with
  | nil => simp [SMap.get, h]
  | cons e r ih =>
    obtain ⟨j, v⟩ := e
    by_cases hj : j = k
    · subst hj; simp [SMap.get]
    · simp [SMap.get, hj, ih]

theorem settled_refreshHeld (s : State) : Settled s (refreshHeld s) :=
  { Settled.refl s with
    fast := sameThread_unhold s _ _
    coach := fun n => by
      have e : coachOf (refreshHeld s) n = unhold s n (coachOf s n) :=
        SMap.get_map ({} : Coach) (unhold s) s.coach n rfl
      rw [e]; exact sameThread_unhold s n _ }

theorem settled_leave (s : State) (n : Nat) (st : CoachSt) : Settled s (leave s n st) :=
  (settled_setCoach s n { coachOf s n with st := st } ⟨_, _, _, _, _, _, _, _, _, _, _, rfl⟩).trans
    { Settled.refl _ with fast := .refl _, coach := fun _ => .refl _ }

theorem settled_haltNow (s : State) (n : Nat) : Settled s (haltNow s n) :=
  (settled_setCoach s n { coachOf s n with
    haltReq := false, held := none, hpc := (coachOf s n).pc, hcause := 0, haddr := 0, hinfo := 0 }
    ⟨_, _, _, _, _, _, _, _, _, _, _, rfl⟩).trans (settled_leave _ n .halt)

theorem settled_foldl (f : State → Nat → State) (h : ∀ s n, Settled s (f s n)) (l : List Nat) (s : State) :
    Settled s (l.foldl f s) := by
  induction l generalizing s with
  | nil => exact .refl s
  | cons a r ih => exact (h s a).trans (ih _)

theorem settled_applyHalts (s : State) : Settled s (applyHalts s) := settled_foldl haltNow settled_haltNow _ s

theorem settled_pick (l f : Nat) (s : State) : Settled s (pick l f s) := by
  induction f generalizing s with
  | zero => exact .refl s
  | succ f ih =>
    unfold pick
    cases hr : runOf s l with
    | some r =>
      dsimp only
      split
      · exact (settled_setRun s l none).trans (ih _)
      · split
        · exact ((settled_setCoach s r _ ⟨_, _, _, _, _, _, _, _, _, _, _, rfl⟩).trans (settled_setRun _ l none)).trans (ih _)
        · split
          · exact .refl s
          · split
            · exact ((settled_setCoach s r _ ⟨_, _, _, _, _, _, _, _, _, _, _, rfl⟩).trans (settled_setRun _ l none)).trans (ih _)
            · split
              · exact (((settled_setCoach s r _ ⟨_, _, _, _, _, _, _, _, _, _, _, rfl⟩).trans (settled_toHead _ r)).trans
                  (settled_setRun _ l none)).trans (ih _)
              · exact .refl s
    | none =>
      dsimp only
      split
      · exact .refl s
      · split
        · exact ((settled_setCoach s _ _ ⟨_, _, _, _, _, _, _, _, _, _, _, rfl⟩).trans (settled_toTail _ _)).trans (ih _)
        · exact (settled_setCoach s _ _ ⟨_, _, _, _, _, _, _, _, _, _, _, rfl⟩).trans (settled_setRun _ l _)

theorem settled_fixRun (s : State) (l : Nat) : Settled s (fixRun s l) := by
  unfold fixRun; split
  · split
    · exact .refl s
    · exact settled_setRun s l none
  · exact .refl s

/-- Everything that `settle` can change. -/
theorem settled_settle (s : State) : Settled s (settle s) := by
  have h1 := (settled_refreshHeld s).trans (settled_applyHalts _)
  have h2 := ((h1.trans (settled_pick 0 (2 * (applyHalts (refreshHeld s)).queue.length + 4) _)).trans
    (settled_pick 1 (2 * (applyHalts (refreshHeld s)).queue.length + 4) _)).trans
    (settled_pick 2 (2 * (applyHalts (refreshHeld s)).queue.length + 4) _)
  exact ((h2.trans (settled_fixRun _ 0)).trans (settled_fixRun _ 1)).trans (settled_fixRun _ 2)

/-! ### Field by field -/

@[simp] theorem settle_pending (s : State) : (settle s).pending = s.pending := (settled_settle s).pending
@[simp] theorem settle_mem (s : State) : (settle s).mem = s.mem := (settled_settle s).mem
@[simp] theorem settle_ecc (s : State) : (settle s).ecc = s.ecc := (settled_settle s).ecc
@[simp] theorem settle_csr (s : State) : (settle s).csr = s.csr := (settled_settle s).csr
@[simp] theorem settle_bus (s : State) : (settle s).bus = s.bus := (settled_settle s).bus
@[simp] theorem settle_draws (s : State) : (settle s).draws = s.draws := (settled_settle s).draws
@[simp] theorem settle_cycles (s : State) : (settle s).cycles = s.cycles := (settled_settle s).cycles
@[simp] theorem settle_up (s : State) : (settle s).up = s.up := (settled_settle s).up
@[simp] theorem settle_fastOn (s : State) : (settle s).fastOn = s.fastOn := (settled_settle s).fastOn
@[simp] theorem settle_fastPend (s : State) : (settle s).fastPend = s.fastPend := (settled_settle s).fastPend
@[simp] theorem settle_gaps (s : State) : (settle s).gaps = s.gaps := (settled_settle s).gaps
@[simp] theorem settle_div (s : State) : (settle s).div = s.div := (settled_settle s).div
@[simp] theorem settle_cons (s : State) : (settle s).cons = s.cons := (settled_settle s).cons
@[simp] theorem settle_order (s : State) : (settle s).order = s.order := (settled_settle s).order
@[simp] theorem settle_sbox (s : State) : (settle s).sbox = s.sbox := (settled_settle s).sbox
@[simp] theorem settle_sbOrder (s : State) : (settle s).sbOrder = s.sbOrder := (settled_settle s).sbOrder
@[simp] theorem settle_l0cnt (s : State) : (settle s).l0cnt = s.l0cnt := (settled_settle s).l0cnt
@[simp] theorem settle_src (s : State) : (settle s).src = s.src := (settled_settle s).src
@[simp] theorem settle_bank (s : State) : (settle s).bank = s.bank := (settled_settle s).bank
@[simp] theorem settle_lnc (s : State) : (settle s).lnc = s.lnc := (settled_settle s).lnc
@[simp] theorem settle_mls (s : State) : (settle s).mls = s.mls := (settled_settle s).mls
@[simp] theorem settle_fli (s : State) : (settle s).fli = s.fli := (settled_settle s).fli
@[simp] theorem settle_bne (s : State) : (settle s).bne = s.bne := (settled_settle s).bne
@[simp] theorem settle_stl (s : State) : (settle s).stl = s.stl := (settled_settle s).stl
@[simp] theorem settle_mcs (s : State) : (settle s).mcs = s.mcs := (settled_settle s).mcs
@[simp] theorem settle_hpt (s : State) : (settle s).hpt = s.hpt := (settled_settle s).hpt
@[simp] theorem settle_pwr (s : State) : (settle s).pwr = s.pwr := (settled_settle s).pwr
@[simp] theorem settle_icache (s : State) : (settle s).icache = s.icache := (settled_settle s).icache
@[simp] theorem settle_mtr (s : State) : (settle s).mtr = s.mtr := (settled_settle s).mtr
@[simp] theorem settle_mret (s : State) : (settle s).mret = s.mret := (settled_settle s).mret
@[simp] theorem settle_moves (s : State) : (settle s).moves = s.moves := (settled_settle s).moves
@[simp] theorem settle_lateAcc (s : State) : (settle s).lateAcc = s.lateAcc := (settled_settle s).lateAcc

@[simp] theorem rdB_settle (s : State) (a : Nat) : rdB (settle s) a = rdB s a := by simp [rdB]
@[simp] theorem getR_settle (s : State) (a : Nat) : getR (settle s) a = getR s a := by simp [getR]
@[simp] theorem eccAt_settle (s : State) (a : Nat) : eccAt (settle s) a = eccAt s a := by simp [eccAt]
@[simp] theorem consOf_settle (s : State) (e : Nat) : consOf (settle s) e = consOf s e := by simp [consOf]
@[simp] theorem srcOf_settle (s : State) (n : Nat) : srcOf (settle s) n = srcOf s n := by simp [srcOf]
@[simp] theorem bankN_settle (s : State) (n : Nat) : bankN (settle s) n = bankN s n := by simp [bankN]
@[simp] theorem laneOf_settle (s : State) (n : Nat) : laneOf (settle s) n = laneOf s n := by simp [laneOf]
@[simp] theorem divOf_settle (s : State) (l : Nat) : divOf (settle s) l = divOf s l := by simp [divOf]
@[simp] theorem sboxOf_settle (s : State) (l : Nat) : sboxOf (settle s) l = sboxOf s l := by simp [sboxOf]

theorem getC_settle (s : State) (w : Who) : SameThread (getC s w) (getC (settle s) w) := by
  cases w with
  | coach n => exact (settled_settle s).coach n
  | fast => exact (settled_settle s).fast

theorem SameThread.seen {c d : Coach} (h : SameThread c d) : Machine.seen d = Machine.seen c := by
  obtain ⟨_, _, _, _, _, _, _, _, _, _, _, rfl⟩ := h; rfl

@[simp] theorem seen_settle (s : State) (w : Who) : seen (getC (settle s) w) = seen (getC s w) := (getC_settle s w).seen

/-- A field that the schedulers do not own. -/
theorem SameThread.get {α : Type} {c d : Coach} (h : SameThread c d) (f : Coach → α)
    (hf : ∀ st held hr h1 h2 h3 h4 qc qa wi off, f { c with
      window := wi, offered := off, st := st, held := held, haltReq := hr, hpc := h1, hcause := h2, haddr := h3, hinfo := h4, qclass := qc
      qattr := qa } = f c) : f d = f c := by
  obtain ⟨_, _, _, _, _, _, _, _, _, _, _, rfl⟩ := h; exact hf _ _ _ _ _ _ _ _ _ _ _

@[simp] theorem settle_pc (s : State) (w : Who) : (getC (settle s) w).pc = (getC s w).pc :=
  (getC_settle s w).get Coach.pc (fun _ _ _ _ _ _ _ _ _ _ _ => rfl)
@[simp] theorem coachOf_settle_pc (s : State) (n : Nat) : (coachOf (settle s) n).pc = (coachOf s n).pc :=
  settle_pc s (.coach n)
@[simp] theorem settle_status (s : State) (w : Who) : (getC (settle s) w).status = (getC s w).status :=
  (getC_settle s w).get Coach.status (fun _ _ _ _ _ _ _ _ _ _ _ => rfl)
@[simp] theorem coachOf_settle_status (s : State) (n : Nat) : (coachOf (settle s) n).status = (coachOf s n).status :=
  settle_status s (.coach n)
@[simp] theorem settle_dhead (s : State) (w : Who) : (getC (settle s) w).dhead = (getC s w).dhead :=
  (getC_settle s w).get Coach.dhead (fun _ _ _ _ _ _ _ _ _ _ _ => rfl)
@[simp] theorem coachOf_settle_dhead (s : State) (n : Nat) : (coachOf (settle s) n).dhead = (coachOf s n).dhead :=
  settle_dhead s (.coach n)
@[simp] theorem settle_rhead (s : State) (w : Who) : (getC (settle s) w).rhead = (getC s w).rhead :=
  (getC_settle s w).get Coach.rhead (fun _ _ _ _ _ _ _ _ _ _ _ => rfl)
@[simp] theorem coachOf_settle_rhead (s : State) (n : Nat) : (coachOf (settle s) n).rhead = (coachOf s n).rhead :=
  settle_rhead s (.coach n)
@[simp] theorem settle_wake (s : State) (w : Who) : (getC (settle s) w).wake = (getC s w).wake :=
  (getC_settle s w).get Coach.wake (fun _ _ _ _ _ _ _ _ _ _ _ => rfl)
@[simp] theorem coachOf_settle_wake (s : State) (n : Nat) : (coachOf (settle s) n).wake = (coachOf s n).wake :=
  settle_wake s (.coach n)
@[simp] theorem settle_timer (s : State) (w : Who) : (getC (settle s) w).timer = (getC s w).timer :=
  (getC_settle s w).get Coach.timer (fun _ _ _ _ _ _ _ _ _ _ _ => rfl)
@[simp] theorem coachOf_settle_timer (s : State) (n : Nat) : (coachOf (settle s) n).timer = (coachOf s n).timer :=
  settle_timer s (.coach n)
@[simp] theorem settle_stall (s : State) (w : Who) : (getC (settle s) w).stall = (getC s w).stall :=
  (getC_settle s w).get Coach.stall (fun _ _ _ _ _ _ _ _ _ _ _ => rfl)
@[simp] theorem coachOf_settle_stall (s : State) (n : Nat) : (coachOf (settle s) n).stall = (coachOf s n).stall :=
  settle_stall s (.coach n)
@[simp] theorem settle_imprecise (s : State) (w : Who) : (getC (settle s) w).imprecise = (getC s w).imprecise :=
  (getC_settle s w).get Coach.imprecise (fun _ _ _ _ _ _ _ _ _ _ _ => rfl)
@[simp] theorem coachOf_settle_imprecise (s : State) (n : Nat) : (coachOf (settle s) n).imprecise = (coachOf s n).imprecise :=
  settle_imprecise s (.coach n)
@[simp] theorem settle_xcause (s : State) (w : Who) : (getC (settle s) w).xcause = (getC s w).xcause :=
  (getC_settle s w).get Coach.xcause (fun _ _ _ _ _ _ _ _ _ _ _ => rfl)
@[simp] theorem coachOf_settle_xcause (s : State) (n : Nat) : (coachOf (settle s) n).xcause = (coachOf s n).xcause :=
  settle_xcause s (.coach n)
@[simp] theorem settle_xaddr (s : State) (w : Who) : (getC (settle s) w).xaddr = (getC s w).xaddr :=
  (getC_settle s w).get Coach.xaddr (fun _ _ _ _ _ _ _ _ _ _ _ => rfl)
@[simp] theorem coachOf_settle_xaddr (s : State) (n : Nat) : (coachOf (settle s) n).xaddr = (coachOf s n).xaddr :=
  settle_xaddr s (.coach n)
@[simp] theorem settle_xinfo (s : State) (w : Who) : (getC (settle s) w).xinfo = (getC s w).xinfo :=
  (getC_settle s w).get Coach.xinfo (fun _ _ _ _ _ _ _ _ _ _ _ => rfl)
@[simp] theorem coachOf_settle_xinfo (s : State) (n : Nat) : (coachOf (settle s) n).xinfo = (coachOf s n).xinfo :=
  settle_xinfo s (.coach n)
@[simp] theorem settle_timeCap (s : State) (w : Who) : (getC (settle s) w).timeCap = (getC s w).timeCap :=
  (getC_settle s w).get Coach.timeCap (fun _ _ _ _ _ _ _ _ _ _ _ => rfl)
@[simp] theorem coachOf_settle_timeCap (s : State) (n : Nat) : (coachOf (settle s) n).timeCap = (coachOf s n).timeCap :=
  settle_timeCap s (.coach n)
@[simp] theorem settle_stampCap (s : State) (w : Who) : (getC (settle s) w).stampCap = (getC s w).stampCap :=
  (getC_settle s w).get Coach.stampCap (fun _ _ _ _ _ _ _ _ _ _ _ => rfl)
@[simp] theorem coachOf_settle_stampCap (s : State) (n : Nat) : (coachOf (settle s) n).stampCap = (coachOf s n).stampCap :=
  settle_stampCap s (.coach n)
@[simp] theorem settle_l3Req (s : State) (w : Who) : (getC (settle s) w).l3Req = (getC s w).l3Req :=
  (getC_settle s w).get Coach.l3Req (fun _ _ _ _ _ _ _ _ _ _ _ => rfl)
@[simp] theorem coachOf_settle_l3Req (s : State) (n : Nat) : (coachOf (settle s) n).l3Req = (coachOf s n).l3Req :=
  settle_l3Req s (.coach n)
@[simp] theorem settle_drain (s : State) (w : Who) : (getC (settle s) w).drain = (getC s w).drain :=
  (getC_settle s w).get Coach.drain (fun _ _ _ _ _ _ _ _ _ _ _ => rfl)
@[simp] theorem coachOf_settle_drain (s : State) (n : Nat) : (coachOf (settle s) n).drain = (coachOf s n).drain :=
  settle_drain s (.coach n)
@[simp] theorem settle_pexc (s : State) (w : Who) : (getC (settle s) w).pexc = (getC s w).pexc :=
  (getC_settle s w).get Coach.pexc (fun _ _ _ _ _ _ _ _ _ _ _ => rfl)
@[simp] theorem coachOf_settle_pexc (s : State) (n : Nat) : (coachOf (settle s) n).pexc = (coachOf s n).pexc :=
  settle_pexc s (.coach n)
@[simp] theorem settle_out (s : State) (w : Who) : (getC (settle s) w).out = (getC s w).out :=
  (getC_settle s w).get Coach.out (fun _ _ _ _ _ _ _ _ _ _ _ => rfl)
@[simp] theorem coachOf_settle_out (s : State) (n : Nat) : (coachOf (settle s) n).out = (coachOf s n).out :=
  settle_out s (.coach n)
@[simp] theorem settle_step (s : State) (w : Who) : (getC (settle s) w).step = (getC s w).step :=
  (getC_settle s w).get Coach.step (fun _ _ _ _ _ _ _ _ _ _ _ => rfl)
@[simp] theorem coachOf_settle_step (s : State) (n : Nat) : (coachOf (settle s) n).step = (coachOf s n).step :=
  settle_step s (.coach n)
@[simp] theorem settle_fetched (s : State) (w : Who) : (getC (settle s) w).fetched = (getC s w).fetched :=
  (getC_settle s w).get Coach.fetched (fun _ _ _ _ _ _ _ _ _ _ _ => rfl)
@[simp] theorem coachOf_settle_fetched (s : State) (n : Nat) : (coachOf (settle s) n).fetched = (coachOf s n).fetched :=
  settle_fetched s (.coach n)
@[simp] theorem settle_waited (s : State) (w : Who) : (getC (settle s) w).waited = (getC s w).waited :=
  (getC_settle s w).get Coach.waited (fun _ _ _ _ _ _ _ _ _ _ _ => rfl)
@[simp] theorem coachOf_settle_waited (s : State) (n : Nat) : (coachOf (settle s) n).waited = (coachOf s n).waited :=
  settle_waited s (.coach n)

end Sys2Proof.Machine
end

