-- ==== Sys2Proof/WellFormed.lean ====
section
/-! DEFINITION. Which commands the block can meet: operands that name something the spec has. -/

namespace Sys2Proof

/-- The reserved codes of the opcode map, 0xFF among them (spec/03, R65). -/
def reservedOpcodes : List Nat :=
  [0x2F, 0x4F, 0x6E, 0x7D, 0x7E, 0x7F] ++ (List.range 8).map (0x88 + ·) ++ [0x9D, 0x9E, 0x9F, 0xA5, 0xA6, 0xA7]
    ++ (List.range 6).map (0xAA + ·) ++ (List.range 11).map (0xB5 + ·) ++ (List.range 12).map (0xC4 + ·)
    ++ (List.range 15).map (0xD1 + ·) ++ (List.range 16).map (0xF0 + ·)

/-- Code `op`, after the escape prefix or not, is one that raises ILLEGAL (R65). -/
def illegalCode (op : BitVec 8) (escape : Bool) : Bool :=
  if escape then decide (0x42 ≤ op.toNat) else reservedOpcodes.contains op.toNat

/-- Islands between which items cross (spec/01, ZW_MTR_FAIL): two different ones, and of a lane only the synchroniser that a
free lane has at the Keystone (R18). -/
def mortarEnds (src dst : BitVec 4) : Bool :=
  decide (src.toNat ≤ 0xC) && decide (dst.toNat ≤ 0xC) && src != dst
    && (decide (4 ≤ src.toNat) || dst == 4) && (decide (4 ≤ dst.toNat) || src == 4)

/-- The conditions on a command's operands. A step of MOVE, FILL or MCMP does some work (R87); the sectors of a start-up
are named once. WS_BYPASS is loaded by its code, or by a reserved one. -/
def Instr.wf : Instr → Bool
  | .moveMem _ k _ => decide (0 < k.val)
  | .fillMem _ k => decide (0 < k.val)
  | .mcmp _ k _ => decide (0 < k.val)
  | .illegal _ op escape => illegalCode op escape
  | .mortarRetry src dst _ _ => mortarEnds src dst
  | .mortarReoffer src dst => mortarEnds src dst
  | .wsBypass code => code == 0 || decide (8 ≤ code.toNat)
  | .resetRelease x => decide x.bad.Nodup
  | _ => true

end Sys2Proof
end

