-- ==== Sys2Proof/Tests/Slice0.lean ====
section
/-! SUPPORT. Tests: the checks of WellFormed, states that meet the hypotheses of the statements (`witness_…`, named after the
statement), and single commands on small states (`test_…`), whose expected results come from the rules of spec/. -/

namespace Sys2Proof.Tests

set_option Elab.async false

open Sys2Proof Sys2Proof.Machine

/-! ### Well-formed commands -/

theorem wf_move_empty_step : (Instr.moveMem ⟨0, false⟩ 0 ⟨Vector.replicate 18 0, none⟩).wf = false := by decide
theorem wf_fill_empty_step : (Instr.fillMem ⟨0, false⟩ 0).wf = false := by decide
theorem wf_mcmp_empty_step : (Instr.mcmp ⟨0, false⟩ 0 ⟨Vector.replicate 18 0, none⟩).wf = false := by decide
theorem wf_illegal_of_a_legal_code : (Instr.illegal ⟨0, false⟩ 0x10 false).wf = false := by decide
theorem wf_retry_within_one_island : (Instr.mortarRetry 4 4 (.internal .ledger) false).wf = false := by decide
theorem wf_retry_of_a_lane_past_the_keystone : (Instr.mortarRetry 0 12 (.internal (.wake 1 2)) true).wf = false := by decide
theorem wf_reoffer_to_no_island : (Instr.mortarReoffer 4 13).wf = false := by decide
theorem wf_start_up_with_a_sector_twice : (Instr.resetRelease ⟨0, 15, [], none, [3, 3]⟩).wf = false := by decide
theorem wf_bypass_of_an_instruction_with_a_row : (Instr.wsBypass 3).wf = false ∧ (Instr.wsBypass 0).wf = true ∧ (Instr.wsBypass 8).wf = true := by decide
theorem wf_legal_commands : (Instr.moveMem ⟨0, false⟩ 64 ⟨Vector.replicate 18 0, none⟩).wf = true ∧
    (Instr.illegal ⟨0, false⟩ 0xFF false).wf = true ∧ (Instr.illegal ⟨0, false⟩ 0x42 true).wf = true ∧
    (Instr.mortarRetry 4 12 (.internal (.wake 1 2)) true).wf = true ∧ (Instr.resetRelease ⟨8, 15, [], none, [3]⟩).wf = true := by decide

/-! ### Small states -/

/-- The state that a command leaves satisfies `p`. -/
def got (o : Host.Outcome State Fault Refusal) (p : State → Bool) : Bool :=
  match o with
  | .next t => p t
  | _ => false

/-- Lanes 0 to 2 vote, lane 3 is spare. -/
def voters : SMap Lane := [(0, { role := .voter, pos := 0 }), (1, { role := .voter, pos := 1 }),
  (2, { role := .voter, pos := 2 }), (3, { role := .spare })]

/-- Lanes 0 and 2 are the compared pair, 1 and 3 are free. -/
def pairs : SMap Lane := [(0, { role := .pair, pos := 0 }), (1, { role := .free }), (2, { role := .pair, pos := 2 }),
  (3, { role := .free })]

/-- A coach in ring 0 with the given heads, about to issue from the boot ROM, its stacks in bank 0. -/
def co (d r : List Entry) : Coach :=
  { st := .run, pc := 0x100, status := 0x0000FF00, dsp := 0x10001000, rsp := 0x10002000, ddepth := u32 d.length
    rdepth := u32 r.length, dlim := 0x10000800, rlim := 0x10001800, xdsp := 0x10003000, xrsp := 0x10004000, dhead := d
    rhead := r, wbp := 0x10005000, wblim := 0x10005FFF }

/-- The block in service mode, with coach 0 running. -/
def run1 (c : Coach) : State := { State.reset with
  up := true, csr := [(aRngCtl, 1), (aRngLock, 1)], coach := [(0, c)], queue := [0], run0 := some 0
  lnc := { lanes := voters } }

/-- The block in PAIRED mode, with coach 0 running on free lane 1. -/
def runFree (c : Coach) : State := { run1 c with run0 := none, run1 := some 0, lnc := { set := .paired, lanes := pairs } }

/-- The block in service mode, with the FAST handler running. -/
def runFast (c : Coach) : State := { run1 {} with coach := [], queue := [], run0 := none, fast := c, fastOn := some none }

abbrev l0 : LaneUse := ⟨0, false⟩
abbrev l1 : LaneUse := ⟨1, false⟩
abbrev c0 : Who := .coach 0

/-- Entries that hold the given values, top first. -/
def ve (l : List Nat) : List Entry := l.map (fun n => .val (u32 n))

/-! ### Deciding the terms of Safety -/

def canIssue (s : State) (l : LaneUse) (w : Who) (n : Nat) : Bool :=
  !l.borrowed && lsRuns s l.set.val && issuer s l.set.val == some w && !(l.set == 0 && fastReady s)
    && (getC s w).held.isNone && (getC s w).stall.isNone && !(getC s w).drain && (getC s w).window.isNone
    && (getC s w).out.isEmpty && (atBoundary s w).isNone && s.mcs.vact.isEmpty
    && fetchAll s ⟨w, l.set.val⟩ (fetchWords (getC s w).pc.toNat n) == .ok

theorem issues_of {s : State} {l : LaneUse} {w : Who} {n : Nat} (h : canIssue s l w n = true) : Issues s l w n := by
  simp only [canIssue, Bool.and_eq_true, Bool.not_eq_true', beq_iff_eq, Option.isNone_iff_eq_none, List.isEmpty_iff,
    and_assoc] at h
  obtain ⟨own, lane, who, slow, held, stall, drain, window, out, quiet, vact, fetched⟩ := h
  refine { own, lane, who, fetched, quiet, notFast := slow, notHeld := held, notStalled := stall, notDraining := drain,
           noWindow := window, posted := out, unpatched := fun op => ?_ }
  simp [overrideOf, vact]

def canTake (s : State) (w : Who) (es rs : List Entry) (o ro : Nat) : Bool :=
  (getC s w).dhead.take es.length == es && (getC s w).rhead.take rs.length == rs
    && (headOnly s w || (decide (es.length ≤ (getC s w).ddepth.toNat) && decide (rs.length ≤ (getC s w).rdepth.toNat)))
    && decide ((getC s w).dhead.length - es.length + o ≤ 8) && decide ((getC s w).rhead.length - rs.length + ro ≤ 4)

theorem takes_of {s : State} {w : Who} {es rs : List Entry} {o ro : Nat} (h : canTake s w es rs o ro = true) :
    Takes s w es rs o ro := by
  simp only [canTake, Bool.and_eq_true, Bool.or_eq_true, beq_iff_eq, decide_eq_true_eq, and_assoc] at h
  obtain ⟨a, b, deep, room, rroom⟩ := h
  refine ⟨⟨(getC s w).dhead.drop es.length, ?_⟩, ⟨(getC s w).rhead.drop rs.length, ?_⟩, deep, room, rroom⟩
  · conv => lhs; rw [← List.take_append_drop es.length (getC s w).dhead, a]
  · conv => lhs; rw [← List.take_append_drop rs.length (getC s w).rhead, b]

def canReach (s : State) (w : Who) (r : Req) (k : Access) (a n : Nat) : Bool :=
  inBanks a n && (ownerRefusal s r a n k).isNone && (bankParts a n).all (fun p => powerAns s (bankOf p.1) == .ok)
    && s.ecc.isEmpty && (openOver s w a n (fun _ => true)).isEmpty
    && decide (entriesHeld s (numOf s w) < quotaOf s (numOf s w)) && !(consOf s (numOf s w)).used && (getC s w).told.isEmpty
    && (k != .store || !(vtlock s && inVectors a n))

theorem accessible_of {s : State} {w : Who} {r : Req} {k : Access} {a n : Nat} (h : canReach s w r k a n = true) :
    Accessible s w r k a n := by
  simp only [canReach, Bool.and_eq_true, Option.isNone_iff_eq_none, List.all_eq_true, beq_iff_eq, List.isEmpty_iff,
    Bool.or_eq_true, bne_iff_ne, ne_eq, Bool.not_eq_true', decide_eq_true_eq, and_assoc] at h
  obtain ⟨inside, owner, power, ecc, quiet, quota, free, untold, unlocked⟩ := h
  exact { inside, owner, power, quiet, quota, free, untold, clean := fun x _ _ => by rw [eccAt, ecc]; rfl,
          unlocked := fun hk => by simpa [hk] using unlocked }

def canOpen (s : State) (l : LaneUse) (w : Who) (k : Access) (a n : Nat) : Bool :=
  regionN a n == some .bank && (ownerRefusal s (reqOf s ⟨w, l.set.val⟩) a n k).isNone
    && decide (entriesHeld s (numOf s w) < quotaOf s (numOf s w)) && !(consOf s (numOf s w)).used && decide (queued s 5 < 8)

theorem admitsOpen_of {s : State} {l : LaneUse} {w : Who} {k : Access} {a n : Nat} (h : canOpen s l w k a n = true) :
    AdmitsOpen s l w k a n := by
  simp only [canOpen, Bool.and_eq_true, beq_iff_eq, Option.isNone_iff_eq_none, decide_eq_true_eq, Bool.not_eq_true', and_assoc] at h
  exact { bank := h.1, owner := h.2.1, quota := h.2.2.1, free := h.2.2.2.1, room := h.2.2.2.2 }

def mayAccess (s : State) (c : BitVec 10) (r : Nat) : Bool := s.up && decide (ringOf (getC s (whoOf s c.toNat)) ≤ r) && laneOfWho s (whoOf s c.toNat) == 0

theorem mayAccess_of {s : State} {c : BitVec 10} {r : Nat} (h : mayAccess s c r = true) : MayAccess s c r := by
  simpa [mayAccess, MayAccess, and_assoc] using h

def canStore (s : State) (l : LaneUse) (w : Who) (a n : Nat) : Bool :=
  inBanks a n && (ownerRefusal s (reqOf s ⟨w, l.set.val⟩) a n .store).isNone && !(vtlock s && inVectors a n)

theorem storable_of {s : State} {l : LaneUse} {w : Who} {a n : Nat} (h : canStore s l w a n = true) : Storable s l w a n := by
  rw [canStore, Bool.and_eq_true, Bool.and_eq_true, Option.isNone_iff_eq_none, Bool.not_eq_true'] at h
  exact ⟨h.1.1, h.1.2, h.2⟩

/-- An instruction of `len` bytes that takes these entries and pushes as many. -/
structure Form where
  len : Nat
  es : List Entry
  rs : List Entry
  o : Nat
  ro : Nat

def Form.state (f : Form) : State := run1 (co f.es f.rs)
def Form.ok (f : Form) : Bool := canIssue f.state l0 c0 f.len && canTake f.state c0 f.es f.rs f.o f.ro

/-- In the state of each form the instruction issues and its entries are there. -/
theorem forms_met (fs : List Form) (h : fs.all Form.ok = true) :
    ∀ f ∈ fs, Issues f.state l0 c0 f.len ∧ Takes f.state c0 f.es f.rs f.o f.ro := by
  intro f hf
  have := List.all_eq_true.mp h f hf
  simp only [Form.ok, Bool.and_eq_true] at this
  exact ⟨issues_of this.1, takes_of this.2⟩

/-! ### The machine -/

theorem witness_EmptyQueueIsACycle : State.reset.pending = [] ∧ State.reset.up = false ∧
    (run1 (co [] [])).pending = [] ∧ (run1 (co [] [])).up = true ∧ bit (getR (setR (run1 (co [] [])) aMlsCtl 0) aMlsCtl) 2 = false ∧
    (let s := setR (run1 (co [] [])) aMlsCtl 4
     bit (getR s aMlsCtl) 2 = true ∧ s.mls.slew = 0 ∧ (s.mls.frac + (getR s aMlsFreq).toInt).natAbs < 1000000000) := by decide

theorem witness_LanesRunCoachesInRun : LanesRun (run1 (co [] [])) ∧ OneLaneSet (run1 (co [] [])) ∧
    ∃ t, step (run1 (co [] [])) = .next t := by
  have only : ∀ l n, runOf (run1 (co [] [])) l = some n → l = 0 ∧ n = 0 := by
    intro l n h
    unfold runOf run1 at h
    split at h
    · cases h; exact ⟨‹_›, rfl⟩
    · split at h <;> cases h
  refine ⟨fun l n h => ?_, fun l k n _ _ h g => (only l n h).1.trans (only k n g).1.symm, _, rfl⟩
  obtain ⟨-, rfl⟩ := only l n h
  rfl

theorem witness_MemoryStaysCanonical : Canonical { run1 (co [] []) with mem := [(0x10000000, 7)] } ∧
    ∃ t, step { run1 (co [] []) with mem := [(0x10000000, 7)] } = .next t := ⟨by unfold Canonical; decide, _, rfl⟩

theorem witness_InstructionFrame : (run1 (co [] [])).up = true := rfl

/-- Coach 0 at the last instruction of a loop with count `n`. -/
def looping (n : Nat) : State :=
  run1 { co [] [] with lstart := 0x80, lend := 0x100, lcount := u32 n, status := 0x0008FF00 }

theorem witness_NopAndLoopBack : Issues (run1 (co [] [])) l0 c0 1 ∧ Issues (looping 1) l0 c0 1 ∧ Issues (looping 2) l0 c0 1 :=
  ⟨issues_of (by decide +kernel), issues_of (by decide +kernel), issues_of (by decide +kernel)⟩

/-! ### Stacks, arithmetic, control -/

/-- The pushes of StackInstructions. -/
theorem witness_StackInstructionsPush : (∀ f ∈ ([⟨1, [], [], 1, 0⟩, ⟨2, [], [], 1, 0⟩, ⟨3, [], [], 1, 0⟩, ⟨5, [], [], 1, 0⟩] : List Form),
      Issues f.state l0 c0 f.len ∧ Takes f.state c0 f.es f.rs f.o f.ro) ∧
    l1.set ≠ 0 ∧ Issues (runFree (co [] [])) l1 c0 1 ∧ Takes (runFree (co [] [])) c0 [] [] 1 0 :=
  ⟨forms_met _ (by decide +kernel), by decide, issues_of (by decide +kernel), takes_of (by decide +kernel)⟩

/-- Six entries lie between PICK's number and the entry it copies: the most that a head holds. -/
theorem witness_StackInstructions : ∀ f ∈ ([⟨1, ve [1], [], 2, 0⟩, ⟨1, ve [1], [], 0, 0⟩, ⟨1, ve [1, 2], [], 2, 0⟩,
      ⟨1, ve [1, 2, 3], [], 3, 0⟩, ⟨1, ve [1, 2], [], 1, 0⟩, ⟨1, ve [1, 2], [], 3, 0⟩, ⟨1, ve [1, 2], [], 4, 0⟩,
      ⟨1, [.load 0 false, .div 0], [], 0, 0⟩, ⟨1, ve [1, 2, 3, 4], [], 4, 0⟩, ⟨1, [.div 0, .val 2], [], 3, 0⟩,
      ⟨1, ve [6, 1, 2, 3, 4, 5, 6, 9], [], 8, 0⟩, ⟨1, ve [0, 9], [], 2, 0⟩, ⟨1, ve [1], [], 0, 1⟩, ⟨1, [], ve [1], 1, 0⟩,
      ⟨1, [], ve [1], 1, 1⟩, ⟨1, [], [.div 0], 0, 0⟩] : List Form),
    Issues f.state l0 c0 f.len ∧ Takes f.state c0 f.es f.rs f.o f.ro := forms_met _ (by decide +kernel)

theorem witness_PendingAndMissingEntries :
    (∀ f ∈ ([⟨1, [.div 0], [], 2, 0⟩, ⟨1, [.load 0 false, .val 1], [], 3, 0⟩, ⟨1, [], [], 1, 0⟩] : List Form),
      Issues f.state l0 c0 f.len ∧ Takes f.state c0 f.es f.rs f.o f.ro) ∧ (∀ v, Entry.div 0 ≠ .val v) ∧
    headOnly (run1 (co [] [])) c0 = false ∧ (getC (run1 (co [] [])) c0).ddepth = 0 ∧ (getC (run1 (co [] [])) c0).rdepth = 0 :=
  ⟨forms_met _ (by decide +kernel), by simp, by decide +kernel, by decide +kernel, by decide +kernel⟩

/-- Coach 0 in ring 0 with two operands and the given low STATUS bits: 0x28 C and VTRAP, 0x2C PRE too. -/
def flagged (st : Word) (d : List Nat) : State := run1 { co (ve d) [] with status := 0x0000FF00 ||| st }

/-- No overflow; an overflow under VTRAP; one with PRE set. -/
theorem witness_ArithmeticResultsAndFlags : ∀ st ∈ ([0, 0x28, 0x2C] : List Word),
    Issues (flagged st [1, 0x7FFFFFFF]) l0 c0 1 ∧ Takes (flagged st [1, 0x7FFFFFFF]) c0 (ve [1, 0x7FFFFFFF]) [] 1 0 ∧
    Issues (flagged st [0x80000000]) l0 c0 1 ∧ Takes (flagged st [0x80000000]) c0 (ve [0x80000000]) [] 1 0 := by
  intro st h
  fin_cases h <;>
    exact ⟨issues_of (by decide +kernel), takes_of (by decide +kernel), issues_of (by decide +kernel), takes_of (by decide +kernel)⟩

theorem witness_UnaryResults : ∀ f ∈ ([⟨1, ve [0], [], 1, 0⟩, ⟨1, ve [0xFFFFFFFF], [], 1, 0⟩, ⟨1, ve [0x80000000], [], 1, 0⟩] : List Form),
    Issues f.state l0 c0 f.len ∧ Takes f.state c0 f.es f.rs f.o f.ro := forms_met _ (by decide +kernel)

theorem witness_BinaryResults : ∀ f ∈ ([⟨1, ve [31, 5], [], 1, 0⟩, ⟨1, ve [32, 5], [], 1, 0⟩, ⟨1, ve [9, 3, 3], [], 1, 0⟩] : List Form),
    Issues f.state l0 c0 f.len ∧ Takes f.state c0 f.es f.rs f.o f.ro := forms_met _ (by decide +kernel)

/-- The divider of lane set 0 holds a division of coach 0. -/
def dividing (precise : Bool) (c : Coach) : State :=
  { run1 c with div := [(0, some ⟨0, false, 7, false, 0xFF, precise⟩)] }

theorem witness_Division :
    (∀ s ∈ [run1 (co (ve [0, 5]) []), flagged 4 [0, 5], dividing false (co (ve [0, 5]) [])],
      Issues s l0 c0 1 ∧ Takes s c0 (ve [0, 5]) [] 1 0) ∧
    divOf (run1 (co (ve [0, 5]) [])) 0 = none ∧ preOf (getC (run1 (co (ve [0, 5]) [])) c0) = false ∧
    divOf (flagged 4 [0, 5]) 0 = none ∧ preOf (getC (flagged 4 [0, 5]) c0) = true ∧
    divOf (dividing false (co [.div 0] [])) 0 = some ⟨0, false, 7, false, 0xFF, false⟩ ∧
    (∀ f : Option XItem, let s := dividing true { co (ve [2, 15]) [] with
        stall := some { pops := 2, push := [7], len := 1, divides := some 0, fail := f } }
      divOf s 0 = some ⟨0, false, 7, false, 0xFF, true⟩ ∧
      (getC s c0).stall = some { pops := 2, push := [7], len := 1, divides := some 0, fail := f }) := by
  refine ⟨?_, by decide +kernel, by decide +kernel, by decide +kernel, by decide +kernel, by decide +kernel, fun f => ⟨rfl, rfl⟩⟩
  intro s h
  simp only [List.mem_cons, List.not_mem_nil, or_false] at h
  obtain rfl | rfl | rfl := h <;> exact ⟨issues_of (by decide +kernel), takes_of (by decide +kernel)⟩

theorem witness_ControlTransfer : ∀ f ∈ ([⟨2, [], [], 0, 0⟩, ⟨3, [], [], 0, 0⟩, ⟨2, ve [0], [], 0, 0⟩, ⟨3, ve [1], [], 0, 0⟩,
      ⟨3, [], [], 0, 1⟩, ⟨4, [], [], 0, 1⟩, ⟨1, ve [0x200], [], 0, 1⟩, ⟨1, ve [0x200], [], 0, 0⟩, ⟨1, [], ve [0x200], 0, 0⟩] : List Form),
    Issues f.state l0 c0 f.len ∧ Takes f.state c0 f.es f.rs f.o f.ro := forms_met _ (by decide +kernel)

theorem witness_LoopsAddressRegistersReservedCodes : ∀ f ∈ ([⟨2, ve [3], [], 0, 0⟩, ⟨3, ve [3], [], 0, 0⟩, ⟨1, ve [0xFFFFFFFF], [], 0, 0⟩,
      ⟨1, [], [], 0, 0⟩, ⟨5, [], [], 0, 0⟩, ⟨1, [], [], 1, 0⟩, ⟨3, [], [], 1, 0⟩] : List Form),
    Issues f.state l0 c0 f.len ∧ Takes f.state c0 f.es f.rs f.o f.ro := forms_met _ (by decide +kernel)

/-- An action that ends without an exception ends in some state. -/
theorem unit_of {m : M Unit} {s : State} (h : (match m s with | .ok _ => true | .error _ => false) = true) :
    ∃ u, m s = .ok ((), u) := by
  cases hx : m s with
  | ok p => exact ⟨p.2, rfl⟩
  | error e => rw [hx] at h; exact absurd h (by simp)

theorem witness_CoachRegisters :
    (∀ f ∈ ([⟨2, [], [], 1, 0⟩, ⟨2, ve [1], [], 0, 0⟩] : List Form),
      Issues f.state l0 c0 f.len ∧ Takes f.state c0 f.es f.rs f.o f.ro) ∧
    (∀ st ∈ ([1, 2] : List Word), ringOf (coachOf (flagged st [1]) 0) = st.toNat ∧ Issues (flagged st [1]) l0 c0 2 ∧
      Takes (flagged st [1]) c0 (ve [1]) [] 0 0) ∧
    (1 < ringOf (coachOf (flagged 2 []) 0) ∧ Issues (flagged 2 []) l0 c0 2 ∧ Takes (flagged 2 []) c0 [] [] 1 0) ∧
    (∀ p ∈ ([(1, 0x1FF01), (2, 0x0FE02)] : List (Word × Nat)), let s := flagged p.1 [p.2]
      Issues s l0 c0 2 ∧ Takes s c0 (ve [p.2]) [] 0 0 ∧
        ((1 ≤ ringOf (coachOf s 0) ∧ (u32 p.2 ^^^ (coachOf s 0).status) &&& 0x00010000 ≠ 0) ∨
         (2 ≤ ringOf (coachOf s 0) ∧ (u32 p.2 ^^^ (coachOf s 0).status) &&& 0x0001FF00 ≠ 0))) ∧
    (let s := run1 (co (ve [1, 7]) (ve [8]))
     svc s = true ∧ Issues s l0 c0 2 ∧ Takes s c0 (ve [1]) [] 0 0 ∧
       (∃ u, (do spillAll ⟨c0, 0⟩ .d : M Unit) (modC s c0 (restack 1 [])) = .ok ((), u)) ∧
       ∃ u, (do spillAll ⟨c0, 0⟩ .r : M Unit) (modC s c0 (restack 1 [])) = .ok ((), u)) ∧
    (let s := run1 { co (ve [1, 7]) (ve [8]) with dsp := 0x10000800, rsp := 0x10001800 }
     let c := coachOf s 0
     svc s = true ∧ Issues s l0 c0 2 ∧ Takes s c0 (ve [1]) [] 0 0 ∧ 1 < c.dhead.length ∧ c.rhead ≠ [] ∧
       c.dsp.toNat < spillLimit s .d c + 4 * (c.dhead.length - 1) ∧ c.rsp.toNat < spillLimit s .r c + 4 * c.rhead.length) ∧
    (let s := { run1 (co (ve [1]) []) with csr := [] }
     svc s = false ∧ Issues s l0 c0 2 ∧ Takes s c0 (ve [1]) [] 0 0) := by
  refine ⟨forms_met _ (by decide +kernel), fun st h => ?_, ⟨by decide +kernel, issues_of (by decide +kernel), takes_of (by decide +kernel)⟩,
    fun p h => ?_, ⟨by decide +kernel, issues_of (by decide +kernel), takes_of (by decide +kernel), unit_of (by decide +kernel), unit_of (by decide +kernel)⟩,
    ⟨by decide +kernel, issues_of (by decide +kernel), takes_of (by decide +kernel), by decide +kernel⟩,
    by decide +kernel, issues_of (by decide +kernel), takes_of (by decide +kernel)⟩
  · fin_cases h <;> exact ⟨by decide +kernel, issues_of (by decide +kernel), takes_of (by decide +kernel)⟩
  · fin_cases h <;> exact ⟨issues_of (by decide +kernel), takes_of (by decide +kernel), by decide +kernel⟩

/-! ### Memory -/

/-- LDD of the last word of bank 0, and LD.A+ and LD.B+ of the word before it. -/
theorem witness_BankLoadsIssue :
    (let s := run1 (co (ve [0x1000FFF8]) [])
     s.up = true ∧ Issues s l0 c0 1 ∧ Takes s c0 (ve [0x1000FFF8]) [] 2 0 ∧ AdmitsOpen s l0 c0 .load 0x1000FFF8 8 ∧
       forward s c0 0x1000FFF8 8 = .none) ∧
    (let s := run1 { co [] [] with a := 0x1000FFF4, b := 0x1000FFF4 }
     s.up = true ∧ (getC s c0).a = 0x1000FFF4 ∧ (getC s c0).b = 0x1000FFF4 ∧ Issues s l0 c0 1 ∧ Takes s c0 [] [] 1 0 ∧
       AdmitsOpen s l0 c0 .load 0x1000FFF4 4 ∧ forward s c0 0x1000FFF4 4 = .none) :=
  ⟨⟨rfl, issues_of (by decide +kernel), takes_of (by decide +kernel), admitsOpen_of (by decide +kernel), by decide +kernel⟩,
   rfl, rfl, rfl, issues_of (by decide +kernel), takes_of (by decide +kernel), admitsOpen_of (by decide +kernel), by decide +kernel⟩

/-- STD to the first word behind the locked vector table, and ST.A+ and STB.B+ likewise. -/
theorem witness_BankStoresIssue :
    (let s := run1 (co (ve [0x10000400, 2, 1]) [])
     s.up = true ∧ Issues s l0 c0 1 ∧ Takes s c0 (ve [0x10000400, 2, 1]) [] 0 0 ∧
       (vtlock s && inVectors 0x10000400 8) = false ∧ AdmitsOpen s l0 c0 .store 0x10000400 8) ∧
    (let s := run1 { co (ve [1]) [] with a := 0x10000400, b := 0x10000400 }
     s.up = true ∧ (getC s c0).a = 0x10000400 ∧ (getC s c0).b = 0x10000400 ∧ Issues s l0 c0 1 ∧ Takes s c0 (ve [1]) [] 0 0 ∧
       (vtlock s && inVectors 0x10000400 4) = false ∧ AdmitsOpen s l0 c0 .store 0x10000400 4) :=
  ⟨⟨rfl, issues_of (by decide +kernel), takes_of (by decide +kernel), by decide +kernel, admitsOpen_of (by decide +kernel)⟩,
   rfl, rfl, rfl, issues_of (by decide +kernel), takes_of (by decide +kernel), by decide +kernel, admitsOpen_of (by decide +kernel)⟩

/-- Coach 0 runs and consignment entry 0 holds `k`. -/
def open1 (k : Cons) : State := { run1 (co [.load 0 false] []) with cons := [(0, k)], order := 1 }

/-- A word access of coach 0 to bank 0, in its entry for the first time. -/
def wordAt (kind : CKind) : Cons := { used := true, gen := 1, kind := kind, addr := 0x10000404, size := 4, data := 0x01020304 }

theorem witness_BankCompletion : ∀ kind ∈ [CKind.load true, .store],
    let s := open1 (wordAt kind)
    let k := consOf s 0
    s.up = true ∧ k.used = true ∧ k.gen = (1 : BitVec 16).toNat ∧ k.done = none ∧ k.early = none ∧ k.orphan = false ∧
    (k.fast = true → s.fastOn ≠ none) ∧ region k.addr = some .bank ∧ bankParts k.addr k.size = [(k.addr, k.size)] ∧
    (bankN s (bankOf k.addr)).pwr = 0 ∧ (∀ x ∈ wordsOf k.addr k.size, eccAt s x = 0) ∧ behind s k = false ∧
    retrying s 0 = false ∧ heldBack s k = false ∧ (getC s (consWho k)).out = [] ∧ k.kind = kind ∧ copying s (bankOf k.addr) = false := by
  intro kind h
  fin_cases h <;> decide +kernel

theorem witness_FailingConsignments :
    (let s := open1 { wordAt .store with early := some 3 }
     let k := consOf s 0
     s.up = true ∧ s.bne.ops = [] ∧ (∀ x ∈ s.cons, x.2.kind.isBnop = false) ∧ k.used = true ∧
       k.gen = (1 : BitVec 16).toNat ∧ k.done = none ∧ k.orphan = false ∧ k.fast = false ∧ k.kind = .store ∧ k.early = some 3 ∧
       (getC s (consWho k)).out = []) ∧
    (let s := open1 (wordAt .store)
     let k := consOf s 0
     k.first = none ∧ k.tmo = false ∧ sealedEntry k = false ∧ k.early = none ∧ region k.addr = some .bank ∧ k.tries < 8 ∧
       retrying s 0 = false ∧ loses .c true false ⟨.e, false, .first⟩ = true ∧
       k.gen ≠ (2 : BitVec 16).toNat) ∧
    (consOf (open1 { wordAt .store with tries := 8 }) 0).tries = 8 ∧
    (let s := { run1 (co [] []) with lateAcc := [((0 : Fin 3072).val, wordAt .store)] }
     (consOf s 0).used = false ∧ (wordAt .store).gen = (1 : BitVec 16).toNat ∧ unitReady s (wordAt .store) = true) ∧
    (consOf (run1 (co [] [])) 0).used = false := by
  decide +kernel

/-- Coach 0 holds a ticket of pool entry 1024, of the given width, complete or not. -/
def ticketed (wide : Bool) (done : Option (BitVec 3)) : State :=
  { run1 (co (ve [(if wide then 2 ^ 31 else 0) + 0x1400]) []) with
    cons := [(1024, { used := true, gen := 1, kind := .ldp wide, addr := 0x10000400, size := 4, data := 5, done := done })] }

theorem witness_Tickets :
    (let s := run1 (co (ve [0x10000400]) [])
     s.up = true ∧ Issues s l0 c0 1 ∧ Takes s c0 (ve [0x10000400]) [] 1 0 ∧ regionN 0x10000400 8 = some .bank ∧
       forward s c0 0x10000400 8 = .none ∧ ownerRefusal s (reqOf s ⟨c0, 0⟩) 0x10000400 8 .load = none ∧
       ticketsHeld s 0 < quotaOf s 0 - 1 ∧ entriesHeld s 0 < quotaOf s 0 ∧ poolEntry s = some 1024 ∧ queued s 5 < 8 ∧
       ticketEntry s ⟨c0, 0⟩ 0x10000400 = none ∧ Takes s c0 (ve [0x10000400]) [] 2 0) ∧
    (∀ wide : Bool, let s := ticketed wide (some 0)
     let v := (if wide then 2 ^ 31 else 0) + 0x1400
     Issues s l0 c0 1 ∧ Takes s c0 (ve [v]) [] 2 0 ∧ ticketEntry s ⟨c0, 0⟩ (u32 v) = some 1024 ∧
       (consOf s 1024).done = some 0 ∧ (consOf s 1024).data = 5 ∧ (consOf s 1024).kind = .ldp wide) := by
  refine ⟨⟨rfl, issues_of (by decide +kernel), takes_of (by decide +kernel), by decide +kernel, by decide +kernel,
    by decide +kernel, by decide +kernel, by decide +kernel, by decide +kernel, by decide +kernel, by decide +kernel,
    takes_of (by decide +kernel)⟩, ?_⟩
  intro wide
  cases wide <;> exact ⟨issues_of (by decide +kernel), takes_of (by decide +kernel), by decide +kernel, by decide +kernel,
    by decide +kernel, by decide +kernel⟩

theorem witness_FenceWaits :
    (let s := run1 (co [] [])
     Issues s l0 c0 1 ∧ openOf s c0 (fun _ => true) = [] ∧ (getC s c0).imprecise = []) ∧
    (let s := run1 { co [] [] with status := 0, imprecise := [{ vec := 7, addr := 0x80 }] }
     Issues s l0 c0 1 ∧ openOf s c0 (fun _ => true) = [] ∧ (getC s c0).imprecise = { vec := 7, addr := 0x80 } :: []) ∧
    (let s := open1 (wordAt .store)
     Issues s l0 c0 1 ∧ openOf s c0 (fun _ => true) ≠ []) :=
  ⟨⟨issues_of (by decide +kernel), by decide +kernel, by decide +kernel⟩,
   ⟨issues_of (by decide +kernel), by decide +kernel, by decide +kernel⟩, issues_of (by decide +kernel), by decide +kernel⟩

/-- CAS of the word behind the vector table, and the completion of a FADD of it. -/
theorem witness_Atomics :
    (let s := run1 (co (ve [0x10000400, 2, 1]) [])
     s.up = true ∧ Issues s l0 c0 1 ∧ Takes s c0 (ve [0x10000400, 2, 1]) [] 1 0 ∧ Takes s c0 (ve [0x10000400, 2]) [] 1 0 ∧
       (vtlock s && inVectors 0x10000400 4) = false ∧ openOf s c0 (fun _ => true) = [] ∧
       AdmitsOpen s l0 c0 .atomic 0x10000400 4) ∧
    (let s := { open1 (wordAt (.atomic .fadd 1 0)) with
        coach := [(0, { co (ve [0x10000404, 1]) [] with stall := some { pops := 2, push := [0], len := 1, waits := some 0 } })] }
     let k := consOf s 0
     s.up = true ∧ k.used = true ∧ k.gen = (1 : BitVec 16).toNat ∧ k.done = none ∧ k.early = none ∧ k.orphan = false ∧
       k.kind = .atomic .fadd 1 0 ∧ k.size = 4 ∧ region k.addr = some .bank ∧ k.addr % 4 = 0 ∧
       (bankN s (bankOf k.addr)).pwr = 0 ∧ eccAt s (k.addr / 8 * 8) = 0 ∧ behind s k = false ∧
       retrying s 0 = false ∧ heldBack s k = false ∧ (getC s (consWho k)).out = [] ∧ copying s (bankOf k.addr) = false ∧
       (getC s (consWho k)).stall = some { pops := 2, push := [0], len := 1, waits := some 0 }) :=
  ⟨⟨rfl, issues_of (by decide +kernel), takes_of (by decide +kernel), takes_of (by decide +kernel), by decide +kernel,
    by decide +kernel, admitsOpen_of (by decide +kernel)⟩, by decide +kernel⟩

/-- Coach 0 stalls for a sealed access. -/
def sealing (st : Stall) : State := run1 { co (ve [1, 2]) [] with stall := some st, held := some .sealedAcc }

/-- CSRR and CSRW of RNG_GSTAGE[0], CSRRI and CSRWI of it, and their responses. -/
theorem witness_ControlSpaceAccess :
    (∀ s ∈ [run1 (co (ve [aRngGstage, 1]) []), run1 (co (ve [1]) [])],
      regOf aRngGstage = some ⟨0xE00D0050, 4, 4, 0, 0, 0xFFFFFFFF, 0⟩ ∧ ringOf (getC s c0) = 0 ∧
      regionN aRngGstage 4 = some .csr ∧ csrSwitch aRngGstage = none ∧ l0.set = 0 ∧ aRngGstage ≠ aSvoCmd ∧
      openOf s c0 (toIsland (csrUnit aRngGstage)) = [] ∧ Issues s l0 c0 1 ∧ Issues s l0 c0 4) ∧
    Takes (run1 (co (ve [aRngGstage, 1]) [])) c0 (ve [aRngGstage]) [] 1 0 ∧
    Takes (run1 (co (ve [aRngGstage, 1]) [])) c0 (ve [aRngGstage, 1]) [] 0 0 ∧
    Takes (run1 (co (ve [1]) [])) c0 [] [] 1 0 ∧ Takes (run1 (co (ve [1]) [])) c0 (ve [1]) [] 0 0 ∧
    (∀ st : Stall, (sealing st).up = true ∧ (getC (sealing st) (whoOf (sealing st) 0)).stall = some st) := by
  refine ⟨?_, takes_of (by decide +kernel), takes_of (by decide +kernel), takes_of (by decide +kernel),
    takes_of (by decide +kernel), fun st => ⟨rfl, rfl⟩⟩
  intro s h
  simp only [List.mem_cons, List.not_mem_nil, or_false] at h
  obtain rfl | rfl := h <;> exact ⟨by decide +kernel, by decide +kernel, by decide +kernel, by decide +kernel, rfl,
    by decide, by decide +kernel, issues_of (by decide +kernel), issues_of (by decide +kernel)⟩

/-! ### Coaches -/

theorem witness_SchedulingInstructions :
    (∀ k ∈ ([0, 1] : List (BitVec 4)), let s := run1 { co [] [] with wake := k }
      (coachOf s 0).wake = k ∧ Issues s l0 c0 1 ∧ Issues s l0 c0 2 ∧ Takes s c0 [] [] 1 0) ∧
    Issues (runFast (co [] [])) l0 .fast 1 ∧
    (∀ st ∈ ([0, 3] : List Word), ringOf (getC (flagged st [31]) c0) = st.toNat ∧
      ∀ v ∈ ([31, 32, 1023, 1024] : List Nat), Issues (flagged st [v]) l0 c0 1 ∧ Takes (flagged st [v]) c0 (ve [v]) [] 0 0) ∧
    (∀ v ∈ ([0, 1] : List Nat), Issues (run1 (co (ve [0, v]) [])) l0 c0 1 ∧ Takes (run1 (co (ve [0, v]) [])) c0 (ve [0, v]) [] 0 0 ∧
      ((run1 (co (ve [0, v]) [])).mls.time.toNat < (mkD 0 (u32 v)).toNat ↔ v ≠ 0)) ∧
    (let s := { run1 (co (ve [0, 1]) []) with mls := { time := 1 } }
     mkD 0 1 ≠ 0 ∧ (mkD 0 1).toNat ≤ s.mls.time.toNat ∧ Issues s l0 c0 1 ∧ Takes s c0 (ve [0, 1]) [] 0 0) := by
  refine ⟨?_, issues_of (by decide +kernel), ?_, ?_, by decide, by decide +kernel, issues_of (by decide +kernel), takes_of (by decide +kernel)⟩
  · intro k h
    fin_cases h <;> exact ⟨by decide +kernel, issues_of (by decide +kernel), issues_of (by decide +kernel), takes_of (by decide +kernel)⟩
  · intro st h
    fin_cases h <;> refine ⟨by decide +kernel, fun v h => ?_⟩ <;> fin_cases h <;>
      exact ⟨issues_of (by decide +kernel), takes_of (by decide +kernel)⟩
  · intro v h
    fin_cases h <;> exact ⟨issues_of (by decide +kernel), takes_of (by decide +kernel), by decide +kernel⟩

/-- Words stored from address `a`. -/
def put (s : State) (a : Nat) (ws : List Word) : State :=
  (ws.foldl (fun (p : State × Nat) w => (wr32 p.1 p.2 w, p.2 + 4)) (s, a)).1

/-- SPAWN of coach 1 from a descriptor whose park area is in bank 0. -/
def spawning : State :=
  put (run1 (co (ve [1, 0x10006000]) [])) 0x10006000 [0x200, 0xFF03, 0x10007000, 0x10007400, 0x10006800, 0x10006C00, 0, 0, 0,
    0, 5, 0x33, 0x100074C0, 77, 0, 0]

theorem witness_SpawnAndKill_spawn :
    (Issues (run1 (co (ve [0, 0x10006000]) [])) l0 c0 1 ∧ Takes (run1 (co (ve [0, 0x10006000]) [])) c0 (ve [0, 0x10006000]) [] 1 0 ∧
      vacantCoach (run1 (co (ve [0, 0x10006000]) [])) 0 = false) ∧
    Issues spawning l0 c0 1 ∧ Takes spawning c0 (ve [1, 0x10006000]) [] 1 0 ∧ vacantCoach spawning 1 = true ∧ c0 ≠ .coach 1 ∧
    Accessible spawning c0 (reqOf spawning ⟨c0, 0⟩) .load 0x10006000 64 ∧
    (let g := fun k => rd32 spawning (0x10006000 + 4 * k)
     ringOf (getC spawning c0) ≤ fld (g 1) 0 2 ∧ ringOf (getC spawning c0) = 0 ∧ g 1 &&& 0xFFFE00C0 = 0 ∧
     g 10 &&& 0xFFFFFC00 = 0 ∧ g 11 &&& 0xFFFFFFCC = 0 ∧ (g 12).toNat % 64 = 0 ∧ bankRange (g 12).toNat 192 = true) :=
  ⟨⟨issues_of (by decide +kernel), takes_of (by decide +kernel), by decide +kernel⟩, issues_of (by decide +kernel),
   takes_of (by decide +kernel), by decide +kernel, by decide, accessible_of (by decide +kernel), by decide +kernel⟩

/-- Coach 0 in the given ring, and coach 1 READY with keeper 5. -/
def two (st : Word) (d : List Nat) : State :=
  { flagged st d with coach := [(0, { co (ve d) [] with status := 0xFF00 ||| st }), (1, { co [] [] with st := .ready, keeper := 5 })]
                      queue := [0, 1] }

theorem witness_CoachZeroIsExempt :
    Issues (two 0 [0]) l0 c0 1 ∧ Takes (two 0 [0]) c0 (ve [0]) [] 1 0 ∧ Takes (two 0 [0]) c0 (ve [0]) [] 0 0 ∧
    MayAccess (two 0 [0]) 0 0 ∧ fld (0 : Word) 0 10 = 0 :=
  ⟨issues_of (by decide +kernel), takes_of (by decide +kernel), takes_of (by decide +kernel), mayAccess_of (by decide +kernel),
   by decide⟩

theorem witness_SpawnAndKill_kill :
    (Issues (two 3 [1]) l0 c0 1 ∧ Takes (two 3 [1]) c0 (ve [1]) [] 0 0 ∧
      ¬ (ringOf (getC (two 3 [1]) c0) ≤ 1 ∨ fld (coachOf (two 3 [1]) 1).keeper 0 10 = numOf (two 3 [1]) c0)) ∧
    (∀ n ∈ ([0, 1, 2] : List Nat), Issues (two 0 [n]) l0 c0 1 ∧ Takes (two 0 [n]) c0 (ve [n]) [] 0 0) ∧
    ringOf (getC (two 0 [1]) c0) ≤ 1 ∧ (coachOf (two 0 [2]) 2).st = .free ∧ (coachOf (two 0 [1]) 1).st = .ready ∧
    fastHeld (two 0 [1]) 1 = false ∧ c0 ≠ .coach 1 ∧ (coachOf (two 0 [1]) 1).stall = none ∧ (coachOf (two 0 [1]) 1).drain = false := by
  refine ⟨⟨issues_of (by decide +kernel), takes_of (by decide +kernel), by decide +kernel⟩, fun n h => ?_, by decide +kernel⟩
  fin_cases h <;> exact ⟨issues_of (by decide +kernel), takes_of (by decide +kernel)⟩

/-- The state in which both heads of coach `n` are spilled. -/
def spilled (s : State) (w : Who) (v : Nat) (now : Bool) : State :=
  match (do spillAll ⟨w, v⟩ .d now; spillAll ⟨w, v⟩ .r now : M Unit) s with
  | .ok (_, u) => u
  | .error _ => s

theorem spilled_of {s : State} {w : Who} {v : Nat} {now : Bool}
    (h : (match (do spillAll ⟨w, v⟩ .d now; spillAll ⟨w, v⟩ .r now : M Unit) s with | .ok _ => true | .error _ => false) = true) :
    (do spillAll ⟨w, v⟩ .d now; spillAll ⟨w, v⟩ .r now : M Unit) s = .ok ((), spilled s w v now) := by
  unfold spilled
  generalize hx : (do spillAll ⟨w, v⟩ .d now; spillAll ⟨w, v⟩ .r now : M Unit) s = x at h
  cases x with
  | ok p => rfl
  | error e => exact absurd h (by simp)

/-- Coach 1 runs with the given operands, coach 0 is READY; the park area of coach 1 is in bank 0. -/
def parking (d : List Nat) : State :=
  { run1 (co [] []) with csr := [(aCshParka + 4, 0x10007000), (aRngCtl, 1), (aRngLock, 1)]
                         coach := [(0, { co [] [] with st := .ready }), (1, co (ve d) (ve [8]))], queue := [1, 0], run0 := some 1 }

/-- Coach 0 runs and takes coach 1, READY, off. -/
def parkingOther : State :=
  { parking [] with coach := [(0, co (ve [1]) []), (1, { co (ve [4]) (ve [8]) with st := .ready })], queue := [0, 1], run0 := some 0 }

/-- Coach 0 about to load an image of coach 1 (R56) whose stacks hold one entry each. -/
def unparking : State := put (run1 (co (ve [1, 0x10007000]) [])) 0x10007000 ([0x101, 0xFF00, 0x10001000, 0x10002000, 1, 1]
  ++ List.replicate 22 0 ++ [0x40, 0, 0, 0x57A77000, 0x10000800, 0x10001800, 0x10003000, 0x10004000, 0x10005000, 0x10005FFF, 0, 0,
    0x10001] ++ List.replicate 6 0 ++ [0xF3281CA3])

/-- CRC-32 with each byte's register evaluated before the next byte is taken. -/
def crcStep (c : Word) : List Byte → Word
  | [] => c
  | b :: r => if (crc32Byte c b).toNat = 2 ^ 32 then 0 else crcStep (crc32Byte c b) r

theorem crc32_eq (bs : List Byte) : crc32 bs = ~~~crcStep 0xFFFFFFFF bs := by
  have h : ∀ (l : List Byte) (c : Word), l.foldl crc32Byte c = crcStep c l := by
    intro l
    induction l with
    | nil => intro c; rfl
    | cons b r ih => intro c; rw [List.foldl_cons, ih, crcStep, if_neg (by omega)]
  rw [crc32, h]; rfl

theorem unparking_image : imageOk ((List.range 24).map (fun k => rd64 unparking (0x10007000 + 8 * k))) = true := by
  unfold imageOk
  simp only [crc32_eq]
  decide +kernel

theorem witness_ParkAndUnpark :
    (∀ p ∈ [(parking [7], modC (parking [7]) (.coach 1) (fun c => advance c c.pc 1), (id : Coach → Coach), Who.coach 1),
        (parking [1], modC (parking [1]) (.coach 1) (fun c => advance c c.pc 1), restack 1 [.val 0xFFFFFFFF], .coach 1),
        (parkingOther, modC parkingOther c0 id, id, c0)], let s := p.1
      ∃ u, (do spillAll ⟨.coach 1, 0⟩ .d true; spillAll ⟨.coach 1, 0⟩ .r true : M Unit)
          (modC (dropTickets p.2.1 1) (.coach 1) (fun c => p.2.2.1 { c with out := [] })) = .ok ((), u) ∧
        Accessible u (.coach 1) ⟨1, 0, false⟩ .store 0x10007000 192 ∧
        (getR s (aCshParka + 4 * 1)).toNat = 0x10007000 ∧ Issues s l0 p.2.2.2 1 ∧
        openOf s (.coach 1) (fun _ => true) = [] ∧ (∀ e ∈ s.div, ∀ d, e.2 = some d → d.coach ≠ 1) ∧ parkFailure s 1 = none ∧
        (coachOf s 1).out = [] ∧ (coachOf s 1).st.live = true ∧ fastHeld s 1 = false ∧ (coachOf s 1).stall = none ∧
        (coachOf s 1).drain = false ∧ laneOfCoach s 1 = 0) ∧
    Takes (parking [1]) (.coach 1) (ve [1]) [] 1 0 ∧ Takes parkingOther c0 (ve [1]) [] 1 0 ∧
    (Issues unparking l0 c0 1 ∧ Takes unparking c0 (ve [1, 0x10007000]) [] 0 0 ∧ vacantCoach unparking 1 = true ∧
      Accessible unparking c0 (reqOf unparking ⟨c0, 0⟩) .load 0x10007000 192 ∧
      imageOk ((List.range 24).map (fun k => rd64 unparking (0x10007000 + 8 * k))) = true ∧ ringOf (getC unparking c0) = 0) ∧
    fld (rd32 unparking 0x100070A0) 0 10 = 1 ∧ fld (rd32 unparking 0x100070A0) 0 10 ≠ 2 := by
  refine ⟨?_, takes_of (by decide +kernel), takes_of (by decide +kernel), ⟨issues_of (by decide +kernel), takes_of (by decide +kernel),
    by decide +kernel, accessible_of (by decide +kernel), unparking_image, by decide +kernel⟩, by decide +kernel⟩
  intro p h
  simp only [List.mem_cons, List.not_mem_nil, or_false] at h
  obtain rfl | rfl | rfl := h <;>
    exact ⟨_, spilled_of (by decide +kernel), accessible_of (by decide +kernel), by decide +kernel,
      issues_of (by decide +kernel), by decide +kernel, by decide +kernel, by decide +kernel, by decide +kernel, by decide +kernel,
      by decide +kernel, by decide +kernel, by decide +kernel, by decide +kernel⟩

/-! ### Gates, returns, heads, direct inputs, long instructions -/

/-- Gate entry 0 lies in bank 0 and leads to 0x200; `k` is its control word. -/
def gated (k : Word) (d r : List Nat) : State :=
  put (setR (setR (run1 (co (ve d) (ve r))) aRngGatebase 0x10008000) aRngGatecnt 1) 0x10008000 [0x200, k, 0, 0x6A7E0200 ^^^ k]

theorem witness_GateEntry :
    Issues (run1 (co [] [])) l0 c0 3 ∧ fld (getR (run1 (co [] [])) aRngGatecnt) 0 11 ≤ 0 ∧
    (∀ k ∈ ([0x80010000, 0xC1010000] : List Word), let s := gated k [5] []
      Issues s l0 c0 3 ∧ 0 < fld (getR s aRngGatecnt) 0 11 ∧ (getR s aRngGatebase).toNat = 0x10008000 ∧
      Accessible s c0 ⟨numOf s c0, 0, false⟩ .load 0x10008000 16 ∧ ringOf (getC s c0) = 0 ∧
      (let g := fun j => rd32 s (0x10008000 + 4 * j)
       bit (g 1) 31 = true ∧ g 1 &&& 0x38F0FCFF = 0 ∧ g 3 = g 0 ^^^ g 1 ^^^ g 2 ^^^ 0x6A7E0000 ^^^ u32 0 ∧
         bit (g 1) 16 = true ∧ fld (g 1) 8 2 = 0)) ∧
    bit (rd32 (gated 0x80010000 [5] []) 0x10008004) 30 = false ∧ Takes (gated 0x80010000 [5] []) c0 [] [] 0 2 ∧
    (let s := gated 0xC1010000 [5] []
     bit (rd32 s 0x10008004) 30 = true ∧ switches s ⟨c0, 0⟩ = true ∧ fld (rd32 s 0x10008004) 24 3 = 1 ∧
       Takes s c0 (ve [5]) [] 0 0 ∧
       ∃ u, (do spillAll ⟨c0, 0⟩ .d; spillAll ⟨c0, 0⟩ .r : M Unit) (modC s c0 (restack 1 [])) = .ok ((), u) ∧
         2 ≤ xcapOf u .r ∧ (getC u c0).xrsp.toNat = 0x10004000 ∧ Storable u l0 c0 0x10003FF8 8) := by
  refine ⟨issues_of (by decide +kernel), by decide +kernel, fun k h => ?_, by decide +kernel, takes_of (by decide +kernel),
    by decide +kernel, by decide +kernel, by decide +kernel, takes_of (by decide +kernel), _, spilled_of (now := false) (by decide +kernel),
    by decide +kernel, by decide +kernel, storable_of (by decide +kernel)⟩
  fin_cases h <;> exact ⟨issues_of (by decide +kernel), by decide +kernel, by decide +kernel, accessible_of (by decide +kernel),
    by decide +kernel, by decide +kernel⟩

/-- A handler of coach 0, its frame at 0x10005000. -/
def handling : State :=
  put (run1 { co [] [] with status := 0x0002FF00, wbp := 0x10005080 }) 0x10005000
    ([0x200, 0xFF00, 0x10001000, 0x10002000, 2, 0, 0, 0, 0, 0, 0, 1, 9] ++ List.replicate 18 0 ++ [0x57A75000])

/-- Coach 0 in strongbox mode in level L2, running in the boot ROM. -/
def boxed : State := { run1 (co [] []) with csr := [], sbox := [(2, { pc := 0x300, cause := 0x10000000, occ := true })], sbOrder := [2] }

theorem witness_Returns :
    (∀ p ∈ ([(1, 0), (1, 1), (1, 3)] : List (Word × Nat)), let s := run1 { co [] (ve [0x200, p.2]) with status := p.1 }
      Issues s l0 c0 1 ∧ Takes s c0 [] (ve [0x200, p.2]) 0 0 ∧ ringOf (getC s c0) = 1) ∧
    (let s := run1 { co (ve [7]) (ve [0x200, 0x40, 1, 0x10002010]) with rdepth := 6 }
     Issues s l0 c0 1 ∧ headOnly s c0 = false ∧ bit (0x40 : Word) 6 = true ∧ (getC s c0).rsp.toNat + 8 < 2 ^ 32 ∧
       Accessible s c0 (reqOf s ⟨c0, 0⟩) .load (getC s c0).rsp.toNat 8) ∧
    (Issues (run1 (co [] [])) l0 c0 1 ∧ bit (coachOf (run1 (co [] [])) 0).status 17 = false) ∧
    (let c := coachOf handling 0
     let g := fun k => rd32 handling (0x10005000 + 4 * k)
     Issues handling l0 c0 1 ∧ svc handling = true ∧ (c.wbp - 128).toNat = 0x10005000 ∧ bit c.status 17 = true ∧
       Accessible handling c0 (reqOf handling ⟨c0, 0⟩) .load 0x10005000 128 ∧ g 31 = u32 (0x57A7 * 65536 + 0x10005000 % 65536) ∧
       frameStatusOk (g 1) (ringOf c) = true ∧ headsOk (g 11) (g 4) (g 5) = true ∧
       boundaryItem handling 0 { c with status := g 1 } = none) ∧
    (svc boxed = false ∧ boxed.up = true ∧ Issues boxed l0 c0 1 ∧ boxed.sbOrder = 2 :: []) ∧
    Issues (runFast (co [] [])) l0 .fast 1 := by
  refine ⟨fun p h => ?_, ⟨issues_of (by decide +kernel), by decide +kernel, by decide, by decide +kernel, accessible_of (by decide +kernel)⟩,
    ⟨issues_of (by decide +kernel), by decide +kernel⟩, ⟨issues_of (by decide +kernel), by decide +kernel, by decide +kernel, by decide +kernel,
    accessible_of (by decide +kernel), by decide +kernel, by decide +kernel, by decide +kernel, by decide +kernel⟩,
    ⟨by decide +kernel, rfl, issues_of (by decide +kernel), rfl⟩, issues_of (by decide +kernel)⟩
  fin_cases h <;> exact ⟨issues_of (by decide +kernel), takes_of (by decide +kernel), by decide +kernel⟩

theorem witness_SpillsAndFills :
    (∀ p ∈ ([0x10001000, 0x10000804, 0x10000803] : List Word), let s := run1 { co (ve [1, 2, 3, 4, 5, 6, 7, 8]) [] with dsp := p }
      Issues s l0 c0 1 ∧ headOnly s c0 = false ∧ (getC s c0).rhead.length ≤ 4 ∧ (getC s c0).dhead = ve [1, 2, 3, 4, 5, 6, 7] ++ [.val 8] ∧
      (0x10000804 ≤ p → spillLimit s .d (getC s c0) + 4 ≤ p.toNat ∧ Storable s l0 c0 (p.toNat - 4) 4) ∧
      (p < 0x10000804 → p.toNat < spillLimit s .d (getC s c0) + 4)) ∧
    (let s := run1 { co [] [] with ddepth := 1 }
     Issues s l0 c0 1 ∧ 0 < (getC s c0).ddepth.toNat ∧ Accessible s c0 (reqOf s ⟨c0, 0⟩) .load (getC s c0).dsp.toNat 4) := by
  refine ⟨fun p h => ?_, issues_of (by decide +kernel), by decide +kernel, accessible_of (by decide +kernel)⟩
  fin_cases h
  · exact ⟨issues_of (by decide +kernel), by decide +kernel, by decide +kernel, rfl,
      fun _ => ⟨by decide +kernel, storable_of (by decide +kernel)⟩, fun q => absurd q (by decide)⟩
  · exact ⟨issues_of (by decide +kernel), by decide +kernel, by decide +kernel, rfl,
      fun _ => ⟨by decide +kernel, storable_of (by decide +kernel)⟩, fun q => absurd q (by decide)⟩
  · exact ⟨issues_of (by decide +kernel), by decide +kernel, by decide +kernel, rfl,
      fun q => absurd q (by decide), fun _ => by decide +kernel⟩

theorem witness_BorrowedCycle :
    (let s := { two 0 [] with gaps := [0] }
     lsRuns s 0 = true ∧ (fastReady s) = false ∧ 0 ∈ s.gaps ∧ best s 0 = some 1 ∧ atBoundary s (.coach 1) = none ∧
       (coachOf s 1).drain = false ∧ (coachOf s 1).window = none ∧ (coachOf s 1).out = [] ∧ (coachOf s 1).stall = none ∧
       (∀ op, overrideOf s op = none) ∧ fetchAll s ⟨.coach 1, 0⟩ (fetchWords (coachOf s 1).pc.toNat 1) = .ok ∧
       Takes s (.coach 1) [] [] 1 0) ∧
    0 ∉ (two 0 []).gaps :=
  ⟨⟨by decide +kernel, by decide +kernel, by decide +kernel, by decide +kernel, by decide +kernel, by decide +kernel, rfl, rfl, rfl,
    fun op => by simp [overrideOf, two, flagged, run1, State.reset], by decide +kernel, takes_of (by decide +kernel)⟩, by decide⟩

/-- Two lanes vote, in positions B and C. -/
def duplex : State := { run1 (co [] []) with lnc := { set := .duplex, lanes := [(0, { role := .voter, pos := 1 }), (1, { role := .voter, pos := 2 })] } }

theorem witness_DirectInputs :
    (∀ s ∈ [run1 (co [] []), duplex], Issues s l0 c0 1 ∧ Takes s c0 [] [] 1 0) ∧ l0.set = 0 ∧
    l1.set ≠ 0 ∧ Issues (runFree (co [] [])) l1 c0 1 ∧ Takes (runFree (co [] [])) c0 [] [] 1 0 := by
  refine ⟨fun s h => ?_, rfl, by decide, issues_of (by decide +kernel), takes_of (by decide +kernel)⟩
  simp only [List.mem_cons, List.not_mem_nil, or_false] at h
  obtain rfl | rfl := h <;> exact ⟨issues_of (by decide +kernel), takes_of (by decide +kernel)⟩

theorem witness_InstructionCaches :
    (∀ st ∈ ([1, 2] : List Word), let s := flagged st [32, 0x10000400]
      Issues s l0 c0 2 ∧ Takes s c0 (ve [32, 0x10000400]) [] 0 0 ∧ ringOf (getC s c0) = st.toNat) ∧
    (let s := run1 { co [] [] with pc := 0x1000041C }
     lsRuns s 0 = true ∧ issuer s 0 = some c0 ∧ (getC s c0).held = none ∧ (getC s c0).stall = none ∧
       (getC s c0).window = none ∧ (getC s c0).out = [] ∧ (getC s c0).told = [] ∧
       missedWord s ⟨c0, 0⟩ (getC s c0).pc.toNat = some 0x1000041C ∧ region 0x1000041C = some .bank ∧
       cPort s (bankOf 0x1000041C) (reqOf s ⟨c0, 0⟩) .load = .ok ∧ ∀ x ∈ fillOrder 0x1000041C, eccAt s x = 0) := by
  refine ⟨fun st h => ?_, by decide +kernel⟩
  fin_cases h <;> exact ⟨issues_of (by decide +kernel), takes_of (by decide +kernel), by decide +kernel⟩

theorem witness_LongMemoryInstructions :
    (∀ n ∈ ([0, 100] : List Nat), (let s := run1 (co (ve [n, 0x10007000, 0x10006000]) [])
      Issues s l0 c0 1 ∧ Takes s c0 (ve [n, 0x10007000, 0x10006000]) [] 0 0) ∧
      (let s := run1 (co (ve [9, n, 0x10007000]) [])
       Issues s l0 c0 1 ∧ Takes s c0 (ve [9, n, 0x10007000]) [] 0 0 ∧ Storable s l0 c0 0x10007000 64) ∧
      (let s := run1 (co (ve [0, n, 0x10007000, 0x10006000]) [])
       Issues s l0 c0 1 ∧ Takes s c0 (ve [0, n, 0x10007000, 0x10006000]) [] 1 0 ∧
         Accessible s c0 (reqOf s ⟨c0, 0⟩) .load 0x10006000 64 ∧ Accessible s c0 (reqOf s ⟨c0, 0⟩) .load 0x10007000 64)) ∧
    (let s := run1 (co (ve [100, 0x10007000, 0x10006000]) [])
     (moveRun s c0 0x10006000 0x10007000 100).2 ≤ (moveRun s c0 0x10006000 0x10007000 100).1 ∧
       Accessible s c0 (reqOf s ⟨c0, 0⟩) .load 0x10006000 64 ∧ Storable s l0 c0 0x10007000 64) := by
  refine ⟨fun n h => ?_, by decide +kernel, accessible_of (by decide +kernel), storable_of (by decide +kernel)⟩
  fin_cases h <;> exact ⟨⟨issues_of (by decide +kernel), takes_of (by decide +kernel)⟩, ⟨issues_of (by decide +kernel),
    takes_of (by decide +kernel), storable_of (by decide +kernel)⟩, issues_of (by decide +kernel), takes_of (by decide +kernel),
    accessible_of (by decide +kernel), accessible_of (by decide +kernel)⟩

/-- CUST0 leads to routine 0, of one microword of ALU code `k` (R270, R271); coach 0 runs in the given ring. -/
def custom (st : Word) (k : Nat) : State :=
  { flagged st [3, 4] with mcs := { cact := [(0, 2 ^ 110 + k * 2 ^ 88 + 2 ^ 80), (1024, 0x81200000)] } }

/-- The vendor patch has ADD dispatch into its routine 5, of one microword of ALU code `k` (R260, R270). -/
def patchedAdd (k : Nat) : State :=
  { run1 (co (ve [3, 4]) []) with mcs := { vact := [(5, 2 ^ 110 + k * 2 ^ 88 + 2 ^ 80), (1030, 0x80200005)] } }

theorem witness_CustomerRoutines :
    (∀ s ∈ [run1 (co [] []), custom 0 1, patchedAdd 1], (getC s c0).routine = none ∧ (getC s c0).got = []) ∧
    (Issues (run1 (co [] [])) l0 c0 1 ∧ bit (u32 ((run1 (co [] [])).mcs.cact.get 0 1024)) 31 = false) ∧
    (let d := u32 ((custom 1 1).mcs.cact.get 0 1024)
     Issues (custom 1 1) l0 c0 1 ∧ bit d 31 = true ∧ fld d 28 2 < ringOf (getC (custom 1 1) c0)) ∧
    (∀ k ∈ ([1, 2, 8, 9, 10] : List Nat), let s := custom 0 k
      let d := u32 (s.mcs.cact.get 0 1024)
      Issues s l0 c0 1 ∧ Takes s c0 (ve [3, 4]) [] 1 0 ∧ bit d 31 = true ∧ bit d 30 = false ∧ ringOf (getC s c0) ≤ fld d 28 2 ∧
        fld d 24 4 = 1 ∧ fld d 20 4 = 2 ∧ fld d 10 10 = 0 ∧ s.mcs.sw ≠ some true ∧
        s.mcs.cact.get 0 (fld d 0 10) = 2 ^ 110 + k * 2 ^ 88 + 2 ^ 80) ∧
    (∀ k ∈ ([1, 2, 8, 9, 10] : List Nat), let s := patchedAdd k
      Issues { s with mcs := { s.mcs with vact := [] } } l0 c0 1 ∧ Takes s c0 (ve [3, 4]) [] 1 0 ∧ overrideOf s 0x20 = some 5 ∧
        s.mcs.sw ≠ some false ∧ s.mcs.vact.get 0 5 = 2 ^ 110 + k * 2 ^ 88 + 2 ^ 80) := by
  refine ⟨by decide +kernel, ⟨issues_of (by decide +kernel), by decide +kernel⟩, ⟨issues_of (by decide +kernel), by decide +kernel, by decide +kernel⟩,
    fun k h => ?_, fun k h => ?_⟩
  · fin_cases h <;> exact ⟨issues_of (by decide +kernel), takes_of (by decide +kernel), by decide +kernel⟩
  · fin_cases h <;> exact ⟨issues_of (by decide +kernel), takes_of (by decide +kernel), by decide +kernel⟩

/-! ### Engine -/

/-- MODADD of 128 bits in slot 0: modulus, and operands 1 and 2 above it. -/
def engineOn (st : Nat) (c : Coach) : State :=
  put (setR (run1 c) aPwrUnit (u32 (16 * st))) 0xF0000000 [0, 0, 0xFFFFFFFF, 0, 0, 0x80000000, 1, 0, 0, 0, 2, 0, 0, 0]

/-- Coach 0 stalls for the engine. -/
def asking (st : Stall) : State :=
  put { engineOn 2 (co (ve [0, 0xF0000800]) []) with
    coach := [(0, { co (ve [0, 0xF0000800]) [] with stall := some st, held := some .sealedAcc })] } 0xF0000848 [1]

/-- Operation `o` runs in slot 0, its consignment in pool entry 1024. -/
def working (o : EOp) : State :=
  { engineOn 2 (co [] []) with
    bne := { ops := [(0, some o)] }
    cons := [(1024, { used := true, gen := 1, kind := .engine 0 o.key })] }

/-- Nothing that was sent before a sealed access holds its response back. -/
theorem asking_heeded (st : Stall) : sealedBack (asking st) st = false := by
  have stalled : stalls (asking st) = [(c0, st)] := rfl
  have idle : (asking st).mret = [] := rfl
  unfold sealedBack channelHeld sendHeld
  rw [stalled, idle]
  cases sealedIsland st <;> simp

theorem witness_EngineSubmission :
    (∀ v ∈ ([7, 8] : List Nat), let s := run1 (co (ve [v, 0x01000080]) [])
      Issues s l0 c0 1 ∧ Takes s c0 (ve [v, 0x01000080]) [] 1 0) ∧
    (∀ st ∈ ([0, 2, 3] : List Nat), let s := engineOn st (co (ve [0, 0x01000080]) [])
      Issues s l0 c0 1 ∧ Takes s c0 (ve [0, 0x01000080]) [] 1 0 ∧ ticketsHeld s 0 < quotaOf s 0 - 1 ∧ entriesHeld s 0 < quotaOf s 0 ∧
        poolEntry s = some 1024 ∧ unitSt s 0 = st ∧ queued s 8 < 8 ∧ s.mret = []) ∧
    (let s := engineOn 2 (co (ve [0, 0x01000080]) [])
     s.cons = [] ∧ s.bne.ops = [] ∧ decideSubmit s 0x01000080 0 ⟨0, 0, false⟩ false = .runs) ∧
    (let s := engineOn 2 (co (ve [7, 0xF0000808]) [])
     Issues s l0 c0 1 ∧ l0.set = 0 ∧ openOf s c0 (toIsland 10) = [] ∧ Takes s c0 (ve [7, 0xF0000808]) [] 1 0 ∧ Takes s c0 (ve [7]) [] 1 0 ∧
       queued s 8 < 8 ∧ ringOf (getC s c0) = 0 ∧ inOpmem 0xF0000808 80 = true) ∧
    (∀ st ∈ ([0, 3] : List Nat), let s := engineOn st (co (ve [7, 0]) [])
      Issues s l0 c0 1 ∧ unitSt s 0 = st ∧ openOf s c0 (toIsland 10) = [] ∧ queued s 8 < 8 ∧ Takes s c0 (ve [7, 0]) [] 1 0) ∧
    (∀ st : Stall, (asking st).up = true ∧ (∀ x ∈ (asking st).cons, heldBnop (asking st) x = false) ∧
      (getC (asking st) (whoOf (asking st) 0)).stall = some st ∧ (asking st).bne.cload = none ∧ (asking st).bne.zeroing = false ∧
      (asking st).bne.ops = [] ∧ sealedBack (asking st) st = false) ∧
    (let s := asking { pops := 2, push := [], len := 1, op := some (.load 0xF0000800 0) }
     rd64 s 0xF0000848 = 1 ∧ s.ecc = [] ∧ keyInUse s 0 = false ∧ slotState s 1 = 0 ∧ decideSubmit s 0x19000000 0 ⟨0, 0, false⟩ true = .runs) ∧
    (let o : EOp := ⟨1, 0x01000080, 0, false, 1024, 1, false⟩
     groupOf (working o) 0 = some (0, o) ∧ (working o).bne.cload = none ∧ mayAbort (working o) c0 0 = true ∧
       mayAbort (setCoach (working { o with coach := 1 }) 0 { co [] [] with status := 0x0000FF03 }) c0 0 = false ∧ ∀ x ∈ (working o).cons, heldBnop (working o) x = false) := by
  refine ⟨fun v h => ?_, fun st h => ?_, ⟨rfl, rfl, by decide +kernel⟩, ⟨issues_of (by decide +kernel), rfl, by decide +kernel,
    takes_of (by decide +kernel), takes_of (by decide +kernel), by decide +kernel, by decide +kernel⟩, fun st h => ?_,
    fun st => ⟨rfl, by simp [asking, engineOn, put, setR, run1, wr32, wrN, wrB, State.reset], rfl, rfl, rfl, rfl, asking_heeded st⟩, by decide +kernel, by decide +kernel⟩
  · fin_cases h <;> exact ⟨issues_of (by decide +kernel), takes_of (by decide +kernel)⟩
  · fin_cases h <;> exact ⟨issues_of (by decide +kernel), takes_of (by decide +kernel), by decide +kernel⟩
  · fin_cases h <;> exact ⟨issues_of (by decide +kernel), by decide +kernel, by decide +kernel, by decide +kernel, takes_of (by decide +kernel)⟩

/-- The operation in slot 0 can finish. -/
def canFinish (s : State) (b : Nat) (o : EOp) : Bool :=
  eopOf s b == some o && decide (b + o.slots ≤ 8) && (consOf s o.entry).used && (consOf s o.entry).gen == o.gen
    && (consOf s o.entry).done.isNone && !(consOf s o.entry).orphan && decide ((consOf s o.entry).kind = .engine 0 o.key)
    && s.cons.all (fun x => x.1 == o.entry || !heldBnop { s with bne := { s.bne with ops := s.bne.ops.erase b } } x)

theorem finishes_of {s : State} {b : Nat} {o : EOp} (h : canFinish s b o = true) : Finishes s b o := by
  simp only [canFinish, Bool.and_eq_true, beq_iff_eq, decide_eq_true_eq, Option.isNone_iff_eq_none, Bool.not_eq_true',
    List.all_eq_true, Bool.or_eq_true, and_assoc] at h
  obtain ⟨here, fits, used, gen, done, orphan, kind, rest⟩ := h
  exact ⟨here, fits, ⟨used, gen, done, orphan⟩, ⟨0, kind⟩, fun x hx hn => (rest x hx).resolve_left hn⟩

/-- Each code: MODADD, MODSUB and MODMUL on operands that fit. -/
theorem witness_EngineOperations :
    (∀ k ∈ ([1, 2, 3, 4, 0x19] : List Nat), let o : EOp := ⟨1, u32 (k * 2 ^ 24 + 128), 0, false, 1024, 1, false⟩
      (working o).up = true ∧ Finishes (working o) 0 o ∧ o.aborting = false ∧ cmdOp o.cmd = k) ∧
    (∀ k ∈ ([1, 2, 3] : List Nat), let o : EOp := ⟨1, u32 (k * 2 ^ 24 + 128), 0, false, 1024, 1, false⟩
      let s := working o
      8 * ((cmdSize o.cmd + 63) / 64) = 16 ∧ rdN s 0xF0000008 16 % 2 = 1 ∧ 8 + 3 * 16 ≤ o.slots * 0x800 ∧
        badOperand s 0 o = false ∧ rdN s 0xF0000028 16 < rdN s 0xF0000008 16) := by
  refine ⟨fun k h => ?_, fun k h => ?_⟩
  · fin_cases h <;> exact ⟨rfl, finishes_of (by decide +kernel), rfl, by decide +kernel⟩
  · fin_cases h <;> decide +kernel

theorem witness_EngineService :
    (∀ ab : Bool, let o : EOp := ⟨4, 0x01800080, 0, false, 1024, 1, ab⟩
      (working o).up = true ∧ Finishes (working o) 0 o ∧ o.aborting = ab) ∧
    (let s := engineOn 2 (co [] [])
     MayAccess s 0 0 ∧ unitSt s 0 = 2 ∧ Acked s 0 10 ∧ 4 ≤ fld (0x40000 : Word) 16 4 ∧ s.bne.cload = none ∧
       (s.bne.curves.get {} 4).state ≠ 1 ∧ curveInUse s 4 = false ∧ slotState s 0 = 0 ∧ s.bne.zeroing = false) ∧
    (let s := { engineOn 2 (co [] []) with bne := { cload := some (4, 0), zeroing := true, curves := [(4, { state := 1 })] } }
     s.up = true ∧ s.bne.cload = some (4, 0) ∧ s.bne.zeroing = true) := by
  refine ⟨fun ab => ?_, ⟨mayAccess_of (by decide +kernel), by decide +kernel, by unfold Acked; decide +kernel, by decide +kernel⟩, rfl, rfl, rfl⟩
  cases ab <;> exact ⟨rfl, finishes_of (by decide +kernel), rfl⟩

/-! ### Boundaries and events -/

/-- Coach 0 with an imprecise ARITH pending. -/
def failed (c : Coach) : Coach := { c with imprecise := [{ vec := 7, addr := 0x80 }], status := 0x0004FF00 }

/-- Source 64 is enabled for coach 0 with priority 16, preemptive and PEND. -/
def eventful (s : State) : State := { setR s (aEvcScfg + 256) 0xA0100000 with src := [(64, { pend := true })] }

/-- The FAST source 70 is designated to coach 5, and a delivery waits. -/
def fastDue : State :=
  { setR (setR (run1 (co [] [])) aCshFastcfg 0x80100005) aEvcFast 0x80000046 with fastPend := true }

theorem witness_BoundaryEntries :
    (∀ s ∈ [run1 (failed (co (ve [1]) [])), eventful (run1 (co (ve [1]) []))], ∃ x : XItem,
      boundaryItem s 0 (coachOf s 0) = some x ∧ svc s = true ∧ lsRuns s 0 = true ∧ fastReady s = false ∧
        issuer s 0 = some (.coach 0) ∧ (coachOf s 0).held = none ∧ (coachOf s 0).stall = none ∧ (coachOf s 0).drain = false ∧
        (coachOf s 0).pexc = none ∧ (coachOf s 0).window = none ∧ (coachOf s 0).step = false ∧ (coachOf s 0).out = [] ∧ x.vec ≠ 13 ∧ waybillRoom (coachOf s 0) = true ∧
        pendingEntries (coachOf s 0) = [] ∧
        (let c := if x.vec = 32 then coachOf s 0 else takeItem (coachOf s 0) x
         ownerRefusal s ⟨0, handlerRing s x.vec (ringOf c), decide (laneOfCoach s 0 ≠ 0)⟩ (phys c.wbp.toNat) 128 .store = none)) ∧
    (∀ s ∈ [{ run1 (failed (co (ve [1]) [])) with csr := [] }, eventful { run1 (co (ve [1]) []) with csr := [] }], ∃ x : XItem,
      boundaryItem s 0 (coachOf s 0) = some x ∧ svc s = false ∧ lsRuns s 0 = true ∧ issuer s 0 = some (.coach 0) ∧
        (coachOf s 0).held = none ∧ (coachOf s 0).stall = none ∧ (coachOf s 0).drain = false ∧ (coachOf s 0).pexc = none ∧
        (coachOf s 0).step = false ∧ (coachOf s 0).l3Req = false ∧ (coachOf s 0).window = none ∧ pendingEntries (coachOf s 0) = [] ∧
        x.vec ≠ 15 ∧ (sboxOf s 1).occ = false) ∧
    (lsRuns fastDue 0 = true ∧ fastReady fastDue = true) ∧
    (let s := setR (two 0 []) aCshQuantaA 0x00010001
     lsRuns s 0 = true ∧ runOf s 0 = some 0 ∧ s.fastOn = none ∧ quantumOf s (coachOf s 0).qclass ≠ 0 ∧
       1 ∈ s.queue ∧ selectable s 0 1 = true ∧ (coachOf s 1).qclass = (coachOf s 0).qclass) ∧
    (let s := { run1 (co [] []) with coach := [(0, { co [] [] with st := .wait, timer := some 2000 })], mls := { time := 2999, tick := some 2000 } }
     (coachOf s 0).timer = some 2000 ∧ (∃ k, s.mls.tick = some k ∧ (2000 : DWord).toNat ≤ k.toNat) ∧
       (coachOf s 0).st.live = true ∧ isFastCoach s 0 = false ∧ (coachOf s 0).haltReq = false ∧ s.mret = [] ∧ s.mtr = []) := by
  refine ⟨fun s h => ?_, fun s h => ?_, by decide +kernel, by decide +kernel, ⟨rfl, ⟨2000, rfl, by decide⟩, by decide +kernel⟩⟩
  · simp only [List.mem_cons, List.not_mem_nil, or_false] at h
    obtain rfl | rfl := h
    · exact ⟨{ vec := 7, addr := 0x80 }, by decide +kernel⟩
    · exact ⟨eventItem 64, by decide +kernel⟩
  · simp only [List.mem_cons, List.not_mem_nil, or_false] at h
    obtain rfl | rfl := h
    · exact ⟨{ vec := 7, addr := 0x80 }, by decide +kernel⟩
    · exact ⟨eventItem 64, by decide +kernel⟩

/-- Line 64 with configuration `cfg` and detector state `x`; a storm is more than `lim` triggers. -/
def line64 (cfg : Word) (x : Src) (lim : Nat) : State :=
  { setR (setR (run1 (co [] [])) (aEvcScfg + 256) cfg) aEvcStormN (u32 lim) with src := if x = {} then [] else [(64, x)] }

theorem witness_EventController :
    (run1 (co [] [])).up = true ∧ State.reset.up = false ∧
    (let s := line64 0x00FF0000 { line := true, fresh := false } 0
     ¬ (1 < srcSense s 64 ∨ (srcOf s 64).fresh = true ∨ (srcOf s 64).line = decide (srcSense s 64 = 1))) ∧
    (∀ s ∈ [line64 0x80FF0000 {} 0, line64 0x82FF0000 { pend := true } 0, setR (line64 0x82FF0000 { coal := 1 } 0) (aEvcScoal + 256) 0x00020001,
        line64 0x82FF0000 { stormCnt := 1 } 2, line64 0x82FF0000 { stormCnt := 2 } 2],
      (1 < srcSense s 64 ∨ (srcOf s 64).fresh = true) ∧ isFastSrc s 64 = false ∧ srcEn s 64 = true ∧ (srcOf s 64).active = false ∧
        inListening s 64 0 = true ∧ (coachOf s 0).st.live = true ∧ isFastCoach s 0 = false) ∧
    (let s := setR (line64 0x82FF0000 { coal := 1 } 0) (aEvcScoal + 256) 0x00020001
     1 < srcSense s 64 ∧ (srcOf s 64).coal < fld (scoal s 64) 16 8 ∧ (srcOf s 64).coal ≠ 0 ∧ fld (scoal s 64) 0 16 ≠ 0 ∧
       isLevel s 64 = false ∧ fld (getR s aEvcStormN) 0 16 = 0) ∧
    (∀ s ∈ [line64 0x82100000 { pend := true } 0, line64 0x80100000 { pend := true, line := true } 0], MayAccess s 0 0 ∧
      (visible s 64 = true ∧ inDelivery s 64 0 = true ∧ inView s 64 0 = true ∧ srcReserved 64 = false ∧ isFastSrc s 64 = false)) ∧
    (let s := line64 0x80100000 { active := true, line := true } 0
     MayAccess s 0 3 ∧ visible s 64 = false ∧ (srcOf s 64).active = true ∧ (srcOf s 64).claimant = 0 ∧ isLevel s 64 = true ∧
       asserted s 64 = true ∧ (srcOf s 64).pend = false ∧ fld (getR s aEvcStormN) 0 16 = 0) ∧
    (let s := line64 0x02FF0000 {} 0
     MayAccess s 0 0 ∧ (srcOf s 64).active = false ∧ srcEn s 64 = false ∧ (srcOf s 64).pend = false ∧
       fld (scoal s 64) 16 8 ≤ (srcOf s 64).coal ∧ srcReserved 40 = true ∧ srcReserved 63 = true ∧ srcReserved 39 = false ∧
       isFastSrc s 39 = false ∧ s.up = true) ∧
    (let s := sealing { pops := 1, push := [0], len := 1, op := some (.read aEvcSpur) }
     aEvcSpur ≠ aEvcFault ∧ csrUnit aEvcSpur = 2 ∧
       (getC s (whoOf s 0)).stall = some { pops := 1, push := [0], len := 1, op := some (.read aEvcSpur) }) ∧
    (run1 (co [] [])).mret = [] ∧ (run1 (co [] [])).mtr = [] ∧ fastEn fastDue = true ∧
    (coachOf (run1 (co [] [])) (0 : BitVec 10).toNat).st = .run := by
  refine ⟨rfl, rfl, by decide +kernel, by decide +kernel, by decide +kernel, fun s h => ?_,
    ⟨mayAccess_of (by decide +kernel), by decide +kernel⟩, ⟨mayAccess_of (by decide +kernel), by decide +kernel⟩, by decide,
    by decide +kernel, rfl, by decide +kernel⟩
  simp only [List.mem_cons, List.not_mem_nil, or_false] at h
  obtain rfl | rfl := h <;> exact ⟨mayAccess_of (by decide +kernel), by decide +kernel⟩

/-- EVC_FAST with both sources idle, and with the designated one enabled; EVC_CPL of a source that is not ACTIVE, and of
one that another coach has claimed, written in ring 3. -/
theorem witness_FastDesignationAndBadCompletions :
    (∀ cfg ∈ ([0x02FF0000, 0x82FF0000] : List Word), MayAccess (line64 cfg {} 0) 0 0) ∧
    srcEn (line64 0x02FF0000 {} 0) 64 = false ∧ srcEn (line64 0x82FF0000 {} 0) 64 = true ∧
    (let s := line64 0x02FF0000 { active := true, claimant := 5 } 0
     let t := setCoach s 0 { coachOf s 0 with status := 0x0000FF03 }
     MayAccess s 0 3 ∧ MayAccess t 0 3 ∧ (srcOf s 65).active = false ∧ (srcOf t 64).active = true ∧
       (srcOf t 64).claimant ≠ numOf t (whoOf t 0) ∧ ¬ ringOf (getC t (whoOf t 0)) ≤ 1) := by
  refine ⟨fun cfg h => ?_, by decide +kernel, by decide +kernel, mayAccess_of (by decide +kernel),
    mayAccess_of (by decide +kernel), by decide +kernel⟩
  fin_cases h <;> exact mayAccess_of (by decide +kernel)

/-! ### Time, ledger, outputs -/

/-- The time of the milestone island, and what else it holds. -/
def clocked (m : Mls) (ctl : Word) : State := { setR (run1 (co [] [])) aMlsCtl ctl with mls := m }

theorem witness_MilestoneTime :
    MayAccess (clocked {} 0) 0 0 ∧ (clocked {} 0).mls.sq.length < 4096 ∧ (clocked {} 0).mls.gap = none ∧ (∀ e ∈ (clocked {} 0).mls.sq, e.cycle ≠ (clocked {} 0).cycles) ∧
    fld (getR (setR (clocked {} 0) aMlsSetLo 999999999) aMlsSetLo) 0 30 < 1000000000 ∧
    ¬ fld (getR (setR (clocked {} 0) aMlsSetLo 1000000000) aMlsSetLo) 0 30 < 1000000000 ∧
    (1000 ≤ (1000 : BitVec 30).toNat ∧ (500000000 : BitVec 30).toNat ≤ 500000000) ∧
    ¬ (1000 ≤ (999 : BitVec 30).toNat) ∧
    (∀ s ∈ [clocked {} 0, clocked {} 2, clocked { time := 1001 } 4, clocked { time := 1000, acquiring := false } 4,
        clocked { time := 1001, acquiring := false } 4], s.up = true ∧ (s.mls.acquiring = true ∨ s.mls.lastEdge = none)) := by
  refine ⟨mayAccess_of (by decide +kernel), by decide +kernel⟩

/-- A record waits and the ledger is at slot `k`. -/
def recording (k : Nat) : State :=
  { setR (clocked { sq := [⟨7, 0, 3, 0, 0, 5⟩], lhead := k } 0) aMlsLstat 0x80000000 with }

/-- A clear of the ledger goes on, a coach waits for a word of the stele, and the Keystone had the last turn. -/
def steleMeetsClear : State :=
  { setR (recording 0) aMlsLctl 1 with
    coach := [(0, { co [] [] with stall := some { pops := 1, push := [0], len := 1, stele := some ⟨0x20002000, 4, false, false, 0⟩ } })]
    stl := { last := true } }

theorem steleMeetsClear_facts :
    steleMeetsClear.up = true ∧ bit (getR steleMeetsClear aMlsLctl) 0 = true ∧ mayLedger steleMeetsClear = true ∧
      ledgerHeld steleMeetsClear = false ∧ (keystoneNext steleMeetsClear).isSome = true ∧ steleMeetsClear.mls.cleared < 8191 := by
  have waiting : steleQueue steleMeetsClear = [(c0, ⟨0x20002000, 4, false, false, 0⟩)] := by
    simp [steleQueue, stalls, steleMeetsClear, State.reset, recording, clocked, run1, setR, co]
  have next : keystoneNext steleMeetsClear = some (c0, ⟨0x20002000, 4, false, false, 0⟩) := by
    rw [keystoneNext, waiting]; rfl
  refine ⟨by decide +kernel, by decide +kernel, ?_, by decide +kernel, by rw [next]; rfl, by decide +kernel⟩
  rw [mayLedger, next]
  decide +kernel

theorem witness_Ledger :
    (∀ k ∈ ([0, 2047] : List Nat), let s := recording k
      s.up = true ∧ s.mls.sq = ⟨7, 0, 3, 0, 0, 5⟩ :: [] ∧ s.mls.lhead = k ∧ bit (getR s aMlsLstat) 31 = true ∧ bit (getR s aMlsLctl) 0 = false ∧
        mayLedger s = true ∧ ledgerHeld s = false ∧ s.stl.late = []) ∧
    MayAccess (recording 0) 0 0 ∧
    (let s := setR (recording 0) aMlsLctl 1
     s.up = true ∧ bit (getR s aMlsLctl) 0 = true ∧ mayLedger s = true ∧ ledgerHeld s = false ∧ keystoneNext s = none ∧ s.mls.cleared < 8192) ∧
    (let s := steleMeetsClear
     s.up = true ∧ bit (getR s aMlsLctl) 0 = true ∧ mayLedger s = true ∧ ledgerHeld s = false ∧ (keystoneNext s).isSome = true ∧
       s.mls.cleared < 8191) ∧
    (let s := clocked {} 0
     bit (getR s aMlsLstat) 31 = false ∧ s.mls.sq.length < 4096 ∧ s.mls.gap = none ∧ (∀ e ∈ s.mls.sq, e.cycle ≠ s.cycles)) ∧
    (∀ q : List Stamp, MayAccess (clocked { sq := q, gap := some (1, 7, 0) } 0) 0 1) ∧
    4096 ≤ (List.replicate 4096 (⟨7, 0, 3, 0, 0, 5⟩ : Stamp)).length := by
  refine ⟨fun k h => ?_, mayAccess_of (by decide +kernel), by decide +kernel, steleMeetsClear_facts, by decide +kernel, fun q => (mayAccess_of (by decide +kernel) : MayAccess (clocked {} 0) 0 1),
    by rw [List.length_replicate]⟩
  fin_cases h <;> decide +kernel

/-- The block with the given lanes. -/
def laned (n : Lnc) : State := { run1 (co [] []) with lnc := n }

theorem witness_OutputsAndPolicy :
    (let s := flagged 3 []
     MayAccess s 0 3 ∧ (∃ n, n < 4 ∧ bit (0x10001 : Word) (16 + n) = true ∧
       fld (getR (setR s aSvoCfg 0) (aSvoCfg + 4 * n)) 2 2 < ringOf (getC (setR s aSvoCfg 0) (whoOf (setR s aSvoCfg 0) 0)))) ∧
    (∀ h ∈ ([0, 1] : List Word), let s := setR (run1 (co [] [])) aSvoCtl h
      MayAccess s 0 0 ∧ ringOf (getC s (whoOf s 0)) = 0 ∧ bit (getR s aSvoCtl) 0 = decide (h = 1)) ∧
    (let s := { setR (run1 (co [] [])) aSvoCfg 1 with mls := { latch := 1 }
                                                      lnc := { lanes := voters.map (fun e => (e.1, { e.2 with enable := 1 })) } }
     padVote s 0 = true ∧ padVote s 1 = false ∧ laneAt s 0 = some 0 ∧
       (∃ q, q < 3 ∧ q ≠ 0 ∧ (laneAt s q).isSome = true ∧ enLine s 0 q = enLine s 0 0) ∧ s.up = true ∧ s.mls.latch.getLsbD 0 = true ∧ s.lnc.set ≠ .failstop ∧ bit (getR s aSvoCfg) 0 = true ∧ s.mls.dark = none ∧
       s.mls.latch.getLsbD 1 = false) ∧
    (let s := clocked { dark := some 3, latch := 8 } 0
     s.mls.dark = some (3 : Fin 4).val) ∧
    (let s := setR (setR (run1 (co [] [])) aKeyPolicy 0x0D000001) aKeyPcount 1
     let p := getR s aKeyPolicy
     fld p 0 12 ≠ 0 ∧ fld p 0 12 < satAdd 4095 (fld (getR s aKeyPcount) 0 12) 1 ∧ bit (getR s aKeyAttack) 31 = false ∧
       bit p 24 = true ∧ bit p 26 = true ∧ bit p 27 = true) ∧
    (let s := run1 (co [] [])
     ¬ fld (getR s aKeyPolicy) 0 12 ≠ 0) ∧
    (let s := laned { set := .duplex, lanes := [(0, { role := .voter, pos := 0, enable := 1 }), (1, { role := .voter, pos := 2 })] }
     s.lnc.set ≠ .failstop ∧ laneAt s 0 = some 0 ∧ laneAt s 1 = none ∧
       ¬ ∃ q, q < 3 ∧ q ≠ 0 ∧ (laneAt s q).isSome = true ∧ enLine s 0 q = enLine s 0 0) := by
  refine ⟨⟨mayAccess_of (by decide +kernel), 0, by decide +kernel⟩, fun h q => ?_, by decide +kernel, by decide +kernel, by decide +kernel,
    by decide +kernel, by decide +kernel⟩
  fin_cases q <;> exact ⟨mayAccess_of (by decide +kernel), by decide +kernel⟩

/-! ### Lanes -/

theorem witness_Mismatches :
    (∀ v ∈ ([0, 2] : List Word), let s := setR (run1 (co [] [])) aKeyCtl v
      let o : Outputs := ⟨0x20, 0, 0⟩
      issuing s = true ∧ s.lnc.set = .triplex ∧ (∀ q, q < 3 → (laneAt s q).isSome = true) ∧ laneAt s 0 = some 0 ∧
        isMarked s 0 = false ∧ s.lnc.join = none ∧ laneIn s .spare = some 3 ∧
        (∀ q, q < 3 → (outputAt o q ≠ (o.a &&& o.b) ||| (o.a &&& o.c) ||| (o.b &&& o.c) ↔ q = 0)) ∧
        (∀ i, i ≤ 5 → ((outputAt o 0).getLsbD i ≠ ((o.a &&& o.b) ||| (o.a &&& o.c) ||| (o.b &&& o.c)).getLsbD i ↔ i = 5)) ∧
        laneOfCoach s 0 = 0 ∧ s.lnc.marks = [] ∧ bit (getR s aKeyCtl) 1 = decide (v = 2)) ∧
    (let s := laned { lanes := voters, marks := [(1, 0)] }
     let o : Outputs := ⟨0, 1, 0⟩
     issuing s = true ∧ differing s o ≠ [] ∧ (∀ p ∈ differing s o, markedAt s p = true) ∧ s.lnc.resync = none ∧ s.lnc.set = .triplex) ∧
    (let s := laned { lanes := voters }
     let o : Outputs := ⟨0, 1, 2⟩
     issuing s = true ∧ ∃ p r n, differing s o = p :: r ∧ s.lnc.set = .triplex ∧ r ≠ [] ∧ markedAt s p = false ∧ laneAt s p = some n) ∧
    (let s := laned { set := .duplex, lanes := [(0, { role := .voter, pos := 1 }), (1, { role := .voter, pos := 2 })] }
     let o : Outputs := ⟨0, 1, 0⟩
     issuing s = true ∧ differing s o ≠ [] ∧ s.lnc.set ≠ .triplex ∧ (∀ q, q < 3 → markedAt s q = false) ∧
       laneAt s ((occupied s).headD 0) = some 0) ∧
    (∀ w, (getC (run1 (co [] [])) w).stall = none) ∧
    (let s := laned { lanes := [(0, { role := .voter, pos := 3 }), (1, { role := .voter, pos := 1 }), (2, { role := .voter, pos := 2 })]
                      set := .duplex, resync := some (0, 0) }
     s.lnc.resync = some (0, 0) ∧ s.lnc.due = [] ∧ laneIn s .spare = none) := by
  refine ⟨fun v h => ?_, by decide +kernel, ⟨by decide +kernel, _, _, 1, rfl, by decide +kernel⟩, by decide +kernel, fun w => ?_,
    by decide +kernel⟩
  · fin_cases h <;> decide +kernel
  · cases w with
    | fast => rfl
    | coach n => simp only [getC, coachOf, run1, SMap.get]; split <;> rfl

theorem witness_LaneService :
    (let v : SMap Lane := [(0, { role := .voter, pos := 0 }), (1, { role := .voter, pos := 1 }), (2, { role := .voter, pos := 2 }),
        (3, { role := .joining })]
     let s := laned { lanes := v, join := some ⟨3, 2, some 0, some 1⟩ }
     s.lnc.join = some ⟨3, 2, some 0, some 1⟩ ∧ s.lnc.busy = false ∧ laneIn s .spare = none) ∧
    (∀ st ∈ [SetSt.triplex, .duplex], let s := laned { set := st, lanes := [(0, { role := .voter, pos := 0 }), (1, { role := .voter, pos := 1 })] }
      s.up = true ∧ (laneOf s 3).role = .test ∧ s.lnc.rotDue = false ∧ s.lnc.rotReq = false ∧ s.lnc.join = none ∧ s.lnc.resync = none ∧
        laneIn s .spare = none ∧ s.lnc.set = st ∧ ∃ p, p < 3 ∧ laneAt s p = none) ∧
    (let s := setR (run1 (co [] [])) aKeyCtl 1
     MayAccess s 0 0 ∧ bit (getR s aKeyCtl) 0 = true ∧ svc s = true ∧ s.lnc.set = .triplex ∧ s.lnc.join = none ∧ s.lnc.resync = none ∧
       laneIn s .spare = some 3 ∧ (outgoing s).isSome = true ∧ s.lnc.paired = false ∧ (unretired s).length = 4 ∧
       laneAt s 0 = some 0 ∧ laneAt s 1 = some 1 ∧ laneAt s 2 = some 2 ∧ (outrider s).isSome = true) ∧
    (∀ n ∈ ([731, 730] : List Nat), (laned { sweeping := true, sweep := n }).lnc.sweeping = true) ∧
    (let s := setR (run1 (co [] [])) aKeyStat 1
     fld (getR s aKeyStat) 0 3 ≠ 0 ∧ bit (getR s aKeyStat) 1 = false ∧ bit (getR s aKeyStat) 0 = true) ∧
    fld (getR (run1 (co [] [])) aKeyStat) 0 3 = 0 ∧
    (let s := laned { set := .paired, lanes := pairs }
     s.lnc.set = .paired ∧ laneAt s 0 = some 0 ∧ laneAt s 2 = some 2 ∧ laneAt s 1 = none ∧ freeLanes s = [1, 3] ∧ s.lnc.resync = none ∧
       MayAccess s 0 0) := by
  refine ⟨by decide +kernel, by decide +kernel, ⟨mayAccess_of (by decide +kernel), by decide +kernel⟩, by decide, by decide +kernel,
    by decide +kernel, by decide +kernel, by decide +kernel, by decide +kernel, by decide +kernel, by decide +kernel, by decide +kernel,
    mayAccess_of (by decide +kernel)⟩

/-! ### Microstore, banks, calibration, flash -/

/-- The microstore's state and its status and control words. -/
def mcsAt (m : Mcs) (status ctl : Word) : State := { setR (setR (run1 (co [] [])) aMcsStatus status) aMcsCtl ctl with mcs := m }

theorem witness_Microstore :
    (let s := mcsAt { dig := [] } 0 0
     MayAccess s 0 0 ∧ s.mcs.sw.isSome = false ∧ s.mcs.dig.contains 2 = false ∧ (1087 : BitVec 11).toNat < 1088 ∧
       ¬ (1088 : BitVec 11).toNat < 1088 ∧ (1039 : BitVec 11).toNat < 1040 ∧ ¬ (1040 : BitVec 11).toNat < 1040) ∧
    (let s := mcsAt { dig := [2], sw := some true } 0x60000000 0
     MayAccess s 0 0 ∧ s.mcs.sw.isSome = true ∧ 2 ∈ s.mcs.dig ∧ 3 ∉ s.mcs.dig ∧ s.mcs.sw = some true ∧ s.up = true) ∧
    (∀ p ∈ ([(1, 1), (0, 0)] : List (Word × Nat)), fld (getR (mcsAt {} p.1 0) aMcsStatus) 0 2 = p.2) ∧
    ((mcsAt {} 0 0).lnc.set = .triplex ∧ (mcsAt {} 0 0).mcs.sw = none ∧ (mcsAt {} 0 0).lnc.busy = false ∧
      bit (getR (mcsAt {} 0 0) aMcsCtl) 2 = false ∧ bit (getR (mcsAt {} 0 4) aMcsCtl) 2 = true) ∧
    (mcsAt {} 0 0).mcs.dig = 0 :: [1] ∧ (mcsAt { dig := [2, 3] } 0 0x30).mcs.dig = 2 :: [3] ∧
    (let s := mcsAt { sw := some false } 0 0
     s.mcs.sw = some false ∧ insideRoutine false false s.fast = false ∧ (∀ e ∈ s.coach, insideRoutine false false e.2 = false)) ∧
    (let s := { mcsAt { sw := some true } 0 0 with coach := [(0, { co [] [] with routine := some ⟨true, false⟩ })] }
     s.mcs.sw = some true ∧ ∃ e ∈ s.coach, insideRoutine true false e.2 = true) := by
  refine ⟨⟨mayAccess_of (by decide +kernel), by decide +kernel⟩, ⟨mayAccess_of (by decide +kernel), by decide +kernel⟩, fun p h => ?_,
    by decide +kernel, rfl, rfl, by decide +kernel, by decide +kernel⟩
  fin_cases h <;> decide +kernel

/-- Bank `n` in state `b`. -/
def banked (n : Nat) (b : Bank) : State := { run1 (co [] []) with bank := if b = {} then [] else [(n, b)] }

/-- A copy of bank 3 into the spare has reached word `k`. -/
def copyingAt (k : Nat) : State :=
  { setR (run1 (co [] [])) aBnkSpare (u32 (0x01030000 + k)) with bank := [(32, { copyOf := 3 })] }

theorem witness_BankService :
    (MayAccess (banked 31 {}) 0 0 ∧ Acked (banked 31 {}) 0 7 ∧ (bankN (banked 31 {}) 31).own = .owned ∧ (bankN (banked 31 {}) 31).pwr = 0 ∧
      copying (banked 31 {}) 31 = false ∧ vtlock (banked 31 {}) = true) ∧
    (∀ p ∈ ([0, 2] : List Nat), let s := banked 31 { owner := 0x00080000, pwr := 0, e := { busy := p, acc := some (5, true) } }
      s.up = true ∧ (bankN s 31).own = .owned ∧ fld (bankN s 31).owner 18 2 = 2 ∧ (bankN s 31).pwr = 0 ∧ eccAt s 0x101F0028 = 0 ∧
        loses .e true false ⟨.c, true, .normal⟩ = true ∧ loses .e true true ⟨.c, true, .normal⟩ = false) ∧
    ¬ ((bankN (banked 31 {}) 31).own = .owned ∧ fld (bankN (banked 31 {}) 31).owner 18 2 = 2) ∧
    (∀ w ∈ ([0x80000000, 0] : List Word), let s := banked 31 { own := .handing, next := w }
      (bankN s 31).own = .handing ∧ acceptedAt s 31 = false) ∧
    (let s := { banked 0 { own := .handing } with cons := [(0, wordAt .store)] }
     (bankN s 0).own = .handing ∧ acceptedAt s 0 = true) ∧
    (let s := { banked 0 { pwr := 1 } with cons := [(0, { wordAt .store with live := true })] }
     s.up = true ∧ (bankN s 0).pwr = 1 ∧ acceptedAt s 0 (·.live) = true) ∧
    (let s := { setR (banked 0 { pwr := 1 }) aBnkPwr 0x10 with coach := [(0, { co [] [] with held := some (.bank 0) })] }
     (bankN s 0).latched = none ∧ autowake s 0 = true ∧ awaited s 0 = true ∧ acceptedAt s 0 (·.live) = false) ∧
    (bankN (banked 31 { own := .wiping }) 31).own = .wiping ∧
    (∀ k ∈ ([0, 1, 2, 3, 4, 5] : List Nat), let s := banked 31 { pwr := k }
      (bankN s 31).pwr = k ∧ (bankN s 31).latched = none ∧ copying s 31 = false ∧ (bankN s 31).own ≠ .wiping ∧ s.up = true ∧
        acceptedAt s 31 (·.live) = false ∧ awaited s 31 = false) ∧
    (let s := banked 32 {}
     bit (getR s aBnkMap) 31 = false ∧ fld (getR s aBnkSpare) 24 2 ≠ 1 ∧ (bankN s 32).pwr = 0) ∧
    (let s := banked 31 { pwr := 3, fromOff := true, thenRetain := true }
     (bankN s 31).pwr = 3 ∧ (bankN s 31).fromOff = true ∧ (bankN s 31).thenRetain = true) ∧
    (let s := banked 31 { pwr := 1, latched := some 0 }
     (bankN s 31).pwr = 1 ∧ (bankN s 31).latched = some 0 ∧ acceptedAt s 31 (·.live) = false) ∧
    (∀ k ∈ ([0, 8191] : List Nat), let s := setR { banked 31 { scrub := k } with ecc := [(0x101F0008, 1)] } aBnkScrub 0x80000000
      s.up = true ∧ (bankN s 31).pwr = 0 ∧ bit (getR s aBnkScrub) 31 = true ∧ (bankN s 31).scrub = k ∧ eccAt s 0x101F0008 = 1 ∧
        eccAt s (0x101F0000 + 8 * k) = 0) ∧
    (∀ k ∈ ([0, 8191, 8192] : List Nat), let s := copyingAt k
      MayAccess s 0 0 ∧ Acked s 0 7 ∧ (bankN s 32).copyOf = 3 ∧ (bankN s 32).pwr = 0 ∧ fld (getR s aBnkSpare) 24 2 = 1 ∧ fld (getR s aBnkSpare) 0 14 = k ∧ Canonical s ∧
        eccAt s (0x10030000 + 8 * k) ≤ 1) := by
  refine ⟨⟨mayAccess_of (by decide +kernel), by unfold Acked; decide +kernel, by decide +kernel⟩, fun p h => ?_, by decide +kernel,
    fun w h => ?_, by decide +kernel, by decide +kernel, by decide +kernel, by decide +kernel, fun k h => ?_,
    by decide +kernel, by decide +kernel, by decide +kernel, fun k h => ?_, fun k h => ?_⟩
  · fin_cases h <;> decide +kernel
  · fin_cases h <;> decide +kernel
  · fin_cases h <;> decide +kernel
  · fin_cases h <;> decide +kernel
  · fin_cases h <;> exact ⟨mayAccess_of (by decide +kernel), by unfold Acked; decide +kernel, by decide +kernel,
      by decide +kernel, by decide +kernel, by decide +kernel, by unfold Canonical; decide +kernel, by decide +kernel⟩

/-- The bytes of 64-bit words from address `a`, as memory lists them. -/
def cellsOf (a : Nat) : List Nat → List Host.Cell
  | [] => []
  | d :: r => (List.range 8).map (fun i => (a + i, BitVec.ofNat 8 (d / 256 ^ i))) ++ cellsOf (a + 8) r

/-- A calibration record whose fields are all 0 (R310): SEQ 5, CRC-32 of its 72 bytes. -/
def calCells (a commit : Nat) : List Host.Cell :=
  cellsOf a [0xCA1B000800000005, 0, 0, 0, 0, 0, 0, 0, 0] ++ cellsOf (a + commit) [0x500000000 + 0xafc30e8f]

/-- A factory record and user copy A, trim word 1 not as they say, and the given words of CAL_STATUS and STL_STATUS. -/
def calibrated (cal st : Word) : State :=
  setR (setR { setR (run1 (co [] [])) (aCalTrimLo + 8) 1 with mem := calCells 0x20001000 0xFF8 ++ calCells 0x20004000 0x7F8 } aCalStatus cal) aStlStatus st

theorem calibrated_factory : ∀ st ∈ ([0, 0x80000000] : List Word), factoryOk (calibrated 0 st) = true := by
  intro st h
  unfold factoryOk recordOk
  simp only [crc32_eq]
  fin_cases h <;> decide +kernel

theorem calibrated_user : userOk (calibrated 0 0) 1 = true := by
  unfold userOk factoryOk recordOk
  simp only [crc32_eq]
  decide +kernel

theorem witness_SteleAndCalibration :
    fld (getR (setR (run1 (co [] [])) aStlStatus 0) aStlStatus) 0 7 = 0 ∧
    (let s := setR (setR (run1 (co [] [])) (aStlRow + 4) 0x80000000) aStlStatus 1
     s.up = true ∧ bit (getR s aStlStatus) 30 = false ∧ mayCopy s = true ∧ fld (getR s aStlStatus) 0 7 ≠ 0 ∧ bit (getR s (aStlRow + 4 * 1)) 31 = true ∧
       (∀ q < 1, bit (getR s (aStlRow + 4 * q)) 31 = false) ∧ ∀ i < 32, eccAt s (0x20000000 + 256 * 1 + 8 * i) < 2) ∧
    (∀ v ∈ ([0x43FF0001, 0x00000000] : List Word), bit (getR (setR (run1 (co [] [])) aStlStatus v) aStlStatus) 30 = decide (v ≠ 0)) ∧
    (∀ v ∈ ([0x43FF0001, 0xC3FF0001] : List Word), mayCopy (setR (run1 (co [] [])) aStlStatus v) = !v.getLsbD 31) ∧
    bit (getR (setR (run1 (co [] [])) aCfgCtl 1) aCfgCtl) 0 = true ∧
    (∀ x ∈ ([0, 1] : List DWord), let s := { run1 (co [] []) with stl := { apply := some (0, 0, List.replicate 8 x) } }
      s.stl.restore = none ∧ s.stl.apply = some (0, 0, List.replicate 8 x) ∧ (List.replicate 8 x).length = 8) ∧
    (∀ st ∈ ([0, 0x80000000] : List Word), ∀ k r,
      let s := setR { run1 (co [] []) with stl := { restore := some (1, (0x20004000, 0) :: r), tries := [k] } } aStlStatus st
      s.stl.restore = some (1, (0x20004000, 0) :: r) ∧ restoreTries s = k ∧ mayRestore s = !st.getLsbD 31) ∧
    MayAccess (calibrated 0 0) 0 0 ∧ (∀ st ∈ ([0, 0x80000000] : List Word), factoryOk (calibrated 0 st) = true) ∧ userOk (calibrated 0 0) 1 = true ∧
    bit (getR (calibrated 0 0) aCalStatus) 31 = false ∧ bit (getR (calibrated 0x80000000 0) aCalStatus) 31 = true ∧
    bit (getR (calibrated 0 0) aStlStatus) 31 = false ∧ bit (getR (calibrated 0 0x80000000) aStlStatus) 31 = true ∧
    userOk { run1 (co [] []) with mem := cellsOf 0x20004000 [0] } 1 = false ∧
    trimNow (calibrated 0 0) 1 ≠ (calWords (calibrated 0 0) 1).getD 0 0 := by
  refine ⟨by decide +kernel, by decide +kernel, fun v h => ?_, fun v h => ?_, by decide +kernel, fun x h => ?_, fun st h k r => ⟨rfl, rfl, ?_⟩, mayAccess_of (by decide +kernel),
    calibrated_factory, calibrated_user, by decide +kernel, by decide +kernel, by decide +kernel, by decide +kernel, ?_,
    by decide +kernel⟩
  · fin_cases h <;> decide +kernel
  · fin_cases h <;> decide +kernel
  · fin_cases h <;> exact ⟨rfl, rfl, rfl⟩
  · show mayRestore (setR (run1 (co [] [])) aStlStatus st) = _
    fin_cases h <;> decide +kernel
  · unfold userOk recordOk; simp only [crc32_eq]; decide +kernel

/-- The flash interface is ON and holds `f`. -/
def flashAt (f : Fli) : State := { setR (run1 (co [] [])) (aPwrUnit + 4) 0x20 with fli := f }

/-- A program of word 8, an erase of sector 1. -/
def prog1 : FOp := ⟨false, 0, 0x30000008, 7, false, 0, 0, 3, false⟩
def era1 : FOp := ⟨true, 0, 0x30001000, 0, false, 127, 9, 3, false⟩

theorem witness_FlashCommands :
    (let s := flashAt {}
     s.up = true ∧ unitSt s 1 = 2 ∧ MayAccess s 0 (fld (getR s aFliCfg) 4 2) ∧ Acked s 0 9 ∧ s.fli.seq = none ∧
       0x30000000 + 0x3FFF8 + 8 ≤ 0x30000000 + flashBytes s ∧ macroBusy s = false ∧ flashProtected s 0x3003FFF8 = false ∧
       flashErased s 0x3003FFF8 = true ∧ inErase s 0x3003FFF8 = false ∧ bit (getR s aStlStatus) 31 = false ∧ s.fli.prog = none ∧
       s.fli.era = none ∧ s.fli.susp = false ∧ MayAccess s 0 0) ∧
    (let s := flashAt { era := some era1 }
     s.fli.era = some era1 ∧ era1.begin_ = false ∧ s.fli.susp = false ∧ s.fli.going = false ∧ s.fli.prog = none ∧ s.fli.repair = [] ∧
       s.fli.fin = none ∧
       s.fli.seq = none ∧ mayAccess s 0 (fld (getR s aFliCfg) 4 2) = true ∧
       0x30000000 ≤ era1.addr ∧ era1.addr + 4096 ≤ 0x34000000 ∧ era1.slot < 128 ∧ 3 ≤ era1.retries) ∧
    (let s := flashAt { era := some era1, susp := true, want := true }
     s.fli.susp = true ∧ s.fli.swsus = false ∧ s.fli.prog = none ∧ s.fli.seq = none) ∧
    (let s := flashAt { era := some era1, want := true }
     s.fli.want = true ∧ s.fli.going = false ∧
       (∃ o, s.fli.era = some o ∧ o.begin_ = false ∧ s.fli.susp = false ∧ s.fli.fin = none)) ∧
    (let s := flashAt { era := some era1, going := true }
     s.up = true ∧ s.fli.going = true) ∧
    (let s := flashAt { prog := some prog1 }
     s.fli.prog = some prog1 ∧ 3 ≤ prog1.retries ∧ s.fli.going = false ∧ s.fli.resume = false) ∧
    (let s := flashAt { prog := some { prog1 with retries := 2 } }
     s.fli.prog = some { prog1 with retries := 2 } ∧ 2 < 3) ∧
    (let s := flashAt { era := some { era1 with begin_ := true } }
     s.fli.era = some { era1 with begin_ := true } ∧ bit (getR s aStlStatus) 31 = false ∧ s.fli.repair = [] ∧ s.stl.late = []) ∧
    (∀ k ∈ [0x5D, 0x5F], let s := flashAt { era := some era1, fin := some k }
     s.fli.era = some era1 ∧ era1.slot < 128 ∧ bit (getR s aStlStatus) 31 = false ∧ s.fli.repair = [] ∧ s.fli.fin = some k) ∧
    (let s := setR (flashAt { last := some 0x1800000 }) aFliCfg 0x300
     unitSt s 1 = 2 ∧ 32 * (0x1FFF : BitVec 21).toNat < flashBytes s ∧ inErase s (32 * 0x1801FFF) = false ∧ 0x1801FFF ∉ s.fli.bcache ∧
       0x1801FFF ∉ s.fli.pbuf ∧ s.fli.prog = none ∧ s.fli.era = none ∧ (∀ i < 4, eccAt s (32 * 0x1801FFF + 8 * i) = 0) ∧
       bit (getR s aFliCfg) 8 = true ∧ bit (getR s aFliCfg) 9 = true ∧ nextPrefetch s = some 0x1800001 ∧
       (∀ i < 4, eccAt s (32 * 0x1800001 + 8 * i) = 0) ∧
       (let t := { s with ecc := [(0x30000020, 2)] }
        nextPrefetch t = some 0x1800001 ∧ t.fli.prog = none ∧ t.fli.era = none ∧ 2 ≤ eccAt t (32 * 0x1800001 + 8 * 0))) := by
  refine ⟨⟨rfl, by decide +kernel, mayAccess_of (by decide +kernel), by unfold Acked; decide +kernel, rfl, by decide +kernel, by decide +kernel, by decide +kernel, by decide +kernel,
    by decide +kernel, by decide +kernel, rfl, rfl, rfl, mayAccess_of (by decide +kernel)⟩, by decide +kernel, by decide +kernel,
    ⟨rfl, rfl, era1, rfl, rfl, rfl, rfl⟩, ⟨rfl, rfl⟩, by decide +kernel, by decide +kernel, by decide +kernel, by decide +kernel,
    by decide +kernel⟩

/-! ### Reset and start-up -/

/-- A boot header at the start of the flash array for one image word, and the key in the boot ROM (R365). The signature is
(r, r) for r = the hash, by the key whose sum with the generator has r as its first coordinate. Reset is to be released, or (`r`) an L0 restart waits for the boot ROM's steps. -/
def bootHash : Nat := 0x317af9b340586915f0e665af2bd8efba08300e24e780ba2f56fc6d17ca0ad470c36b5d0654de685130e88fa780f21335
def bootable (r : Bool) : State := { State.reset with
  up := r
  pwr := if r then { boot := true } else { good := true }
  mem := (List.range 48).map (fun i => (0xFF00 + i, BitVec.ofNat 8 (0xf7f46f74ed88d56ccb518bc78ea39825efc4bfb957183e30ec3bf441f86daf27c8d0a4261f28cb66b6eabf55e8de14b4 / 256 ^ i)))
    ++ (List.range 48).map (fun i => (0xFF30 + i, BitVec.ofNat 8 (0x3bbc51bdc06064aa3df316629dc9c6e85bcc5368358de62a64de98e0be5faad1e5c8db7cae34a52b883ab6bdd02cbe5 / 256 ^ i)))
    ++ cellsOf 0x30000000 [0x544F4F42, 0x1000100000000008, 0x10001000, 1]
    ++ (List.range 48).map (fun i => (0x30000020 + i, BitVec.ofNat 8 (bootHash / 256 ^ i)))
    ++ (List.range 48).map (fun i => (0x30000050 + i, BitVec.ofNat 8 (bootHash / 256 ^ i)))
    ++ cellsOf 0x30000100 [1] }

theorem boot_hash : ∀ r, sha384Nat (bytesAt (bootable r) 0x30000000 0x20 ++ bytesAt (bootable r) (0x30000000 + 0x100) 8) = bootHash := by
  decide +kernel

theorem boot_key : ∀ r, bootKey (bootable r) = some (0xf7f46f74ed88d56ccb518bc78ea39825efc4bfb957183e30ec3bf441f86daf27c8d0a4261f28cb66b6eabf55e8de14b4,
    0x3bbc51bdc06064aa3df316629dc9c6e85bcc5368358de62a64de98e0be5faad1e5c8db7cae34a52b883ab6bdd02cbe5) := by decide +kernel

theorem boot_signature : ecdsaOk curveP384 bootHash bootHash bootHash
    0xf7f46f74ed88d56ccb518bc78ea39825efc4bfb957183e30ec3bf441f86daf27c8d0a4261f28cb66b6eabf55e8de14b4
    0x3bbc51bdc06064aa3df316629dc9c6e85bcc5368358de62a64de98e0be5faad1e5c8db7cae34a52b883ab6bdd02cbe5 = true := by decide +kernel

theorem boot_fields : ∀ r, headerFields (bootable r) 0x30000000 = true ∧ headerFields (bootable r) 0x30020000 = false ∧
    bootWord (bootable r) 0x30000000 8 = 8 ∧ memNat (bootable r) (0x30000000 + 0x20) 48 = bootHash ∧
    memNat (bootable r) (0x30000000 + 0x50) 48 = bootHash ∧ flashBase = 0x30000000 ∧
    0x30000000 + flashBytes (bootable r) / 2 = 0x30020000 := by decide +kernel

theorem boot_header (r : Bool) : bootHeader (bootable r) = some 0x30000000 := by
  obtain ⟨f1, f2, f3, f4, f5, f6, f7⟩ := boot_fields r
  have va : headerValid (bootable r) 0x30000000 = true := by
    unfold headerValid
    rw [f1, boot_key, f3, f4, f5, boot_hash]
    simp only [Bool.true_and, boot_signature]
  have vb : headerValid (bootable r) 0x30020000 = false := by
    unfold headerValid
    rw [f2]
    rfl
  unfold bootHeader
  simp only [f7, f6, va, vb]

/-- Start-up with every lane good. -/
def startUp : StartUp := ⟨0, 15, [], none, []⟩

theorem reset_has_no_header : bootHeader State.reset = none := by
  have f : headerFields State.reset flashBase = false ∧ headerFields State.reset (flashBase + flashBytes State.reset / 2) = false := by
    decide +kernel
  have v : ∀ h, headerFields State.reset h = false → headerValid State.reset h = false := fun h e => by
    unfold headerValid
    rw [e, Bool.false_and]
  unfold bootHeader
  simp only [v _ f.1, v _ f.2]

theorem boot_banks (r : Bool) (n : Nat) (_ : n < 32) : (bankN (bootable r) n).own = .owned ∧
    coreAdmits (bankN (bootable r) n).owner ⟨0, 0, false⟩ .store = true ∧ (bankN (bootable r) n).pwr = 0 := by
  have e : bankN (bootable r) n = {} := rfl
  rw [e]
  decide +kernel

theorem bootable_size : { bootable false with fli := { (bootable false).fli with size := startUp.size.val } } = bootable false := by
  unfold bootable
  rfl

/-- The journal is empty. -/
theorem boot_journal (k : Nat) (h : k < 128) : (journalSlot (bootable false) k).1 ≠ 0x5B := by
  have far : ∀ e ∈ (bootable false).mem, e.1 < 0x10000 ∨ 0x30000000 ≤ e.1 := by decide +kernel
  have get : ∀ (m : List Host.Cell) (d : Byte) (a : Nat), (∀ e ∈ m, e.1 ≠ a) → SMap.get d m a = d := by
    intro m d a
    induction m with
    | nil => intro _; rfl
    | cons e r ih =>
      intro q
      rw [SMap.get, if_neg (q e List.mem_cons_self)]
      exact ih (fun x hx => q x (List.mem_cons_of_mem _ hx))
  have byte : ∀ a, 0x20005000 ≤ a → a < 0x20006000 → rdB (bootable false) a = 0 := by
    intro a p q
    rw [rdB, get _ _ _ (fun e he => by have := far e he; omega), unlisted, if_neg (by omega), if_neg (by omega), if_neg (by omega)]
  have zero : ∀ n a, 0x20005000 ≤ a → a + n ≤ 0x20006000 → rdN (bootable false) a n = 0 := by
    intro n
    induction n with
    | zero => intros; rfl
    | succ n ih => intro a p q; rw [rdN, byte a p (by omega), ih (a + 1) (by omega) (by omega)]; rfl
  rw [journalSlot, zero 8 (journalAddr k) (by unfold journalAddr; omega) (by unfold journalAddr; omega), ite_self]
  decide

theorem witness_ResetAndStartUp :
    State.reset.up = false ∧ State.reset.pwr.good = false ∧ (run1 (co [] [])).up = true ∧ (run1 (co [] [])).pwr.boot = false ∧
    MayAccess (run1 (co [] [])) 0 0 ∧ ringOf (getC (flagged 1 []) (whoOf (flagged 1 []) 0)) = 1 ∧
    laneOfWho (flagged 1 []) (whoOf (flagged 1 []) 0) = 0 ∧ (startUp.cmp = none ∧ startUp.ports = [] ∧ startUp.pass = 15) ∧
    ((bootable false).up = false ∧ (bootable false).pwr.good = true ∧ (∀ n < 4, (laneOf (bootable false) n).role ≠ .retired) ∧
      (bootable false).fli.repair = [] ∧ (∀ k < 128, (journalSlot (bootable false) k).1 ≠ 0x5B) ∧ lifecycle (bootable false) ≠ 3) ∧
    bootHeader (bootable false) = some 0x30000000 ∧ bootHeader State.reset = none ∧
    ((bootable true).up = true ∧ (bootable true).pwr.boot = true ∧ (bootable true).lnc.set ≠ .failstop ∧ lifecycle (bootable true) ≠ 3) ∧
    bootHeader (bootable true) = some 0x30000000 ∧
    (∀ r, ∀ n, n < 32 → (bankN (bootable r) n).own = .owned ∧
      coreAdmits (bankN (bootable r) n).owner ⟨0, 0, false⟩ .store = true ∧ (bankN (bootable r) n).pwr = 0) :=
  ⟨rfl, rfl, rfl, rfl, mayAccess_of (by decide +kernel), by decide +kernel, by decide +kernel, by decide, ⟨rfl, rfl, by decide +kernel, rfl, boot_journal, by decide +kernel⟩, boot_header false,
    reset_has_no_header, by decide +kernel, boot_header true, boot_banks⟩

theorem witness_MonitorsAndClocks :
    (run1 (co [] [])).up = true ∧ (run1 (co [] [])).stl.late = [] ∧
    (run1 (co [] [])).fli.repair = [] ∧ (run1 (co [] [])).fli.redo = [] ∧ (∀ r < 1024, newlyWeak (run1 (co [] [])) r = false) ∧ oscOff (run1 (co [] [])) = 0 ∧
    oscOff (setR (run1 (co [] [])) aKeyStat 4) ≠ 0 := by decide +kernel

/-- Unit `u` in the state and with the latched request that `v` says. -/
def unitAt (u : Nat) (v : Word) : State := setR (run1 (co [] [])) (aPwrUnit + 4 * u) v

theorem witness_ClockUnitLifecycle :
    MayAccess (run1 (co [] [])) 0 0 ∧
    (let s := { run1 (co [] []) with lnc := { join := some ⟨3, 2, some 0, some 1⟩ } }
     MayAccess s 0 0 ∧ 5 ≠ fld (getR s aClkLane) 0 3 ∧ (∃ j, s.lnc.join = some j ∧ j.leaves ≠ none)) ∧
    (∀ v ∈ ([0x00, 0x10, 0x20, 0x30, 0x110, 0x130] : List Word), let s := unitAt 2 v
      MayAccess s 0 0 ∧ s.up = true ∧ unitSt s 2 = (v >>> 4).toNat % 4 ∧ closeReady s 2 = true ∧ s.cons = []) ∧
    (let s := setR (run1 (co [] [])) aZwLifecycle 0x80000001
     MayAccess s 0 0 ∧ fld (0x6C03 : Word) 8 8 = 0x6C ∧ fld (getR s aZwLifecycle) 0 2 < fld (0x6C03 : Word) 0 2) ∧
    (let s := run1 (co [] [])
     fld (0x6C01 : Word) 8 8 = 0x6C ∧ bit (getR s aZwLifecycle) 31 = false ∧ fld (0x6C01 : Word) 0 2 = fld (getR s aZwLifecycle) 0 2 + 1 ∧
       bit (getR s aStlStatus) 31 = false ∧ journalWaits s = false ∧ s.stl.late = [] ∧ fld (getR s aStlWrfail) 16 16 < 65535 ∧
       ledgerWaits s = false ∧ ∀ n < 512, srcStamp s n = false) ∧
    bit (getR (setR (run1 (co [] [])) aStlStatus 0x80000000) aStlStatus) 31 = true := by
  refine ⟨mayAccess_of (by decide +kernel), ⟨mayAccess_of (by decide +kernel), by decide +kernel, _, rfl, by decide⟩, fun v h => ?_,
    ⟨mayAccess_of (by decide +kernel), by decide +kernel⟩, by decide +kernel, by decide +kernel⟩
  fin_cases h <;> exact ⟨mayAccess_of (by decide +kernel), by decide +kernel⟩

theorem witness_TestWrapper :
    ((run1 (co [] [])).pwr.wir ≠ 3 ∧ (run1 (co [] [])).pwr.wir ≠ 4 ∧ bit (getR (run1 (co [] [])) aZwLifecycle) 31 = false ∧
      fld (getR (run1 (co [] [])) aZwLifecycle) 0 2 = 0 ∧ eccAt (run1 (co [] [])) 0x2003FFF8 = 0 ∧ mayKeystone (run1 (co [] [])) = true ∧
      ledgerClearing (run1 (co [] [])) = false ∧ bit (getR (run1 (co [] [])) aStlStatus) 31 = false) ∧
    bit (getR (setR (run1 (co [] [])) aZwLifecycle 0x80000000) aZwLifecycle) 31 = true ∧
    ((setR (run1 (co [] [])) aZwLifecycle 3).up = true ∧ fld (getR (setR (run1 (co [] [])) aZwLifecycle 3) aZwLifecycle) 0 2 = 3) ∧
    bit (getR (setR (run1 (co [] [])) aStlStatus 0x80000000) aStlStatus) 31 = true ∧
    (∀ k ∈ ([3, 4] : List Nat), ¬ ({ run1 (co [] []) with pwr := { wir := k } }.pwr.wir ≠ 3 ∧
      { run1 (co [] []) with pwr := { wir := k } }.pwr.wir ≠ 4)) := by decide +kernel

/-! ### Host port, registers, crossings -/

/-- The host port is ON, and bank 31 is in state `b`. -/
def hostAt (cfg : Word) (b : Bank) (k : Cons) (o : Option OutReq) : State :=
  { setR (setR (run1 (co [.load 0 false] [])) (aPwrUnit + 8) 0x20) aHptCfg cfg with
    bank := [(31, b)], cons := [(0, k)], hpt := { out := [(4095, o)] } }

/-- Request 4095 is out for entry 0. -/
def req1 : MqReq := ⟨true, 0x40000000, 0x0F, 0, false⟩
def out1 (tries : Nat) (busy gone : Bool) : Option OutReq := some ⟨0, 1, req1, tries, busy, gone⟩
def hostCons (kind : CKind) (a n : Nat) : Cons := { used := true, gen := 1, kind := kind, addr := a, size := n, tag := some 4095 }

theorem witness_HostPort :
    (∀ cfg ∈ ([0, 1] : List Word), let s := hostAt cfg { owner := 0x000C0000 } {} none
      s.up = true ∧ unitSt s 2 = 2 ∧ bit (getR s aHptCfg) 0 = decide (cfg = 1)) ∧
    unitSt (setR (run1 (co [] [])) (aPwrUnit + 8) 0) 2 ≠ 2 ∧
    (0x10000000 ≤ (0x101FFFF8 : Word).toNat ∧ (0x101FFFF8 : Word).toNat < 0x10200000 ∧ (0x101FFFF8 : Word).toNat % 8 = 0 ∧
      bankOf 0x101FFFF8 = 31 ∧ (∀ wr, ((none : Option Rival).any (loses .h wr false)) = false ∧
        ((some ⟨.e, true, .normal⟩ : Option Rival).any (loses .h wr false)) = true) ∧ ¬ (0x10200000 : Word).toNat < 0x10200000) ∧
    (let s := hostAt 1 { owner := 0x000C0000 } {} none
     (bankN s 31).own = .owned ∧ fld (bankN s 31).owner 18 2 = 3 ∧ (bankN s 31).pwr = 0 ∧ eccAt s 0x101FFFF8 = 0 ∧ copying s 31 = false) ∧
    (let s := setR (hostAt 1 { owner := 0x000C0000, pwr := 2 } {} none) (aBnkPwr + 124) 0x10
     fld (bankN s 31).owner 18 2 = 3 ∧ (bankN s 31).pwr = 2 ∧ bit (getR s (aBnkPwr + 4 * 31)) 4 = true) ∧
    ¬ ((bankN (hostAt 1 {} {} none) 31).own = .owned ∧ fld (bankN (hostAt 1 {} {} none) 31).owner 18 2 = 3) ∧
    (∀ b g : Bool, outOf (hostAt 0x11 {} (hostCons .store 0x40000000 4) (out1 1 b g)) 4095 = some ⟨0, 1, req1, 1, b, g⟩) ∧
    outOf (hostAt 0x11 {} {} none) 4095 = none ∧ fld (getR (hostAt 0x11 {} {} none) aHptCfg) 4 4 = 1 ∧
    (∀ k ∈ [hostCons .store 0x40000000 4, hostCons (.load true) 0x40000000 4, hostCons .store 0x40000004 8],
      let s := hostAt 0x11 {} k (out1 1 false false)
      (consOf s 0).used = true ∧ (consOf s 0).gen = 1 ∧ (consOf s 0).done = none ∧ (consOf s 0).tag = some 4095 ∧
        (consOf s 0).orphan = false ∧ (consOf s 0).first = none ∧ (consOf s 0).fast = false ∧ (∀ e ∈ s.cons, unsent e.2 = false) ∧
        (wordParts (consOf s 0).addr (consOf s 0).size).length = (if (consOf s 0).size = 4 then 1 else 2) ∧
        region (consOf s 0).addr = some .host ∧ (consOf s 0).early = none) := by
  refine ⟨fun cfg h => ?_, by decide +kernel, by decide +kernel, by decide +kernel, by decide +kernel, by decide +kernel, by decide +kernel,
    by decide +kernel, by decide +kernel, fun k h => ?_⟩
  · fin_cases h <;> decide +kernel
  · fin_cases h <;> decide +kernel

theorem witness_RegisterAccess :
    region 0x60000000 = none ∧ regionN (aRngGstage + 2) 4 = some .csr ∧ (aRngGstage + 2) % 4 ≠ 0 ∧
    (∃ r, regOf aRngGstage = some r ∧ r.ring < ringOf (getC (flagged 1 []) (whoOf (flagged 1 []) 0)) ∧
      ringOf (getC (run1 (co [] [])) (whoOf (run1 (co [] [])) 0)) ≤ r.ring) ∧
    (∀ a ∈ ([aBneFault, aFliHalf] : List Nat), (csrSwitch a).isSome = true) ∧ unitSt (setR (setR (run1 (co [] [])) aPwrUnit 0) (aPwrUnit + 4) 0x20) 0 = 0 ∧
    unitSt (setR (run1 (co [] [])) (aPwrUnit + 4) 0x20) 1 = 2 ∧ csrSwitch aFliHalf = some 1 ∧ aFliHalf ∈ countClearedByRead ∧
    (regOf aFliHalf).isSome = true ∧ regionN aFliHalf 4 = some .csr ∧
    (∃ r, regOf aCshTmocnt = some r ∧ ringOf (getC (run1 (co [] [])) (whoOf (run1 (co [] [])) 0)) ≤ r.ring) ∧ csrSwitch aCshTmocnt = none ∧
    aCshTmocnt ∈ clearedByRead ∧ regionN aCshTmocnt 4 = some .csr ∧ (regOf aRngXcause).isSome = true ∧ csrSwitch aRngXcause = none ∧
    regOf 0xE00DFFFC = none ∧ regionN 0xE00DFFFC 4 = some .csr ∧ csrSwitch 0xE00DFFFC = none ∧
    laneOfWho (run1 (co [] [])) (whoOf (run1 (co [] [])) 0) = 0 ∧ laneOfWho (runFree (co [] [])) (whoOf (runFree (co [] [])) 0) ≠ 0 ∧
    (∀ a ∈ ([aFliHalf, aCshTmocnt, aRngXcause, 0xE00DFFFC] : List Nat), openOf (run1 (co [] [])) c0 (toIsland (csrUnit a)) = []) := by
  refine ⟨by decide, by decide +kernel, by decide, ⟨_, rfl, by decide +kernel⟩, by decide +kernel, by decide +kernel, by decide +kernel, by decide +kernel,
    by decide +kernel, by decide +kernel, by decide +kernel, ⟨_, rfl, by decide +kernel⟩, by decide +kernel, by decide +kernel, by decide +kernel, by decide +kernel, by decide +kernel,
    by decide +kernel, by decide +kernel, by decide +kernel, by decide +kernel, by decide +kernel, by decide +kernel⟩

theorem witness_SchedulerAndRings :
    (∀ st ∈ [CoachSt.wait, .ready, .halt], let s := { two 0 [] with coach := [(0, co [] []), (1, { co [] [] with st := st })] }
      MayAccess s 0 0 ∧ fastHeld s 1 = false ∧ (coachOf s 1).st = st ∧ (coachOf s 1).st.live = true ∧ 1 ∈ s.queue ∧
        (coachOf s 1).stall = none ∧ (coachOf s 1).drain = false ∧ (coachOf s 1).haltReq = false) ∧
    (let s := { two 0 [] with coach := [(0, co [] []), (1, { co [] [] with stall := some { pops := 0, push := [], len := 1 } })] }
     (coachOf s 1).st ≠ .wait ∧ (coachOf s 1).stall ≠ none) ∧
    (bit (getR fastDue aCshFastcfg) 31 = true ∧ MayAccess (setR (run1 (co [] [])) aCshFastcfg 0x80100005) 0 0) ∧
    bit (getR (run1 (co [] [])) aCshFastcfg) 31 = false ∧
    (let s := gated 0x80010000 [] []
     MayAccess s 0 0 ∧ 0 < fld (getR s aRngGatecnt) 0 11 ∧ ¬ 1 < fld (getR s aRngGatecnt) 0 11 ∧ phys 0x10008000 = 0x10008000 ∧
       bankRange 0x10008000 16 = true ∧ (vtlock s && inVectors 0x10008000 16) = false ∧ 0x10008000 % 16 = 0 ∧
       openOver s c0 0x10008000 16 (fun _ => true) = [] ∧ ownerRefusal s (reqOf s ⟨c0, 0⟩) 0x10008000 16 .store = none ∧
       (bankN s (bankOf 0x10008000)).pwr = 0) ∧
    (let s := setR (gated 0x80010000 [] []) aRngGatebase 0x100003F0
     bankRange 0x100003F0 16 = true ∧ bankRange 0x10000 16 = true ∧ bankRange 0x20000 16 = false ∧ vtlock s = true ∧ inVectors 0x100003F0 16 = true) ∧
    ((sboxOf (run1 (co [] [])) 1).occ = false ∧ (sboxOf (run1 (co [] [])) 2).occ = false ∧ (sboxOf (run1 (co [] [])) 3).occ = false) ∧
    (sboxOf boxed 2).occ = true := by
  refine ⟨fun st h => ?_, by decide +kernel, ⟨by decide +kernel, mayAccess_of (by decide +kernel)⟩, by decide +kernel,
    ⟨mayAccess_of (by decide +kernel), by decide +kernel⟩, by decide +kernel, by decide +kernel, by decide +kernel⟩
  fin_cases h <;> exact ⟨mayAccess_of (by decide +kernel), by decide +kernel⟩

/-- The request of entry 0, which holds `k`, has been retried `n` times on its way to the banks. -/
def crossing (n : Nat) (k : Cons) : State := { open1 k with mret := [⟨4, 5, .open_ 0 false, n, 1, false, none⟩] }

/-- The retry counted and logged, as Crossings has it. -/
def afterMortar (s : State) (src dst : BitVec 4) : State :=
  let s1 : State := { bumpR s aZwMtrRetry 0 32 1 with mret := [] }
  policy (setR s1 aZwMtrFail (mtrFailWord (getR s1 aZwMtrFail) src dst)) pcMORTAR

theorem witness_Crossings :
    (∀ x : MtrSent, x ∈ [⟨6, 4, .wake 5 2, none, true, false⟩, ⟨6, 7, .stamp 64, none, false, false⟩] →
      let s := { open1 (wordAt .store) with mtr := [x] }
      s.up = true ∧ s.mtr.find? (keptFor 6 (if x.dst = 4 then 4 else 7)) = some x ∧ s.mtr.find? (keptFor 4 3) = none ∧
        sequenceOn s 6 4 = none ∧ sequenceOn s 6 7 = none) ∧
    (linked (run1 (co [] [])) 0 4 = false ∧ linked (runFree (co [] [])) 1 4 = true) ∧
    (let s := open1 (wordAt .store)
     sequenceOn s 4 5 = none ∧ linked s 4 5 = true ∧ carries s 4 5 (.open_ 0 false) = true ∧ carries s 4 6 (.open_ 0 false) = false) ∧
    (∀ k ∈ ([1, 2, 3] : List Nat), let s := crossing k (wordAt .store)
      sequenceOn s 4 5 = some ⟨4, 5, .open_ 0 false, k, 1, false, none⟩ ∧ sequenceOn s 4 6 = none) ∧
    (let s := crossing 2 (wordAt .store)
     s.mret.filter (fun m => !(m.src == 4 && m.dst == 5)) = [] ∧ s.mtr = [] ∧ isResponse 4 5 = false ∧ isResponse 5 4 = true ∧
       (consOf s 0).first = none ∧ (consOf s (0 : Fin 3072).val).used = true ∧ (consOf s 0).done = none ∧ (consOf s 0).orphan = false ∧
       (consOf s 0).fast = false ∧ (consOf s 0).early = none ∧ region (consOf s 0).addr ≠ some .host ∧
       (consOf s 0).kind = .store ∧ ∀ k ∈ s.cons, k.2.kind.isBnop = false ∧ unsent k.2 = false) ∧
    (let k := { wordAt .store with addr := 0x1000FFFE }
     (partsOf k).length = 2 ∧ ∃ u, firstHalf (afterMortar (crossing 2 k) 4 5) k = some u) ∧
    (∀ w, (getC (open1 (wordAt .store)) w).stall = none ∧ (getC (open1 (wordAt .store)) w).out = []) ∧
    (let st : Stall := { pops := 1, push := [0], len := 1, op := some (.read aEvcSpur) }
     (getC (sealing st) (whoOf (sealing st) 0)).stall = some st ∧ st.op = some (.read aEvcSpur) ∧ st.stele = none ∧
       st.waits = none ∧ st.divides = none ∧ st.tick = none) := by
  refine ⟨fun x h => ?_, by decide +kernel, by decide +kernel, fun k h => ?_, by decide +kernel,
    ⟨by decide +kernel, Option.isSome_iff_exists.mp (by decide +kernel)⟩, fun w => ?_, by decide +kernel⟩
  · simp only [List.mem_cons, List.not_mem_nil, or_false] at h
    obtain rfl | rfl := h <;> decide +kernel
  · fin_cases h <;> decide +kernel
  · cases w with
    | fast => exact ⟨rfl, rfl⟩
    | coach n => simp only [getC, coachOf, open1, run1, SMap.get]; split <;> exact ⟨rfl, rfl⟩

/-! ### One command each

What each must give is worked out by hand from the rule named. -/

/-- The operand head of coach 0 afterwards. -/
def head0 (t : State) : List Entry := (coachOf t 0).dhead

/-- R72: the sum wraps and sets C and not V. -/
theorem test_add_wraps : got (exec (.add l0) (run1 (co (ve [1, 0xFFFFFFFF]) []))) (fun t =>
    head0 t == ve [0] && (coachOf t 0).pc == 0x101 && (coachOf t 0).status == 0x0000FF08) = true := by decide +kernel

/-- R72: C of SUB is the borrow; 0x80000000 - 1 overflows and borrows nothing. -/
theorem test_sub_flags : got (exec (.sub l0) (flagged 0 [1, 0])) (fun t =>
    head0 t == ve [0xFFFFFFFF] && bit (coachOf t 0).status 3 && !bit (coachOf t 0).status 4) = true ∧
  got (exec (.sub l0) (flagged 8 [1, 0x80000000])) (fun t =>
    head0 t == ve [0x7FFFFFFF] && !bit (coachOf t 0).status 3 && bit (coachOf t 0).status 4) = true := by decide +kernel

/-- A store that is issued and not yet performed: of a word with low half `v` at `a`. -/
def stores (t : State) (a v : Nat) : Bool := t.cons.any (fun e => e.2.used && e.2.addr == a && loW e.2.data == u32 v)

/-- R69, R170, R171: with VTRAP and PRE an overflow raises ARITH before anything is written, and the frame's stores go to
WBP. -/
theorem test_add_traps : got (exec (.add l0) (flagged 0x24 [1, 0x7FFFFFFF])) (fun t =>
    (coachOf t 0).pc == 0x10070 && fld (coachOf t 0).xcause 0 8 == 7 && (coachOf t 0).wbp == 0x10005080
      && stores t 0x10005000 0x100) = true := by decide +kernel

theorem test_mulh_signs : got (exec (.mulh l0) (run1 (co (ve [0xFFFFFFFF, 2]) []))) (fun t => head0 t == ve [0xFFFFFFFF]) = true ∧
  got (exec (.mulhu l0) (run1 (co (ve [0xFFFFFFFF, 2]) []))) (fun t => head0 t == ve [1]) = true := by decide +kernel

/-- R73: a division leaves an entry pending; its completion fills it with the quotient, truncated towards zero. -/
theorem test_div : got (exec (.div l0) (run1 (co (ve [2, 0xFFFFFFF9]) []))) (fun t => head0 t == [.div 0]
      && got (exec (.divisionComplete 0) t) (fun u => head0 u == ve [0xFFFFFFFD])) = true := by decide +kernel

theorem test_mod_sign : got (exec (.mod l0) (run1 (co (ve [2, 0xFFFFFFF9]) []))) (fun t =>
      got (exec (.divisionComplete 0) t) (fun u => head0 u == ve [0xFFFFFFFF])) = true := by decide +kernel

/-- R74. -/
theorem test_sar : got (exec (.sar l0) (run1 (co (ve [4, 0x80000000]) []))) (fun t => head0 t == ve [0xF8000000]) = true := by decide +kernel

theorem test_rol_ror : got (exec (.rol l0) (run1 (co (ve [4, 0x80000001]) []))) (fun t => head0 t == ve [0x00000018]) = true ∧
  got (exec (.ror l0) (run1 (co (ve [4, 0x80000001]) []))) (fun t => head0 t == ve [0x18000000]) = true := by decide +kernel

theorem test_clz_ffs_popc : got (exec (.clz l0) (run1 (co (ve [0]) []))) (fun t => head0 t == ve [32]) = true ∧
  got (exec (.clz l0) (run1 (co (ve [0x00010000]) []))) (fun t => head0 t == ve [15]) = true ∧
  got (exec (.popc l0) (run1 (co (ve [0xF00F0001]) []))) (fun t => head0 t == ve [9]) = true := by decide +kernel

theorem test_bswap_sxb : got (exec (.bswap l0) (run1 (co (ve [0x01020304]) []))) (fun t => head0 t == ve [0x04030201]) = true ∧
  got (exec (.sxb l0) (run1 (co (ve [0x1234_0080]) []))) (fun t => head0 t == ve [0xFFFFFF80]) = true := by decide +kernel

/-- R43: comparisons answer all ones or 0; LT is signed, LTU is not. -/
theorem test_compare : got (exec (.lt l0) (run1 (co (ve [0, 0xFFFFFFFF]) []))) (fun t => head0 t == ve [0xFFFFFFFF]) = true ∧
  got (exec (.ltu l0) (run1 (co (ve [0, 0xFFFFFFFF]) []))) (fun t => head0 t == ve [0]) = true := by decide +kernel

theorem test_tuck_over : got (exec (.tuck l0) (run1 (co (ve [1, 2]) []))) (fun t => head0 t == ve [1, 2, 1]) = true ∧
  got (exec (.over l0) (run1 (co (ve [1, 2]) []))) (fun t => head0 t == ve [2, 1, 2]) = true := by decide +kernel

theorem test_rot_pick : got (exec (.rot l0) (run1 (co (ve [3, 2, 1]) []))) (fun t => head0 t == ve [1, 3, 2]) = true ∧
  got (exec (.pick l0) (run1 (co (ve [1, 7, 8]) []))) (fun t => head0 t == ve [8, 7, 8]) = true := by decide +kernel

/-- R37: a pop of an empty stack raises DSTACK. -/
theorem test_drop_empty : got (exec (.drop l0) (run1 (co [] []))) (fun t => fld (coachOf t 0).xcause 0 8 == 5) = true := by decide +kernel

theorem test_br : got (exec (.br l0 0xFE) (run1 (co [] []))) (fun t => (coachOf t 0).pc == 0x100) = true ∧
  got (exec (.bz l0 0x10) (run1 (co (ve [1]) []))) (fun t => (coachOf t 0).pc == 0x102 && head0 t == []) = true := by decide +kernel

theorem test_call_pushes_return : got (exec (.call l0 0x0010) (run1 (co [] []))) (fun t =>
    (coachOf t 0).pc == 0x113 && (coachOf t 0).rhead == ve [0x103]) = true := by decide +kernel

/-- The loop goes back to LSTART while the count is above 1 (R44). -/
theorem test_loop_back : got (exec (.nop l0) (looping 2)) (fun t => (coachOf t 0).pc == 0x80 && (coachOf t 0).lcount == 1) = true ∧
  got (exec (.nop l0) (looping 1)) (fun t => (coachOf t 0).pc == 0x101) = true := by decide +kernel

/-- A load leaves an entry pending; the completion extends the byte's sign. -/
theorem test_load_byte : got (exec (.ldbs l0) { run1 (co (ve [0x10000403]) []) with mem := [(0x10000403, 0x80)] }) (fun t =>
    head0 t == [.load 0 false] && got (exec (.consignmentCompletion 0 1 .none .none) t) (fun u => head0 u == ve [0xFFFFFF80])) = true := by decide +kernel

/-- A store is performed when its consignment completes, low byte first. -/
theorem test_store_word : got (exec (.st l0) (run1 (co (ve [0x10000404, 0x11223344]) []))) (fun t =>
    rd32 t 0x10000404 == 0 && got (exec (.consignmentCompletion 0 1 .none .none) t) (fun u =>
      u.mem == [(0x10000404, 0x44), (0x10000405, 0x33), (0x10000406, 0x22), (0x10000407, 0x11)] && head0 u == [])) = true := by decide +kernel

/-- A completion under an old allocation count changes nothing but the late count (R148). -/
theorem test_late_completion : got (exec (.consignmentCompletion 0 2 .none .none) (open1 (wordAt .store))) (fun t =>
    t.mem == [] && getR t aCshLate == 1) = true := by decide +kernel

/-- A single-bit error in the table entry is counted, and the completion goes on (R149). -/
theorem test_table_error : got (exec (.consignmentCompletion 0 1 .none .single) (open1 (wordAt .store))) (fun t =>
    (consOf t 0).used == false && getR t aCshTblerr == 1 && (coachOf t 0).imprecise == []) = true := by decide +kernel

/-- The vector table in bank 0 is locked (R162): the store raises ACCESS. -/
theorem test_store_vectors : got (exec (.st l0) (run1 (co (ve [0x10000010, 1]) []))) (fun t => !stores t 0x10000010 1
    && fld (coachOf t 0).xcause 0 8 == 3) = true := by decide +kernel

theorem test_fill_step : got (exec (.fillMem l0 4) (run1 (co (ve [0x5A, 6, 0x10007000]) []))) (fun t =>
    head0 t == ve [0x5A, 2, 0x10007004] && (coachOf t 0).pc == 0x100 && stores t 0x10007000 0x5A5A5A5A) = true := by decide +kernel

theorem test_wake : got (exec (.wake l0) (two 0 [1])) (fun t => (coachOf t 1).wake == 8) = true := by decide +kernel

theorem test_wait_without_bit : got (exec (.waitWake l0) (run1 (co [] []))) (fun t =>
    (coachOf t 0).st == .wait && (coachOf t 0).pc == 0x100 && t.run0 == none) = true := by decide +kernel

theorem test_gate : got (exec (.gate l0 0) (gated 0x80010000 [5] [])) (fun t =>
    (coachOf t 0).pc == 0x200 && (coachOf t 0).rhead == ve [0x103, 0xFF00]) = true ∧
  got (exec (.gate l0 1) (gated 0x80010000 [5] [])) (fun t => fld (coachOf t 0).xcause 0 8 == 8) = true := by decide +kernel

theorem test_retx : got (exec (.retx l0) handling) (fun t => (coachOf t 0).pc == 0x200 && head0 t == ve [9]
    && (coachOf t 0).wbp == 0x10005000) = true := by decide +kernel

theorem test_brk : got (exec (.brk l0 7) (run1 (co [] []))) (fun t => fld (coachOf t 0).xcause 0 8 == 15
    && stores t 0x10005000 0x102) = true := by decide +kernel

/-- At the end of a loop the saved PC is where the loop goes on (R44). -/
theorem test_brk_in_a_loop : got (exec (.brk l0 7) (run1 { coachOf (looping 2) 0 with lend := 0x101, pc := 0x101 })) (fun t =>
    stores t 0x10005000 0x80) = true := by decide +kernel

/-- A vendor patch dispatches ADD into its own routine, here a subtraction (R260). -/
theorem test_vendor_patch : got (exec (.add l0) (patchedAdd 2)) (fun t => head0 t == ve [0xFFFFFFFF]) = true := by decide +kernel

/-- The engine reads a word of a bank that is its own, and is refused one that is not (R283, R285). -/
theorem test_e_port : got (exec (.bankERetry ⟨31, 0, none, none, .none⟩) { banked 31 { owner := 0x00080000 } with mem := [(0x101F0000, 9)] })
      (fun t => (bankN t 31).e.ans == some (.data 9)) = true ∧
  got (exec (.bankERetry ⟨31, 0, none, none, .none⟩) (banked 31 {})) (fun t => (bankN t 31).e.ans == some .error
    && getR t aBnkDeny == 1) = true := by decide +kernel

/-- R26: the engine is OFF. -/
theorem test_bnkey_off : got (exec (.bnkey l0) (engineOn 0 (co (ve [7, 0]) []))) (fun t => fld (coachOf t 0).xcause 0 8 == 3) = true := by decide +kernel

theorem test_illegal : got (exec (.illegal l0 0xFF false) (run1 (co [] []))) (fun t => fld (coachOf t 0).xcause 0 8 == 1) = true := by decide +kernel

/-- IN.RAW takes the majority sample and marks the odd lane (R241). -/
theorem test_in_raw : got (exec (.inRaw l0 5 9 5) (run1 (co [] []))) (fun t => head0 t == ve [5] && t.lnc.marks == [(1, 0)]
    && getR t aKeyIncnt == 1) = true := by decide +kernel

/-- 5 + 6 modulo 7, in slot 0 (R340). -/
theorem test_modadd : got (exec (.modadd 0) (put (working ⟨1, 0x01000080, 0, false, 1024, 1, false⟩) 0xF0000008
    [7, 0, 0, 0, 5, 0, 0, 0, 6])) (fun t => rdN t 0xF0000018 16 == 4 && t.bne.ops == []) = true := by decide +kernel

/-- The response to BNKEY starts the operation and pushes the ticket (R101, R337). -/
theorem test_bnkey_starts : got (exec (.sealedResponse 0 0 .none) (asking { pops := 2, push := [77], len := 1, op := some (.submit 0 0x19000000 1024) }))
    (fun t => eopOf t 0 == some ⟨1, 0x19000000, 0, true, 1024, 0, false⟩ && head0 t == ve [77]) = true := by decide +kernel

/-- A rising edge makes an enabled source PEND (R187, R192). -/
theorem test_event : got (exec (.eventTrigger 64 false) (line64 0x82100000 {} 0)) (fun t => (srcOf t 64).pend
    && (coachOf t 0).wake == 1) = true := by decide +kernel

/-- A claim answers PRIO, the line and the number (R204). -/
theorem test_claim : got (exec (.evcClaim 0 64) (line64 0x82100000 { pend := true } 0)) (fun t => t.bus == 0x10000040
    && (srcOf t 64).active && !(srcOf t 64).pend) = true := by decide +kernel

/-- SWRST resets the block and leaves the Stele and the flash array (R362). -/
theorem test_swrst : got (exec (.swrst 0) { run1 (co [] []) with mem := [(0x10000000, 1), (0x20002008, 2), (0x30000000, 3)] })
    (fun t => !t.up && t.mem == [(0x20002008, 2), (0x30000000, 3)] && t.coach == []) = true := by decide +kernel

theorem test_host_write_bytes : got (exec (.hostWrite 0x101F0000 0x81 0x1122334455667788 5 none .none) (hostAt 1 { owner := 0x000C0000 } {} none))
    (fun t => t.mem == [(0x101F0000, 0x88), (0x101F0007, 0x11)] && t.hpt.last == some ⟨5, 0, 0⟩) = true := by decide +kernel

theorem test_odd_lane_leaves : got (exec (.outputMismatch 0 0x80 0) (run1 (co [] []))) (fun t => t.lnc.set == .duplex
    && (laneOf t 1).role == .test && (laneOf t 3).role == .joining) = true := by decide +kernel

theorem test_program_completes : got (exec (.macroDone true) (flashAt { prog := some prog1 })) (fun t => rd64 t 0x30000008 == 7
    && t.fli.prog == none) = true := by decide +kernel

theorem test_power_on_then_release : got (exec .powerOn State.reset) (fun t => t.pwr.good && !t.up) = true := by decide +kernel

theorem test_step_takes_the_front : got (step { run1 (co [] []) with pending := [.lit l0 5, .nop l0] }) (fun t =>
    head0 t == ve [5] && t.pending == [.nop l0]) = true := by decide +kernel

theorem test_no_word_spells_a_command : decodeTableWord 8 0x10 = none ∧ State.reset.withFetchWord 8 0x10 = State.reset := by
  decide +kernel

end Sys2Proof.Tests
end

section
/-! SUPPORT. Coach 0 (spec/05, R131): an instruction of issue cost above 1 that raises, operands read in place, a register
write that passes its checks, and the requests that coach 0 is exempt from. -/

namespace Sys2Proof.Machine

/-! ### Bodies -/

/-- A body whose first part succeeds goes on from what that part leaves. -/
theorem bind_of_ok {α β : Type} {m : M α} {f : α → M β} {s t : State} {a : α} (h : m s = .ok (a, t)) :
    (m >>= f) s = f a t := by
  simp only [bind, StateT.bind, Except.bind, h]

/-! ### Instructions of issue cost above 1 -/

theorem noBorrow_of_issues {s : State} {l : LaneUse} {w : Who} {len : Nat} (h : Issues s l w len) (t : State) :
    noBorrow s l t = t := by
  simp [noBorrow, h.own]

/-- A body that fails raises its exception on the state before it. -/
theorem instrLong_trap {op : Nat} {s : State} {l : LaneUse} {w : Who} {len : Nat} {body : Iss → M Flow} {k : Wait}
    {i : XItem} (h : Issues s l w len) (hb : body ⟨w, l.set.val⟩ s = .error (.trap i id)) :
    instrLong op s l len body k = raises s l w i := by
  simp only [instrLong, noBorrow_of_issues h, dispatch_of_issues h, raises, runBody, hb, id]

/-! ### Operands read in place -/

/-- Values of the head that are read in place stay where they are. -/
theorem peekN_vals (s : State) (x : Iss) (vs : List Word) (hv : vs ≠ []) {o ro : Nat}
    (h : Takes s x.who (vs.map .val) [] o ro) (ho : vs.length ≤ o) :
    peekN x vs.length s = .ok (vs, modC s x.who id) := by
  have ht := top_drop h
  have hl := h.room
  simp only [List.length_map] at ht hl
  have hlen : ((getC s x.who).dhead.drop vs.length).length = (getC s x.who).dhead.length - vs.length := by simp
  simp only [peekN, bind, StateT.bind, Except.bind, popN_vals x vs s _ hv ht]
  rw [pushAll_room x vs _ hv (by simp only [getC_modC_self]; omega)]
  simp only [pure, StateT.pure, Except.pure, Except.ok.injEq, Prod.mk.injEq, true_and, modC_modC]
  exact modC_congr _ _ _ _ (by rw [← ht]; simp)

/-! ### Register writes on behalf of a coach -/

/-- A register write that the ring admits, outside the switchable units and with no earlier store to await, reaches its
register (R12, R26, R51). -/
theorem writeAs_of_mayAccess {s : State} {c : BitVec 10} {r a : Nat} {v : Word} (h : MayAccess s c r)
    (hd : csrDenied s a (ringOf (getC s (whoOf s c.toNat))) (some v) = false) (hs : csrSwitch a = none)
    (hq : Acked s c (csrUnit a)) (ha : a ≠ aRngGcommit) : writeAs s c a v = writeReg s (whoOf s c.toNat) a v := by
  obtain ⟨hup, -, hlane⟩ := h
  have hq' : openOf s (whoOf s c.toNat) (toIsland (csrUnit a)) = [] := hq
  simp [writeAs, onBehalf, hup, csrStore, csrCheck, hd, Iss.unver, hlane, hs, awaitIsland, awaitCons, hq', ha, bind,
    StateT.bind, Except.bind, get, getThe, MonadStateOf.get, StateT.get, pure, StateT.pure, Except.pure, modify, modifyGet,
    MonadStateOf.modifyGet, StateT.modifyGet]

/-- No store is addressed to the island of the scheduler's registers (R51). -/
theorem acked_csh (s : State) (c : BitVec 10) : Acked s c 1 := by
  have hi : ∀ k, toIsland 1 k = false := fun k => by
    unfold toIsland
    cases region k.addr with
    | none => simp
    | some g => cases g <;> simp
  simp [Acked, openOf, hi]

/-- Ring 0 is in the set of every register; SVO_CMD has the channel's MINRING besides (R12, R385). -/
theorem csrDenied_ring_zero (s : State) (v : Word) {a : Nat} (h : a ≠ aSvoCmd) : csrDenied s a 0 (some v) = false := by
  have hs : (a == aSvoCmd) = false := by simpa using h
  cases hg : regOf a <;> simp [csrDenied, hg, hs]

/-- A write of CSH_HALTREQ in ring 0 is the halt request (R129). -/
theorem writeAs_haltreq {s : State} {c : BitVec 10} (v : Word) (h : MayAccess s c 0) :
    writeAs s c aCshHaltreq v = writeHaltreq s v := by
  have hd : csrDenied s aCshHaltreq (ringOf (getC s (whoOf s c.toNat))) (some v) = false := by
    obtain ⟨-, hring, -⟩ := h
    rw [Nat.le_zero.mp hring]
    exact csrDenied_ring_zero s v (by decide)
  have hq : Acked s c (csrUnit aCshHaltreq) := acked_csh s c
  rw [writeAs_of_mayAccess h hd rfl hq (by decide)]
  rfl

/-! ### What coach 0 is exempt from (R131) -/

theorem coachArg_zero (s : State) : coachArg 0 s = .ok (0, s) := rfl

/-- PARK of coach 0 raises PRIV. -/
theorem execPark_coach_zero {s : State} {l : LaneUse} (h : Issues s l (.coach 0) 1) :
    execPark l s = raises s l (.coach 0) { vec := vPRIV } :=
  instrLong_trap h rfl

/-- PARKC of coach 0 raises PRIV in whichever ring it is executed. -/
theorem execParkc_zero {s : State} {l : LaneUse} {w : Who} (h : Issues s l w 1) (ht : Takes s w [.val 0] [] 1 0) :
    execParkc l s = raises s l w { vec := vPRIV } := by
  have hn : need w 1 1 0 0 s = .ok ((), s) := ht.need
  have hp : peekN ⟨w, l.set.val⟩ 1 s = .ok ([0], modC s w id) :=
    peekN_vals s ⟨w, l.set.val⟩ [0] (by simp) ht (Nat.le_refl 1)
  refine instrLong_trap h ?_
  rw [bind_of_ok hn, bind_of_ok hp, List.getD_cons_zero, bind_of_ok (coachArg_zero _), bind_of_ok rfl, if_pos (.inl rfl)]
  rfl

/-- KILL of coach 0 raises PRIV in whichever ring it is executed. -/
theorem execKill_zero {s : State} {l : LaneUse} {w : Who} (h : Issues s l w 1) (ht : Takes s w [.val 0] [] 0 0) :
    execKill l s = raises s l w { vec := vPRIV } := by
  have hn : need w 1 0 0 0 s = .ok ((), s) := ht.need
  have hp := pop_val s ⟨w, l.set.val⟩ 0 _ (top_drop ht)
  refine instrLong_trap h ?_
  rw [bind_of_ok hn, bind_of_ok hp, bind_of_ok (coachArg_zero _), bind_of_ok rfl, if_pos (.inl rfl)]
  rfl

/-- A halt request for coach 0 is ignored. -/
theorem writeHaltreq_zero (s : State) {v : Word} (h : fld v 0 10 = 0) : writeHaltreq s v = s := by
  simp [writeHaltreq, h]

/-- Settles O28: PARK, PARKC and KILL find coach 0 before anything changes, and a halt request for it has no effect. -/
theorem coachZeroIsExempt : Obligations.CoachZeroIsExempt := by
  unfold Obligations.CoachZeroIsExempt
  refine ⟨fun s l w => ⟨execPark_coach_zero, execParkc_zero, execKill_zero⟩, fun s c v hm hv => ?_⟩
  have hw : writeAs s c aCshHaltreq v = s := (writeAs_haltreq v hm).trans (writeHaltreq_zero s hv)
  exact congrArg occurs hw

end Sys2Proof.Machine
end

section
/-! SUPPORT. Writes of the event controller's registers on behalf of a coach (spec/07): where such a write arrives, and what
a write of EVC_FAST (R202) and a write of EVC_CPL that completes nothing (R207) leave. -/

namespace Sys2Proof.Machine

/-! ### A field after it is written -/

/-- A field that is written reads as the low bits of its new value. -/
theorem fld_setFld (w : Word) {lo n : Nat} (v : Nat) (h : lo + n ≤ 32) : fld (setFld w lo n v) lo n = v % 2 ^ n := by
  refine Nat.eq_of_testBit_eq fun i => ?_
  simp only [fld, setFld, Nat.testBit_mod_two_pow, Nat.testBit_div_two_pow, BitVec.testBit_toNat, BitVec.getLsbD_or,
    BitVec.getLsbD_and, BitVec.getLsbD_not, BitVec.getLsbD_ofNat, Nat.testBit_mul_two_pow, Nat.testBit_two_pow_sub_one]
  by_cases hi : i < n
  · have hw : i + lo < 32 := by omega
    simp [hi, hw]
  · simp [hi]

theorem satAdd_le (m n k : Nat) : satAdd m n k ≤ m := by
  unfold satAdd
  split <;> omega

/-- A count that is bumped reads as the saturated sum. -/
theorem fld_bumpR (s : State) (a k : Nat) {lo n : Nat} (h : lo + n ≤ 32) :
    fld (getR (bumpR s a lo n k) a) lo n = satAdd (2 ^ n - 1) (fld (getR s a) lo n) k := by
  have hle := satAdd_le (2 ^ n - 1) (fld (getR s a) lo n) k
  have hpos := Nat.two_pow_pos n
  rw [bumpR, getR_setR, if_pos rfl, fld_setFld _ _ h, Nat.mod_eq_of_lt (by omega)]

/-! ### Commands that change control registers alone -/

/-- State `t` is `s` but for the control registers at the addresses `l`. -/
structure OnlyRegisters (l : List Nat) (s t : State) : Prop where
  rest : ∃ m, t = { s with csr := m }
  but : SameRegistersBut l s t

theorem onlyRegisters_setR (s : State) (a : Nat) (v : Word) : OnlyRegisters [a] s (setR s a v) where
  rest := ⟨_, rfl⟩
  but b hb := by rw [getR_setR, if_neg (List.ne_of_not_mem_cons hb)]

theorem OnlyRegisters.trans {l k : List Nat} {s t u : State} (h : OnlyRegisters l s t) (g : OnlyRegisters k t u) :
    OnlyRegisters (l ++ k) s u where
  rest := by
    obtain ⟨m, rfl⟩ := h.rest
    obtain ⟨m', rfl⟩ := g.rest
    exact ⟨m', rfl⟩
  but a ha := by
    rw [List.mem_append, not_or] at ha
    exact (g.but a ha.2).trans (h.but a ha.1)

section
variable {l : List Nat} {s t : State} (h : OnlyRegisters l s t)
include h

theorem OnlyRegisters.settle_program : SameProgram s (settle t) := by
  obtain ⟨m, rfl⟩ := h.rest
  refine ⟨fun a => rdB_settle _ a, fun w => (seen_settle _ w).trans ?_⟩
  cases w <;> rfl

theorem OnlyRegisters.settle_src (j : Nat) : srcOf (settle t) j = srcOf s j := by
  obtain ⟨m, rfl⟩ := h.rest
  exact srcOf_settle _ j

theorem OnlyRegisters.settle_registers : SameRegistersBut l s (settle t) := fun a ha =>
  (getR_settle t a).trans (h.but a ha)

end

/-! ### Where a register write on behalf of a coach arrives -/

/-- Stores go to the banks, the flash, the operand memory and the host window: no other island has one to await (R51). -/
theorem acked_of_no_stores (s : State) (c : BitVec 10) {u : Nat} (h : u ∉ [7, 9, 10, 12]) : Acked s c u := by
  simp only [List.mem_cons, List.not_mem_nil, or_false, not_or, ← beq_eq_false_iff_ne] at h
  obtain ⟨hbank, hflash, hopmem, hhost⟩ := h
  have hi : ∀ k, toIsland u k = false := fun k => by
    unfold toIsland
    split <;> simp [hbank, hflash, hopmem, hhost]
  simp [Acked, openOf, hi]

/-- A ring in the register's set is not refused; SVO_CMD has the channel's MINRING besides (R12, R385). -/
theorem csrDenied_of_ring_le (s : State) (v : Word) {a ring : Nat} {r : Reg} (hr : regOf a = some r) (h : ring ≤ r.ring)
    (ha : a ≠ aSvoCmd) : csrDenied s a ring (some v) = false := by
  have hs : (a == aSvoCmd) = false := by simpa using ha
  simp [csrDenied, hr, hs, h]

/-- A register of the event controller that the ring admits is written by the controller (R12). -/
theorem writeAs_evc {s : State} {c : BitVec 10} {a : Nat} {r : Reg} (v : Word) (hu : csrUnit a = 2) (hr : regOf a = some r)
    (h : MayAccess s c r.ring) :
    writeAs s c a v = writeEvc s (numOf s (whoOf s c.toNat)) (ringOf (getC s (whoOf s c.toNat))) a v := by
  have hne : ∀ b, csrUnit b ≠ 2 → a ≠ b := fun b hb e => hb (e ▸ hu)
  have ⟨_, hring, _⟩ := h
  have hd := csrDenied_of_ring_le s v hr hring (hne _ (by decide))
  have hs : csrSwitch a = none := by simp [csrSwitch, hu]
  have hq : Acked s c (csrUnit a) := acked_of_no_stores s c (by simp [hu])
  rw [writeAs_of_mayAccess h hd hs hq (hne _ (by decide))]
  simp [writeReg, touchPower, hu]

theorem writeEvc_fast (s : State) (c r : Nat) (v : Word) : writeEvc s c r aEvcFast v = writeFastSrc s v := by
  rw [writeEvc, if_neg (by decide), if_pos rfl]

theorem writeEvc_cpl (s : State) (c r : Nat) (v : Word) : writeEvc s c r aEvcCpl v = writeCpl s v c r := by
  rw [writeEvc, if_neg (by decide), if_neg (by decide), if_pos rfl]

theorem writeAs_evcFast {s : State} {c : BitVec 10} (v : Word) (h : MayAccess s c 0) :
    writeAs s c aEvcFast v = writeFastSrc s v :=
  (writeAs_evc (r := ⟨0xE0020008, 1, 4, 0, 0x0, 0x800001FF, 0x0⟩) v rfl (by decide) h).trans (writeEvc_fast s _ _ v)

theorem writeAs_evcCpl {s : State} {c : BitVec 10} (v : Word) (h : MayAccess s c 3) :
    writeAs s c aEvcCpl v = writeCpl s v (numOf s (whoOf s c.toNat)) (ringOf (getC s (whoOf s c.toNat))) :=
  (writeAs_evc (r := ⟨0xE0020010, 1, 4, 3, 0x0, 0x0, 0x0⟩) v rfl (by decide) h).trans (writeEvc_cpl s _ _ v)

/-! ### EVC_FAST (R202) -/

/-- What EVC_FAST holds after a write of `v`: a write that changes neither EN nor SRC clears ERR, a refused one sets it. -/
def fastAfter (s : State) (v : Word) : Word :=
  let old := getR s aEvcFast
  let busy := fun k => srcEn s k = true ∨ (srcOf s k).active = true
  if bit v 31 = bit old 31 ∧ fld v 0 9 = fld old 0 9 then setBit old 30 false
  else if srcReserved (fld v 0 9) = true ∨ (bit old 31 = true ∧ busy (fld old 0 9)) ∨
    (bit v 31 = true ∧ busy (fld v 0 9)) then setBit old 30 true
  else v &&& 0x800001FF

/-- A write of EVC_FAST writes that register alone. -/
theorem writeFastSrc_eq (s : State) (v : Word) : writeFastSrc s v = setR s aEvcFast (fastAfter s v) := by
  simp only [writeFastSrc, fastAfter, Bool.and_eq_true, beq_iff_eq]
  split
  · rfl
  · -- Both remaining outcomes write EVC_FAST; the model tests that R202 admits the write, `fastAfter` that it refuses it.
    rw [← ite_not, ← apply_ite (setR s aEvcFast)]
    congr 2
    simp only [Bool.or_eq_true, Bool.and_eq_true, Bool.not_eq_true', ← Bool.not_eq_true, eq_iff_iff]
    tauto

/-! ### EVC_CPL (R207) -/

/-- What EVC_BADCPL_LAST records of a write of source number `n` by coach `c`. -/
def badCplRecord (s : State) (c n : Nat) : Word :=
  u32 ((if n < 512 ∧ (srcOf s n).active = true ∧ (srcOf s n).claimant ≠ c then 2 ^ 31 else 0) + c * 2 ^ 16 + n)

/-- A write of EVC_CPL that completes no source only counts and records. -/
theorem writeCpl_of_no_completion {s : State} {v : Word} {c r : Nat}
    (h : ¬ (fld v 0 10 < 512 ∧ (srcOf s (fld v 0 10)).active = true ∧ ((srcOf s (fld v 0 10)).claimant = c ∨ r ≤ 1))) :
    writeCpl s v c r = setR (bumpR s aEvcBadcpl 0 16 1) aEvcBadcplLast (badCplRecord s c (fld v 0 10)) := by
  simp only [writeCpl, if_neg h, badCplRecord, b2n, ite_mul, one_mul, zero_mul]
  simp [and_assoc]

/-- Settles O43: a write of EVC_FAST leaves `fastAfter` there, and a write of EVC_CPL that completes nothing counts and
records. -/
theorem fastDesignationAndBadCompletions : Obligations.FastDesignationAndBadCompletions := by
  unfold Obligations.FastDesignationAndBadCompletions
  intro s c v
  refine ⟨fun hm => ?_, fun hm hn => ?_⟩
  · have hw : writeAs s c aEvcFast v = setR s aEvcFast (fastAfter s v) := (writeAs_evcFast v hm).trans (writeFastSrc_eq s v)
    have hf := onlyRegisters_setR s aEvcFast (fastAfter s v)
    refine ⟨_, congrArg occurs hw, hf.settle_program, hf.settle_registers, hf.settle_src, ?_⟩
    rw [getR_settle, getR_setR, if_pos rfl]
    rfl
  · have hw := (writeAs_evcCpl v hm).trans (writeCpl_of_no_completion hn)
    have hf := (onlyRegisters_setR s aEvcBadcpl _).trans (onlyRegisters_setR (bumpR s aEvcBadcpl 0 16 1) aEvcBadcplLast
      (badCplRecord s (numOf s (whoOf s c.toNat)) (fld v 0 10)))
    refine ⟨_, congrArg occurs hw, hf.settle_program, hf.settle_src, hf.settle_registers, ?_, ?_⟩
    · rw [getR_settle, getR_setR, if_neg (by decide)]
      exact fld_bumpR s aEvcBadcpl 1 (by decide)
    · rw [getR_settle, getR_setR, if_pos rfl]
      rfl

end Sys2Proof.Machine
end

section
/-! SUPPORT. The schedulers at the end of every command: which coaches a lane set can keep (spec/05, R127, R134, R137). -/

namespace Sys2Proof.Machine

/-! ### The form of every command -/

/-- Every command ends with the schedulers. -/
theorem exec_settles (c : Instr) (s : State) : ∃ u, exec c s = .next (settle u) := by
  cases c <;> exact ⟨_, rfl⟩

/-- A step leaves what the schedulers make of some state, or, in reset with no command waiting, the state as it was. -/
theorem step_settles {s t : State} (h : step s = .next t) : t = s ∨ ∃ u, t = settle u := by
  unfold step at h
  split at h
  · cases h
    unfold idle
    split
    · exact .inr ⟨_, rfl⟩
    · exact .inl rfl
  · rename_i c r _
    obtain ⟨u, hu⟩ := exec_settles c { s with pending := r }
    rw [hu] at h
    cases h
    exact .inr ⟨u, rfl⟩

/-! ### The running coach of a lane set -/

theorem runOf_setRun_self (s : State) (l : Nat) (r : Option Nat) : runOf (setRun s l r) l = r := by
  unfold runOf setRun
  split
  · rfl
  · split <;> rfl

theorem runOf_setRun_other (s : State) {l k : Nat} (r : Option Nat) (hl : l < 3) (hk : k < 3) (h : k ≠ l) :
    runOf (setRun s l r) k = runOf s k := by
  match l, k with
  | 0, 0 | 1, 1 | 2, 2 => exact absurd rfl h
  | 0, 1 | 0, 2 | 1, 0 | 1, 2 | 2, 0 | 2, 1 => rfl
  | l + 3, _ | _, k + 3 => omega

/-- Numbers from 2 on all name lane set 2. -/
theorem exists_lane_set (l : Nat) : ∃ k < 3, ∀ s, runOf s l = runOf s k := by
  by_cases hl : l < 3
  · exact ⟨l, hl, fun _ => rfl⟩
  · exact ⟨2, by omega, fun s => by rw [runOf, if_neg (by omega), if_neg (by omega)]; rfl⟩

/-! ### Only coaches in RUN (R137) -/

theorem coachOf_fixRun (s : State) (l n : Nat) : coachOf (fixRun s l) n = coachOf s n := by
  unfold fixRun
  split
  · split
    · rfl
    · simp [coachOf]
  · rfl

/-- A lane set that `fixRun` has looked at runs only a coach in RUN. -/
theorem run_of_fixRun_self {s : State} {l n : Nat} (h : runOf (fixRun s l) l = some n) : (coachOf s n).st = .run := by
  unfold fixRun at h
  split at h
  · rename_i r hr
    split at h
    · rename_i hrun
      rw [hr, Option.some.injEq] at h
      exact h ▸ hrun
    · rw [runOf_setRun_self] at h; cases h
  · rename_i hr
    rw [hr] at h; cases h

/-- What a lane set runs after `fixRun`, it ran before. -/
theorem runOf_of_fixRun {s : State} {l k n : Nat} (hl : l < 3) (hk : k < 3) (h : runOf (fixRun s l) k = some n) :
    runOf s k = some n := by
  unfold fixRun at h
  split at h
  · split at h
    · exact h
    · by_cases e : k = l
      · rw [e, runOf_setRun_self] at h; cases h
      · rwa [runOf_setRun_other s none hl hk e] at h
  · exact h

/-- The lane sets after `settle` run coaches in RUN only. -/
theorem lanesRun_settle (u : State) : LanesRun (settle u) := by
  intro l n h
  obtain ⟨k, hk, hrun⟩ := exists_lane_set l
  rw [hrun] at h
  simp only [settle] at h ⊢
  rw [coachOf_fixRun]
  match k, hk with
  | 2, _ => exact run_of_fixRun_self h
  | 1, _ => rw [coachOf_fixRun]; exact run_of_fixRun_self (runOf_of_fixRun (by decide) (by decide) h)
  | 0, _ =>
    rw [coachOf_fixRun, coachOf_fixRun]
    exact run_of_fixRun_self (runOf_of_fixRun (by decide) (by decide) (runOf_of_fixRun (by decide) (by decide) h))

/-! ### One lane set for each coach (R137) -/

/-- Lane set `l` runs a coach that it may run, or none. -/
def Placed (s : State) (l : Nat) : Prop := ∀ n, runOf s l = some n → admitsCoach s l n = true

/-- A coach may run on one lane set only: its integrity code and its group decide which. -/
theorem admitsCoach_unique {s : State} {l k n : Nat} (hl : admitsCoach s l n = true) (hk : admitsCoach s k n = true) :
    l = k := by
  simp only [admitsCoach, Bool.and_eq_true] at hl hk
  obtain ⟨-, hl⟩ := hl
  obtain ⟨-, hk⟩ := hk
  split at hl
  · rename_i hp
    rw [if_pos hp] at hk
    split at hl
    · rename_i ha
      rw [if_pos ha, beq_iff_eq] at hk
      exact (beq_iff_eq.mp hl).trans hk.symm
    · rename_i ha
      rw [if_neg ha] at hk
      split at hl
      · rename_i hb
        rw [if_pos hb, beq_iff_eq] at hk
        exact (beq_iff_eq.mp hl).trans hk.symm
      · cases hl
  · rename_i hp
    rw [if_neg hp, beq_iff_eq] at hk
    exact (beq_iff_eq.mp hl).trans hk.symm

theorem oneLaneSet_of_placed {s : State} (h : ∀ l, l < 3 → Placed s l) : OneLaneSet s := fun l k n hl hk hln hkn =>
  admitsCoach_unique (h l hl n hln) (h k hk n hkn)

/-- Which lane set may run coach `n` follows from the lanes, from whether the block is up, and from the integrity code under which
the coach is queued. -/
theorem admitsCoach_congr {s t : State} {l n : Nat} (hlnc : t.lnc = s.lnc) (hup : t.up = s.up)
    (ha : (coachOf t n).qattr = (coachOf s n).qattr) : admitsCoach t l n = admitsCoach s l n := by
  simp only [admitsCoach, lsRuns, issuing, isPaired, freeLanes, laneOf, partOf, hlnc, hup, ha]
  rfl

theorem eligible_admits {s : State} {l n : Nat} (h : eligible s l n = true) : admitsCoach s l n = true := by
  simp only [eligible, Bool.and_eq_true] at h
  exact h.1.1

theorem bestOf_mem {s : State} {ns : List Nat} {n : Nat} (h : bestOf s ns = some n) : n ∈ ns := by
  induction ns generalizing n with
  | nil => cases h
  | cons a r ih =>
    unfold bestOf at h
    split at h
    · cases h; exact List.mem_cons_self
    · rename_i m hm
      split at h
      · cases h; exact List.mem_cons_self
      · cases h; exact List.mem_cons_of_mem _ (ih hm)

/-- The coach that a lane set selects is one that it may run. -/
theorem best_admits {s : State} {l n : Nat} (h : best s l = some n) : admitsCoach s l n = true := by
  have hm := (List.mem_filter.mp (bestOf_mem h)).2
  simp only [selectable, Bool.and_eq_true] at hm
  exact eligible_admits hm.2

/-- One turn of lane set `l` in its selection: the lanes stay as they are, another lane set goes on with its coach, and only
a coach that `l` may run changes its integrity code. -/
structure Turn (l : Nat) (s t : State) : Prop where
  lnc : t.lnc = s.lnc
  up : t.up = s.up
  others : ∀ k, k < 3 → k ≠ l → runOf t k = runOf s k
  attr : ∀ m, (coachOf t m).qattr = (coachOf s m).qattr ∨ admitsCoach s l m = true

theorem turn_setRun (s : State) {l : Nat} (r : Option Nat) (hl : l < 3) : Turn l s (setRun s l r) where
  lnc := setRun_lnc s l r
  up := setRun_up s l r
  others _ hk h := runOf_setRun_other s r hl hk h
  attr m := .inl (by simp [coachOf])

theorem turn_setCoach (s : State) (l n : Nat) (c : Coach) (h : c.qattr = (coachOf s n).qattr ∨ admitsCoach s l n = true) :
    Turn l s (setCoach s n c) where
  lnc := rfl
  up := rfl
  others _ _ _ := rfl
  attr m := by
    rw [coachOf_setCoach]
    split
    · rename_i e; exact e ▸ h
    · exact .inl rfl

theorem turn_queue (l : Nat) (s : State) (q : List Nat) : Turn l s { s with queue := q } where
  lnc := rfl
  up := rfl
  others _ _ _ := rfl
  attr _ := .inl rfl

theorem Turn.trans {l : Nat} {s t u : State} (h : Turn l s t) (g : Turn l t u) : Turn l s u where
  lnc := g.lnc.trans h.lnc
  up := g.up.trans h.up
  others k hk hne := (g.others k hk hne).trans (h.others k hk hne)
  attr m := by
    rcases h.attr m with he | ha
    · exact (g.attr m).imp (·.trans he) ((admitsCoach_congr h.lnc h.up he).symm.trans ·)
    · exact .inr ha

theorem Turn.refl (l : Nat) (s : State) : Turn l s s := turn_queue l s s.queue

/-- A turn of one lane set leaves another with a coach that it may run. -/
theorem Turn.placed {l k : Nat} {s t : State} (h : Turn l s t) (hk : k < 3) (hne : k ≠ l) (hp : Placed s k) :
    Placed t k := fun n hn => by
  rw [h.others k hk hne] at hn
  have hadm := hp n hn
  rcases h.attr n with he | ha
  · rwa [admitsCoach_congr h.lnc h.up he]
  · exact absurd (admitsCoach_unique hadm ha) hne

/-- The selection of lane set `l` is a sequence of its turns. -/
theorem turn_pick {l : Nat} (hl : l < 3) (f : Nat) (s : State) : Turn l s (pick l f s) := by
  induction f generalizing s with
  | zero => exact .refl l s
  | succ f ih =>
    unfold pick
    cases runOf s l with
    | some r =>
      have hready := turn_setCoach s l r { coachOf s r with st := .ready } (.inl rfl)
      dsimp only
      split
      · exact (turn_setRun s none hl).trans (ih _)
      · split
        · exact (hready.trans (turn_setRun _ none hl)).trans (ih _)
        · split
          · exact .refl l s
          · split
            · exact (hready.trans (turn_setRun _ none hl)).trans (ih _)
            · split
              · exact ((hready.trans (turn_queue l _ _)).trans (turn_setRun _ none hl)).trans (ih _)
              · exact .refl l s
    | none =>
      dsimp only
      split
      · exact .refl l s
      · rename_i n hn
        have hnew := fun c => turn_setCoach s l n c (.inr (best_admits hn))
        split
        · exact ((hnew _).trans (turn_queue l _ _)).trans (ih _)
        · exact (hnew _).trans (turn_setRun _ _ hl)

/-- After its selection, a lane set runs a coach that it may run: it has given up any other in its first turn. -/
theorem placed_pick {l : Nat} (f : Nat) (s : State) (h : runOf s l = none ∨ f ≠ 0) : Placed (pick l f s) l := by
  have hnone : ∀ t : State, runOf t l = none → Placed t l := fun t ht n hn => by rw [ht] at hn; cases hn
  induction f generalizing s with
  | zero => exact hnone s (h.resolve_right (· rfl))
  | succ f ih =>
    have hgone := fun t => ih (setRun t l none) (.inl (runOf_setRun_self t l none))
    unfold pick
    cases hr : runOf s l with
    | some r =>
      dsimp only
      split
      · exact hgone _
      · split
        · exact hgone _
        · rename_i hel
          have hstay : Placed s l := fun n hn => by
            rw [hr, Option.some.injEq] at hn
            rw [Bool.not_eq_true, Bool.not_eq_false'] at hel
            exact hn ▸ eligible_admits hel
          split
          · exact hstay
          · split
            · exact hgone _
            · split
              · exact hgone _
              · exact hstay
    | none =>
      dsimp only
      split
      · exact hnone s hr
      · rename_i n _
        split
        · exact ih _ (.inl hr)
        · rename_i hel
          intro m hm
          rw [runOf_setRun_self, Option.some.injEq] at hm
          subst hm
          rw [not_or, Bool.not_eq_true, Bool.not_eq_false'] at hel
          have hadm := eligible_admits hel.2
          refine (admitsCoach_congr ?_ ?_ ?_).trans hadm
          · exact setRun_lnc _ _ _
          · exact setRun_up _ _ _
          · rw [show ∀ t : State, coachOf (setRun t l (some n)) n = coachOf t n from fun t => by simp [coachOf]]
            rw [coachOf_setCoach, coachOf_setCoach, if_pos rfl, if_pos rfl]

theorem placed_fixRun {s : State} {l k : Nat} (hl : l < 3) (hk : k < 3) (h : Placed s k) : Placed (fixRun s l) k :=
  fun n hn => by
    have hsame := settled_fixRun s l
    rw [admitsCoach_congr hsame.lnc hsame.up (by rw [coachOf_fixRun])]
    exact h n (runOf_of_fixRun hl hk hn)

/-- The lane sets after `settle` run different coaches. -/
theorem oneLaneSet_settle (u : State) : OneLaneSet (settle u) := by
  refine oneLaneSet_of_placed fun l hl => ?_
  simp only [settle]
  refine placed_fixRun (by decide) hl (placed_fixRun (by decide) hl (placed_fixRun (by decide) hl ?_))
  match l, hl with
  | 2, _ => exact placed_pick _ _ (.inr (by omega))
  | 1, _ => exact (turn_pick (by decide) _ _).placed (by decide) (by decide) (placed_pick _ _ (.inr (by omega)))
  | 0, _ =>
    exact (turn_pick (by decide) _ _).placed (by decide) (by decide)
      ((turn_pick (by decide) _ _).placed (by decide) (by decide) (placed_pick _ _ (.inr (by omega))))

/-- Settles O4: the schedulers end every step, and what they leave meets both invariants. -/
theorem lanesRunCoachesInRun : Obligations.LanesRunCoachesInRun := by
  unfold Obligations.LanesRunCoachesInRun
  refine ⟨fun s t h hstep => ?_, fun s t h hstep => ?_⟩
  · rcases step_settles hstep with rfl | ⟨u, rfl⟩
    · exact h
    · exact lanesRun_settle u
  · rcases step_settles hstep with rfl | ⟨u, rfl⟩
    · exact h
    · exact oneLaneSet_settle u

/-- Settles O3: every command ends with the schedulers, and so with a next state. -/
theorem everyCommandIsAnswered : Obligations.EveryCommandIsAnswered := fun c s =>
  (exec_settles c s).imp' settle fun _ h => h

/-- Settles O1: with a command waiting, `step` is `exec` on the state without it. -/
theorem stepRunsFront : Obligations.StepRunsFront := fun _ _ _ => rfl

/-- Settles O6: the reset state holds no entry in any table, so that each reads its reset value. -/
theorem resetState : Obligations.ResetState := by
  unfold Obligations.ResetState
  have hnone : ∀ l, runOf State.reset l = none := fun l => by
    unfold runOf
    split
    · rfl
    · split <;> rfl
  refine ⟨fun l n h => ?_, fun l k n _ _ h => ?_, reset_canonical, fun _ => rfl, fun _ => ⟨rfl, rfl⟩, ?_⟩
  · rw [hnone] at h; cases h
  · rw [hnone] at h; cases h
  · exact ⟨by decide, by decide, by decide, by decide, by decide, by decide, by decide, by decide, fun _ => rfl⟩

end Sys2Proof.Machine
end

section
/-! SUPPORT. What a trigger of the event controller can change (spec/07): event sources, wakes, the stamp queue, items of
Mortar, and a few registers. -/

namespace Sys2Proof.Machine

/-! ### The relation -/

/-- State `t` is `s` but for what the event controller does: the sources `ns`, the registers at the addresses `l`, wake bits
and the coaches that these make READY, entries of the stamp queue, items of Mortar, a FAST delivery. -/
structure Signals (l ns : List Nat) (s t : State) : Prop where
  rest : ∃ c k q x m i r p, t = { s with csr := c, coach := k, queue := q, src := x, mls := m, mtr := i, mret := r, fastPend := p }
  mls : ∃ q h g, t.mls = { s.mls with sq := q, sqHigh := h, gap := g }
  coach : ∀ n, ∃ st wk, coachOf t n = { coachOf s n with st := st, wake := wk }
  src : ∀ j, j ∉ ns → srcOf t j = srcOf s j
  csr : SameRegistersBut l s t

theorem Signals.refl (l ns : List Nat) (s : State) : Signals l ns s s where
  rest := ⟨_, _, _, _, _, _, _, _, rfl⟩
  mls := ⟨_, _, _, rfl⟩
  coach _ := ⟨_, _, rfl⟩
  src _ _ := rfl
  csr _ _ := rfl

theorem Signals.trans {l ns : List Nat} {s t u : State} (h : Signals l ns s t) (g : Signals l ns t u) :
    Signals l ns s u where
  rest := by
    obtain ⟨_, _, _, _, _, _, _, _, rfl⟩ := h.rest
    obtain ⟨_, _, _, _, _, _, _, _, rfl⟩ := g.rest
    exact ⟨_, _, _, _, _, _, _, _, rfl⟩
  mls := by
    obtain ⟨_, _, _, e⟩ := h.mls
    obtain ⟨_, _, _, e'⟩ := g.mls
    exact ⟨_, _, _, e'.trans (by rw [e])⟩
  coach n := by
    obtain ⟨_, _, e⟩ := h.coach n
    obtain ⟨_, _, e'⟩ := g.coach n
    exact ⟨_, _, e'.trans (by rw [e])⟩
  src j hj := (g.src j hj).trans (h.src j hj)
  csr a ha := (g.csr a ha).trans (h.csr a ha)

theorem Signals.mono {l l' ns ns' : List Nat} {s t : State} (h : Signals l ns s t) (hl : l ⊆ l') (hn : ns ⊆ ns') :
    Signals l' ns' s t :=
  { h with
    src := fun j hj => h.src j fun hm => hj (hn hm)
    csr := fun a ha => h.csr a fun hm => ha (hl hm) }

/-- What keeps the relation at each step keeps it through a list. -/
theorem signals_foldl {α : Type} {l ns : List Nat} {f : State → α → State} {es : List α}
    (hf : ∀ e ∈ es, ∀ s, Signals l ns s (f s e)) (s : State) : Signals l ns s (es.foldl f s) := by
  induction es generalizing s with
  | nil => exact .refl l ns s
  | cons e r ih => exact (hf e List.mem_cons_self s).trans (ih (fun x hx => hf x (List.mem_cons_of_mem _ hx)) _)

section
variable {l ns : List Nat} {s t : State} (h : Signals l ns s t)
include h

theorem Signals.pending : t.pending = s.pending := by obtain ⟨_, _, _, _, _, _, _, _, rfl⟩ := h.rest; rfl
theorem Signals.mem : t.mem = s.mem := by obtain ⟨_, _, _, _, _, _, _, _, rfl⟩ := h.rest; rfl
theorem Signals.ecc : t.ecc = s.ecc := by obtain ⟨_, _, _, _, _, _, _, _, rfl⟩ := h.rest; rfl
theorem Signals.bus : t.bus = s.bus := by obtain ⟨_, _, _, _, _, _, _, _, rfl⟩ := h.rest; rfl
theorem Signals.draws : t.draws = s.draws := by obtain ⟨_, _, _, _, _, _, _, _, rfl⟩ := h.rest; rfl
theorem Signals.cycles : t.cycles = s.cycles := by obtain ⟨_, _, _, _, _, _, _, _, rfl⟩ := h.rest; rfl
theorem Signals.up : t.up = s.up := by obtain ⟨_, _, _, _, _, _, _, _, rfl⟩ := h.rest; rfl
theorem Signals.fast : t.fast = s.fast := by obtain ⟨_, _, _, _, _, _, _, _, rfl⟩ := h.rest; rfl
theorem Signals.fastOn : t.fastOn = s.fastOn := by obtain ⟨_, _, _, _, _, _, _, _, rfl⟩ := h.rest; rfl
theorem Signals.runOf (k : Nat) : Machine.runOf t k = Machine.runOf s k := by
  obtain ⟨_, _, _, _, _, _, _, _, rfl⟩ := h.rest; rfl
theorem Signals.gaps : t.gaps = s.gaps := by obtain ⟨_, _, _, _, _, _, _, _, rfl⟩ := h.rest; rfl
theorem Signals.div : t.div = s.div := by obtain ⟨_, _, _, _, _, _, _, _, rfl⟩ := h.rest; rfl
theorem Signals.cons : t.cons = s.cons := by obtain ⟨_, _, _, _, _, _, _, _, rfl⟩ := h.rest; rfl
theorem Signals.order : t.order = s.order := by obtain ⟨_, _, _, _, _, _, _, _, rfl⟩ := h.rest; rfl
theorem Signals.sbox : t.sbox = s.sbox := by obtain ⟨_, _, _, _, _, _, _, _, rfl⟩ := h.rest; rfl
theorem Signals.sbOrder : t.sbOrder = s.sbOrder := by obtain ⟨_, _, _, _, _, _, _, _, rfl⟩ := h.rest; rfl
theorem Signals.l0cnt : t.l0cnt = s.l0cnt := by obtain ⟨_, _, _, _, _, _, _, _, rfl⟩ := h.rest; rfl
theorem Signals.bank : t.bank = s.bank := by obtain ⟨_, _, _, _, _, _, _, _, rfl⟩ := h.rest; rfl
theorem Signals.lnc : t.lnc = s.lnc := by obtain ⟨_, _, _, _, _, _, _, _, rfl⟩ := h.rest; rfl
theorem Signals.fli : t.fli = s.fli := by obtain ⟨_, _, _, _, _, _, _, _, rfl⟩ := h.rest; rfl
theorem Signals.bne : t.bne = s.bne := by obtain ⟨_, _, _, _, _, _, _, _, rfl⟩ := h.rest; rfl
theorem Signals.stl : t.stl = s.stl := by obtain ⟨_, _, _, _, _, _, _, _, rfl⟩ := h.rest; rfl
theorem Signals.mcs : t.mcs = s.mcs := by obtain ⟨_, _, _, _, _, _, _, _, rfl⟩ := h.rest; rfl
theorem Signals.hpt : t.hpt = s.hpt := by obtain ⟨_, _, _, _, _, _, _, _, rfl⟩ := h.rest; rfl
theorem Signals.pwr : t.pwr = s.pwr := by obtain ⟨_, _, _, _, _, _, _, _, rfl⟩ := h.rest; rfl
theorem Signals.icache : t.icache = s.icache := by obtain ⟨_, _, _, _, _, _, _, _, rfl⟩ := h.rest; rfl
theorem Signals.moves : t.moves = s.moves := by obtain ⟨_, _, _, _, _, _, _, _, rfl⟩ := h.rest; rfl
theorem Signals.lateAcc : t.lateAcc = s.lateAcc := by obtain ⟨_, _, _, _, _, _, _, _, rfl⟩ := h.rest; rfl
theorem Signals.time : t.mls.time = s.mls.time := by obtain ⟨_, _, _, e⟩ := h.mls; rw [e]

theorem Signals.sameMemory : SameMemory s t := fun _ => by simp only [rdB, h.mem]

/-- A field that wakes do not change. -/
theorem Signals.get {α : Type} (f : Coach → α) (hf : ∀ c st wk, f { c with st := st, wake := wk } = f c) (w : Who) :
    f (getC t w) = f (getC s w) := by
  cases w with
  | coach n => obtain ⟨_, _, e⟩ := h.coach n; simp only [getC, e, hf]
  | fast => simp only [getC, h.fast]

theorem Signals.seen (w : Who) : Machine.seen (getC t w) = Machine.seen (getC s w) := h.get Machine.seen (fun _ _ _ => rfl) w

theorem Signals.sameContexts : SameContexts s t := h.seen

theorem Signals.sameProgram : SameProgram s t := ⟨h.sameMemory, h.sameContexts⟩

end

/-! ### Parts of a command that change little -/

theorem coachOf_csr (s : State) (m : SMap Word) (n : Nat) : coachOf { s with csr := m } n = coachOf s n := rfl

theorem signals_setR (s : State) (a : Nat) (v : Word) : Signals [a] [] s (setR s a v) where
  rest := ⟨_, _, _, _, _, _, _, _, rfl⟩
  mls := ⟨_, _, _, rfl⟩
  coach _ := ⟨_, _, rfl⟩
  src _ _ := rfl
  csr := (onlyRegisters_setR s a v).but

theorem signals_setSrc (s : State) (n : Nat) (x : Src) : Signals [] [n] s (setSrc s n x) where
  rest := ⟨_, _, _, _, _, _, _, _, rfl⟩
  mls := ⟨_, _, _, rfl⟩
  coach _ := ⟨_, _, rfl⟩
  src j hj := by rw [srcOf_setSrc, if_neg (by simpa using hj)]
  csr _ _ := rfl

theorem signals_sq (s : State) (q : List Stamp) (k : Nat) (g : Option (Nat × DWord × Nat)) :
    Signals [] [] s { s with mls := { s.mls with sq := q, sqHigh := k, gap := g } } where
  rest := ⟨_, _, _, _, _, _, _, _, rfl⟩
  mls := ⟨_, _, _, rfl⟩
  coach _ := ⟨_, _, rfl⟩
  src _ _ := rfl
  csr _ _ := rfl

theorem signals_mortar (s : State) (i : List MtrSent) (r : List MtrRetry) (p : Bool) :
    Signals [] [] s { s with mtr := i, mret := r, fastPend := p } where
  rest := ⟨_, _, _, _, _, _, _, _, rfl⟩
  mls := ⟨_, _, _, rfl⟩
  coach _ := ⟨_, _, rfl⟩
  src _ _ := rfl
  csr _ _ := rfl

/-! ### Wakes and items of Mortar -/

theorem signals_setCoach_wake (s : State) (n : Nat) (st : CoachSt) (wk : BitVec 4) :
    Signals [] [] s (setCoach s n { coachOf s n with st := st, wake := wk }) where
  rest := ⟨_, _, _, _, _, _, _, _, rfl⟩
  mls := ⟨_, _, _, rfl⟩
  coach m := by
    rw [coachOf_setCoach]
    split
    · rename_i e; rw [e]; exact ⟨_, _, rfl⟩
    · exact ⟨_, _, rfl⟩
  src _ _ := rfl
  csr _ _ := rfl

theorem signals_queue (s : State) (q : List Nat) : Signals [] [] s { s with queue := q } where
  rest := ⟨_, _, _, _, _, _, _, _, rfl⟩
  mls := ⟨_, _, _, rfl⟩
  coach _ := ⟨_, _, rfl⟩
  src _ _ := rfl
  csr _ _ := rfl

theorem signals_makeReady (s : State) (n : Nat) : Signals [] [] s (makeReady s n) :=
  (signals_setCoach_wake s n .ready _).trans (signals_queue _ _)

theorem signals_wake (s : State) (n : Nat) (b : BitVec 4) : Signals [] [] s (wake s n b) := by
  have hw := signals_setCoach_wake s n (coachOf s n).st ((coachOf s n).wake ||| b)
  unfold wake
  dsimp only
  split
  · split
    · exact hw.trans (signals_makeReady _ n)
    · exact hw
  · exact .refl ..

theorem signals_heldItem {s t : State} {src dst : Nat} {l : MtrLoad} {e : Option Stamp} (h : heldItem s src dst l e = some t) :
    Signals [] [] s t := by
  unfold heldItem at h
  dsimp only at h
  split at h
  · cases h; exact signals_mortar s s.mtr _ s.fastPend
  · split at h
    · cases h; exact signals_mortar s _ s.mret s.fastPend
    · split at h
      · cases h; exact signals_mortar s _ s.mret s.fastPend
      · cases h

/-- An item that crosses at once, or is held, leaves what either leaves. -/
theorem signals_item {s t : State} {ln ns : List Nat} {src dst : Nat} {l : MtrLoad} {e : Option Stamp} (h : Signals ln ns s t) :
    Signals ln ns s ((heldItem s src dst l e).getD t) := by
  cases hh : heldItem s src dst l e with
  | none => exact h
  | some u => exact (signals_heldItem hh).mono (List.nil_subset _) (List.nil_subset _)

theorem signals_sendWake (s : State) (src n : Nat) (b : BitVec 4) : Signals [] [] s (sendWake s src n b) :=
  signals_item (signals_wake s n b)

theorem signals_sendFast (s : State) : Signals [] [] s (sendFast s) :=
  signals_item (signals_mortar s s.mtr s.mret true)

/-! ### Deliveries -/

theorem signals_deliver (s : State) (n : Nat) : Signals [] [n] s (deliver s n) := by
  unfold deliver
  split
  · split
    · exact (signals_setSrc s n _).trans ((signals_sendFast _).mono (List.Subset.refl _) (List.nil_subset _))
    · exact .refl ..
  · refine signals_foldl (fun c _ t => ?_) s
    split
    · exact (signals_sendWake t 6 c wkEVENT).mono (List.Subset.refl _) (List.nil_subset _)
    · exact .refl ..

theorem mem_of_mem_rankInsert {s : State} {n m : Nat} {ns : List Nat} (h : m ∈ rankInsert s n ns) : m = n ∨ m ∈ ns := by
  induction ns with
  | nil => exact .inl (List.mem_singleton.mp h)
  | cons a r ih =>
    unfold rankInsert at h
    split at h
    · exact .inr h
    · split at h
      · exact List.mem_cons.mp h
      · rcases List.mem_cons.mp h with rfl | h
        · exact .inr List.mem_cons_self
        · exact (ih h).imp id (List.mem_cons_of_mem a)

theorem mem_of_mem_inRank {s : State} {m : Nat} {ns : List Nat} (h : m ∈ inRank s ns) : m ∈ ns := by
  induction ns with
  | nil => exact h
  | cons a r ih =>
    rcases mem_of_mem_rankInsert h with rfl | h
    · exact List.mem_cons_self
    · exact List.mem_cons_of_mem _ (ih h)

theorem signals_deliveries (s t : State) (ns : List Nat) : Signals [] ns t (deliveries s t ns) := by
  refine signals_foldl (fun n hn u => (signals_deliver u n).mono (List.Subset.refl _) ?_) t
  simpa using (List.mem_filter.mp (mem_of_mem_inRank hn)).1

/-! ### Triggers -/

/-- The register that a storm of source `n` writes; source 7 declares none (R209). -/
def stormRegs (n : Nat) : List Nat := if n = 7 then [] else [aEvcScfg + 4 * n]

theorem signals_setPend (s : State) (n : Nat) : Signals (stormRegs n) [n] s (setPend s n).1 := by
  have hs := fun x => (signals_setSrc s n x).mono (List.nil_subset (stormRegs n)) (List.Subset.refl _)
  unfold setPend
  dsimp only
  split
  · rename_i h
    refine (hs _).trans ((signals_setR _ _ _).mono ?_ (List.nil_subset _))
    simp [stormRegs, h.1]
  · exact hs _

theorem signals_countTrigger (s : State) (n : Nat) : Signals (stormRegs n) [n] s (countTrigger s n).1 := by
  have hs := fun x => (signals_setSrc s n x).mono (List.nil_subset (stormRegs n)) (List.Subset.refl _)
  unfold countTrigger
  dsimp only
  split
  · exact hs _
  · split
    · exact signals_setPend s n
    · exact hs _

theorem signals_sqLose (s : State) (e : Stamp) : Signals [aMlsSqLost] [] s (sqLose s e).1 := by
  have hr := signals_setR s aMlsSqLost (setFld (getR s aMlsSqLost) 0 32 (satAdd (2 ^ 32 - 1) (fld (getR s aMlsSqLost) 0 32) 1))
  have hq := fun u g => (signals_sq u u.mls.sq u.mls.sqHigh g).mono (List.nil_subset [aMlsSqLost]) (List.Subset.refl _)
  unfold sqLose
  dsimp only
  split
  · exact hr.trans (hq _ _)
  · exact hr.trans (hq _ _)

theorem signals_sqEnter (s : State) (e : Stamp) : Signals [aMlsSqLost] [] s (sqEnter s e).1 := by
  have hq := fun u q k g => (signals_sq u q k g).mono (List.nil_subset [aMlsSqLost]) (List.Subset.refl _)
  unfold sqEnter
  split
  · exact signals_sqLose s e
  · split
    · exact hq s _ _ s.mls.gap
    · dsimp only
      split
      · exact ((hq s _ _ s.mls.gap).trans (hq _ _ _ none)).trans (signals_sqLose _ e)
      · exact ((hq s _ _ s.mls.gap).trans (hq _ _ _ none)).trans (hq _ _ _ _)

theorem signals_stampSrc (s : State) (n : Nat) (soft : Bool) : Signals [aMlsSqLost] [n] s (stampSrc s n soft).1 := by
  have hs := (signals_setSrc s n { srcOf s n with stamp := s.mls.time }).mono (List.nil_subset [aMlsSqLost]) (List.Subset.refl _)
  unfold stampSrc
  split
  · dsimp only
    split
    · rename_i t ht
      exact hs.trans ((signals_heldItem ht).mono (List.nil_subset _) (List.nil_subset _))
    · exact hs.trans ((signals_sqEnter _ _).mono (List.Subset.refl _) (List.nil_subset _))
  · exact .refl ..

theorem signals_triggerRaw (s : State) (n : Nat) (o : Origin) :
    Signals (aMlsSqLost :: stormRegs n) [n] s (triggerRaw s n o).1 := by
  have hs := fun x => (signals_setSrc s n x).mono (List.nil_subset (aMlsSqLost :: stormRegs n)) (List.Subset.refl _)
  have hc := fun u => (signals_countTrigger u n).mono (List.subset_cons_self aMlsSqLost _) (List.Subset.refl _)
  have ht := fun u b => (signals_stampSrc u n b).mono (List.cons_subset_cons aMlsSqLost (List.nil_subset (stormRegs n)))
    (List.Subset.refl _)
  unfold triggerRaw
  split
  · exact .refl ..
  · cases o with
    | hardware m => exact ((hs _).trans (hc _)).trans (ht _ _)
    | pendset => exact (hc _).trans (ht _ _)
    | refire => exact hc _

/-- Registers that a trigger of source `n` may write, whatever overflows. -/
theorem signals_triggerQuiet (s : State) (n : Nat) (o : Origin) :
    Signals (eventRegs n) [n, 7, 27] s (triggerQuiet s n o) := by
  have hmono : ∀ {k : Nat} {u v : State}, k = n ∨ k = 7 ∨ k = 27 → Signals (aMlsSqLost :: stormRegs k) [k] u v →
      Signals (eventRegs n) [n, 7, 27] u v := by
    intro k u v hk h
    refine h.mono ?_ ?_
    · unfold stormRegs
      rcases hk with rfl | rfl | rfl <;> simp [eventRegs]
      split <;> simp
    · rcases hk with rfl | rfl | rfl <;> simp
  have hn := fun u p => hmono (.inl rfl) (signals_triggerRaw u n p)
  have h7 := fun u p => hmono (.inr (.inl rfl)) (signals_triggerRaw u 7 p)
  have h27 := fun u p => hmono (.inr (.inr rfl)) (signals_triggerRaw u 27 p)
  have hfirst : Signals (eventRegs n) [n, 7, 27] s (if (triggerRaw s n o).2.1 then
      triggerRaw (triggerRaw s n o).1 7 (.hardware false) else ((triggerRaw s n o).1, false, false)).1 := by
    split
    · exact (hn _ _).trans (h7 _ _)
    · exact hn _ _
  unfold triggerQuiet
  dsimp only
  generalize (if (triggerRaw s n o).2.1 = true then triggerRaw (triggerRaw s n o).1 7 (.hardware false)
    else ((triggerRaw s n o).1, false, false)) = r at hfirst ⊢
  split
  · split
    · exact (hfirst.trans (h27 _ _)).trans (h7 _ _)
    · exact hfirst.trans (h27 _ _)
  · exact hfirst

theorem signals_triggerBy (s : State) (n : Nat) (o : Origin) : Signals (eventRegs n) [n, 7, 27] s (triggerBy s n o) :=
  (signals_triggerQuiet s n o).trans ((signals_deliveries s _ _).mono (List.nil_subset _) (List.Subset.refl _))

theorem signals_trigger (s : State) (n : Nat) : Signals (eventRegs n) [n, 7, 27] s (trigger s n) := signals_triggerBy s n _

theorem signals_queueStamp (s : State) (e : Stamp) : Signals (eventRegs 27) [7, 27] s (queueStamp s e) := by
  have he := (signals_sqEnter s e).mono (by simp [eventRegs] : [aMlsSqLost] ⊆ eventRegs 27) (List.nil_subset [7, 27])
  unfold queueStamp
  dsimp only
  split
  · exact he.trans ((signals_trigger _ 27).mono (List.Subset.refl _) (by simp))
  · exact he

end Sys2Proof.Machine
end

section
/-! SUPPORT. The milestone cycle of a step with no command waiting (spec/08, R213, R217): what it leaves, and the time. -/

namespace Sys2Proof.Machine

/-- What a tick of the wheel leaves: memory, registers and time. -/
structure TimeStays (s t : State) : Prop where
  mem : t.mem = s.mem
  cycles : t.cycles = s.cycles
  time : t.mls.time = s.mls.time
  csr : SameRegisters s t

theorem TimeStays.trans {s t u : State} (h : TimeStays s t) (g : TimeStays t u) : TimeStays s u where
  mem := g.mem.trans h.mem
  cycles := g.cycles.trans h.cycles
  time := g.time.trans h.time
  csr a := (g.csr a).trans (h.csr a)

theorem Signals.timeStays {ns : List Nat} {s t : State} (h : Signals [] ns s t) : TimeStays s t :=
  ⟨h.mem, h.cycles, h.time, fun a => h.csr a List.not_mem_nil⟩

theorem timeStays_modC (s : State) (w : Who) (f : Coach → Coach) : TimeStays s (modC s w f) :=
  ⟨modC_mem s w f, modC_cycles s w f, by rw [modC_mls], fun a => by rw [getR, modC_csr]; rfl⟩

theorem timeStays_foldl {f : State → Nat → State} (hf : ∀ s n, TimeStays s (f s n)) (ns : List Nat) (s : State) :
    TimeStays s (ns.foldl f s) := by
  induction ns generalizing s with
  | nil => exact ⟨rfl, rfl, rfl, fun _ => rfl⟩
  | cons n r ih => exact (hf s n).trans (ih _)

theorem timeStays_tick (s : State) : TimeStays s (modMls s (fun m => { m with tick := some m.time })) :=
  ⟨rfl, rfl, rfl, fun _ => rfl⟩

/-- A tick of the wheel fires timers, and leaves memory, registers and time (R139). -/
theorem timeStays_wheel (s : State) : TimeStays s (wheel s) := by
  unfold wheel
  split
  · have hmark : TimeStays s (modMls s (fun m => { m with tick := some m.time })) := ⟨rfl, rfl, rfl, fun _ => rfl⟩
    unfold fireTimers
    exact (timeStays_tick s).trans (timeStays_foldl
      (fun t n => (timeStays_modC t (.coach n) _).trans (signals_sendWake _ 7 n wkTIMER).timeStays) _ _)
  · exact ⟨rfl, rfl, rfl, fun _ => rfl⟩

/-- The milestone island after a cycle with the plain increment, from the one that the frequency correction leaves. -/
def plainCycle (m : Mls) : Mls := { m with time := addNs m.time 5, gapCycles := satAdd 5000 m.gapCycles 1 }

/-- A free-running cycle, or a disciplined one with nothing to slew, has the plain increment of 5 ns (R213, R217). -/
theorem milestoneCycle_plain {s : State}
    (h : disciplined s = true → s.mls.slew = 0 ∧ (s.mls.frac + (getR s aMlsFreq).toInt).natAbs < 1000000000) :
    ∃ m : Mls, m.time = s.mls.time ∧ milestoneCycle s = wheel { s with mls := plainCycle m, cycles := s.cycles + 1 } := by
  have hne : ¬ (5 = 0) := by decide
  cases hd : disciplined s with
  | false =>
    refine ⟨s.mls, rfl, ?_⟩
    simp only [milestoneCycle, hd, Bool.false_eq_true, if_false, if_true, if_neg hne, plainCycle]
  | true =>
    obtain ⟨hslew, hfrac⟩ := h hd
    have hc : correctFreq s.mls (getR s aMlsFreq).toInt = { s.mls with frac := s.mls.frac + (getR s aMlsFreq).toInt } := by
      simp only [correctFreq]
      rw [if_neg (by omega), if_neg (by omega)]
    have hstep : cycleStep { s.mls with frac := s.mls.frac + (getR s aMlsFreq).toInt } = (5, s.mls.slew) := by
      simp only [cycleStep]
      rw [if_pos (.inr hslew)]
    refine ⟨{ s.mls with frac := s.mls.frac + (getR s aMlsFreq).toInt }, rfl, ?_⟩
    simp only [milestoneCycle, hd, if_true, hc, hstep, if_neg hne, plainCycle]

/-- The end of a change of CLK_LANE.LSET clears BUSY and writes nothing else (R116). -/
theorem lsetEnd_eq (s : State) : lsetEnd s = s ∨ lsetEnd s = setR s aClkLane (getR s aClkLane &&& 0xBFFFFFFF) := by
  unfold lsetEnd
  split
  · exact .inr rfl
  · exact .inl rfl

theorem getR_lsetEnd_other (s : State) {a : Nat} (h : a ≠ aClkLane) : getR (lsetEnd s) a = getR s a := by
  rcases lsetEnd_eq s with e | e
  · rw [e]
  · rw [e, getR_setR, if_neg h]

theorem getR_lsetEnd_clkLane (s : State) : getR (lsetEnd s) aClkLane = getR s aClkLane &&& 0xBFFFFFFF := by
  unfold lsetEnd
  split
  · rw [clrR, getR_setR, if_pos rfl]; rfl
  · rename_i h
    have h30 : (getR s aClkLane).getLsbD 30 = false := by simpa [bit] using h
    have hmask : ∀ i : Fin 32, i ≠ 30 → (0xBFFFFFFF : Word).getLsbD i = true := by decide
    refine BitVec.eq_of_getLsbD_eq fun i hi => ?_
    rw [BitVec.getLsbD_and]
    by_cases hi30 : i = 30
    · rw [hi30, h30, Bool.false_and]
    · rw [hmask ⟨i, hi⟩ (fun e => hi30 (congrArg Fin.val e)), Bool.and_true]

/-- Settles O2: the cycle of a step with an empty queue is `milestoneCycle`, after the end of a change of LSET. -/
theorem emptyQueueIsACycle : Obligations.EmptyQueueIsACycle := by
  unfold Obligations.EmptyQueueIsACycle
  intro s hs
  have hstep : step s = .next (idle s) := by simp only [step, hs]
  refine ⟨fun hup => by rw [hstep, idle, if_neg (by simp [hup])], fun hup hplain => ?_⟩
  have hmls : (lsetEnd s).mls = s.mls ∧ (lsetEnd s).cycles = s.cycles ∧ (lsetEnd s).mem = s.mem := by
    rcases lsetEnd_eq s with e | e <;> rw [e] <;> exact ⟨rfl, rfl, rfl⟩
  obtain ⟨hm, hcyc, hmem⟩ := hmls
  obtain ⟨m, htime, hcycle⟩ := milestoneCycle_plain (s := lsetEnd s) (by
    rw [disciplined, getR_lsetEnd_other s (by decide), getR_lsetEnd_other s (by decide), hm]
    exact hplain)
  have hw := timeStays_wheel { lsetEnd s with mls := plainCycle m, cycles := (lsetEnd s).cycles + 1 }
  rw [← hcycle] at hw
  have hreg : ∀ a, getR (settle (milestoneCycle (lsetEnd s))) a = getR (lsetEnd s) a := fun a =>
    (getR_settle _ a).trans (hw.csr a)
  refine ⟨_, by rw [hstep, idle, if_pos hup], ?_, ?_, fun a => ?_, fun a ha => ?_, ?_⟩
  · rw [settle_cycles, hw.cycles, hcyc]
  · rw [settle_mls, hw.time, ← hm, ← htime]; rfl
  · simp only [rdB, settle_mem, hw.mem, hmem]
  · rw [hreg, getR_lsetEnd_other s (List.ne_of_not_mem_cons ha)]
  · rw [hreg, getR_lsetEnd_clkLane]

end Sys2Proof.Machine
end

section
/-! SUPPORT. What follows the body of an instruction (spec/02, R44; spec/03, R61): PC or the loop, and nothing outside its
context. -/

namespace Sys2Proof.Machine

/-! ### Contexts -/

@[simp] theorem getC_setC_self (s : State) (w : Who) (c : Coach) : getC (setC s w c) w = c := by
  cases w <;> simp [setC, getC]

theorem getC_setC_other (s : State) {v w : Who} (c : Coach) (h : v ≠ w) : getC (setC s w c) v = getC s v :=
  getC_modC_other s v w (fun _ => c) h

@[simp] theorem rdB_modC (s : State) (w : Who) (f : Coach → Coach) (a : Nat) : rdB (modC s w f) a = rdB s a := by
  simp only [rdB, modC_mem]

@[simp] theorem getR_modC (s : State) (w : Who) (f : Coach → Coach) (a : Nat) : getR (modC s w f) a = getR s a := by
  simp only [getR, modC_csr]

@[simp] theorem consOf_modC (s : State) (w : Who) (f : Coach → Coach) (e : Nat) : consOf (modC s w f) e = consOf s e := by
  simp only [consOf, modC_cons]

@[simp] theorem srcOf_modC (s : State) (w : Who) (f : Coach → Coach) (n : Nat) : srcOf (modC s w f) n = srcOf s n := by
  simp only [srcOf, modC_src]

/-! ### Caches and lane cycles -/

/-- State `t` is `s` but for the instruction caches and the lane cycles to borrow. -/
def SameButCaches (s t : State) : Prop := ∃ i g, t = { s with icache := i, gaps := g }

theorem sameButCaches_icTouch (s : State) (l line : Nat) : SameButCaches s (icTouch s l line) := by
  unfold icTouch
  dsimp only
  split
  · exact ⟨_, _, rfl⟩
  · exact ⟨_, _, rfl⟩

theorem SameButCaches.trans {s t u : State} (h : SameButCaches s t) (g : SameButCaches t u) : SameButCaches s u := by
  obtain ⟨_, _, rfl⟩ := h
  obtain ⟨_, _, rfl⟩ := g
  exact ⟨_, _, rfl⟩

theorem sameButCaches_touchAll (s : State) (l : Nat) (ws : List Nat) :
    SameButCaches s (ws.foldl (fun u a => icTouch u l (phys a / 32)) s) := by
  induction ws generalizing s with
  | nil => exact ⟨_, _, rfl⟩
  | cons a r ih => exact (sameButCaches_icTouch s l _).trans (ih _)

/-- The context of `w` after its instruction ended with flow `f`. -/
def afterFlow (t : State) (pc : Word) (len : Nat) (f : Flow) (c : Coach) : Coach :=
  match f with
  | .seq => ended t { advance c pc len with jumped := false, fetched := [] }
  | .jump => ended t { c with jumped := true, fetched := [] }
  | .stay => ended t c
  | .gone => c

/-- What follows a body changes the caches, the lane cycles to borrow and the context of the instruction. -/
theorem complete_eq (t : State) (x : Iss) (pc : Word) (len : Nat) (f : Flow) (b : Bool) (hup : t.up = true) :
    ∃ u, SameButCaches t u ∧
      complete t x pc len f b = if f = .gone then u else modC u x.who (afterFlow u pc len f) := by
  have hgap : ∀ u g, SameButCaches u (setGap u x.lane g) := fun u g => ⟨u.icache, _, rfl⟩
  refine ⟨_, (sameButCaches_touchAll t x.lane (fetchWords pc.toNat len)).trans
    (hgap _ (f == .jump && x.who != .fast && !b)), ?_⟩
  unfold complete
  rw [if_neg (by simp [hup])]
  cases f <;> rfl

theorem seen_afterFlow (t : State) (pc : Word) (len : Nat) (f : Flow) (c : Coach) :
    seen (afterFlow t pc len f c) = seen (if f = .seq then advance c pc len else c) := by
  cases f <;> rfl

/-- What the end of an instruction of `w` leaves as it was in `s`, the state that its body left. -/
structure EndFrame (s t : State) (w : Who) : Prop where
  mem : SameMemory s t
  csr : SameRegisters s t
  others : SameOthers s t w
  cons : t.cons = s.cons
  src : t.src = s.src
  bank : t.bank = s.bank
  div : t.div = s.div
  lnc : t.lnc = s.lnc
  bne : t.bne = s.bne
  mls : t.mls = s.mls
  order : t.order = s.order
  sbox : t.sbox = s.sbox
  sbOrder : t.sbOrder = s.sbOrder

theorem SameButCaches.getC {s t : State} (h : SameButCaches s t) (w : Who) : Machine.getC t w = Machine.getC s w := by
  obtain ⟨_, _, rfl⟩ := h
  cases w <;> rfl

theorem endFrame_settle (s : State) (w : Who) : EndFrame s (settle s) w :=
  ⟨rdB_settle s, getR_settle s, fun v _ => seen_settle s v, by simp, by simp, by simp, by simp, by simp, by simp, by simp,
    by simp, by simp, by simp⟩

theorem endFrame_modC (s : State) (w : Who) (f : Coach → Coach) : EndFrame s (modC s w f) w :=
  ⟨rdB_modC s w f, getR_modC s w f, fun v hv => by rw [getC_modC_other s v w f hv], by simp, by simp, by simp, by simp,
    by simp, by simp, by simp, by simp, by simp, by simp⟩

theorem SameButCaches.endFrame {s t : State} (h : SameButCaches s t) (w : Who) : EndFrame s t w := by
  have hc := h.getC
  obtain ⟨i, g, rfl⟩ := h
  exact ⟨fun _ => rfl, fun _ => rfl, fun v _ => by rw [hc], rfl, rfl, rfl, rfl, rfl, rfl, rfl, rfl, rfl, rfl⟩

theorem EndFrame.trans {s t u : State} {w : Who} (h : EndFrame s t w) (g : EndFrame t u w) : EndFrame s u w where
  mem a := (g.mem a).trans (h.mem a)
  csr a := (g.csr a).trans (h.csr a)
  others v hv := (g.others v hv).trans (h.others v hv)
  cons := g.cons.trans h.cons
  src := g.src.trans h.src
  bank := g.bank.trans h.bank
  div := g.div.trans h.div
  lnc := g.lnc.trans h.lnc
  bne := g.bne.trans h.bne
  mls := g.mls.trans h.mls
  order := g.order.trans h.order
  sbox := g.sbox.trans h.sbox
  sbOrder := g.sbOrder.trans h.sbOrder

/-- An instruction that ends changes, beyond what its body did, PC and the loop alone (R44, R61). -/
theorem ends_frame (s : State) (l : LaneUse) (w : Who) (len : Nat) (f : Flow) (t : State) (hup : t.up = true) :
    ∃ u, ends s l w len f t = .next u ∧ EndFrame t u w ∧
      seen (getC u w) = seen (if f = .seq then advance (getC t w) (getC s w).pc len else getC t w) := by
  obtain ⟨u, hu, he⟩ := complete_eq t ⟨w, l.set.val⟩ (getC s w).pc len f false hup
  have hplain := hu.endFrame w
  rw [ends, he]
  refine ⟨_, rfl, ?_⟩
  by_cases hf : f = .gone
  · rw [if_pos hf, if_neg (by rw [hf]; decide)]
    exact ⟨hplain.trans (endFrame_settle u w), by rw [seen_settle, hu.getC]⟩
  · rw [if_neg hf]
    exact ⟨(hplain.trans (endFrame_modC u w _)).trans (endFrame_settle _ w),
      by rw [seen_settle, getC_modC_self, seen_afterFlow, hu.getC]⟩

/-- Settles O7: the frame of `ends`, and the context that it leaves. -/
theorem instructionFrame : Obligations.InstructionFrame := by
  unfold Obligations.InstructionFrame
  intro s l w len fl f hup
  obtain ⟨u, he, hf, hseen⟩ := ends_frame s l w len fl (modC s w f) ((modC_up s w f).trans hup)
  rw [getC_modC_self] at hseen
  have ha := (endFrame_modC s w f).trans hf
  refine ⟨u, he, ha.mem, ha.csr, ha.others, ha.cons, ha.src, ha.bank, ha.div, ha.lnc, fun hs => ?_, fun hs => ?_⟩
  · rw [hseen, if_pos hs]
  · rw [hseen, if_neg hs]

/-! ### NOP and the loop -/

/-- NOP has no effect of its own. -/
theorem execNop_of_issues {s : State} {l : LaneUse} {w : Who} (h : Issues s l w 1) : execNop l s = ends s l w 1 .seq s :=
  instr_ok h rfl (by decide)

/-- Settles O8: NOP ends at once, and the loop decision is that of `advance`. -/
theorem nopAndLoopBack : Obligations.NopAndLoopBack := by
  unfold Obligations.NopAndLoopBack
  intro s l w hi hup
  obtain ⟨u, he, hf, hseen⟩ := ends_frame s l w 1 .seq s hup
  rw [if_pos rfl] at hseen
  refine ⟨u, (execNop_of_issues hi).trans he, hf.mem, hf.csr, hf.others, fun hend => ?_, fun hend hle => ?_, fun hend hlt => ?_⟩
  · have : ¬ (bit (getC s w).status 19 && (getC s w).lend == (getC s w).pc) = true := by simpa using hend
    rw [hseen, advance, if_neg this]
    rfl
  · have : (bit (getC s w).status 19 && (getC s w).lend == (getC s w).pc) = true := by simpa using hend
    rw [hseen, advance, if_pos this, if_pos hle]
    rfl
  · have : (bit (getC s w).status 19 && (getC s w).lend == (getC s w).pc) = true := by simpa using hend
    rw [hseen, advance, if_pos this, if_neg (by omega)]

end Sys2Proof.Machine
end

section
/-! SUPPORT. Bodies of instructions: sequences, and the return stack within its head. -/

namespace Sys2Proof.Machine

/-! ### Sequences -/

/-- A body whose first part stops stops there. -/
theorem bind_of_error {α β : Type} {m : M α} {f : α → M β} {s : State} {e : Stop} (h : m s = .error e) :
    (m >>= f) s = .error e := by
  simp only [bind, StateT.bind, Except.bind, h]

theorem bind_get {β : Type} (f : State → M β) (s : State) : (get >>= f) s = f s s := rfl

theorem bind_modify {β : Type} (g : State → State) (f : PUnit → M β) (s : State) :
    ((modify g : M PUnit) >>= f) s = f ⟨⟩ (g s) := rfl

theorem bind_modI {β : Type} (x : Iss) (g : Coach → Coach) (f : PUnit → M β) (s : State) :
    (modI x g >>= f) s = f ⟨⟩ (modC s x.who g) := rfl

theorem pure_eq {α : Type} (a : α) (s : State) : (pure a : M α) s = .ok (a, s) := rfl

/-! ### Entries -/

theorem popE_dhead (s : State) (x : Iss) (e : Entry) (r : List Entry) (h : (getC s x.who).dhead = e :: r) :
    popE x .d s = .ok (e, modC s x.who (restack 1 [])) := by
  rw [popE_cons s x e r h]
  refine congrArg (fun t => Except.ok (e, t)) (modC_congr _ _ _ _ ?_)
  simp [restack, h, u32]

theorem pop_restack (s : State) (x : Iss) (v : Word) (r : List Entry) (h : (getC s x.who).dhead = .val v :: r) :
    pop x s = .ok (v, modC s x.who (restack 1 [])) := by
  rw [pop, popK, bind_of_ok (popE_dhead s x _ r h)]
  rfl

theorem pushE_restack (s : State) (x : Iss) (e : Entry) (h : (getC s x.who).dhead.length < 8) :
    pushE x .d e s = .ok ((), modC s x.who (restack 0 [e])) := by
  rw [pushE_room s x e h]
  refine congrArg (fun t => Except.ok ((), t)) (modC_congr _ _ _ _ ?_)
  simp [restack, u32]

theorem push_restack (s : State) (x : Iss) (v : Word) (h : (getC s x.who).dhead.length < 8) :
    push x v s = .ok ((), modC s x.who (restack 0 [.val v])) := pushE_restack s x (.val v) h

theorem popE_rhead (s : State) (x : Iss) (e : Entry) (r : List Entry) (h : (getC s x.who).rhead = e :: r) :
    popE x .r s = .ok (e, modC s x.who (rerack 1 [])) := by
  have hm : modC s x.who (fun c => setDepth .r (setHead .r c r) (depthOf .r c - 1)) = modC s x.who (rerack 1 []) :=
    modC_congr _ _ _ _ (by simp [rerack, setDepth, setHead, depthOf, h, u32])
  rw [popE, bind_get, headOf, h, List.isEmpty_cons, if_neg Bool.false_ne_true, bind_of_ok (pure_eq _ _), bind_get]
  simp only [headOf, h]
  rw [bind_modI, hm]
  rfl

theorem rpop_rerack (s : State) (x : Iss) (v : Word) (r : List Entry) (h : (getC s x.who).rhead = .val v :: r) :
    rpop x s = .ok (v, modC s x.who (rerack 1 [])) := by
  rw [rpop, popK, bind_of_ok (popE_rhead s x _ r h)]
  rfl

theorem rpush_rerack (s : State) (x : Iss) (v : Word) (h : (getC s x.who).rhead.length < 4) :
    rpush x v s = .ok ((), modC s x.who (rerack 0 [.val v])) := by
  have hm : modC s x.who (fun c => setDepth .r (setHead .r c (.val v :: headOf .r c)) (depthOf .r c + 1)) =
      modC s x.who (rerack 0 [.val v]) :=
    modC_congr _ _ _ _ (by simp [rerack, setDepth, setHead, depthOf, headOf, u32])
  rw [rpush, pushE, bind_get, if_neg (by simp only [headOf, Stk.cap]; omega), bind_of_ok (pure_eq _ _), ← hm]
  rfl

theorem rtop_drop {s : State} {w : Who} {es rs : List Entry} {o ro : Nat} (h : Takes s w es rs o ro) :
    (getC s w).rhead = rs ++ (getC s w).rhead.drop rs.length := by
  obtain ⟨r, hr⟩ := h.rtop
  rw [hr]; simp

/-! ### What stack changes leave of the heads -/

@[simp] theorem restack_dhead (i : Nat) (es : List Entry) (c : Coach) : (restack i es c).dhead = es ++ c.dhead.drop i := rfl
@[simp] theorem restack_rhead (i : Nat) (es : List Entry) (c : Coach) : (restack i es c).rhead = c.rhead := rfl
@[simp] theorem restack_status (i : Nat) (es : List Entry) (c : Coach) : (restack i es c).status = c.status := rfl
@[simp] theorem restack_pc (i : Nat) (es : List Entry) (c : Coach) : (restack i es c).pc = c.pc := rfl
@[simp] theorem rerack_dhead (i : Nat) (es : List Entry) (c : Coach) : (rerack i es c).dhead = c.dhead := rfl
@[simp] theorem rerack_rhead (i : Nat) (es : List Entry) (c : Coach) : (rerack i es c).rhead = es ++ c.rhead.drop i := rfl
@[simp] theorem rerack_pc (i : Nat) (es : List Entry) (c : Coach) : (rerack i es c).pc = c.pc := rfl

theorem u32_add (m n : Nat) : u32 m + u32 n = u32 (m + n) := by simp [u32, BitVec.ofNat_add]

/-- Entries pushed after others stand above them. -/
theorem restack_push (i : Nat) (es fs : List Entry) (c : Coach) :
    restack 0 fs (restack i es c) = restack i (fs ++ es) c := by
  have hl : u32 (fs ++ es).length = u32 es.length + u32 fs.length := by rw [u32_add, List.length_append, Nat.add_comm]
  simp only [restack, hl, Coach.mk.injEq, and_true, true_and, List.drop_zero, List.append_assoc]
  rw [show u32 0 = 0 from rfl]
  ring

/-- Pops one after another are one. -/
theorem restack_pop (i j : Nat) (es : List Entry) (c : Coach) : restack j es (restack i [] c) = restack (i + j) es c := by
  have hl : u32 (i + j) = u32 i + u32 j := (u32_add i j).symm
  simp only [restack, hl, Coach.mk.injEq, and_true, true_and, List.nil_append, List.drop_drop, List.length_nil]
  rw [show u32 0 = 0 from rfl]
  ring

/-! ### Rows of the common stack effects -/

/-- A body that succeeds, and does not stall its coach, ends its instruction. -/
theorem instrLong_ok {op : Nat} {s : State} {l : LaneUse} {w : Who} {len : Nat} {body : Iss → M Flow} {k : Wait} {f : Flow}
    {t : State} (h : Issues s l w len) (hb : body ⟨w, l.set.val⟩ s = .ok (f, t)) (hf : f ≠ .stay) :
    instrLong op s l len body k = ends s l w len f t := by
  simp only [instrLong, noBorrow_of_issues h, dispatch_of_issues h, ends, runBody_ok _ hb hf]

theorem unary_row {i : LaneUse → Instr} {op : Nat} {f g : Word → Word}
    (hi : ∀ l s, exec (i l) s = instr op s l 1 (unary g)) (hg : ∀ a, g a = f a) : Unary i f := by
  intro a s l w hs ht
  rw [hi, instr_ok hs (unary_ok s ⟨w, l.set.val⟩ g a ht) (by decide), hg]
  rfl

theorem binary_row {i : LaneUse → Instr} {op : Nat} {f g : Word → Word → Word}
    (hi : ∀ l s, exec (i l) s = instr op s l 1 (binary g)) (hg : ∀ a b, g a b = f a b) : Binary i f := by
  intro a b s l w hs ht
  rw [hi, instr_ok hs (binary_ok s ⟨w, l.set.val⟩ g a b ht) (by decide), hg]
  rfl

theorem pushes_row {i : LaneUse → Instr} {op len : Nat} {v : Coach → Word} {u : Word}
    (hi : ∀ l s, exec (i l) s = instr op s l len (pushes u)) (hu : ∀ c, v c = u) : Pushes i len v := by
  intro s l w hs ht
  rw [hi, instr_ok hs (pushes_ok s ⟨w, l.set.val⟩ u ht) (by decide)]
  exact congrArg (ends s l w len .seq) (modC_congr _ _ _ _ (by rw [hu]))

theorem rearrange_row {i : LaneUse → Instr} {op n m : Nat} {f : List Word → List Word} {vs us : List Word}
    (hi : ∀ l s, exec (i l) s = instr op s l 1 (rearrange n m f)) (hf : f vs = us) (hn : vs.length = n) (hm : us.length = m)
    (hv : vs ≠ []) (hu : us ≠ []) : Replaces i 1 (vs.map .val) us .seq id := by
  subst hf hn hm
  intro s l w hs ht
  have hb := rearrange_ok s ⟨w, l.set.val⟩ vs f hv hu ht
  rw [hi, instr_ok hs hb (by decide), List.length_map]
  rfl

end Sys2Proof.Machine
end

section
/-! SUPPORT. The values of logic, shifts, counts and compares (spec/03, R72 to R75), and the stack instructions (R70, R71). -/

namespace Sys2Proof.Machine

/-! ### Counts -/

/-- The zeros above the most significant 1 of the low `m` bits. -/
theorem clzFrom_of_msb {a : Word} {k m : Nat} (hm : k < m) (hk : a.getLsbD k = true)
    (h : ∀ j, k < j → a.getLsbD j = false) : clzFrom a m = m - 1 - k := by
  induction m with
  | zero => omega
  | succ m ih =>
    unfold clzFrom
    by_cases e : m = k
    · rw [if_pos (e ▸ hk)]; omega
    · rw [if_neg (by rw [h m (by omega)]; decide), ih (by omega)]; omega

theorem clzFrom_zero (m : Nat) : clzFrom 0 m = m := by
  induction m with
  | zero => rfl
  | succ m ih => rw [clzFrom, if_neg (by simp), ih]

/-- The least significant 1, looked for from bit `32 - m`. -/
theorem ffsFrom_of_lsb {a : Word} {k m : Nat} (hm : m ≤ 32) (hlo : 32 - m ≤ k) (hk : a.getLsbD k = true) (hi : k < 32)
    (h : ∀ j, j < k → a.getLsbD j = false) : ffsFrom a m = k := by
  induction m with
  | zero => omega
  | succ m ih =>
    unfold ffsFrom
    by_cases e : 31 - m = k
    · rw [if_pos (e ▸ hk), e]
    · rw [if_neg (by rw [h _ (by omega)]; decide), ih (by omega) (by omega)]

theorem ffsFrom_zero (m : Nat) : ffsFrom 0 m = 32 := by
  induction m with
  | zero => rfl
  | succ m ih => rw [ffsFrom, if_neg (by simp), ih]

theorem popc_toNat (a : Word) : (popc a).toNat = ((List.range 32).filter (fun i => a.getLsbD i)).length := by
  have h : (List.range 32).countP (fun i => a.getLsbD i) ≤ 32 := List.countP_le_length
  rw [popc, BitVec.toNat_ofNat, Nat.mod_eq_of_lt (by omega), List.countP_eq_length_filter]

/-! ### Words -/

theorem getLsbD_31_eq_neg (a : Word) : a.getLsbD 31 = decide (a.toInt < 0) := by
  rw [← BitVec.msb_eq_toInt, BitVec.msb_eq_getLsbD_last]

theorem absolute_eq (a : Word) : absolute a = if a.toInt < 0 then 0 - a else a := by
  simp only [absolute, getLsbD_31_eq_neg, decide_eq_true_eq]

theorem positive_eq (a : Word) : (decide (a ≠ 0) && !a.getLsbD 31) = decide (0 < a.toInt) := by
  have h0 : a = 0 ↔ a.toInt = 0 := by rw [← BitVec.toInt_inj]; rfl
  rw [getLsbD_31_eq_neg, Bool.eq_iff_iff]
  simp only [Bool.and_eq_true, decide_eq_true_eq, Bool.not_eq_true', decide_eq_false_iff_not, ne_eq, h0]
  omega

theorem bswap_eq (a : Word) : bswap a =
    (a.extractLsb' 0 8 ++ a.extractLsb' 8 8 ++ a.extractLsb' 16 8 ++ a.extractLsb' 24 8).cast (by decide) := by
  refine BitVec.eq_of_getLsbD_eq fun i hi => ?_
  rw [BitVec.getLsbD_cast]
  simp only [BitVec.getLsbD_append, BitVec.getLsbD_extractLsb']
  interval_cases i <;> simp [bswap]

theorem shiftL_eq (a n : Word) : shiftL a n = BitVec.ofNat 32 (a.toNat * 2 ^ (n.toNat % 32)) := by
  apply BitVec.eq_of_toNat_eq
  simp [shiftL, count, Nat.shiftLeft_eq]

theorem shiftR_eq (a n : Word) : shiftR a n = BitVec.ofNat 32 (a.toNat / 2 ^ (n.toNat % 32)) := by
  apply BitVec.eq_of_toNat_eq
  have h : a.toNat / 2 ^ (n.toNat % 32) < 2 ^ 32 := Nat.lt_of_le_of_lt (Nat.div_le_self _ _) a.isLt
  rw [BitVec.toNat_ofNat, Nat.mod_eq_of_lt h]
  simp [shiftR, count, Nat.shiftRight_eq_div_pow]

theorem shiftA_eq (a n : Word) : shiftA a n = BitVec.ofInt 32 (a.toInt / 2 ^ (n.toNat % 32)) := by
  simp [shiftA, count, BitVec.sshiftRight, Int.shiftRight_eq_div_pow]

theorem rotL_eq (a n : Word) : rotL a n = a.rotateLeft (n.toNat % 32) := by
  simp [rotL, count, BitVec.rotateLeft, BitVec.rotateLeftAux]

theorem rotR_eq (a n : Word) : rotR a n = a.rotateRight (n.toNat % 32) := by
  simp [rotR, count, BitVec.rotateRight, BitVec.rotateRightAux]

/-- Settles O12: each result is that of its function, and no row changes a flag. -/
theorem unaryResults : Obligations.UnaryResults := by
  unfold Obligations.UnaryResults
  refine ⟨⟨?_, ?_, ?_, ?_, ?_, ?_, ?_, ?_, ?_, ?_, ?_⟩, ⟨clz, ?_, ?_, fun a k hk hb h => ?_⟩,
    ⟨ffs, ?_, ?_, fun a k hb h => ?_⟩, popc, ?_, popc_toNat⟩
  · exact unary_row (fun _ _ => rfl) fun _ => rfl
  · exact unary_row (fun _ _ => rfl) fun _ => rfl
  · exact unary_row (fun _ _ => rfl) absolute_eq
  · exact unary_row (fun _ _ => rfl) fun a => (BitVec.xor_allOnes (x := a)).symm
  · exact unary_row (fun _ _ => rfl) bswap_eq
  · exact unary_row (fun _ _ => rfl) fun _ => rfl
  · exact unary_row (fun _ _ => rfl) fun _ => rfl
  · exact unary_row (fun _ _ => rfl) fun a => by simp [flag]
  · exact unary_row (fun _ _ => rfl) fun a => by simp [flag]
  · exact unary_row (fun _ _ => rfl) fun a => by simp only [flag, getLsbD_31_eq_neg, decide_eq_true_eq]; rfl
  · exact unary_row (fun _ _ => rfl) fun a => by simp only [flag, positive_eq, decide_eq_true_eq]; rfl
  · exact unary_row (fun _ _ => rfl) fun _ => rfl
  · rw [clz, clzFrom_zero]; rfl
  · rw [clz, clzFrom_of_msb hk hb h]
  · exact unary_row (fun _ _ => rfl) fun _ => rfl
  · rw [ffs, ffsFrom_zero]; rfl
  · rw [ffs, ffsFrom_of_lsb (Nat.le_refl 32) (by omega) hb (BitVec.lt_of_getLsbD hb) h]
  · exact unary_row (fun _ _ => rfl) fun _ => rfl

/-- WITHINU takes three operands. -/
theorem execWithinu_of_takes {s : State} {l : LaneUse} {w : Who} {v lo hi : Word} (h : Issues s l w 1)
    (ht : Takes s w [.val hi, .val lo, .val v] [] 1 0) :
    execWithinu l s = ends s l w 1 .seq (modC s w (restack 3 [.val (flag ((v - lo).ult (hi - lo)))])) := by
  have hd := top_drop ht
  have hr := ht.room
  have hn : need w 3 1 0 0 s = .ok ((), s) := ht.need
  simp only [List.length_cons, List.length_nil] at hr
  refine instr_ok h ?_ (by decide)
  rw [bind_of_ok hn, bind_of_ok (pop_restack s ⟨w, l.set.val⟩ hi _ hd),
    bind_of_ok (pop_restack _ ⟨w, l.set.val⟩ lo _ (by rw [getC_modC_self, restack_dhead, hd]; rfl)),
    modC_modC, bind_of_ok (pop_restack _ ⟨w, l.set.val⟩ v _ (by
      rw [getC_modC_self, restack_dhead, restack_dhead, hd]; rfl)),
    modC_modC, bind_of_ok (push_restack _ ⟨w, l.set.val⟩ _ (by
      rw [getC_modC_self]; simp; omega)), modC_modC]
  simp only [restack_pop]
  rfl

/-- Settles O13: each result is that of its function, and no row changes a flag. -/
theorem binaryResults : Obligations.BinaryResults := by
  unfold Obligations.BinaryResults
  refine ⟨⟨?_, ?_, ?_, ?_, ?_, ?_, ?_, ?_, ?_, ?_, ?_⟩, ?_, ?_, ?_, ?_, ?_, ?_, ?_, ?_, ?_, ?_, fun v lo hi s l w h ht => ?_⟩
  · exact binary_row (fun _ _ => rfl) fun _ _ => rfl
  · exact binary_row (fun _ _ => rfl) fun _ _ => rfl
  · exact binary_row (fun _ _ => rfl) fun _ _ => rfl
  · exact binary_row (fun _ _ => rfl) fun _ _ => rfl
  · exact binary_row (fun _ _ => rfl) fun _ _ => rfl
  · exact binary_row (fun _ _ => rfl) fun _ _ => rfl
  · exact binary_row (fun _ _ => rfl) shiftL_eq
  · exact binary_row (fun _ _ => rfl) shiftR_eq
  · exact binary_row (fun _ _ => rfl) shiftA_eq
  · exact binary_row (fun _ _ => rfl) rotL_eq
  · exact binary_row (fun _ _ => rfl) rotR_eq
  · exact binary_row (fun _ _ => rfl) fun a b => by simp [flag, BitVec.toNat_inj]
  · exact binary_row (fun _ _ => rfl) fun a b => by simp [flag, BitVec.toNat_inj]
  · exact binary_row (fun _ _ => rfl) fun a b => rfl
  · exact binary_row (fun _ _ => rfl) fun a b => rfl
  · exact binary_row (fun _ _ => rfl) fun a b => rfl
  · exact binary_row (fun _ _ => rfl) fun a b => rfl
  · exact binary_row (fun _ _ => rfl) fun a b => rfl
  · exact binary_row (fun _ _ => rfl) fun a b => rfl
  · exact binary_row (fun _ _ => rfl) fun a b => rfl
  · exact binary_row (fun _ _ => rfl) fun a b => rfl
  · exact execWithinu_of_takes h ht

/-! ### Rows that move entries as they stand -/

section
variable {s : State} {l : LaneUse} {w : Who}

theorem execDrop_of_takes {e : Entry} (h : Issues s l w 1) (ht : Takes s w [e] [] 0 0) :
    execDrop l s = ends s l w 1 .seq (modC s w (restack 1 [])) := by
  have hn : need w 1 0 0 0 s = .ok ((), s) := ht.need
  refine instr_ok h ?_ (by decide)
  rw [bind_of_ok hn, bind_of_ok (popE_dhead s ⟨w, l.set.val⟩ e _ (top_drop ht))]
  rfl

theorem execTwoDrop_of_takes {e f : Entry} (h : Issues s l w 1) (ht : Takes s w [e, f] [] 0 0) :
    execTwoDrop l s = ends s l w 1 .seq (modC s w (restack 2 [])) := by
  have hd := top_drop ht
  have hn : need w 2 0 0 0 s = .ok ((), s) := ht.need
  refine instr_ok h ?_ (by decide)
  rw [bind_of_ok hn, bind_of_ok (popE_dhead s ⟨w, l.set.val⟩ e _ hd),
    bind_of_ok (popE_dhead _ ⟨w, l.set.val⟩ f _ (by rw [getC_modC_self, restack_dhead, hd]; rfl)), modC_modC]
  simp only [restack_pop]
  rfl

theorem execNip_of_takes {b : Word} {e : Entry} (h : Issues s l w 1) (ht : Takes s w [.val b, e] [] 1 0) :
    execNip l s = ends s l w 1 .seq (modC s w (restack 2 [.val b])) := by
  have hd := top_drop ht
  have hr := ht.room
  have hn : need w 2 1 0 0 s = .ok ((), s) := ht.need
  simp only [List.length_cons, List.length_nil] at hr
  refine instr_ok h ?_ (by decide)
  rw [bind_of_ok hn, bind_of_ok (pop_restack s ⟨w, l.set.val⟩ b _ hd),
    bind_of_ok (popE_dhead _ ⟨w, l.set.val⟩ e _ (by rw [getC_modC_self, restack_dhead, hd]; rfl)), modC_modC,
    bind_of_ok (push_restack _ ⟨w, l.set.val⟩ b (by rw [getC_modC_self]; simp; omega)), modC_modC]
  simp only [restack_pop]
  rfl

theorem execOver_of_takes {a : Word} {e : Entry} (h : Issues s l w 1) (ht : Takes s w [e, .val a] [] 3 0) :
    execOver l s = ends s l w 1 .seq (modC s w (restack 2 [.val a, e, .val a])) := by
  have hd := top_drop ht
  have hr := ht.room
  have hn : need w 2 3 0 0 s = .ok ((), s) := ht.need
  simp only [List.length_cons, List.length_nil] at hr
  refine instr_ok h ?_ (by decide)
  rw [bind_of_ok hn, bind_of_ok (popE_dhead s ⟨w, l.set.val⟩ e _ hd),
    bind_of_ok (pop_restack _ ⟨w, l.set.val⟩ a _ (by rw [getC_modC_self, restack_dhead, hd]; rfl)), modC_modC,
    bind_of_ok (push_restack _ ⟨w, l.set.val⟩ a (by rw [getC_modC_self]; simp; omega)), modC_modC,
    bind_of_ok (pushE_restack _ ⟨w, l.set.val⟩ e (by rw [getC_modC_self]; simp; omega)), modC_modC,
    bind_of_ok (push_restack _ ⟨w, l.set.val⟩ a (by rw [getC_modC_self]; simp; omega)), modC_modC]
  simp only [restack_pop, restack_push]
  rfl

theorem restack_nothing (c : Coach) : restack 0 [] c = c := by
  simp [restack, u32]

/-- Popping entries as they stand, after other changes of the context. -/
theorem popEs_entries (x : Iss) (es r : List Entry) (s : State) (g : Coach → Coach)
    (h : (g (getC s x.who)).dhead = es ++ r) :
    popEs x es.length (modC s x.who g) = .ok (es, modC s x.who (fun c => restack es.length [] (g c))) := by
  induction es generalizing g with
  | nil => rw [List.length_nil, popEs, pure_eq]; simp only [restack_nothing]
  | cons e es ih =>
    have h1 := popE_dhead (modC s x.who g) x e (es ++ r) (by rw [getC_modC_self]; exact h)
    have h2 := ih (fun c => restack 1 [] (g c)) (by rw [restack_dhead, h]; rfl)
    rw [List.length_cons, popEs, bind_of_ok h1, modC_modC, bind_of_ok h2, pure_eq]
    simp only [restack_pop, Nat.add_comm]

/-- Pushing entries onto a head with room, after other changes of the context. -/
theorem pushEs_entries (x : Iss) (es : List Entry) (s : State) (g : Coach → Coach)
    (h : (g (getC s x.who)).dhead.length + es.length ≤ 8) :
    pushEs x es (modC s x.who g) = .ok ((), modC s x.who (fun c => restack 0 es (g c))) := by
  induction es with
  | nil => rw [pushEs, pure_eq]; simp only [restack_nothing]
  | cons e es ih =>
    simp only [List.length_cons] at h
    rw [pushEs, bind_of_ok (ih (by omega)), pushE_restack _ x e (by rw [getC_modC_self]; simp; omega), modC_modC]
    simp only [restack_push, List.singleton_append]

/-- PICK copies the entry that lies below as many others as its operand says. -/
theorem execPick_of_takes {n v : Word} {es : List Entry} (hn : n.toNat < 8) (he : es.length = n.toNat)
    (h : Issues s l w 1) (ht : Takes s w (.val n :: es ++ [.val v]) [] (es.length + 2) 0) :
    execPick l s = ends s l w 1 .seq (modC s w (restack 1 [.val v])) := by
  obtain ⟨r, hd⟩ := ht.top
  have hr := ht.room
  have hdeep := ht.deep
  have hrhead : (headOf .r (getC s w)).length ≤ Stk.r.cap := by simpa [headOf, Stk.cap] using ht.rroom
  simp only [List.cons_append, List.append_assoc, List.nil_append] at hd
  simp only [hd, List.length_append, List.length_cons, List.length_nil] at hr hdeep
  have hfirst : need w 1 1 0 0 s = .ok ((), s) :=
    need_ok s w _ _ _ _ (stackFits_of s w .d 1 1 (hdeep.imp id fun h => by simp only [depthOf]; omega)
      (by simp only [headOf, Stk.cap, hd, List.length_append, List.length_cons]; omega)
      (by simp only [headOf, hd, List.length_cons]; omega)) (stackFits_none s w .r hrhead)
  have htd : (restack 1 [] (getC s w)).dhead = es ++ .val v :: r := by rw [restack_dhead, hd]; rfl
  have hsecond : need w (n.toNat + 1) (n.toNat + 2) 0 0 (modC s w (restack 1 [])) = .ok ((), modC s w (restack 1 [])) := by
    refine need_ok _ w _ _ _ _ (stackFits_of _ w .d _ _ ?_ ?_ ?_) (stackFits_none _ w .r ?_)
    · rw [headOnly_modC]
      refine hdeep.imp id fun h => ?_
      simp only [depthOf, getC_modC_self, restack, List.length_nil, u32]
      bv_omega
    · simp only [headOf, Stk.cap, getC_modC_self, htd, List.length_append, List.length_cons]; omega
    · simp only [headOf, getC_modC_self, htd, List.length_append, List.length_cons]; omega
    · rw [getC_modC_self]; exact hrhead
  have hpops := popEs_entries ⟨w, l.set.val⟩ es _ s _ htd
  simp only [restack_pop] at hpops
  have hv : (getC (modC s w (restack (1 + es.length) [])) w).dhead = .val v :: r := by
    rw [getC_modC_self, restack_dhead, hd, Nat.add_comm]; simp
  have hpop := pop_restack _ ⟨w, l.set.val⟩ v _ hv
  rw [modC_modC] at hpop
  simp only [restack_pop] at hpop
  have hlow : (getC s w).dhead.drop (1 + es.length + 1) = r := by
    rw [hd, show 1 + es.length + 1 = es.length + 1 + 1 by omega]; simp
  have hpush := push_restack (modC s w (restack (1 + es.length + 1) [])) ⟨w, l.set.val⟩ v (by
    rw [getC_modC_self, restack_dhead, hlow]; simp; omega)
  rw [modC_modC] at hpush
  simp only [restack_push, List.append_nil] at hpush
  have hrow : (restack (1 + es.length + 1) [.val v] (getC s w)).dhead = .val v :: r := by
    rw [restack_dhead, hlow]; rfl
  have hback := pushEs_entries ⟨w, l.set.val⟩ es s _ (by
    rw [hrow, List.length_cons]; omega)
  simp only [restack_push] at hback
  have hlast := push_restack (modC s w (restack (1 + es.length + 1) (es ++ [.val v]))) ⟨w, l.set.val⟩ v (by
    simp only [getC_modC_self, restack_dhead, hlow, List.length_append, List.length_cons, List.length_nil]; omega)
  refine instr_ok h ?_ (by decide)
  rw [bind_of_ok hfirst, bind_of_ok (pop_restack s ⟨w, l.set.val⟩ n _ hd), if_neg (by omega), bind_of_ok hsecond, ← he,
    bind_of_ok hpops, bind_of_ok hpop, bind_of_ok hpush, bind_of_ok hback, bind_of_ok hlast, modC_modC]
  simp only [restack_push]
  refine congrArg (fun t => Except.ok (Flow.seq, t)) (modC_congr _ _ _ _ ?_)
  simp only [restack, hlow, u32, Coach.mk.injEq, and_true, true_and, List.length_append, List.length_cons, List.length_nil]
  refine ⟨?_, by rw [hd]; simp⟩
  simp only [BitVec.ofNat_add, show BitVec.ofNat 32 0 = 0 from rfl]
  ring

theorem execToR_of_takes {a : Word} (h : Issues s l w 1) (ht : Takes s w [.val a] [] 0 1) :
    execToR l s = ends s l w 1 .seq (modC s w (fun c => rerack 0 [.val a] (restack 1 [] c))) := by
  have hn : need w 1 0 0 1 s = .ok ((), s) := ht.need
  have hr := ht.rroom
  simp only [List.length_nil] at hr
  refine instr_ok h ?_ (by decide)
  rw [bind_of_ok hn, bind_of_ok (pop_restack s ⟨w, l.set.val⟩ a _ (top_drop ht)),
    bind_of_ok (rpush_rerack _ ⟨w, l.set.val⟩ a (by simp only [getC_modC_self, restack_rhead]; omega)), modC_modC]
  rfl

theorem execRFrom_of_takes {a : Word} (h : Issues s l w 1) (ht : Takes s w [] [.val a] 1 0) :
    execRFrom l s = ends s l w 1 .seq (modC s w (fun c => restack 0 [.val a] (rerack 1 [] c))) := by
  have hn : need w 0 1 1 0 s = .ok ((), s) := ht.need
  have hr := ht.room
  simp only [List.length_nil] at hr
  refine instr_ok h ?_ (by decide)
  rw [bind_of_ok hn, bind_of_ok (rpop_rerack s ⟨w, l.set.val⟩ a _ (rtop_drop ht)),
    bind_of_ok (push_restack _ ⟨w, l.set.val⟩ a (by simp only [getC_modC_self, rerack_dhead]; omega)), modC_modC]
  rfl

/-- An entry that is popped and pushed again changes nothing. -/
theorem rerack_put_back {c : Coach} {e : Entry} {r : List Entry} (h : c.rhead = e :: r) :
    rerack 0 [e] (rerack 1 [] c) = c := by
  cases c
  simp only at h
  subst h
  simp [rerack, u32]

theorem execRFetch_of_takes {a : Word} (h : Issues s l w 1) (ht : Takes s w [] [.val a] 1 1) :
    execRFetch l s = ends s l w 1 .seq (modC s w (restack 0 [.val a])) := by
  have hn : need w 0 1 1 1 s = .ok ((), s) := ht.need
  have hd := rtop_drop ht
  have hr := ht.room
  have hrr := ht.rroom
  simp only [List.length_nil, List.length_cons] at hr hrr
  refine instr_ok h ?_ (by decide)
  rw [bind_of_ok hn, bind_of_ok (rpop_rerack s ⟨w, l.set.val⟩ a _ hd),
    bind_of_ok (rpush_rerack _ ⟨w, l.set.val⟩ a (by rw [getC_modC_self, rerack_rhead]; simp; omega)), modC_modC,
    bind_of_ok (push_restack _ ⟨w, l.set.val⟩ a (by simp only [getC_modC_self, rerack_dhead]; omega)), modC_modC]
  refine congrArg (fun t => Except.ok (Flow.seq, t)) (modC_congr _ _ _ _ (congrArg (restack 0 [.val a]) ?_))
  exact rerack_put_back hd

theorem execRdrop_of_takes {e : Entry} (h : Issues s l w 1) (ht : Takes s w [] [e] 0 0) :
    execRdrop l s = ends s l w 1 .seq (modC s w (rerack 1 [])) := by
  have hn : need w 0 0 1 0 s = .ok ((), s) := ht.need
  refine instr_ok h ?_ (by decide)
  rw [bind_of_ok hn, bind_of_ok (popE_rhead s ⟨w, l.set.val⟩ e _ (rtop_drop ht))]
  rfl

/-- On a free lane IN.AGREE pushes the lane's own sample. -/
theorem execInAgree_of_free {x y z : Word} (hl : l.set ≠ 0) (h : Issues s l w 1) (ht : Takes s w [] [] 1 0) :
    execInAgree l x y z s = ends s l w 1 .seq (modC s w (restack 0 [.val x])) := by
  have hset : l.set.val ≠ 0 := fun e => hl (Fin.ext e)
  refine instrLong_ok h ?_ (by decide)
  rw [bind_get, if_pos hset, pushes_ok s ⟨w, l.set.val⟩ x ht]

theorem execDepth_of_takes (h : Issues s l w 1) (ht : Takes s w [] [] 1 0) :
    execDepth l s = ends s l w 1 .seq (modC s w (fun c => restack 0 [.val c.ddepth] c)) := by
  refine instr_ok h ?_ (by decide)
  rw [bind_get, pushes_ok s ⟨w, l.set.val⟩ _ ht]
  exact congrArg (fun t => Except.ok (Flow.seq, t)) (modC_congr _ _ _ _ rfl)

end

/-- Settles O9: the literals by `pushes_row`, the rearrangements by `rearrange_row`, the rows that discard or copy entries each by
its own lemma. -/
theorem stackInstructions : Obligations.StackInstructions := by
  unfold Obligations.StackInstructions
  refine ⟨⟨fun n => ?_, fun i => ?_, fun i => ?_, fun i => ?_, fun i => ?_, ?_, fun x y z s l w hl h ht => ?_⟩,
    ⟨fun a => ?_, fun e s l w h ht => ?_, fun a b => ?_, fun a b c => ?_, fun b e s l w h ht => ?_, fun a b => ?_, fun a b => ?_,
      fun e f s l w h ht => ?_, fun a b c d => ?_, fun a e s l w h ht => ?_, fun n v es s l w hn he h ht => ?_⟩,
    fun a e s l w h => ⟨execToR_of_takes h, execRFrom_of_takes h, execRFetch_of_takes h, execRdrop_of_takes h⟩⟩
  · exact pushes_row (fun _ _ => rfl) fun _ => rfl
  · exact pushes_row (fun _ _ => rfl) fun _ => rfl
  · exact pushes_row (fun _ _ => rfl) fun _ => rfl
  · exact pushes_row (fun _ _ => rfl) fun _ => rfl
  · exact pushes_row (fun _ _ => rfl) fun _ => rfl
  · exact fun s l w => execDepth_of_takes
  · exact execInAgree_of_free hl h ht
  · exact rearrange_row (vs := [a]) (fun _ _ => rfl) rfl rfl rfl (List.cons_ne_nil _ _) (List.cons_ne_nil _ _)
  · exact execDrop_of_takes h ht
  · exact rearrange_row (vs := [b, a]) (fun _ _ => rfl) rfl rfl rfl (List.cons_ne_nil _ _) (List.cons_ne_nil _ _)
  · exact rearrange_row (vs := [c, b, a]) (fun _ _ => rfl) rfl rfl rfl (List.cons_ne_nil _ _) (List.cons_ne_nil _ _)
  · exact execNip_of_takes h ht
  · exact rearrange_row (vs := [b, a]) (fun _ _ => rfl) rfl rfl rfl (List.cons_ne_nil _ _) (List.cons_ne_nil _ _)
  · exact rearrange_row (vs := [b, a]) (fun _ _ => rfl) rfl rfl rfl (List.cons_ne_nil _ _) (List.cons_ne_nil _ _)
  · exact execTwoDrop_of_takes h ht
  · exact rearrange_row (vs := [d, c, b, a]) (fun _ _ => rfl) rfl rfl rfl (List.cons_ne_nil _ _) (List.cons_ne_nil _ _)
  · exact execOver_of_takes h ht
  · exact execPick_of_takes hn he h ht

end Sys2Proof.Machine
end

section
/-! SUPPORT. Control transfer, hardware loops and address registers (spec/03, R78 to R80), arithmetic with flags (R72). -/

namespace Sys2Proof.Machine

/-! ### Parts of bodies -/

theorem nextOf_eq (s : State) (x : Iss) (len : Nat) : nextOf x len s = .ok ((getC s x.who).pc + u32 len, s) := rfl

theorem goTo_eq (s : State) (x : Iss) (a : Word) : goTo x a s = .ok (.jump, modC s x.who (fun c => { c with pc := a })) := rfl

theorem branch_eq (s : State) (x : Iss) (len : Nat) (d : Word) :
    branch len d x s = .ok (.jump, modC s x.who (fun c => { c with pc := (getC s x.who).pc + u32 len + d })) := rfl

theorem raise_eq {α : Type} (vec reason : Nat) (addr : Word) (write : Bool) (s : State) :
    (raise vec reason addr write : M α) s =
      .error (.trap { vec := vec, reason := BitVec.ofNat 8 reason, addr := addr, write := write } id) := rfl

section
variable {op len : Nat} {s : State} {l : LaneUse} {w : Who}

/-! ### Branches, calls and returns -/

theorem branch_row (h : Issues s l w len) (d : Word) :
    instr op s l len (branch len d) =
      ends s l w len .jump (modC s w (fun c => { c with pc := (getC s w).pc + u32 len + d })) :=
  instr_ok h (branch_eq s ⟨w, l.set.val⟩ len d) (by decide)

/-- A conditional branch takes its flag, and goes to its target or on. -/
theorem branchIf_row {p : Word → Bool} {f : Word} (h : Issues s l w len) (ht : Takes s w [.val f] [] 0 0) (d : Word) :
    instr op s l len (branchIf p len d) =
      if p f then
        ends s l w len .jump (modC (modC s w (restack 1 [])) w (fun c => { c with pc := (getC s w).pc + u32 len + d }))
      else ends s l w len .seq (modC s w (restack 1 [])) := by
  have hn : need w 1 0 0 0 s = .ok ((), s) := ht.need
  have hp := pop_restack s ⟨w, l.set.val⟩ f _ (top_drop ht)
  split
  · rename_i hf
    refine instr_ok h ?_ (by decide)
    rw [branchIf, bind_of_ok hn, bind_of_ok hp, if_pos hf, branch_eq]
    simp only [getC_modC_self, restack_pc]
  · rename_i hf
    refine instr_ok h ?_ (by decide)
    rw [branchIf, bind_of_ok hn, bind_of_ok hp, if_neg hf]
    rfl

theorem callRel_row (h : Issues s l w len) (ht : Takes s w [] [] 0 1) (d : Word) :
    instr op s l len (callRel len d) =
      ends s l w len .jump (modC (modC s w (rerack 0 [.val ((getC s w).pc + u32 len)])) w
        (fun c => { c with pc := (getC s w).pc + u32 len + d })) := by
  have hn : need w 0 0 0 1 s = .ok ((), s) := ht.need
  have hr := ht.rroom
  simp only [List.length_nil] at hr
  refine instr_ok h ?_ (by decide)
  rw [callRel, bind_of_ok hn, bind_of_ok (nextOf_eq s _ len),
    bind_of_ok (rpush_rerack s ⟨w, l.set.val⟩ _ (by simp only []; omega)), goTo_eq]

theorem execCallx_of_takes {a : Word} (h : Issues s l w 1) (ht : Takes s w [.val a] [] 0 1) :
    execCallx l s = ends s l w 1 .jump (modC (modC s w (fun c => rerack 0 [.val ((getC s w).pc + u32 1)] (restack 1 [] c))) w
      (fun c => { c with pc := a })) := by
  have hn : need w 1 0 0 1 s = .ok ((), s) := ht.need
  have hr := ht.rroom
  simp only [List.length_nil] at hr
  refine instr_ok h ?_ (by decide)
  rw [bind_of_ok hn, bind_of_ok (pop_restack s ⟨w, l.set.val⟩ a _ (top_drop ht)), bind_of_ok (nextOf_eq _ _ 1),
    bind_of_ok (rpush_rerack _ ⟨w, l.set.val⟩ _ (by simp only [getC_modC_self, restack_rhead]; omega)), goTo_eq]
  simp only [getC_modC_self, restack_pc, modC_modC]

theorem execJmp_of_takes {a : Word} (h : Issues s l w 1) (ht : Takes s w [.val a] [] 0 0) :
    execJmp l s = ends s l w 1 .jump (modC (modC s w (restack 1 [])) w (fun c => { c with pc := a })) := by
  have hn : need w 1 0 0 0 s = .ok ((), s) := ht.need
  refine instr_ok h ?_ (by decide)
  rw [bind_of_ok hn, bind_of_ok (pop_restack s ⟨w, l.set.val⟩ a _ (top_drop ht)), goTo_eq]

theorem execRet_of_takes {a : Word} (h : Issues s l w 1) (ht : Takes s w [] [.val a] 0 0) :
    execRet l s = ends s l w 1 .jump (modC (modC s w (rerack 1 [])) w (fun c => { c with pc := a })) := by
  have hn : need w 0 0 1 0 s = .ok ((), s) := ht.need
  refine instr_ok h ?_ (by decide)
  rw [bind_of_ok hn, bind_of_ok (rpop_rerack s ⟨w, l.set.val⟩ a _ (rtop_drop ht)), goTo_eq]

/-! ### Loops and address registers -/

theorem loopStart_row {n : Word} (h : Issues s l w len) (ht : Takes s w [.val n] [] 0 0) (d : Word) :
    instr op s l len (loopStart len d) = ends s l w len .seq (modC s w (fun c => { restack 1 [] c with
      lstart := c.pc + u32 len, lend := c.pc + u32 len + d, lcount := n, status := setBit c.status 19 true })) := by
  have hn : need w 1 0 0 0 s = .ok ((), s) := ht.need
  refine instr_ok h ?_ (by decide)
  rw [loopStart, bind_of_ok hn, bind_of_ok (pop_restack s ⟨w, l.set.val⟩ n _ (top_drop ht)), bind_of_ok (nextOf_eq _ _ len),
    bind_modI, modC_modC, pure_eq]
  simp only [getC_modC_self, restack_pc, restack_status]
  exact congrArg (fun t => Except.ok (Flow.seq, t)) (modC_congr _ _ _ _ rfl)

theorem consume_row {f : Word → Coach → Coach} {v : Word} (h : Issues s l w len) (ht : Takes s w [.val v] [] 0 0) :
    instr op s l len (consume f) = ends s l w len .seq (modC s w (fun c => f v (restack 1 [] c))) := by
  have hn : need w 1 0 0 0 s = .ok ((), s) := ht.need
  refine instr_ok h ?_ (by decide)
  rw [consume, bind_of_ok hn, bind_of_ok (pop_restack s ⟨w, l.set.val⟩ v _ (top_drop ht)), bind_modI, modC_modC]
  rfl

/-- A row that changes its context alone. -/
theorem modI_row (h : Issues s l w len) (f : Coach → Coach) :
    (instr op s l len fun x => do
      modI x f
      pure .seq) = ends s l w len .seq (modC s w f) :=
  instr_ok h rfl (by decide)

/-- A row that pushes a value of its context. -/
theorem pushContext_row {v : Coach → Word} (h : Issues s l w len) (ht : Takes s w [] [] 1 0) :
    (instr op s l len fun x => do
      let s ← get
      pushes (v (getC s x.who)) x) = ends s l w len .seq (modC s w (fun c => restack 0 [.val (v c)] c)) := by
  refine instr_ok h ?_ (by decide)
  rw [bind_get, pushes_ok s ⟨w, l.set.val⟩ _ ht]
  exact congrArg (fun t => Except.ok (Flow.seq, t)) (modC_congr _ _ _ _ rfl)

end

/-- Settles O15: each transfer takes its operands and sets PC, or goes on. -/
theorem controlTransfer : Obligations.ControlTransfer := by
  unfold Obligations.ControlTransfer
  intro s l w
  refine ⟨fun i h => branch_row h _, fun i h => branch_row h _, fun f i h ht => ⟨?_, ?_⟩, fun f i h ht => ⟨?_, ?_⟩,
    fun i h ht => callRel_row h ht _, fun i h ht => callRel_row h ht _, fun a h ht => execCallx_of_takes h ht,
    fun a h ht => execJmp_of_takes h ht, fun a h ht => execRet_of_takes h ht⟩
  · exact (branchIf_row h ht _).trans (by simp only [decide_eq_true_eq]; rfl)
  · exact (branchIf_row h ht _).trans (by simp only [decide_eq_true_eq, ne_eq, ite_not]; rfl)
  · exact (branchIf_row h ht _).trans (by simp only [decide_eq_true_eq]; rfl)
  · exact (branchIf_row h ht _).trans (by simp only [decide_eq_true_eq, ne_eq, ite_not]; rfl)

/-- Settles O16: each row changes its context alone; a reserved code raises before anything else. -/
theorem loopsAddressRegistersReservedCodes : Obligations.LoopsAddressRegistersReservedCodes := by
  unfold Obligations.LoopsAddressRegistersReservedCodes
  refine ⟨⟨fun n i s l w h ht => loopStart_row h ht _, fun n i s l w h ht => loopStart_row h ht _, fun s l w h => ?_⟩,
    ⟨fun v s l w h ht => ?_, fun v s l w h ht => ?_, fun v s l w h ht => ?_, fun v s l w h ht => ?_, fun v s l w h => ?_,
      fun v s l w h => ?_, fun s l w h ht => ?_, fun s l w h ht => ?_, fun i s l w h ht => ?_⟩, fun s l w op e h => ?_⟩
  · exact modI_row h _
  · exact consume_row h ht
  · exact consume_row h ht
  · exact consume_row h ht
  · exact consume_row h ht
  · exact modI_row h _
  · exact modI_row h _
  · exact pushContext_row h ht
  · exact pushContext_row h ht
  · exact pushContext_row (v := fun c => c.pc + u32 3 + i.signExtend 32) h ht
  · refine (instr_trap h (raise_eq vILLEGAL _ 0 false s)).trans ?_
    split <;> rfl

/-! ### Results with flags (R72) -/

section
variable {x : Iss} {r : Word} {cf : Option Bool} {v : Bool} {t : State}

/-- Result and flags, when no ARITH is due. -/
theorem arithEnd_plain (hr : (getC t x.who).dhead.length < 8) (h : (v && bit (getC t x.who).status 5) = false) :
    arithEnd x r cf v t = .ok (.seq, modC t x.who (fun d => setFlags cf v (restack 0 [.val r] d))) := by
  rw [arithEnd, bind_get]
  simp only [h, Bool.false_and, Bool.false_eq_true, if_false]
  rw [bind_of_ok (push_restack t x r hr), bind_modI, modC_modC]
  rfl

/-- ARITH is due precisely. -/
theorem arithEnd_raises (h : (v && bit (getC t x.who).status 5) = true) (hp : preOf (getC t x.who) = true) :
    arithEnd x r cf v t = .error (.trap { vec := 7 } id) := by
  rw [arithEnd, bind_get]
  simp only [h, hp, Bool.and_self, if_true]
  rfl

/-- ARITH is due imprecisely, beside result and flags. -/
theorem arithEnd_delivers (hr : (getC t x.who).dhead.length < 8) (h : (v && bit (getC t x.who).status 5) = true)
    (hp : preOf (getC t x.who) = false) :
    arithEnd x r cf v t = .ok (.seq, deliverItem (modC t x.who (fun d => setFlags cf v (restack 0 [.val r] d))) x.who
      { vec := 7, addr := (getC t x.who).pc }) := by
  rw [arithEnd, bind_get]
  simp only [h, hp, Bool.and_false, Bool.false_eq_true, if_false, if_true]
  rw [bind_of_ok (push_restack t x r hr), bind_modI, modC_modC]
  rfl

end

/-- A delivery to a coach without a takeover window, after its flags have been set. -/
theorem deliver_setFlags (cf : Option Bool) (v : Bool) (i : XItem) {c : Coach} (hw : c.window = none) :
    syncImprc { setFlags cf v c with
      imprecise := (setFlags cf v c).imprecise ++ [i]
      window := if (setFlags cf v c).st = .run then (setFlags cf v c).window else none } =
    syncImprc { setFlags cf v c with imprecise := c.imprecise ++ [i] } := by
  cases cf <;> simp [setFlags, setStatusBit, hw]

/-- What ADD, SUB, ADC, SBC, NEG and MUL do once their operands are popped. -/
theorem computes_of_arithEnd {i : LaneUse → Instr} {op : Nat} {body : Iss → M Flow} {es : List Entry} {r : Bool → Word}
    {cf : Bool → Option Bool} {v : Bool → Bool} (hi : ∀ l s, exec (i l) s = instr op s l 1 body) (hes : es ≠ [])
    (hb : ∀ s x, Takes s x.who es [] 1 0 → let c := bit (getC s x.who).status 3
      body x s = arithEnd x (r c) (cf c) (v c) (modC s x.who (restack es.length []))) :
    Computes i es r cf v := by
  intro s l w h ht k c traps done
  have hr := ht.room
  have hlen : 0 < es.length := List.length_pos_of_ne_nil hes
  have hroom : (getC (modC s w (restack es.length [])) w).dhead.length < 8 := by
    rw [getC_modC_self, restack_dhead, List.nil_append, List.length_drop]; omega
  have hk : getC (modC s w (restack es.length [])) w = restack es.length [] k := getC_modC_self ..
  have hbody := hb s ⟨w, l.set.val⟩ ht
  simp only [] at hbody
  refine ⟨fun hn => ?_, fun hy hp => ?_, fun hy hp => ?_⟩
  · have he := arithEnd_plain (x := ⟨w, l.set.val⟩) (r := r c) (cf := cf c) hroom (v := v c) (by rw [hk]; exact hn)
    rw [hi, instr_ok h (hbody.trans he) (by decide), modC_modC]
    simp only [restack_push, List.append_nil]
    rfl
  · have he := arithEnd_raises (x := ⟨w, l.set.val⟩) (r := r c) (cf := cf c) (v := v c)
      (t := modC s w (restack es.length [])) (by rw [hk]; exact hy) (by rw [hk]; exact hp)
    rw [hi, instr_trap h (hbody.trans he)]
  · have he := arithEnd_delivers (x := ⟨w, l.set.val⟩) (r := r c) (cf := cf c) hroom (v := v c) (by rw [hk]; exact hy)
      (by rw [hk]; exact hp)
    rw [hi, instr_ok h (hbody.trans he) (by decide)]
    refine congrArg (ends s l w 1 .seq) ?_
    rw [deliverItem, modC_modC, modC_modC]
    refine modC_congr _ _ _ _ ?_
    simp only [getC_modC_self, restack_pc, restack_push, List.append_nil]
    exact deliver_setFlags (cf c) (v c) _ h.noWindow

theorem outside_eq (x : Int) : outside x = decide (x < -2147483648 ∨ 2147483647 < x) := by
  rw [outside, Bool.decide_or]
  congr 1

theorem addWith_r (a b : Word) (c : Bool) : (addWith a b c).r = a + b + (if c then 1 else 0) := by
  apply BitVec.eq_of_toNat_eq
  cases c <;> simp [addWith, b2n, BitVec.toNat_add]

theorem subWith_r (a b : Word) (c : Bool) : (subWith a b c).r = a - b - (if c then 1 else 0) := by
  cases c <;> rfl

section
variable {s : State} {x : Iss}

/-- The operands of a row of two. -/
theorem pop2_eq {a b : Word} {f : Word → Word → M Flow} (ht : Takes s x.who [.val b, .val a] [] 1 0) :
    (do
      need x.who 2 1 0 0
      let b ← pop x
      let a ← pop x
      f a b) s = f a b (modC s x.who (restack 2 [])) := by
  have hd := top_drop ht
  have hn : need x.who 2 1 0 0 s = .ok ((), s) := ht.need
  rw [bind_of_ok hn, bind_of_ok (pop_restack s x b _ hd),
    bind_of_ok (pop_restack _ x a _ (by rw [getC_modC_self, restack_dhead, hd]; rfl)), modC_modC]
  simp only [restack_pop]

theorem arith2_eq {a b : Word} {f : Word → Word → Bool → Arith} (ht : Takes s x.who [.val b, .val a] [] 1 0) :
    let c := bit (getC s x.who).status 3
    arith2 f x s = arithEnd x (f a b c).r (some (f a b c).c) (f a b c).v (modC s x.who (restack 2 [])) := by
  intro c
  refine (pop2_eq ht).trans ?_
  rw [bind_get]
  simp only [getC_modC_self, restack_status]
  rfl

end

theorem b2n_int (c : Bool) : ((b2n c : Nat) : Int) = if c then 1 else 0 := by cases c <;> rfl

/-- Settles O11: operands, then `arithEnd`. -/
theorem arithmeticResultsAndFlags : Obligations.ArithmeticResultsAndFlags := by
  unfold Obligations.ArithmeticResultsAndFlags
  intro a b out
  have hout : ∀ x, outside x = out x := outside_eq
  refine ⟨?_, ?_, ?_, ?_, ?_, ?_⟩
  · refine computes_of_arithEnd (fun _ _ => rfl) (List.cons_ne_nil _ _) fun s x ht => (arith2_eq ht).trans ?_
    rw [addWith_r, show (addWith a b false).v = _ from outside_eq _]
    simp [addWith, b2n, out]
  · refine computes_of_arithEnd (fun _ _ => rfl) (List.cons_ne_nil _ _) fun s x ht => (arith2_eq ht).trans ?_
    rw [subWith_r, show (subWith a b false).v = _ from outside_eq _]
    simp [subWith, b2n, out]
  · refine computes_of_arithEnd (fun _ _ => rfl) (List.cons_ne_nil _ _) fun s x ht => (arith2_eq ht).trans ?_
    rw [addWith_r, show ∀ c, (addWith a b c).v = _ from fun c => outside_eq _, b2n_int]
    rfl
  · refine computes_of_arithEnd (fun _ _ => rfl) (List.cons_ne_nil _ _) fun s x ht => (arith2_eq ht).trans ?_
    rw [subWith_r, show ∀ c, (subWith a b c).v = _ from fun c => outside_eq _, b2n_int]
    rfl
  · refine computes_of_arithEnd (fun _ _ => rfl) (List.cons_ne_nil _ _) fun s x ht => ?_
    have hn : need x.who 1 1 0 0 s = .ok ((), s) := ht.need
    exact (bind_of_ok hn).trans (bind_of_ok (pop_restack s x a _ (top_drop ht)))
  · refine computes_of_arithEnd (fun _ _ => rfl) (List.cons_ne_nil _ _) fun s x ht => (pop2_eq ht).trans ?_
    rw [show (mulLow a b).2 = _ from outside_eq _]
    rfl

end Sys2Proof.Machine
end

section
/-! SUPPORT. Operands that have not arrived, and operands that are missing (spec/02, R37, R68; spec/03). -/

namespace Sys2Proof.Machine

/-! ### An operand that has not arrived -/

section
variable {s : State} {x : Iss} {e : Entry} {r : List Entry}

theorem pop_pending (he : ∀ v, e ≠ .val v) (h : (getC s x.who).dhead = e :: r) :
    pop x s = .error (.hold (.entries [e]) none id) := by
  rw [pop, popK, bind_of_ok (popE_cons s x e r h)]
  cases e with
  | val v => exact absurd rfl (he v)
  | load | div => rfl

theorem popN_pending (he : ∀ v, e ≠ .val v) (h : (getC s x.who).dhead = e :: r) (n : Nat) :
    popN x (n + 1) s = .error (.hold (.entries [e]) none id) := bind_of_error (pop_pending he h)

theorem peekN_pending (he : ∀ v, e ≠ .val v) (h : (getC s x.who).dhead = e :: r) (n : Nat) :
    peekN x (n + 1) s = .error (.hold (.entries [e]) none id) := bind_of_error (popN_pending he h n)

end

section
variable {s : State} {l : LaneUse} {w : Who} {op a o : Nat}

/-- A stack effect with fewer pushes needs less. -/
theorem Takes.mono {es rs : List Entry} {o o' ro : Nat} (h : Takes s w es rs o ro) (ho : o' ≤ o) : Takes s w es rs o' ro :=
  ⟨h.top, h.rtop, h.deep, Nat.le_trans (Nat.add_le_add_left ho _) h.room, h.rroom⟩

/-- A row whose first operand has not arrived holds its coach. -/
theorem waits_row {α : Type} {e : Entry} {m : Iss → M α} {f : Iss → α → M Flow} (h : Issues s l w 1)
    (hn : need w a o 0 0 s = .ok ((), s)) (hm : m ⟨w, l.set.val⟩ s = .error (.hold (.entries [e]) none id)) :
    (instr op s l 1 fun x => do
      need x.who a o 0 0
      let v ← m x
      f x v) = holds s l w (.entries [e]) :=
  instr_hold_entries h ((bind_of_ok hn).trans (bind_of_error hm))

/-! ### An operand that is missing -/

theorem stackFits_empty {k : Stk} {i : Nat} (ho : headOnly s w = false) (hd : depthOf k (getC s w) = 0) (hi : 1 ≤ i) (o : Nat) :
    stackFits s w k i o = false := by
  have h0 : decide (i ≤ (depthOf k (getC s w)).toNat) = false := by
    rw [hd]; exact decide_eq_false (by simp; omega)
  simp only [stackFits, ho, h0, Bool.false_eq_true, if_false, Bool.false_and]

theorem need_dstack (ho : headOnly s w = false) (hd : (getC s w).ddepth = 0) (ha : 1 ≤ a) (o i j : Nat) :
    need w a o i j s = .error (.trap { vec := 5 } id) := by
  rw [need, bind_get, stackFits_empty (k := .d) ho hd ha]
  rfl

theorem need_rstack (hfit : stackFits s w .d a o = true) (ho : headOnly s w = false) (hd : (getC s w).rdepth = 0) (j : Nat) :
    need w a o 1 j s = .error (.trap { vec := 6 } id) := by
  rw [need, bind_get, hfit, stackFits_empty (k := .r) ho hd (Nat.le_refl 1)]
  rfl

/-- A row whose check of its stack effect raises. -/
theorem lacks_row {i j : Nat} {x : XItem} {f : Iss → M Flow} (h : Issues s l w 1)
    (hn : need w a o i j s = .error (.trap x id)) :
    (instr op s l 1 fun x => do
      need x.who a o i j
      f x) = raises s l w x :=
  instr_trap h (bind_of_error hn)

theorem lacksLong_row {i j : Nat} {x : XItem} {f : Iss → M Flow} {k : Wait} (h : Issues s l w 1)
    (hn : need w a o i j s = .error (.trap x id)) :
    instrLong op s l 1 (fun x => do
      need x.who a o i j
      f x) k = raises s l w x :=
  instrLong_trap h (bind_of_error hn)

end

/-- Settles O10: every row of the lists checks its whole stack effect, then reads its top operand. -/
theorem pendingAndMissingEntries : Obligations.PendingAndMissingEntries := by
  unfold Obligations.PendingAndMissingEntries
  intro ones twos
  refine ⟨fun e s l w he h => ⟨fun ht i hi => ?_, fun f ht i hi => ?_⟩, fun s l w h ho => ⟨fun hd i hi => ?_, fun ht hd i hi => ?_⟩⟩
  · have hn : ∀ o, o ≤ 2 → need w 1 o 0 0 s = .ok ((), s) := fun o h => (ht.mono h).need
    have hpop := pop_pending (x := ⟨w, l.set.val⟩) he (top_drop ht)
    have hpopN := popN_pending (x := ⟨w, l.set.val⟩) he (top_drop ht) 0
    fin_cases hi
    · exact waits_row h (hn 2 (by decide)) hpopN
    all_goals exact waits_row (m := pop) h (hn _ (by decide)) hpop
  · have hn : ∀ o, o ≤ 3 → need w 2 o 0 0 s = .ok ((), s) := fun o h => (ht.mono h).need
    have hpop := pop_pending (x := ⟨w, l.set.val⟩) he (top_drop ht)
    have hpopN := popN_pending (x := ⟨w, l.set.val⟩) he (top_drop ht) 1
    have hpeekN := peekN_pending (x := ⟨w, l.set.val⟩) he (top_drop ht) 1
    have hdiv : ∀ op signed rem, instr op s l 1 (divideOp signed rem) = holds s l w (.entries [e]) := fun op signed rem =>
      waits_row (m := fun x => peekN x 2) h (hn 1 (by decide)) hpeekN
    fin_cases hi
    · exact waits_row h (hn 2 (by decide)) hpopN
    · exact waits_row h (hn 3 (by decide)) hpopN
    iterate 8 exact waits_row (m := pop) h (hn _ (by decide)) hpop
    iterate 4 exact hdiv _ _ _
    all_goals exact waits_row (m := pop) h (hn _ (by decide)) hpop
  · have hn : ∀ a o i j, 1 ≤ a → need w a o i j s = .error (.trap { vec := 5 } id) := fun a o i j ha => need_dstack ho hd ha o i j
    simp only [ones, twos, List.cons_append, List.nil_append] at hi
    fin_cases hi
    iterate 68 exact lacks_row h (hn _ _ _ _ (by decide))
    all_goals exact lacksLong_row h (hn _ _ _ _ (by decide))
  · have hn : ∀ o j, o ≤ 1 → need w 0 o 1 j s = .error (.trap { vec := 6 } id) := fun o j hle =>
      need_rstack (ht.mono hle).fits.1 ho hd j
    fin_cases hi
    all_goals exact lacks_row h (hn _ _ (by decide))

end Sys2Proof.Machine
end

section
/-! SUPPORT. `Takes` bounds the heads after the operands are popped, so it admits operand heads of more than 8 entries (R36 has
8). An instruction that reads its operands in place pops them and pushes them back, and then spills: the statements that
promise no spill for such a state fail. -/

namespace Sys2Proof.Machine

/-- A coach in ring 0 about to issue from the boot ROM, with the given DSP and operand head. -/
def overfullCoach (dsp : Word) (d : List Entry) : Coach :=
  { st := .run, pc := 0x100, status := 0x0000FF00, dsp := dsp, rsp := 0x10002000, ddepth := u32 d.length
    dlim := 0x10000800, rlim := 0x10001800, dhead := d }

/-- The block in service mode, with coach 0 running. -/
def overfull (dsp : Word) (d : List Entry) : State := { State.reset with
  up := true, csr := [(aRngCtl, 1), (aRngLock, 1)], coach := [(0, overfullCoach dsp d)], queue := [0], run0 := some 0
  lnc := { lanes := [(0, { role := .voter, pos := 0 }), (1, { role := .voter, pos := 1 }), (2, { role := .voter, pos := 2 }),
    (3, { role := .spare })] } }

/-- `Issues` as a test. -/
def canIssue (s : State) (l : LaneUse) (w : Who) (n : Nat) : Bool :=
  !l.borrowed && lsRuns s l.set.val && issuer s l.set.val == some w && !(l.set == 0 && fastReady s)
    && (getC s w).held.isNone && (getC s w).stall.isNone && !(getC s w).drain && (getC s w).window.isNone
    && (getC s w).out.isEmpty && (atBoundary s w).isNone && s.mcs.vact.isEmpty
    && fetchAll s ⟨w, l.set.val⟩ (fetchWords (getC s w).pc.toNat n) == .ok

theorem issues_of_canIssue {s : State} {l : LaneUse} {w : Who} {n : Nat} (h : canIssue s l w n = true) : Issues s l w n := by
  simp only [canIssue, Bool.and_eq_true, Bool.not_eq_true', beq_iff_eq, Option.isNone_iff_eq_none, List.isEmpty_iff,
    and_assoc] at h
  obtain ⟨own, lane, who, slow, held, stall, drain, window, out, quiet, vact, fetched⟩ := h
  refine { own, lane, who, fetched, quiet, notFast := slow, notHeld := held, notStalled := stall, notDraining := drain,
           noWindow := window, posted := out, unpatched := fun op => ?_ }
  simp [overrideOf, vact]

/-- What a program sees of coach 0 in the state that a command leaves, and what holds the coach. -/
def afterwards (o : Out) : Option (List Word × List Entry × List Entry × Option Hold) :=
  match o with
  | .next t => some ((seen (coachOf t 0)).1, (seen (coachOf t 0)).2.1, (seen (coachOf t 0)).2.2, (coachOf t 0).held)
  | _ => none

/-- Nine values, one more than the operand head holds. -/
def nine (a : Word) : List Entry := [.val a, .val 0] ++ List.replicate 7 (.val 1)

/-- The block about to issue with nine values on the operand head, the top one `a`. -/
abbrev ninth (a : Word) (dsp : Word := 0x10001000) : State := overfull dsp (nine a)

theorem issues_ninth {a dsp : Word} (len : Nat)
    (h : canIssue (ninth a dsp) ⟨0, false⟩ (.coach 0) len = true) : Issues (ninth a dsp) ⟨0, false⟩ (.coach 0) len :=
  issues_of_canIssue h

/-- A head of nine values begins with its first `n`, and has room once they are popped. -/
theorem takes_ninth (a dsp : Word) (n o : Nat) (h : n ≤ 9) (room : 9 - n + o ≤ 8) :
    Takes (ninth a dsp) (.coach 0) ((nine a).take n) [] o 0 where
  top := ⟨(nine a).drop n, (List.take_append_drop n (nine a)).symm⟩
  rtop := ⟨[], rfl⟩
  deep := .inr ⟨(List.length_take_le n (nine a)).trans h, Nat.zero_le _⟩
  room := by rw [List.length_take, Nat.min_eq_left (show n ≤ (nine a).length from h)]; exact room
  rroom := Nat.zero_le _

/-- The word of bank 0 admits loads, stores and atomics of coach 0. -/
theorem admits_ninth (k : Access) : AdmitsOpen (ninth 0x10000400) ⟨0, false⟩ (.coach 0) k 0x10000400 4 where
  bank := by decide +kernel
  owner := by cases k <;> decide +kernel
  quota := by decide +kernel
  free := rfl
  room := by decide +kernel

/-- Refutes O14: with nine entries on the head, the division spills while it reads its operands in place, and leaves seven
entries, not the eight of the statement. -/
theorem not_division : ¬ Obligations.Division := by
  unfold Obligations.Division
  rintro ⟨h, -⟩
  obtain ⟨-, plain, -⟩ := h 0 2 (ninth 2) ⟨0, false⟩ (.coach 0) .divu false false (by simp)
    (issues_ninth 1 (by decide +kernel)) (takes_ninth _ _ 2 1 (by omega) (by omega))
  exact absurd (congrArg afterwards (plain (by decide) (by decide))) (by decide +kernel)

/-- Refutes O19: with nine entries on the head, ST spills while it reads its operands in place, and leaves six entries, not
the seven of the statement. -/
theorem not_bankStoresIssue : ¬ Obligations.BankStoresIssue := by
  unfold Obligations.BankStoresIssue
  intro h
  obtain ⟨t, ran, -, -, -, -, left⟩ := h (ninth 0x10000400) ⟨0, false⟩ (.coach 0) (.st ⟨0, false⟩) 0x10000400 0 0 4 0
    [.val 0x10000400, .val 0] id rfl (issues_ninth 1 (by decide +kernel)) (.inl (by simp))
    (takes_ninth _ _ 2 0 (by omega) (by omega)) rfl (admits_ninth .store)
  have after : (afterwards (.next t)).map (fun r => r.2.1.length) = some 7 :=
    congrArg (fun r : List Word × List Entry × List Entry => some r.2.1.length) left
  exact absurd (ran ▸ after) (by decide +kernel)

/-- Refutes O24: with nine entries on the head, XCHG spills while it reads its operands in place, and then waits for the
store of that spill where the statement has it stall for its own response. -/
theorem not_atomics : ¬ Obligations.Atomics := by
  unfold Obligations.Atomics
  rintro ⟨h, -⟩
  obtain ⟨t, ran, -, -, -, held, -⟩ := h (ninth 0x10000400) ⟨0, false⟩ (.coach 0) 0x10000400 0 0 (.xchg ⟨0, false⟩) .xchg
    [.val 0x10000400, .val 0] 0 (by simp) rfl (issues_ninth 1 (by decide +kernel))
    (takes_ninth _ _ 2 1 (by omega) (by omega)) rfl rfl (by decide +kernel) (admits_ninth .atomic)
  have after : (afterwards (.next t)).map (fun r => r.2.2.2) = some (some .sealedAcc) := congrArg some held
  exact absurd (ran ▸ after) (by decide +kernel)

/-- Refutes O25: with nine entries on the head, CSRW spills while it reads its operands in place, where the statement has its
coach stall with the head as it was. -/
theorem not_controlSpaceAccess : ¬ Obligations.ControlSpaceAccess := by
  unfold Obligations.ControlSpaceAccess
  rintro ⟨h, -⟩
  obtain ⟨-, csrw, -⟩ := h (ninth (u32 aRngGstage)) ⟨0, false⟩ (.coach 0) (u32 aRngGstage) 0 ((regOf aRngGstage).getD ⟨0, 0, 0, 0, 0, 0, 0⟩) (by decide +kernel)
    (by decide +kernel) (by decide +kernel) (by decide +kernel) (by decide +kernel) rfl (by decide +kernel)
    (by decide +kernel) (by decide +kernel)
  have after := congrArg afterwards
    (csrw (issues_ninth 1 (by decide +kernel)) (takes_ninth _ _ 2 0 (by omega) (by omega)))
  exact absurd after (by decide +kernel)

/-- Refutes O36: with nine entries on the head, FILL of no bytes spills while it reads its operands in place, and leaves five
entries, not the six of the statement. -/
theorem not_longMemoryInstructions : ¬ Obligations.LongMemoryInstructions := by
  unfold Obligations.LongMemoryInstructions
  intro h
  obtain ⟨-, fill, -⟩ := h (ninth 2) ⟨0, false⟩ (.coach 0) 64 ⟨Vector.replicate 18 0, none⟩ 0 0 1 2 0
    (issues_ninth 1 (by decide +kernel))
  have after := congrArg afterwards ((fill (takes_ninth _ _ 3 0 (by omega) (by omega))).1 rfl)
  exact absurd after (by decide +kernel)

/-- Refutes O38: with nine entries on the head, BNKEY spills while it reads its operands in place, where the statement has its
coach stall with the head as it was. -/
theorem not_engineSubmission : ¬ Obligations.EngineSubmission := by
  unfold Obligations.EngineSubmission
  rintro ⟨-, -, h, -⟩
  obtain ⟨bnkey, -⟩ := h (ninth 2) ⟨0, false⟩ (.coach 0) 2 0 (issues_ninth 1 (by decide +kernel)) rfl (by decide +kernel)
    (by decide +kernel) (by decide +kernel)
  obtain ⟨t, ran, -, same, -⟩ := bnkey 1024 (takes_ninth _ _ 2 1 (by omega) (by omega)) (by decide) (by decide +kernel)
    (by decide +kernel) (by decide +kernel)
  have after : (afterwards (.next t)).map (fun r => r.2.1.length) = some 9 :=
    congrArg (fun r : List Word × List Entry × List Entry => some r.2.1.length) (same (.coach 0))
  exact absurd (ran ▸ after) (by decide +kernel)

end Sys2Proof.Machine
end

section
/-! SUPPORT. Coach registers (spec/02, R32 to R41), FENCE (R49), and the scheduling instructions (spec/03, R92 to R94). -/

namespace Sys2Proof.Machine

@[simp] theorem svc_modC (s : State) (w : Who) (f : Coach → Coach) : svc (modC s w f) = svc s := by simp [svc, getR]

@[simp] theorem numOf_modC (s : State) (w v : Who) (f : Coach → Coach) : numOf (modC s w f) v = numOf s v := by
  cases v <;> simp [numOf, fastCoach]

/-! ### GETR -/

section
variable {s : State} {l : LaneUse} {n : Nat} {i : BitVec 5}

/-- GETR pushes the register's value, where the ring is in its column. -/
theorem execGetr_pushes (h : Issues s l (.coach n) 2) (ht : Takes s (.coach n) [] [] 1 0)
    (hr : ringOf (coachOf s n) ≤ getrRing i.toNat) :
    execGetr l i s = ends s l (.coach n) 2 .seq
      (modC s (.coach n) (restack 0 [.val (regValue s ⟨.coach n, l.set.val⟩ i.toNat)])) := by
  have hn : need (.coach n) 0 1 0 0 s = .ok ((), s) := ht.need
  refine instr_ok h ?_ (by decide)
  rw [bind_of_ok hn, bind_get, if_neg (Nat.not_lt.mpr (show ringOf (getC s (.coach n)) ≤ _ from hr)), pushes_ok s ⟨.coach n, l.set.val⟩ _ ht]

theorem execGetr_denied (h : Issues s l (.coach n) 2) (ht : Takes s (.coach n) [] [] 1 0)
    (hr : getrRing i.toNat < ringOf (coachOf s n)) : execGetr l i s = raises s l (.coach n) { vec := vPRIV } := by
  have hn : need (.coach n) 0 1 0 0 s = .ok ((), s) := ht.need
  refine instr_trap h ?_
  rw [bind_of_ok hn, bind_get, if_pos (show _ < ringOf (getC s (.coach n)) from hr)]
  rfl

/-- The column of a register, and its value, as the statement lists them. -/
theorem getrRing_eq (i : BitVec 5) :
    getrRing i.toNat = if i = 18 then 0 else if i ∈ [6, 7, 8, 9, 15, 16, 17] then 1 else (3 : Nat) := by
  revert i; decide

theorem regValue_eq (s : State) (n lane : Nat) (i : BitVec 5) : regValue s ⟨.coach n, lane⟩ i.toNat =
    (let c := coachOf s n
     ([c.pc + 2, c.status, c.dsp, c.rsp, c.ddepth, c.rdepth, c.dlim, c.rlim, c.xdsp, c.xrsp, c.a, c.b, c.lstart, c.lend,
        c.lcount, c.wbp, c.wblim, c.keeper, c.ccfg, BitVec.ofNat 32 n] : List Word).getD i.toNat 0) := by
  unfold regValue
  rw [if_neg (by simp)]
  generalize i.toNat = k
  match k with
  | 0 | 1 | 2 | 3 | 4 | 5 | 6 | 7 | 8 | 9 | 10 | 11 | 12 | 13 | 14 | 15 | 16 | 17 | 18 | 19 | _ + 20 => rfl

end

/-! ### SETR -/

section
variable {s u : State} {l : LaneUse} {w : Who} {i : BitVec 5} {v : Word} {r : Nat}

/-- SETR pops its value and goes as the register's own write. -/
theorem execSetr_ok (h : Issues s l w 2) (ht : Takes s w [.val v] [] 0 0) (hi : setrRing i.toNat = some r)
    (hx : setrExcluded s w i.toNat = false) (hr : ringOf (getC s w) ≤ r)
    (hu : setReg ⟨w, l.set.val⟩ i.toNat v (modC s w (restack 1 [])) = .ok ((), u)) :
    execSetr l i s = ends s l w 2 .seq u := by
  have hn : need w 1 0 0 0 s = .ok ((), s) := ht.need
  refine instr_ok h ?_ (by decide)
  rw [bind_of_ok hn, bind_get, hi]
  simp only [hx, Bool.false_eq_true, if_false, if_neg (Nat.not_lt.mpr hr)]
  rw [bind_of_ok (pop_restack s ⟨w, l.set.val⟩ v _ (top_drop ht)), bind_of_ok hu]
  rfl

/-- A write that raises discards the pop. -/
theorem execSetr_trap {x : XItem} (h : Issues s l w 2) (ht : Takes s w [.val v] [] 0 0) (hi : setrRing i.toNat = some r)
    (hx : setrExcluded s w i.toNat = false) (hr : ringOf (getC s w) ≤ r)
    (hu : setReg ⟨w, l.set.val⟩ i.toNat v (modC s w (restack 1 [])) = .error (.trap x id)) :
    execSetr l i s = raises s l w x := by
  have hn : need w 1 0 0 0 s = .ok ((), s) := ht.need
  refine instr_trap h ?_
  rw [bind_of_ok hn, bind_get, hi]
  simp only [hx, Bool.false_eq_true, if_false, if_neg (Nat.not_lt.mpr hr)]
  rw [bind_of_ok (pop_restack s ⟨w, l.set.val⟩ v _ (top_drop ht)), bind_of_error hu]

/-- A register that SETR does not write in this context raises ILLEGAL. -/
theorem execSetr_illegal (h : Issues s l w 2) (ht : Takes s w [.val v] [] 0 0)
    (hi : setrRing i.toNat = none ∨ setrExcluded s w i.toNat = true) :
    execSetr l i s = raises s l w { vec := vILLEGAL, reason := 7 } := by
  have hn : need w 1 0 0 0 s = .ok ((), s) := ht.need
  refine instr_trap h ?_
  rw [bind_of_ok hn, bind_get]
  cases hc : setrRing i.toNat with
  | none => rfl
  | some r => simp only [hi.resolve_left (by simp [hc]), if_true]; rfl

theorem execSetr_denied (h : Issues s l w 2) (ht : Takes s w [.val v] [] 0 0) (hi : setrRing i.toNat = some r)
    (hx : setrExcluded s w i.toNat = false) (hr : r < ringOf (getC s w)) :
    execSetr l i s = raises s l w { vec := vPRIV } := by
  have hn : need w 1 0 0 0 s = .ok ((), s) := ht.need
  refine instr_trap h ?_
  rw [bind_of_ok hn, bind_get, hi]
  simp only [hx, Bool.false_eq_true, if_false, if_pos hr]
  rfl

end

section
variable {s : State} {l : LaneUse} {n : Nat} {v : Word}

/-- Where SETR writes one register of its context, with nothing else to do, it writes it beside its pop. -/
theorem execSetr_plain {i : BitVec 5} {r : Nat} {f : Coach → Coach} (h : Issues s l (.coach n) 2)
    (ht : Takes s (.coach n) [.val v] [] 0 0) (hi : setrRing i.toNat = some r)
    (hx : setrExcluded s (.coach n) i.toNat = false) (hr : ringOf (coachOf s n) ≤ r)
    (hf : setReg ⟨.coach n, l.set.val⟩ i.toNat v (modC s (.coach n) (restack 1 [])) =
      .ok ((), modC (modC s (.coach n) (restack 1 [])) (.coach n) f)) :
    execSetr l i s = ends s l (.coach n) 2 .seq (modC s (.coach n) (fun c => f (restack 1 [] c))) := by
  rw [execSetr_ok h ht hi hx hr hf, modC_modC]

/-- A change that the ring may not make to STATUS differs from STATUS in the field that the ring may not change. -/
theorem status_changes (old v m : Word) (hm : m &&& ~~~statusRW = 0) :
    (((old &&& ~~~statusRW) ||| (v &&& statusRW)) ^^^ old) &&& m = (v ^^^ old) &&& m := by
  ext i hi
  have hb : (m &&& ~~~statusRW).getLsbD i = false := by rw [hm]; simp
  simp only [BitVec.getLsbD_and, BitVec.getLsbD_not, hi, decide_true, Bool.true_and] at hb
  simp only [BitVec.getElem_and, BitVec.getElem_or, BitVec.getElem_xor, BitVec.getElem_not]
  simp only [BitVec.getLsbD_eq_getElem hi] at hb
  cases hmi : m[i] <;> cases hr : statusRW[i] <;> simp_all

/-- STATUS after SETR with `v`. -/
def withStatus (v : Word) (c : Coach) : Coach := { c with status := (c.status &&& ~~~statusRW) ||| (v &&& statusRW) }

/-- The write of STATUS by `v` would change MASK or HOLD where the ring may not (R41). -/
def statusDenied (c : Coach) (v : Word) : Prop :=
  (2 ≤ ringOf c ∧ (v ^^^ c.status) &&& 0x0001FF00 ≠ 0) ∨ (1 ≤ ringOf c ∧ (v ^^^ c.status) &&& 0x00010000 ≠ 0)

theorem setStatus_denied {x : Iss} {v : Word} {s : State} (h : statusDenied (getC s x.who) v) :
    setStatus x v s = .error (.trap { vec := vPRIV } id) := by
  rw [setStatus, bind_get]
  simp only [status_changes _ v 0x0001FF00#32 (by decide), status_changes _ v 0x00010000#32 (by decide)]
  split
  · rfl
  · exact absurd h ‹_›

theorem setStatus_allowed {x : Iss} {v : Word} {s : State} (h : ¬ statusDenied (getC s x.who) v) :
    setStatus x v s = .ok ((), modC s x.who (withStatus v)) := by
  rw [setStatus, bind_get]
  simp only [status_changes _ v 0x0001FF00#32 (by decide), status_changes _ v 0x00010000#32 (by decide)]
  split
  · exact absurd ‹_› h
  · exact congrArg (fun t => Except.ok ((), t)) (modC_congr _ _ _ _ rfl)

/-! ### SETR of the registers of the stacks -/

/-- In service mode the head is spilled before the pointer or the depth is written (R40). -/
theorem setStack_ok {x : Iss} {k : Stk} {f g : Coach → Coach} {t u : State} (hs : svc t = true)
    (hu : (spillAll x k : M Unit) t = .ok ((), u)) : setStack x k f g t = .ok ((), modC u x.who (fun c => g (f c))) := by
  rw [setStack, bind_get, hs]
  exact bind_of_ok hu

theorem setStack_strongbox {x : Iss} {k : Stk} {f g : Coach → Coach} {t : State} (hs : svc t = false) :
    setStack x k f g t = .ok ((), modC t x.who f) := by
  rw [setStack, bind_get, hs]
  rfl

theorem setStack_trap {x : Iss} {k : Stk} {f g : Coach → Coach} {t : State} (hs : svc t = true)
    (hn : headOf k (getC t x.who) ≠ [])
    (hl : (spOf k (getC t x.who)).toNat < spillLimit t k (getC t x.who) + 4 * (headOf k (getC t x.who)).length) :
    setStack x k f g t = .error (.trap { vec := k.vec } id) := by
  have hu : (spillAll x k : M Unit) t = .error (.trap { vec := k.vec } id) := by
    rw [spillAll, bind_get, if_pos ⟨by simpa using hn, hl⟩]
    rfl
  rw [setStack, bind_get, hs]
  exact bind_of_error hu

@[simp] theorem spillLimit_modC (s : State) (w : Who) (f : Coach → Coach) (k : Stk) (c : Coach) :
    spillLimit (modC s w f) k c = spillLimit s k c := by
  cases w <;> rfl

/-- Which registers SETR writes, and from which ring. -/
theorem setrRing_eq (i : BitVec 5) : setrRing i.toNat =
    if i = 0 ∨ 19 ≤ i.toNat then none else if i = 18 then some 0 else if i ∈ [6, 7, 8, 9, 15, 16, 17] then some 1
    else some 3 := by
  revert i; decide

theorem setrExcluded_coach (s : State) (n : Nat) {k : Nat} (h4 : k ≠ 4) (h5 : k ≠ 5) :
    setrExcluded s (.coach n) k = false := by
  simp [setrExcluded, h4, h5]

theorem ringOf_le (c : Coach) : ringOf c ≤ 3 := by unfold ringOf fld; omega

section
variable {s : State} {l : LaneUse} {n : Nat} {v : Word} (h : Issues s l (.coach n) 2) (ht : Takes s (.coach n) [.val v] [] 0 0)
include h ht

theorem execSetr_status_denied (hd : statusDenied (coachOf s n) v) :
    execSetr l 1 s = raises s l (.coach n) { vec := vPRIV } := by
  refine execSetr_trap h ht (r := 3) rfl (setrExcluded_coach s n (by decide) (by decide)) (ringOf_le _)
    (setStatus_denied ?_)
  rw [getC_modC_self]
  exact hd

theorem execSetr_status_allowed (hd : ¬ statusDenied (coachOf s n) v) :
    execSetr l 1 s = ends s l (.coach n) 2 .seq (modC s (.coach n) (fun c => withStatus v (restack 1 [] c))) :=
  execSetr_plain (f := withStatus v) h ht (r := 3) rfl (setrExcluded_coach s n (by decide) (by decide)) (ringOf_le _)
    (setStatus_allowed (by rw [getC_modC_self]; exact hd))

/-- In service mode a write of a pointer or a depth goes on from the spilled head (R40). -/
theorem execSetr_spilled {i : BitVec 5} {k : Stk} {f g : Coach → Coach} {u : State} (hs : svc s = true)
    (hi : setrRing i.toNat = some 3) (hk : ∀ t, setReg ⟨.coach n, l.set.val⟩ i.toNat v t = setStack ⟨.coach n, l.set.val⟩ k f g t)
    (hu : (spillAll ⟨.coach n, l.set.val⟩ k : M Unit) (modC s (.coach n) (restack 1 [])) = .ok ((), u)) :
    execSetr l i s = ends s l (.coach n) 2 .seq (modC u (.coach n) (fun c => g (f c))) :=
  execSetr_ok h ht hi (by simp [setrExcluded, hs]) (ringOf_le _) ((hk _).trans (setStack_ok (by simpa using hs) hu))

/-- In strongbox mode the pointer is loaded alone (R384). -/
theorem execSetr_strongbox {i : BitVec 5} {k : Stk} {f g : Coach → Coach} (hs : svc s = false)
    (hi : setrRing i.toNat = some 3) (hx : setrExcluded s (.coach n) i.toNat = false)
    (hk : ∀ t, setReg ⟨.coach n, l.set.val⟩ i.toNat v t = setStack ⟨.coach n, l.set.val⟩ k f g t) :
    execSetr l i s = ends s l (.coach n) 2 .seq (modC s (.coach n) (fun c => f (restack 1 [] c))) :=
  execSetr_plain h ht hi hx (ringOf_le _) ((hk _).trans (setStack_strongbox (by simpa using hs)))

/-- A spill that its limit forbids raises, with nothing changed. -/
theorem execSetr_limit {i : BitVec 5} {k : Stk} {f g : Coach → Coach} (hs : svc s = true)
    (hi : setrRing i.toNat = some 3) (hk : ∀ t, setReg ⟨.coach n, l.set.val⟩ i.toNat v t = setStack ⟨.coach n, l.set.val⟩ k f g t)
    (hn : headOf k (restack 1 [] (coachOf s n)) ≠ [])
    (hl : (spOf k (coachOf s n)).toNat < spillLimit s k (coachOf s n) + 4 * (headOf k (restack 1 [] (coachOf s n))).length) :
    execSetr l i s = raises s l (.coach n) { vec := k.vec } := by
  have hd : getC (modC s (.coach n) (restack 1 [])) (.coach n) = restack 1 [] (coachOf s n) := getC_modC_self ..
  refine execSetr_trap h ht hi (by simp [setrExcluded, hs]) (ringOf_le _)
    ((hk _).trans (setStack_trap (by simpa using hs) ?_ ?_))
  · rwa [hd]
  · simp only [hd, spillLimit_modC]
    cases k <;> exact hl

end

/-- Settles O17: GETR and SETR, register by register. -/
theorem coachRegisters : Obligations.CoachRegisters := by
  unfold Obligations.CoachRegisters
  refine ⟨fun s l n h ht i v => ⟨fun hr => execGetr_denied h ht ((getrRing_eq i).trans_lt hr), fun hr hv => ?_⟩,
    fun s l n v h ht => ?_⟩
  · have hp := execGetr_pushes h ht (hr.trans_eq (getrRing_eq i).symm)
    rw [regValue_eq] at hp
    exact hv ▸ hp
  · have any := ringOf_le (coachOf s n)
    have out {k : Nat} (h4 : k ≠ 4) (h5 : k ≠ 5) := setrExcluded_coach s n h4 h5
    have dhead : (coachOf s n).dhead.drop 1 = (restack 1 [] (coachOf s n)).dhead := rfl
    have illegal : ∀ i : BitVec 5, svc s = false → i ∈ [4, 5] → setrExcluded s (.coach n) i.toNat = true := fun i hs hi => by
      fin_cases hi <;> simp [setrExcluded, hs]
    refine ⟨fun hd => execSetr_status_denied h ht hd.symm, fun hd => execSetr_status_allowed h ht fun hc => hd hc.symm,
      fun hs => ⟨fun u hu => ⟨?_, ?_⟩, fun u hu => ⟨?_, ?_⟩, fun h1 hl i hi => ?_, fun h1 hl i hi => ?_⟩,
      fun hs => ⟨?_, ?_, fun i hi => execSetr_illegal h ht (.inr (illegal i hs hi))⟩, ?_⟩
    · exact execSetr_spilled (f := fun c => { c with dsp := v }) (g := fun c => { c with ddepth := 0 }) h ht hs rfl (fun _ => rfl) hu
    · exact execSetr_spilled (f := fun c => { c with ddepth := v }) (g := id) h ht hs rfl (fun _ => rfl) hu
    · exact execSetr_spilled (f := fun c => { c with rsp := v }) (g := fun c => { c with rdepth := 0 }) h ht hs rfl (fun _ => rfl) hu
    · exact execSetr_spilled (f := fun c => { c with rdepth := v }) (g := id) h ht hs rfl (fun _ => rfl) hu
    · have hn : (restack 1 [] (coachOf s n)).dhead ≠ [] := by
        rw [← dhead, ← List.length_pos_iff, List.length_drop]; omega
      have hl' : (coachOf s n).dsp.toNat < spillLimit s .d (coachOf s n) + 4 * (restack 1 [] (coachOf s n)).dhead.length := by
        rw [← dhead, List.length_drop]; exact hl
      fin_cases hi
      · exact execSetr_limit (f := fun c => { c with dsp := v }) (g := fun c => { c with ddepth := 0 }) h ht (k := .d) hs rfl
          (fun _ => rfl) hn hl'
      · exact execSetr_limit (f := fun c => { c with ddepth := v }) (g := id) h ht (k := .d) hs rfl (fun _ => rfl) hn hl'
    · fin_cases hi
      · exact execSetr_limit (f := fun c => { c with rsp := v }) (g := fun c => { c with rdepth := 0 }) h ht (k := .r) hs rfl
          (fun _ => rfl) h1 hl
      · exact execSetr_limit (f := fun c => { c with rdepth := v }) (g := id) h ht (k := .r) hs rfl (fun _ => rfl) h1 hl
    · exact execSetr_strongbox (f := fun c => { c with dsp := v }) (g := fun c => { c with ddepth := 0 }) h ht hs rfl
        (out (by decide) (by decide)) (fun _ => rfl)
    · exact execSetr_strongbox (f := fun c => { c with rsp := v }) (g := fun c => { c with rdepth := 0 }) h ht hs rfl
        (out (by decide) (by decide)) (fun _ => rfl)
    · refine ⟨?_, ?_, ?_, ?_, ?_, fun hr => ⟨?_, ?_, ?_, ?_, ?_, ?_, ?_⟩, fun hr => ?_, fun i hi => ?_, fun i hr hi => ?_⟩
      · exact execSetr_plain (f := fun c => { c with a := v }) h ht (r := 3) rfl (out (by decide) (by decide)) any rfl
      · exact execSetr_plain (f := fun c => { c with b := v }) h ht (r := 3) rfl (out (by decide) (by decide)) any rfl
      · exact execSetr_plain (f := fun c => { c with lstart := v }) h ht (r := 3) rfl (out (by decide) (by decide)) any rfl
      · exact execSetr_plain (f := fun c => { c with lend := v }) h ht (r := 3) rfl (out (by decide) (by decide)) any rfl
      · exact execSetr_plain (f := fun c => { c with lcount := v }) h ht (r := 3) rfl (out (by decide) (by decide)) any rfl
      · exact execSetr_plain (f := fun c => { c with dlim := v }) h ht (r := 1) rfl (out (by decide) (by decide)) hr rfl
      · exact execSetr_plain (f := fun c => { c with rlim := v }) h ht (r := 1) rfl (out (by decide) (by decide)) hr rfl
      · exact execSetr_plain (f := fun c => { c with xdsp := v }) h ht (r := 1) rfl (out (by decide) (by decide)) hr rfl
      · exact execSetr_plain (f := fun c => { c with xrsp := v }) h ht (r := 1) rfl (out (by decide) (by decide)) hr rfl
      · exact execSetr_plain (f := fun c => { c with wbp := v }) h ht (r := 1) rfl (out (by decide) (by decide)) hr rfl
      · exact execSetr_plain (f := fun c => { c with wblim := v }) h ht (r := 1) rfl (out (by decide) (by decide)) hr rfl
      · exact execSetr_plain (f := fun c => { c with keeper := v &&& 0x3FF }) h ht (r := 1) rfl (out (by decide) (by decide)) hr rfl
      · exact execSetr_plain (f := fun c => { c with ccfg := v &&& 0x33 }) h ht (r := 0) rfl (out (by decide) (by decide)) hr.le rfl
      · exact execSetr_illegal h ht (.inl ((setrRing_eq i).trans (if_pos hi)))
      · have column : ∀ i : BitVec 5, i ∈ [6, 7, 8, 9, 15, 16, 17, 18] →
            ∃ r ≤ 1, setrRing i.toNat = some r ∧ i.toNat ≠ 4 ∧ i.toNat ≠ 5 := by decide
        obtain ⟨r, hr1, hi, h4, h5⟩ := column i hi
        exact execSetr_denied h ht hi (out h4 h5) (hr1.trans_lt hr)

end

end Sys2Proof.Machine
end

section
/-! SUPPORT. What the schedulers make of a coach's state (spec/05, R127, R129, R134): a coach that is READY or in RUN may pass
between the two, one whose halt request is due is halted, and any other stays as it is. -/

namespace Sys2Proof.Machine

/-- A coach that is READY or in RUN: the schedulers choose between the two. -/
def onDuty (st : CoachSt) : Prop := st = .ready ∨ st = .run

/-- The state of a coach after the schedulers have selected, and its halt record. -/
structure Duty (c d : Coach) : Prop where
  st : d.st = c.st ∨ (onDuty c.st ∧ onDuty d.st)
  haltReq : d.haltReq = c.haltReq
  hpc : d.hpc = c.hpc
  hcause : d.hcause = c.hcause

theorem Duty.refl (c : Coach) : Duty c c := ⟨.inl rfl, rfl, rfl, rfl⟩

theorem Duty.trans {c d e : Coach} (h : Duty c d) (g : Duty d e) : Duty c e where
  st := by
    rcases g.st with hg | ⟨hd, he⟩
    · exact hg ▸ h.st
    · refine .inr ⟨?_, he⟩
      rcases h.st with hh | ⟨hc, -⟩
      · exact hh ▸ hd
      · exact hc
  haltReq := g.haltReq.trans h.haltReq
  hpc := g.hpc.trans h.hpc
  hcause := g.hcause.trans h.hcause

theorem Duty.onDuty {c d : Coach} (h : Duty c d) (hc : Machine.onDuty c.st) : Machine.onDuty d.st :=
  h.st.elim (fun e => e ▸ hc) And.right

theorem Duty.off {c d : Coach} (h : Duty c d) (hc : ¬ Machine.onDuty c.st) : d.st = c.st :=
  h.st.resolve_right fun g => hc g.1

/-! ### Selection -/

theorem duty_setCoach {s : State} {m : Nat} {c : Coach} (h : Duty (coachOf s m) c) (n : Nat) :
    Duty (coachOf s n) (coachOf (setCoach s m c) n) := by
  rw [coachOf_setCoach]
  split
  · rename_i e; exact e ▸ h
  · exact .refl _

@[simp] theorem coachOf_setRun (s : State) (l : Nat) (r : Option Nat) (n : Nat) : coachOf (setRun s l r) n = coachOf s n := by
  unfold setRun; split
  · rfl
  · split <;> rfl

theorem bestOf_selectable {s : State} {l n : Nat} (h : best s l = some n) : (coachOf s n).st = .ready := by
  have hm := bestOf_mem h
  have hs := (List.mem_filter.mp hm).2
  simp only [selectable, Bool.and_eq_true, beq_iff_eq] at hs
  exact hs.1.1

theorem duty_pick (l f : Nat) (s : State) (n : Nat) : Duty (coachOf s n) (coachOf (pick l f s) n) := by
  induction f generalizing s with
  | zero => exact .refl _
  | succ f ih =>
    have quits : ∀ r, (coachOf s r).st = .run →
        ∀ n, Duty (coachOf s n) (coachOf (setCoach s r { coachOf s r with st := .ready }) n) := fun r hr n =>
      duty_setCoach (c := { coachOf s r with st := .ready }) ⟨.inr ⟨.inr hr, .inl rfl⟩, rfl, rfl, rfl⟩ n
    unfold pick
    cases hr : runOf s l with
    | some r =>
      dsimp only
      split
      · exact (coachOf_setRun s l none n ▸ Duty.refl _ : Duty (coachOf s n) (coachOf (setRun s l none) n)).trans (ih _)
      · rename_i hst
        have hst : (coachOf s r).st = .run := not_not.mp hst
        have released := (coachOf_setRun (setCoach s r { coachOf s r with st := .ready }) l none n) ▸ quits r hst n
        split
        · exact released.trans (ih _)
        · split
          · exact .refl _
          · split
            · exact released.trans (ih _)
            · split
              · have headed : Duty (coachOf s n) (coachOf (setRun (toHead (setCoach s r { coachOf s r with st := .ready }) r) l none) n) := by
                  rw [coachOf_setRun]; exact quits r hst n
                exact headed.trans (ih _)
              · exact .refl _
    | none =>
      dsimp only
      split
      · exact .refl _
      · rename_i m hm
        have ready := bestOf_selectable hm
        split
        · refine Duty.trans ?_ (ih _)
          show Duty _ (coachOf (setCoach s m _) n)
          refine duty_setCoach ?_ n
          exact ⟨.inl rfl, rfl, rfl, rfl⟩
        · rw [coachOf_setRun]
          refine duty_setCoach ?_ n
          exact ⟨.inr ⟨.inl ready, .inr rfl⟩, rfl, rfl, rfl⟩

/-! ### Halts -/

/-- The halt request of coach `n` is due: it waits in a queue for its next boundary. -/
def HaltDue (s : State) (n : Nat) : Prop :=
  n ∈ s.queue ∧ (coachOf s n).haltReq = true ∧ (coachOf s n).stall = none ∧ (coachOf s n).drain = false

theorem coachOf_leave (s : State) (m : Nat) (st : CoachSt) (n : Nat) :
    coachOf (leave s m st) n = if n = m then { coachOf s m with st := st } else coachOf s n := by
  rw [show coachOf (leave s m st) n = coachOf (setCoach s m { coachOf s m with st := st }) n from rfl, coachOf_setCoach]

/-- The coach, halted at its boundary. -/
def halted (c : Coach) : Coach :=
  { c with haltReq := false, held := none, hpc := c.pc, hcause := 0, haddr := 0, hinfo := 0, st := .halt }

theorem coachOf_haltNow (s : State) (m n : Nat) :
    coachOf (haltNow s m) n = if n = m then halted (coachOf s m) else coachOf s n := by
  rw [haltNow, coachOf_leave]
  by_cases h : n = m
  · simp [h, modC, setC, getC, halted]
  · simp [h, modC, setC, getC, coachOf_setCoach]

theorem coachOf_halts (ms : List Nat) (s : State) (n : Nat) :
    coachOf (ms.foldl haltNow s) n = if n ∈ ms then halted (coachOf s n) else coachOf s n := by
  induction ms generalizing s with
  | nil => simp
  | cons m ms ih =>
    rw [List.foldl_cons, ih, coachOf_haltNow]
    by_cases h : n = m
    · subst h; simp [halted]
    · simp [h]

theorem unhold_duty (s : State) (n : Nat) (c : Coach) : Duty c (unhold s n c) := by
  obtain ⟨_, _, _, _, _, _, _, _, _, _, _, -⟩ := sameThread_unhold s n c
  have d : Duty c (dropOffer s n c) := by
    unfold dropOffer; split
    · split
      · exact .refl _
      · exact ⟨.inl rfl, rfl, rfl, rfl⟩
    · exact .refl _
  unfold unhold; split
  · split
    · exact d
    · exact d.trans ⟨.inl rfl, rfl, rfl, rfl⟩
  · exact d

theorem coachOf_refreshHeld (s : State) (n : Nat) : coachOf (refreshHeld s) n = unhold s n (coachOf s n) :=
  SMap.get_map ({} : Coach) (unhold s) s.coach n rfl

theorem coachOf_applyHalts_of_due {s : State} {n : Nat} (h : HaltDue s n) :
    coachOf (applyHalts s) n = halted (coachOf s n) := by
  obtain ⟨queued, asked, free, settled⟩ := h
  rw [applyHalts, coachOf_halts, if_pos (List.mem_filter.mpr ⟨queued, by simp [asked, free, settled]⟩)]

theorem coachOf_applyHalts_of_not_due {s : State} {n : Nat} (h : ¬ HaltDue s n) : coachOf (applyHalts s) n = coachOf s n := by
  rw [applyHalts, coachOf_halts, if_neg]
  intro hm
  obtain ⟨queued, hd⟩ := List.mem_filter.mp hm
  simp only [Bool.and_eq_true, Option.isNone_iff_eq_none, Bool.not_eq_true'] at hd
  exact h ⟨queued, hd.1.1, hd.1.2, hd.2⟩

theorem duty_afterHalts (s : State) (n : Nat) : Duty (coachOf (applyHalts (refreshHeld s)) n) (coachOf (settle s) n) := by
  rw [settle]
  simp only [coachOf_fixRun]
  exact ((duty_pick 0 _ _ n).trans (duty_pick 1 _ _ n)).trans (duty_pick 2 _ _ n)

theorem haltDue_refreshHeld (s : State) (n : Nat) : HaltDue (refreshHeld s) n ↔ HaltDue s n := by
  have same := sameThread_unhold s n (coachOf s n)
  have hq : (refreshHeld s).queue = s.queue := rfl
  simp only [HaltDue, coachOf_refreshHeld, hq, (unhold_duty s n (coachOf s n)).haltReq,
    same.get Coach.stall (fun _ _ _ _ _ _ _ _ _ _ _ => rfl), same.get Coach.drain (fun _ _ _ _ _ _ _ _ _ _ _ => rfl)]

/-- The schedulers move a coach without a due halt request between READY and RUN at most. -/
theorem duty_settle {s : State} {n : Nat} (h : ¬ HaltDue s n) : Duty (coachOf s n) (coachOf (settle s) n) := by
  have hk := duty_afterHalts s n
  rw [coachOf_applyHalts_of_not_due (mt (haltDue_refreshHeld s n).mp h), coachOf_refreshHeld] at hk
  exact (unhold_duty s n _).trans hk

/-- A due halt request takes effect. -/
theorem halted_settle {s : State} {n : Nat} (h : HaltDue s n) : Duty (halted (coachOf s n)) (coachOf (settle s) n) := by
  have hk := duty_afterHalts s n
  have same := sameThread_unhold s n (coachOf s n)
  rw [coachOf_applyHalts_of_due ((haltDue_refreshHeld s n).mpr h), coachOf_refreshHeld] at hk
  have hp : Duty (halted (coachOf s n)) (halted (unhold s n (coachOf s n))) :=
    ⟨.inl rfl, rfl, same.get Coach.pc (fun _ _ _ _ _ _ _ _ _ _ _ => rfl), rfl⟩
  exact hp.trans hk

/-- The schedulers leave a coach that is neither READY nor in RUN, and in no queue, in its state. -/
theorem settle_st_of_off {s : State} {n : Nat} {st : CoachSt} (hs : (coachOf s n).st = st) (hd : ¬ onDuty st)
    (hq : n ∉ s.queue) : (coachOf (settle s) n).st = st :=
  ((duty_settle fun h => hq h.1).off (hs ▸ hd)).trans hs

end Sys2Proof.Machine
end

section
/-! SUPPORT. FENCE (spec/02, R49) and the scheduling instructions (spec/03, R92 to R94, R161). -/

namespace Sys2Proof.Machine

theorem Issues.up {s : State} {l : LaneUse} {w : Who} {len : Nat} (h : Issues s l w len) : s.up = true := by
  have := h.lane
  simp only [lsRuns, issuing, Bool.and_eq_true] at this
  exact this.1.1

/-- The state at the end of an instruction, before the schedulers. -/
theorem ends_eq (s : State) (l : LaneUse) (w : Who) (len : Nat) (f : Flow) {t : State} (hup : t.up = true) :
    ∃ u, SameButCaches t u ∧
      ends s l w len f t = .next (settle (if f = .gone then u else modC u w (afterFlow u (getC s w).pc len f))) := by
  obtain ⟨u, hu, he⟩ := complete_eq t ⟨w, l.set.val⟩ (getC s w).pc len f false hup
  exact ⟨u, hu, by rw [ends, he]⟩

/-- A body that succeeds, and does not stall its coach, ends its instruction, though its waits would be pinned. -/
theorem instrPinned_ok {op : Nat} {s : State} {l : LaneUse} {w : Who} {len : Nat} {body : Iss → M Flow} {f : Flow} {t : State}
    (h : Issues s l w len) (hb : body ⟨w, l.set.val⟩ s = .ok (f, t)) (hf : f ≠ .stay) :
    instrPinned op s l len body = ends s l w len f t := by
  simp only [instrPinned, dispatch_of_issues h, ends, runBody_ok _ hb hf]

/-! ### FENCE -/

theorem drainThen_nothing {s : State} {x : Iss} {k : M Flow} (he : openOf s x.who (fun _ => true) = [])
    (hi : (getC s x.who).imprecise = []) : drainThen x k s = k s := by
  rw [drainThen, bind_get, awaitCons, he, List.isEmpty_nil, if_pos rfl, bind_of_ok (pure_eq _ _), hi]
  rfl

/-- The exception that the instruction raises is consumed unless the waybill chain is full. -/
theorem raiseOwn_eq (x : Iss) (i : XItem) (f : State → State) (s : State) :
    raiseOwn x i f s = .ok (.gone, if fullChain (raiseItem (f s) x.who i) x.who then raiseItem s x.who i
      else raiseItem (f s) x.who i) := rfl

theorem drainThen_raises {s : State} {x : Iss} {k : M Flow} {i : XItem} {r : List XItem}
    (he : openOf s x.who (fun _ => true) = []) (hi : (getC s x.who).imprecise = i :: r) :
    drainThen x k s = raiseOwn x i (fun t => modC t x.who (fun c => takeItem c i)) s := by
  rw [drainThen, bind_get, awaitCons, he, List.isEmpty_nil, if_pos rfl, bind_of_ok (pure_eq _ _), hi]
  rfl

theorem drainThen_waits {s : State} {x : Iss} {k : M Flow} (he : openOf s x.who (fun _ => true) ≠ []) :
    drainThen x k s = .error (.hold (.cons (openOf s x.who (fun _ => true))) none id) := by
  rw [drainThen, bind_get, awaitCons, if_neg (by simpa using he)]
  rfl

/-- A body that waits for consignments, before any of its waits is abandoned, has its coach wait as FENCE does. -/
theorem runBody_pinned_hold {s : State} {x : Iss} {len : Nat} {body : Iss → M Flow} {h : Hold}
    (hb : body x s = .error (.hold h none id)) :
    runBody s x len body .pinned = setGap (modC (modC (waitStarts s x.who h) x.who (fun c =>
      { c with held := some h, step := false })) x.who (fun c => { c with drain := true })) x.lane false := by
  rw [runBody, hb]
  rfl

/-- Settles O23: FENCE waits for the consignments, then for the oldest exception. -/
theorem fenceWaits : Obligations.FenceWaits := by
  unfold Obligations.FenceWaits
  intro s l w h es
  refine ⟨fun he hi => ?_, fun i r he hi => ?_, fun he => ?_⟩
  · exact instrPinned_ok h (drainThen_nothing he hi) (by decide)
  · exact instrPinned_ok h ((drainThen_raises he hi).trans (raiseOwn_eq _ _ _ _)) (by decide)
  · have hb := drainThen_waits (x := ⟨w, l.set.val⟩) (k := pure .seq) he
    show instrPinned 0x84 s l 1 _ = _
    rw [instrPinned, dispatch_of_issues h, runBody_pinned_hold hb]
    simp only [waitStarts, modC_modC]
    rfl

/-! ### WAIT -/

/-- A coach that leaves its lane sets for `st` shows its program nothing of it. -/
theorem seen_leave (s : State) (n : Nat) (st : CoachSt) (v : Who) : seen (getC (leave s n st) v) = seen (getC s v) := by
  have h := settled_leave s n st
  cases v with
  | coach m => exact (h.coach m).seen
  | fast => exact h.fast.seen

theorem not_mem_queue_leave (s : State) (n : Nat) (st : CoachSt) : n ∉ (leave s n st).queue := by
  intro hm
  have : n ∈ s.queue.filter (· ≠ n) := hm
  simp at this

/-- With no bit set, WAIT has its coach wait with its context as it was. -/
theorem execWaitWake_waits {s : State} {l : LaneUse} {n : Nat} (h : Issues s l (.coach n) 1) (ht : Takes s (.coach n) [] [] 1 0)
    (hw : (coachOf s n).wake = 0) : ∃ t, execWaitWake l s = .next t ∧ (coachOf t n).st = .wait ∧ SameContexts s t ∧
      SameMemory s t ∧ SameRegisters s t := by
  have hn : need (.coach n) 0 1 0 0 s = .ok ((), s) := ht.need
  obtain ⟨v, hv⟩ : ∃ v, v = leave (modC s (.coach n) (fun c => { c with window := none })) n .wait := ⟨_, rfl⟩
  have he : execWaitWake l s = ends s l (.coach n) 1 .gone v := by
    subst hv
    refine instr_ok h ?_ (by decide)
    simp only []
    rw [bind_of_ok hn, bind_get, if_pos hw]
    rfl
  have left := settled_leave (modC s (.coach n) (fun c => { c with window := none })) n .wait
  have hseen : ∀ w, seen (getC v w) = seen (getC s w) := fun w => by
    rw [hv, seen_leave]
    by_cases hc : w = .coach n
    · rw [hc, getC_modC_self]; rfl
    · rw [getC_modC_other _ _ _ _ hc]
  have hup : v.up = true := by rw [hv, left.up, modC_up]; exact h.up
  obtain ⟨u, hu, hx⟩ := ends_eq s l (.coach n) 1 .gone hup
  obtain ⟨t, ht, frame, same⟩ := ends_frame s l (.coach n) 1 .gone v hup
  rw [if_neg (by decide)] at same
  refine ⟨t, he.trans ht, ?_, fun w => ?_, fun a => (frame.mem a).trans ?_, fun a => (frame.csr a).trans ?_⟩
  · rw [ht, if_pos rfl, Host.Outcome.next.injEq] at hx
    rw [hx]
    refine settle_st_of_off (st := .wait) ?_ (by simp [onDuty]) ?_
    · show (getC u (.coach n)).st = .wait
      rw [hu.getC, hv]
      show (coachOf (leave _ n .wait) n).st = .wait
      rw [coachOf_leave, if_pos rfl]
    · obtain ⟨i, g, rfl⟩ := hu
      rw [hv]
      exact not_mem_queue_leave _ n .wait
  · by_cases hc : w = .coach n
    · rw [hc, same]; exact hseen _
    · exact (frame.others w hc).trans (hseen w)
  · rw [hv, rdB, left.mem, modC_mem]; rfl
  · rw [hv, getR, left.csr, modC_csr]; rfl

/-- WAIT takes the wake word. -/
theorem execWaitWake_takes {s : State} {l : LaneUse} {n : Nat} (h : Issues s l (.coach n) 1) (ht : Takes s (.coach n) [] [] 1 0)
    (hw : (coachOf s n).wake ≠ 0) : execWaitWake l s = ends s l (.coach n) 1 .seq (modC s (.coach n) (fun c =>
      { restack 0 [.val ((coachOf s n).wake.zeroExtend 32)] c with wake := 0 })) := by
  have hn : need (.coach n) 0 1 0 0 s = .ok ((), s) := ht.need
  have hr := ht.room
  simp only [List.length_nil] at hr
  refine instr_ok h ?_ (by decide)
  simp only []
  rw [bind_of_ok hn, bind_get, if_neg hw, bind_of_ok (push_restack s ⟨.coach n, l.set.val⟩ _ (by simp only []; omega)),
    bind_modI, modC_modC, pure_eq]

/-! ### WAKE and ARM -/

section
variable {s : State} {l : LaneUse} {w : Who} {v lo hi : Word}

theorem coachArg_ok (s : State) (h : v.toNat < 1024) : coachArg v s = .ok (v.toNat, s) := by
  rw [coachArg, if_neg (by omega)]
  rfl

theorem coachArg_illegal (s : State) (h : 1024 ≤ v.toNat) : coachArg v s = .error (.trap { vec := vILLEGAL, reason := 5 } id) := by
  rw [coachArg, if_pos h]
  rfl

theorem execWake_ok (h : Issues s l w 1) (ht : Takes s w [.val v] [] 0 0) (hv : v.toNat < 1024)
    (hr : ringOf (getC s w) ≠ 3 ∨ v.toNat / 32 = numOf s w / 32) :
    execWake l s = ends s l w 1 .seq (wake (modC s w (restack 1 [])) v.toNat wkWAKE) := by
  have hn : need w 1 0 0 0 s = .ok ((), s) := ht.need
  have hring : ringOf (getC (modC s w (restack 1 [])) w) = ringOf (getC s w) := by rw [getC_modC_self]; rfl
  refine instr_ok h ?_ (by decide)
  rw [bind_of_ok hn, bind_of_ok (pop_restack s ⟨w, l.set.val⟩ v _ (top_drop ht)), bind_of_ok (coachArg_ok _ hv), bind_get,
    if_neg]
  · rfl
  · rw [hring, numOf_modC]
    rintro ⟨h3, hg⟩
    exact hr.elim (· h3) hg

theorem execWake_denied (h : Issues s l w 1) (ht : Takes s w [.val v] [] 0 0) (hv : v.toNat < 1024)
    (hr : ringOf (getC s w) = 3) (hg : v.toNat / 32 ≠ numOf s w / 32) : execWake l s = raises s l w { vec := vPRIV } := by
  have hn : need w 1 0 0 0 s = .ok ((), s) := ht.need
  have hring : ringOf (getC (modC s w (restack 1 [])) w) = ringOf (getC s w) := by rw [getC_modC_self]; rfl
  refine instr_trap h ?_
  rw [bind_of_ok hn, bind_of_ok (pop_restack s ⟨w, l.set.val⟩ v _ (top_drop ht)), bind_of_ok (coachArg_ok _ hv), bind_get,
    if_pos]
  · rfl
  · rw [hring, numOf_modC]
    exact ⟨hr, hg⟩

theorem execWake_illegal (h : Issues s l w 1) (ht : Takes s w [.val v] [] 0 0) (hv : 1024 ≤ v.toNat) :
    execWake l s = raises s l w { vec := vILLEGAL, reason := 5 } := by
  have hn : need w 1 0 0 0 s = .ok ((), s) := ht.need
  refine instr_trap h ?_
  rw [bind_of_ok hn, bind_of_ok (pop_restack s ⟨w, l.set.val⟩ v _ (top_drop ht)), bind_of_error (coachArg_illegal _ hv)]

theorem execArm_eq (h : Issues s l w 1) (ht : Takes s w [.val hi, .val lo] [] 0 0) :
    execArm l s = ends s l w 1 .seq (armTimer (modC s w (restack 2 [])) (numOf s w) (mkD hi lo)) := by
  have hn : need w 2 0 0 0 s = .ok ((), s) := ht.need
  have hd := top_drop ht
  refine instrLong_ok h ?_ (by decide)
  rw [bind_of_ok hn, bind_of_ok (pop_restack s ⟨w, l.set.val⟩ hi _ hd),
    bind_of_ok (pop_restack _ ⟨w, l.set.val⟩ lo ((getC s w).dhead.drop 2) (by rw [getC_modC_self, restack_dhead, hd]; rfl)),
    bind_modify, modC_modC, numOf_modC, pure_eq]
  simp only [restack_pop]

end

/-- Settles O26: each scheduling instruction, from its body. -/
theorem schedulingInstructions : Obligations.SchedulingInstructions := by
  unfold Obligations.SchedulingInstructions
  intro s l n w
  refine ⟨fun h => instr_ok h rfl (by decide), fun h ht => ⟨execWaitWake_takes h ht, execWaitWake_waits h ht⟩,
    fun h => ⟨instr_trap h rfl, instr_trap h rfl⟩, fun v h ht => ⟨execWake_ok h ht, execWake_denied h ht, execWake_illegal h ht⟩,
    fun lo hi h ht => ?_, fun i h => instrLong_ok h (raiseOwn_eq _ _ _ _) (by decide)⟩
  have he := execArm_eq h ht
  have htime : (modC s w (restack 2 [])).mls.time = s.mls.time := by simp
  refine ⟨fun hz => he.trans ?_, fun hf => he.trans ?_, fun hz hp => he.trans ?_⟩
  · rw [armTimer, if_pos hz]
  · rw [armTimer, if_neg (by intro hz; rw [hz] at hf; simp at hf), if_neg (by rw [htime]; omega)]
  · rw [armTimer, if_neg hz, if_pos (by rw [htime]; exact hp)]

end Sys2Proof.Machine
end

section
/-! SUPPORT. Open accesses to the banks (spec/02, R47, R50; spec/03, R76; spec/05, R141 to R148): the checks before one issues,
the entry it takes, and what it leaves unchanged. -/

namespace Sys2Proof.Machine

/-! ### Addresses of the banks -/

theorem region_of_regionN {a n : Nat} {r : Region} (h : regionN a n = some r) : region a = some r := by
  unfold regionN at h
  split at h
  · rename_i q hq
    split at h
    · rw [hq, h]
    · cases h
  · cases h

theorem bounds_of_region_bank {a : Nat} (h : region a = some .bank) : 0x10000000 ≤ a ∧ a < 0x10200000 := by
  by_contra hn
  unfold region at h
  rw [if_neg hn] at h
  split_ifs at h <;> cases h

theorem phys_of_region_bank {a : Nat} (h : region a = some .bank) : phys a = a := by
  have := bounds_of_region_bank h
  rw [phys, if_neg (by omega)]

theorem islandOf_of_region_bank {a : Nat} (h : region a = some .bank) : islandOf a = 5 := by
  unfold islandOf
  rw [h]

theorem checkAccess_bank {x : Iss} {a : Word} {n : Nat} {store : Bool} {s : State} (h : regionN a.toNat n = some .bank)
    (hv : (store && vtlock s && inVectors a.toNat n) = false) : checkAccess x a n store s = .ok (.bank, s) := by
  unfold checkAccess
  rw [bind_get]
  simp only [h, hv, show (Region.bank == Region.rom) = false from rfl, show (Region.bank == Region.csr) = false from rfl,
    show (Region.bank == Region.stele) = false from rfl, Bool.and_false, Bool.false_and, Bool.or_false, Bool.false_eq_true,
    if_false]
  rfl

/-! ### The Keystone's queues -/

theorem SMap.filterMap_insert_sublist {α β : Type} {f : Nat × α → Option β} (m : SMap α) {k : Nat} {v : α} (h : f (k, v) = none) :
    (SMap.insert m k v).filterMap f = m.filterMap f := by
  induction m with
  | nil => simp [SMap.insert, h]
  | cons e r ih =>
    obtain ⟨j, w⟩ := e
    unfold SMap.insert
    split
    · rw [List.filterMap_cons_none h]
    · rw [List.filterMap_cons, List.filterMap_cons, ih]

/-- A change that leaves a context without a stall adds none. -/
theorem stalls_modC_sublist {s : State} {w : Who} {f : Coach → Coach} (h : (f (getC s w)).stall = none) :
    (stalls (modC s w f)).Sublist (stalls s) := by
  cases w with
  | fast =>
    have hf : (f s.fast).stall = none := h
    simp only [stalls, modC, setC, getC, hf, Option.map_none, Option.toList_none, List.append_nil]
    exact List.sublist_append_left _ _
  | coach n =>
    have hc : ((modC s (.coach n) f).coach.filterMap (fun e => e.2.stall.map (fun st => (Who.coach e.1, st)))).Sublist
        (s.coach.filterMap (fun e => e.2.stall.map (fun st => (Who.coach e.1, st)))) := by
      have he : (SMap.erase s.coach n).Sublist s.coach := by
        rw [SMap.erase_eq_filter]; exact List.filter_sublist
      show (List.filterMap _ (SMap.set {} s.coach n _)).Sublist _
      unfold SMap.set
      split
      · exact he.filterMap _
      · rw [SMap.filterMap_insert_sublist]
        · exact he.filterMap _
        · simp only [h, Option.map_none]
    exact hc.append (List.Sublist.refl _)

theorem queued_modC_le {s : State} {w : Who} {f : Coach → Coach} (h : (f (getC s w)).stall = none) (i : Nat) :
    queued (modC s w f) i ≤ queued s i := by
  unfold queued
  rw [modC_mret, modC_cons]
  split
  · exact Nat.add_le_add_left ((stalls_modC_sublist h).filter _).length_le _
  · exact Nat.le_refl _

theorem roomIn_ok {s : State} {i : Nat} (h : queued s i < 8) : roomIn i s = .ok ((), s) := by
  unfold roomIn
  rw [bind_get, if_neg (by omega)]
  rfl

/-! ### What depends on no context -/

section
variable (s : State) (v : Who) (f : Coach → Coach)

@[simp] theorem forward_modC (w : Who) (a n : Nat) : forward (modC s v f) w a n = forward s w a n := by cases v <;> rfl
@[simp] theorem ownerRefusal_modC (r : Req) (a n : Nat) (k : Access) :
    ownerRefusal (modC s v f) r a n k = ownerRefusal s r a n k := by cases v <;> rfl
@[simp] theorem entriesHeld_modC (n : Nat) : entriesHeld (modC s v f) n = entriesHeld s n := by cases v <;> rfl
@[simp] theorem ticketsHeld_modC (n : Nat) : ticketsHeld (modC s v f) n = ticketsHeld s n := by cases v <;> rfl
@[simp] theorem quotaOf_modC (n : Nat) : quotaOf (modC s v f) n = quotaOf s n := by cases v <;> rfl
@[simp] theorem poolEntry_modC : poolEntry (modC s v f) = poolEntry s := by cases v <;> rfl
@[simp] theorem liveAt_modC (r : Region) (a n : Nat) : liveAt (modC s v f) r a n = liveAt s r a n := by cases v <;> rfl

end

/-! ### The entry of an access -/

theorem chooseEntry_own {s : State} {n : Nat} (hq : entriesHeld s n < quotaOf s n) (hf : (consOf s n).used = false) :
    chooseEntry n false s = .ok (n, s) := by
  unfold chooseEntry
  rw [bind_get]
  simp only [Bool.false_and, Bool.false_eq_true, if_false, Bool.not_false, Bool.true_and, hf, if_true, if_neg (Nat.not_le.mpr hq)]
  rfl

theorem chooseEntry_pool {s : State} {n e : Nat} (ht : ticketsHeld s n < quotaOf s n - 1) (hq : entriesHeld s n < quotaOf s n)
    (he : poolEntry s = some e) : chooseEntry n true s = .ok (e, s) := by
  unfold chooseEntry
  rw [bind_get]
  simp only [Bool.true_and, decide_eq_true_eq, if_neg (Nat.not_le.mpr ht), if_neg (Nat.not_le.mpr hq), Bool.not_true,
    Bool.false_and, Bool.false_eq_true, if_false, he]
  rfl

/-- The state with `k` entered as entry `e`, as the next request in order. -/
def enteredAt (s : State) (e : Nat) (k : Cons) : State := notePool { setCons s e k with order := s.order + 1 }

/-- An access to a bank whose owner admits it is accepted (R285). -/
theorem acceptFor_bank {s : State} {l : LaneUse} {w : Who} {kind : CKind} {a n : Nat} {d : DWord} {e : Nat}
    (hb : region a = some .bank) (ho : ownerRefusal s (reqOf s ⟨w, l.set.val⟩) a n kind.access = none) :
    acceptFor ⟨w, l.set.val⟩ kind a n d s e = enteredAt s e (entryIn s l w e kind a n d) := by
  have hp := phys_of_region_bank hb
  have hl : (l.set.val != 0) = decide (l.set ≠ 0) := by
    exact Bool.eq_iff_iff.mpr (by simp [Fin.val_eq_zero_iff])
  have ho' : ownerRefusal s ⟨numOf s w, ringOf (getC s w), decide (l.set ≠ 0)⟩ a n kind.access = none := by
    rw [← hl]; exact ho
  have ha : acceptance s ⟨numOf s w, ringOf (getC s w), decide (l.set ≠ 0)⟩ .bank kind.access a n = (s, none) := by
    unfold acceptance
    rw [if_pos (.inl rfl), hp, ho']
  unfold acceptFor acceptAt
  rw [hb]
  simp only [Option.getD_some, Iss.unver, hl, ha]
  rfl

theorem accept_bank {s : State} {l : LaneUse} {w : Who} {kind : CKind} {a n : Nat} {d : DWord} {e : Nat}
    (hb : region a = some .bank) (ho : ownerRefusal s (reqOf s ⟨w, l.set.val⟩) a n kind.access = none) (hr : queued s 5 < 8)
    (he : chooseEntry (numOf s w) kind.ticketed s = .ok (e, s)) :
    accept ⟨w, l.set.val⟩ kind a n d s = .ok (e, enteredAt s e (entryIn s l w e kind a n d)) := by
  unfold accept
  rw [islandOf_of_region_bank hb, bind_of_ok (roomIn_ok hr), bind_get, bind_of_ok he, acceptFor_bank hb ho]
  rfl

/-! ### The host port sends -/

/-- State `t` is `s` but for the consignment table and the host port. -/
def SameButSends (s t : State) : Prop := ∃ c h, t = { s with cons := c, hpt := h }

theorem SameButSends.trans {s t u : State} (h : SameButSends s t) (g : SameButSends t u) : SameButSends s u := by
  obtain ⟨_, _, rfl⟩ := h
  obtain ⟨_, _, rfl⟩ := g
  exact ⟨_, _, rfl⟩

/-- What the host port does with one entry that it still has to send (R373). -/
def sendOne (t : State) (e : Nat × Cons) : State :=
  match freeTag t with
  | some g => setCons (setOut t g (some ⟨e.1, e.2.gen, mqOf t e.2, 0, false, false⟩)) e.1 { consOf t e.1 with tag := some g }
  | none => t

theorem hostSend_eq (s : State) : hostSend s = if unitSt s 2 = 2 ∨ unitSt s 2 = 3 then
    ((s.cons.filter (fun e => unsent e.2 && !hostBehind s e.2)).mergeSort (fun a b => decide (a.2.order ≤ b.2.order))).foldl
      sendOne s else s := by
  unfold hostSend
  refine congrArg (fun g => if unitSt s 2 = 2 ∨ unitSt s 2 = 3 then List.foldl g s _ else s) ?_
  funext t e
  unfold sendOne
  cases freeTag t <;> rfl

theorem sendOne_frame (s : State) (e : Nat × Cons) : SameButSends s (sendOne s e) := by
  unfold sendOne
  split
  · exact ⟨_, _, rfl⟩
  · exact ⟨_, _, rfl⟩

theorem consOf_sendOne (s : State) (x : Nat × Cons) (e : Nat) (h : e ≠ x.1) : consOf (sendOne s x) e = consOf s e := by
  unfold sendOne
  split
  · rw [consOf_setCons, if_neg h]; rfl
  · rfl

theorem sends_frame (l : List (Nat × Cons)) (s : State) : SameButSends s (l.foldl sendOne s) := by
  induction l generalizing s with
  | nil => exact ⟨_, _, rfl⟩
  | cons x r ih =>
    rw [List.foldl_cons]
    exact (sendOne_frame s x).trans (ih (sendOne s x))

theorem consOf_sends (l : List (Nat × Cons)) (e : Nat) (h : ∀ x ∈ l, x.1 ≠ e) (s : State) :
    consOf (l.foldl sendOne s) e = consOf s e := by
  induction l generalizing s with
  | nil => rfl
  | cons x r ih =>
    rw [List.foldl_cons, ih (fun y hy => h y (List.mem_cons_of_mem _ hy)),
      consOf_sendOne s x e (Ne.symm (h x List.mem_cons_self))]

theorem hostSend_frame (s : State) : SameButSends s (hostSend s) := by
  rw [hostSend_eq]
  split
  · exact sends_frame _ s
  · exact ⟨_, _, rfl⟩

/-- The host port does not send an entry that is no access to the host window. -/
theorem consOf_hostSend (s : State) (e : Nat) (h : ∀ x ∈ s.cons, x.1 = e → unsent x.2 = false) :
    consOf (hostSend s) e = consOf s e := by
  rw [hostSend_eq]
  split
  · refine consOf_sends _ e (fun x hx he => ?_) s
    rw [List.mem_mergeSort, List.mem_filter] at hx
    simp [h x hx.1 he] at hx
  · rfl

theorem SMap.mem_insert {α : Type} {m : SMap α} {k : Nat} {v : α} {x : Nat × α} (h : x ∈ SMap.insert m k v) :
    x = (k, v) ∨ x ∈ m := by
  induction m with
  | nil => exact .inl (List.mem_singleton.mp h)
  | cons e r ih =>
    unfold SMap.insert at h
    split at h
    · exact List.mem_cons.mp h
    · rcases List.mem_cons.mp h with rfl | h
      · exact .inr List.mem_cons_self
      · exact (ih h).imp_right (List.mem_cons_of_mem _)

/-- A written table has no other entry of that key. -/
theorem SMap.eq_of_mem_set {α : Type} [DecidableEq α] {d : α} {m : SMap α} {k : Nat} {v : α} {x : Nat × α}
    (h : x ∈ SMap.set d m k v) (hk : x.1 = k) : x.2 = v := by
  unfold SMap.set at h
  split at h
  · exact absurd hk (SMap.not_mem_erase m k x h)
  · rcases SMap.mem_insert h with rfl | h
    · rfl
    · exact absurd hk (SMap.not_mem_erase m k x h)

theorem unsent_of_bank {k : Cons} (h : region k.addr = some .bank) : unsent k = false := by
  simp [unsent, h]

/-! ### An access has been entered -/

/-- State `t` is `s` but for the consignment table, its registers, the host port and the order of requests; entry `e`
holds `k`. -/
structure Entered (s t : State) (e : Nat) (k : Cons) : Prop where
  rest : ∃ c r o h, t = { s with cons := c, csr := r, order := o, hpt := h }
  csr : ∀ r, r ≠ aCshPool → getR t r = getR s r
  entry : consOf t e = k

theorem entered_enteredAt (s : State) (e : Nat) (k : Cons) : Entered s (enteredAt s e k) e k where
  rest := ⟨_, _, _, _, rfl⟩
  csr r hr := by
    show getR (notePool _) r = _
    unfold notePool
    rw [getR_setR, if_neg hr]
    rfl
  entry := by
    show consOf (setCons s e k) e = k
    rw [consOf_setCons, if_pos rfl]

theorem entered_hostSend {s : State} {e : Nat} {k : Cons} (h : region k.addr = some .bank) :
    Entered s (hostSend (enteredAt s e k)) e k := by
  have ha := entered_enteredAt s e k
  obtain ⟨c, o, hc⟩ := hostSend_frame (enteredAt s e k)
  refine ⟨?_, fun r hr => ?_, ?_⟩
  · obtain ⟨_, _, _, _, he⟩ := ha.rest
    rw [hc, he]
    exact ⟨_, _, _, _, rfl⟩
  · rw [← ha.csr r hr, hc]; rfl
  · rw [consOf_hostSend, ha.entry]
    intro x hx hxe
    have hx' : x.2 = k := SMap.eq_of_mem_set (m := s.cons) (d := ({} : Cons)) hx hxe
    rw [hx', unsent_of_bank h]

section
variable {s t : State} {e : Nat} {k : Cons} (h : Entered s t e k)
include h

theorem Entered.getC (w : Who) : Machine.getC t w = Machine.getC s w := by
  obtain ⟨_, _, _, _, rfl⟩ := h.rest
  cases w <;> rfl

theorem Entered.mem : SameMemory s t := by obtain ⟨_, _, _, _, rfl⟩ := h.rest; exact fun _ => rfl

theorem Entered.up : t.up = s.up := by obtain ⟨_, _, _, _, rfl⟩ := h.rest; rfl

end

end Sys2Proof.Machine
end

section
/-! SUPPORT. Loads from the banks: those whose entry holds their coach's stack (spec/03, R76, R77), and posted loads with their
tickets (R81 to R86). -/

namespace Sys2Proof.Machine

/-! ### What a change of the issuer's own context leaves of an access -/

section
variable {s : State} {l : LaneUse} {w : Who} {f : Coach → Coach} (hst : (f (getC s w)).status = (getC s w).status)
include hst

theorem reqOf_modC (i : Nat) : reqOf (modC s w f) ⟨w, i⟩ = reqOf s ⟨w, i⟩ := by
  simp only [reqOf, numOf_modC, getC_modC_self, ringOf, hst, Iss.unver]

theorem entryIn_modC (e : Nat) (kind : CKind) (a n : Nat) (d : DWord) :
    entryIn (modC s w f) l w e kind a n d = entryIn s l w e kind a n d := by
  simp only [entryIn, consOf_modC, numOf_modC, getC_modC_self, ringOf, hst, modC_order, liveAt_modC]

theorem AdmitsOpen.modC {k : Access} {a n : Nat} (h : AdmitsOpen s l w k a n) (hs : (f (getC s w)).stall = none) :
    AdmitsOpen (modC s w f) l w k a n where
  bank := h.bank
  owner := by rw [ownerRefusal_modC, reqOf_modC hst]; exact h.owner
  quota := by rw [entriesHeld_modC, quotaOf_modC, numOf_modC]; exact h.quota
  free := by rw [consOf_modC, numOf_modC]; exact h.free
  room := (queued_modC_le hs 5).trans_lt h.room

end

/-! ### The end of an instruction that has entered an access -/

theorem EndFrame.refl (s : State) (w : Who) : EndFrame s s w :=
  ⟨fun _ => rfl, fun _ => rfl, fun _ _ => rfl, rfl, rfl, rfl, rfl, rfl, rfl, rfl, rfl, rfl, rfl⟩

/-- An instruction that has entered an access and changed its own context `g` ends. -/
theorem ends_entered {s u t : State} {l : LaneUse} {w : Who} {e len : Nat} {k : Cons} (g : Coach → Coach)
    (hu : EndFrame s u w) (ht : Entered u t e k) (hup : u.up = true) :
    ∃ r, ends s l w len .seq (modC t w g) = .next r ∧ SameMemory s r ∧ (∀ a, a ≠ aCshPool → getR r a = getR s a) ∧
      SameOthers s r w ∧ consOf r e = k ∧
      seen (getC r w) = seen (advance (g (getC u w)) (getC s w).pc len) := by
  obtain ⟨r, hr, hf, hseen⟩ := ends_frame s l w len .seq (modC t w g) (by rw [modC_up, ht.up, hup])
  rw [if_pos rfl, getC_modC_self, ht.getC] at hseen
  refine ⟨r, hr, fun a => ?_, fun a ha => ?_, fun v hv => ?_, ?_, hseen⟩
  · rw [hf.mem, rdB_modC, ht.mem, hu.mem]
  · rw [hf.csr, getR_modC, ht.csr a ha, hu.csr]
  · rw [hf.others v hv, getC_modC_other _ _ _ _ hv, ht.getC, hu.others v hv]
  · rw [consOf, hf.cons, modC_cons]; exact ht.entry

/-! ### Loads -/

/-- An open load of a bank takes an entry. -/
theorem openLoad_bank {s : State} {l : LaneUse} {w : Who} {kind : CKind} {a n e : Nat} (hk : kind.access = .load)
    (hb : region a = some .bank) (ho : ownerRefusal s (reqOf s ⟨w, l.set.val⟩) a n .load = none) (hr : queued s 5 < 8)
    (he : chooseEntry (numOf s w) kind.ticketed s = .ok (e, s)) (hf : forward s w a n = .none) :
    ∃ t, openLoad ⟨w, l.set.val⟩ kind a n s = .ok (.inl e, t) ∧ Entered s t e (entryIn s l w e kind a n 0) := by
  refine ⟨_, ?_, entered_hostSend (s := s) (k := entryIn s l w e kind a n 0) hb⟩
  unfold openLoad
  rw [bind_get]
  simp only [hf]
  rw [bind_of_ok (accept_bank hb (by rw [hk]; exact ho) hr he), bind_modify]
  rfl

/-- The entries that wait for a load of `n` bytes in consignment `e`. -/
def loadEntries (e n : Nat) : List Entry := if n = 8 then [.load e true, .load e false] else [.load e false]

/-- The context with the address registers after an access. -/
def advanced (ab : NewAB) (c : Coach) : Coach := { c with a := ab.a.getD c.a, b := ab.b.getD c.b }

/-- The entries that wait for a load are pushed. -/
theorem push_loadEntries {t : State} {x : Iss} {e n : Nat}
    (h : (getC t x.who).dhead.length + (loadEntries e n).length ≤ 8) :
    (do pushE x .d (.load e false)
        if n = 8 then pushE x .d (.load e true) else pure () : M Unit) t =
      .ok ((), modC t x.who (restack 0 (loadEntries e n))) := by
  by_cases h8 : n = 8
  · simp only [loadEntries, h8, if_true, List.length_cons, List.length_nil] at h ⊢
    have h1 := pushE_restack t x (.load e false) (by omega)
    have h2 := pushE_restack (modC t x.who (restack 0 [.load e false])) x (.load e true)
      (by rw [getC_modC_self, restack_dhead]; simp only [List.drop_zero, List.length_append, List.length_singleton]; omega)
    rw [bind_of_ok h1, h2, modC_modC]
    simp only [restack_push]
    rfl
  · simp only [loadEntries, h8, if_false, List.length_cons, List.length_nil] at h ⊢
    rw [bind_of_ok (pushE_restack t x _ (by omega)), pure_eq]

/-- A load of a bank takes its coach's own entry and leaves pending entries. -/
theorem loadAt_bank {s u : State} {l : LaneUse} {w : Who} {a : Word} {n pops : Nat} {sg : Bool} {ab : NewAB} {vs : List Word}
    (hp : popN ⟨w, l.set.val⟩ pops s = .ok (vs, u)) (h : AdmitsOpen u l w .load a.toNat n)
    (hf : forward u w a.toNat n = .none)
    (hroom : (getC u w).dhead.length + (loadEntries (numOf u w) n).length ≤ 8) :
    ∃ t, Entered u t (numOf u w) (entryFor u l w (.load sg) a.toNat n 0) ∧
      loadAt ⟨w, l.set.val⟩ a n sg pops ab s =
        .ok (.seq, modC t w (fun c => advanced ab (restack 0 (loadEntries (numOf u w) n) c))) := by
  obtain ⟨t, ho, ht⟩ := openLoad_bank (l := l) (kind := .load sg) rfl (region_of_regionN h.bank) h.owner h.room
    (chooseEntry_own h.quota h.free) hf
  refine ⟨t, ht, ?_⟩
  have hpush := push_loadEntries (t := t) (x := ⟨w, l.set.val⟩) (e := numOf u w) (n := n) (by rw [ht.getC]; exact hroom)
  unfold loadAt
  rw [bind_of_ok (checkAccess_bank h.bank rfl)]
  simp only []
  rw [bind_of_ok hp, bind_of_ok ho]
  simp only []
  rw [bind_of_ok hpush, setAB, bind_modI, modC_modC]
  rfl

/-- A load at a popped address. -/
theorem loadPop_bank {s : State} {l : LaneUse} {w : Who} {a : Word} {n : Nat} {sg : Bool} (hs : (getC s w).stall = none)
    (ht : Takes s w [.val a] [] (if n = 8 then 2 else 1) 0) (h : AdmitsOpen s l w .load a.toNat n)
    (hf : forward s w a.toNat n = .none) :
    ∃ t, Entered (modC s w (restack 1 [])) t (numOf s w) (entryFor s l w (.load sg) a.toNat n 0) ∧
      loadPop n sg ⟨w, l.set.val⟩ s = .ok (.seq, modC t w (restack 0 (loadEntries (numOf s w) n))) := by
  have hn : need w 1 (if n = 8 then 2 else 1) 0 0 s = .ok ((), s) := ht.need
  have hpeek : peekN ⟨w, l.set.val⟩ 1 s = .ok ([a], modC s w id) :=
    peekN_vals s ⟨w, l.set.val⟩ [a] (by simp) ht (by simp only [List.length_singleton]; split <;> omega)
  have hd := top_drop ht
  have hroom := ht.room
  have hpop : popN ⟨w, l.set.val⟩ 1 (modC s w id) = .ok ([a], modC s w (restack 1 [])) := by
    show (pop _ >>= _) _ = _
    rw [bind_of_ok (pop_restack _ ⟨w, l.set.val⟩ a _ (by rw [getC_modC_self]; exact hd)), modC_modC]
    rfl
  obtain ⟨t, he, hl⟩ := loadAt_bank (sg := sg) (ab := {}) hpop (h.modC (f := restack 1 []) rfl hs)
    ((forward_modC ..).trans hf) (by
      rw [getC_modC_self, restack_dhead]
      have : (loadEntries (numOf (modC s w (restack 1 [])) w) n).length = if n = 8 then 2 else 1 := by
        unfold loadEntries; split <;> rfl
      simp only [List.length_singleton, List.nil_append, List.length_drop] at hroom ⊢
      omega)
  have hE : entryFor (modC s w (restack 1 [])) l w (.load sg) a.toNat n 0 = entryFor s l w (.load sg) a.toNat n 0 := by
    rw [entryFor, numOf_modC, entryIn_modC (f := restack 1 []) rfl]; rfl
  rw [hE, numOf_modC] at he
  refine ⟨t, he, ?_⟩
  unfold loadPop
  rw [bind_of_ok hn, bind_of_ok hpeek]
  show loadAt _ a n sg 1 {} _ = _
  rw [hl, numOf_modC]
  rfl

/-- A load at A or B. -/
theorem loadInc_bank {s : State} {l : LaneUse} {w : Who} {a : Word} {n : Nat} {useB : Bool} (h8 : n ≠ 8)
    (ha : (if useB then (getC s w).b else (getC s w).a) = a) (ht : Takes s w [] [] 1 0)
    (h : AdmitsOpen s l w .load a.toNat n) (hf : forward s w a.toNat n = .none) :
    ∃ t, Entered s t (numOf s w) (entryFor s l w (.load false) a.toNat n 0) ∧
      loadInc useB n ⟨w, l.set.val⟩ s = .ok (.seq, modC t w (fun c =>
        advanced (if useB then { b := some (a + u32 n) } else { a := some (a + u32 n) })
          (restack 0 (loadEntries (numOf s w) n) c))) := by
  have hn : need w 0 1 0 0 s = .ok ((), s) := ht.need
  have hroom := ht.room
  obtain ⟨t, he, hl⟩ := loadAt_bank (s := s) (u := s) (sg := false) (pops := 0)
    (ab := if useB then { b := some (a + u32 n) } else { a := some (a + u32 n) }) rfl h hf (by
      rw [loadEntries, if_neg h8]
      simp only [List.length_nil, List.length_singleton] at hroom ⊢
      omega)
  refine ⟨t, he, ?_⟩
  unfold loadInc
  rw [bind_of_ok hn, bind_get]
  simp only [ha]
  exact hl

/-- What the statement says of one load: it ends with the entry taken and the entries pushed. -/
def LoadIssues (i : Instr) (s : State) (l : LaneUse) (w : Who) (a : Word) (n : Nat) (sg : Bool) (pops : Nat) (c : Coach) : Prop :=
  ∃ t, exec i s = .next t ∧ SameMemory s t ∧ (∀ r, r ≠ aCshPool → getR t r = getR s r) ∧ SameOthers s t w ∧
    consOf t (numOf s w) = entryFor s l w (.load sg) a.toNat n 0 ∧
    seen (getC t w) = seen (advance (restack pops (loadEntries (numOf s w) n) c) (getC s w).pc 1)

theorem loadIssues_pop {i : Instr} {op : Nat} {s : State} {l : LaneUse} {w : Who} {a : Word} {n : Nat} {sg : Bool}
    (hi : exec i s = instr op s l 1 (loadPop n sg)) (hs : Issues s l w 1)
    (ht : Takes s w [.val a] [] (if n = 8 then 2 else 1) 0) (h : AdmitsOpen s l w .load a.toNat n)
    (hf : forward s w a.toNat n = .none) : LoadIssues i s l w a n sg 1 (getC s w) := by
  obtain ⟨t, he, hb⟩ := loadPop_bank (sg := sg) hs.notStalled ht h hf
  obtain ⟨r, hr, hmem, hcsr, hothers, hentry, hseen⟩ := ends_entered (l := l) (len := 1) (restack 0 (loadEntries (numOf s w) n))
    (endFrame_modC s w (restack 1 [])) he (by rw [modC_up]; exact hs.up)
  refine ⟨r, ?_, hmem, hcsr, hothers, hentry, ?_⟩
  · rw [hi, instr_ok hs hb (by decide), hr]
  · rw [hseen, getC_modC_self, restack_push, List.append_nil]

theorem loadIssues_inc {i : Instr} {op : Nat} {s : State} {l : LaneUse} {w : Who} {a : Word} {n : Nat} {useB : Bool}
    (hi : exec i s = instr op s l 1 (loadInc useB n)) (h8 : n ≠ 8) (hs : Issues s l w 1)
    (ha : (if useB then (getC s w).b else (getC s w).a) = a) (ht : Takes s w [] [] 1 0)
    (h : AdmitsOpen s l w .load a.toNat n) (hf : forward s w a.toNat n = .none) :
    LoadIssues i s l w a n false 0 (if useB then { getC s w with b := a + u32 n } else { getC s w with a := a + u32 n }) := by
  obtain ⟨t, he, hb⟩ := loadInc_bank h8 ha ht h hf
  obtain ⟨r, hr, hmem, hcsr, hothers, hentry, hseen⟩ := ends_entered (l := l) (len := 1)
    (fun c => advanced (if useB then { b := some (a + u32 n) } else { a := some (a + u32 n) })
      (restack 0 (loadEntries (numOf s w) n) c)) (EndFrame.refl s w) he hs.up
  refine ⟨r, ?_, hmem, hcsr, hothers, hentry, ?_⟩
  · rw [hi, instr_ok hs hb (by decide), hr]
  · rw [hseen]; cases useB <;> rfl

/-- Settles O18: the loads at a popped address, and those at A and B. -/
theorem bankLoadsIssue : Obligations.BankLoadsIssue := by
  unfold Obligations.BankLoadsIssue
  intro s l w i a n sg pops f hup hs hi ht h hf
  rcases hi with hi | ⟨rfl, rfl, ha, ⟨rfl, rfl⟩ | ⟨rfl, rfl⟩, hc⟩ | ⟨rfl, rfl, hb, rfl, rfl, hc⟩
  · simp only [List.mem_cons, Prod.mk.injEq, List.not_mem_nil, or_false] at hi
    rcases hi with ⟨rfl, rfl, rfl, rfl, hc⟩ | ⟨rfl, rfl, rfl, rfl, hc⟩ | ⟨rfl, rfl, rfl, rfl, hc⟩ | ⟨rfl, rfl, rfl, rfl, hc⟩ |
      ⟨rfl, rfl, rfl, rfl, hc⟩ | ⟨rfl, rfl, rfl, rfl, hc⟩ <;> rw [hc]
    · exact loadIssues_pop (op := 0x50) rfl hs ht h hf
    · exact loadIssues_pop (op := 0x51) rfl hs ht h hf
    · exact loadIssues_pop (op := 0x52) rfl hs ht h hf
    · exact loadIssues_pop (op := 0x53) rfl hs ht h hf
    · exact loadIssues_pop (op := 0x54) rfl hs ht h hf
    · exact loadIssues_pop (op := 0x55) rfl hs ht h hf
  · rw [hc]
    exact loadIssues_inc (op := 0x5A) (useB := false) rfl (by decide) hs ha ht h hf
  · rw [hc]
    exact loadIssues_inc (op := 0x5E) (useB := false) rfl (by decide) hs ha ht h hf
  · rw [hc]
    exact loadIssues_inc (op := 0x5C) (useB := true) rfl (by decide) hs hb ht h hf

end Sys2Proof.Machine
end

section
/-! SUPPORT. Posted loads and tickets (spec/03, R81 to R86). -/

namespace Sys2Proof.Machine

section
variable {s : State} {l : LaneUse} {w : Who} {v : Word}

/-- A top value that is read in place stays. -/
theorem peek_top {o : Nat} (ht : Takes s w [.val v] [] o 0) (ho : 1 ≤ o) (i : Nat) :
    peekN ⟨w, i⟩ 1 s = .ok ([v], modC s w id) :=
  peekN_vals s ⟨w, i⟩ [v] (by simp) ht ho

/-- Popping one value. -/
theorem popN_one {x : Iss} {r : List Entry} (h : (getC s x.who).dhead = .val v :: r) :
    popN x 1 s = .ok ([v], modC s x.who (restack 1 [])) := by
  show (pop _ >>= _) _ = _
  rw [bind_of_ok (pop_restack _ x v _ h)]
  rfl

theorem bind_set {β : Type} (t : State) (f : PUnit → M β) (s : State) : ((set t : M PUnit) >>= f) s = f ⟨⟩ t := rfl

/-! ### LDP and LDPD -/

/-- A posted load of a bank takes an entry of the pool and pushes its ticket. -/
theorem postLoad_bank {a : Word} {wide : Bool} {e n : Nat} (hn : n = if wide then 8 else 4) (hs : (getC s w).stall = none)
    (ht : Takes s w [.val a] [] 1 0) (hb : regionN a.toNat n = some .bank) (hf : forward s w a.toNat n = .none)
    (ho : ownerRefusal s (reqOf s ⟨w, l.set.val⟩) a.toNat n .load = none)
    (hh : ticketsHeld s (numOf s w) < quotaOf s (numOf s w) - 1) (hq : entriesHeld s (numOf s w) < quotaOf s (numOf s w))
    (he : poolEntry s = some e) (hr : queued s 5 < 8) :
    ∃ t, Entered (modC s w id) t e (entryIn s l w e (.ldp wide) a.toNat n 0) ∧
      postLoad wide ⟨w, l.set.val⟩ s = .ok (.seq, modC t w (fun c => restack 1 [.val (ticketOf t e)] c)) := by
  have hneed : need w 1 1 0 0 s = .ok ((), s) := ht.need
  have hd := top_drop ht
  have hroom := ht.room
  obtain ⟨t, hl, hE⟩ := openLoad_bank (s := modC s w id) (l := l) (w := w) (kind := .ldp wide) (a := a.toNat) (n := n) (e := e) rfl
    (region_of_regionN hb) (by rw [ownerRefusal_modC, reqOf_modC (f := id) rfl]; exact ho)
    ((queued_modC_le (f := id) hs 5).trans_lt hr)
    (chooseEntry_pool (by rw [ticketsHeld_modC, quotaOf_modC, numOf_modC]; exact hh)
      (by rw [entriesHeld_modC, quotaOf_modC, numOf_modC]; exact hq) ((poolEntry_modC ..).trans he))
    ((forward_modC ..).trans hf)
  rw [entryIn_modC (f := id) rfl] at hE
  refine ⟨t, hE, ?_⟩
  have hpop : popN ⟨w, l.set.val⟩ 1 t = .ok ([a], modC t w (restack 1 [])) :=
    popN_one (x := ⟨w, l.set.val⟩) (by rw [hE.getC, getC_modC_self]; exact hd)
  have hpush := push_restack (modC t w (restack 1 [])) ⟨w, l.set.val⟩ (ticketOf t e) (by
    rw [getC_modC_self, hE.getC, getC_modC_self, restack_dhead]
    simp only [List.nil_append, List.length_drop, List.length_singleton, id] at hroom ⊢
    omega)
  have htick : ticketOf (modC t w (restack 1 [])) e = ticketOf t e := by simp only [ticketOf, consOf_modC]
  subst hn
  unfold postLoad
  rw [bind_of_ok hneed, bind_of_ok (peek_top ht (Nat.le_refl 1) _)]
  simp only [List.getD_cons_zero]
  rw [bind_of_ok (checkAccess_bank hb rfl)]
  simp only []
  rw [bind_of_ok hl]
  simp only []
  rw [bind_of_ok hpop, bind_get, htick, bind_of_ok hpush, modC_modC, pure_eq]
  simp only [restack_push, List.append_nil]

/-- The ticket of an entry of a posted load. -/
theorem ticketOf_entered {u t : State} {e a n : Nat} {wide : Bool} (h : Entered u t e (entryIn s l w e (.ldp wide) a n 0)) :
    ticketOf t e = BitVec.ofNat 32 ((if wide then 2 ^ 31 else 0) + numOf s w * 2 ^ 16 +
      ((consOf s e).gen + 1) % 65536 % 16 * 2 ^ 12 + e) := by
  unfold ticketOf
  rw [h.entry]
  cases wide <;> simp [ticketWord, entryIn, CKind.wide, CKind.isEngine, b2n, u32]

/-! ### TAKE and TEST -/

/-- Without an upset, the check of a table entry changes nothing. -/
theorem checkTable_none (s : State) (e : Nat) : checkTable s e .none = s := rfl

theorem ticketEntry_modC (f : Coach → Coach) (x : Iss) : ticketEntry (modC s w f) x v = ticketEntry s x v := by
  simp only [ticketEntry, consOf_modC, numOf_modC]

theorem getC_freeCons (e : Nat) (w : Who) : getC (freeCons s e) w = getC s w := by cases w <;> rfl

theorem freeCons_modC (f : Coach → Coach) (e : Nat) : freeCons (modC s w f) e = modC (freeCons s e) w f := by
  cases w <;> rfl

/-- A ticket that names no entry is illegal. -/
theorem execTakeTicket_illegal {u : Upset} {o : Nat} (h : Issues s l w 1) (ht : Takes s w [.val v] [] o 0) (ho : 1 ≤ o)
    (hv : ticketEntry s ⟨w, l.set.val⟩ v = none) :
    execTakeTicket ⟨l, u⟩ s = raises s l w { vec := vILLEGAL, reason := 4 } := by
  have hneed : need w 1 1 0 0 s = .ok ((), s) := (ht.mono ho).need
  refine instr_trap h ?_
  rw [bind_of_ok hneed, bind_of_ok (peek_top ht ho _), bind_get]
  simp only [List.getD_cons_zero, ticketEntry_modC, hv]
  rfl

theorem execTestTicket_illegal {u : Upset} (h : Issues s l w 1) (ht : Takes s w [.val v] [] 2 0)
    (hv : ticketEntry s ⟨w, l.set.val⟩ v = none) :
    execTestTicket ⟨l, u⟩ s = raises s l w { vec := vILLEGAL, reason := 4 } := by
  have hneed : need w 1 2 0 0 s = .ok ((), s) := ht.need
  refine instr_trap h ?_
  rw [bind_of_ok hneed, bind_of_ok (peek_top ht (by omega) _), bind_get]
  simp only [List.getD_cons_zero, ticketEntry_modC, hv]
  rfl

theorem takes_modC_id {es rs : List Entry} {o ro : Nat} (h : Takes s w es rs o ro) : Takes (modC s w id) w es rs o ro where
  top := by rw [getC_modC_self]; exact h.top
  rtop := by rw [getC_modC_self]; exact h.rtop
  deep := by rw [getC_modC_self, headOnly_modC]; exact h.deep
  room := by rw [getC_modC_self]; exact h.room
  rroom := by rw [getC_modC_self]; exact h.rroom

/-- TAKE of an entry that completed with status 0 pushes what it brought, first pushed last in `ws`. -/
theorem execTakeTicket_ok {e : Nat} {ws : List Word} (h : Issues s l w 1) (ht : Takes s w [.val v] [] ws.length 0)
    (hv : ticketEntry s ⟨w, l.set.val⟩ v = some e) (hd : (consOf s e).done = some 0) (hw : (takenWords (consOf s e)).reverse = ws) :
    execTakeTicket ⟨l, .none⟩ s = ends s l w 1 .seq (freeCons (modC s w (restack 1 (ws.map .val))) e) := by
  have hlen : ws.length = if (consOf s e).kind.wide then 2 else 1 := by
    rw [← hw, takenWords]
    cases (consOf s e).kind.wide <;> rfl
  have h1 : 1 ≤ ws.length := by rw [hlen]; split <;> omega
  have hne : ws ≠ [] := List.ne_nil_of_length_pos h1
  have hneed : need w 1 1 0 0 s = .ok ((), s) := (ht.mono h1).need
  have hneed2 : need w 1 (if (consOf s e).kind.wide then 2 else 1) 0 0 (modC s w id) = .ok ((), modC s w id) := by
    rw [← hlen]; exact (takes_modC_id ht).need
  have htop := top_drop ht
  have hroom := ht.room
  have hpop := popN_one (s := modC s w id) (x := ⟨w, l.set.val⟩) (by rw [getC_modC_self]; exact htop)
  have hpush := pushAll_room ⟨w, l.set.val⟩ ws (freeCons (modC (modC s w id) w (restack 1 [])) e) hne (by
    rw [getC_freeCons, getC_modC_self, getC_modC_self, restack_dhead]
    simp only [List.nil_append, List.length_drop, List.length_singleton, id] at hroom ⊢
    omega)
  refine instr_ok h ?_ (by decide)
  rw [bind_of_ok hneed, bind_of_ok (peek_top ht h1 _), bind_get]
  simp only [List.getD_cons_zero, ticketEntry_modC, hv, checkTable_none, consOf_modC, hd]
  rw [bind_of_ok hneed2]
  rw [bind_set, if_pos trivial, bind_of_ok hpop, bind_modify, hw, bind_of_ok hpush, pure_eq, modC_modC, freeCons_modC, freeCons_modC, modC_modC]
  refine congrArg (fun t => Except.ok (Flow.seq, t)) (modC_congr _ _ _ _ ?_)
  simp [restack, u32]

/-- TEST pushes whether the consignment has completed. -/
theorem execTestTicket_ok {e : Nat} (h : Issues s l w 1) (ht : Takes s w [.val v] [] 2 0)
    (hv : ticketEntry s ⟨w, l.set.val⟩ v = some e) :
    execTestTicket ⟨l, .none⟩ s = ends s l w 1 .seq (modC s w (restack 1 [.val (flag (consOf s e).done.isSome), .val v])) := by
  have hneed : need w 1 2 0 0 s = .ok ((), s) := ht.need
  have htop := top_drop ht
  have hroom := ht.room
  simp only [List.singleton_append] at htop
  refine instr_ok h ?_ (by decide)
  rw [bind_of_ok hneed, bind_of_ok (peek_top ht (by omega) _), bind_get]
  simp only [List.getD_cons_zero, ticketEntry_modC, hv, checkTable_none, consOf_modC]
  rw [bind_set, bind_of_ok (push_restack _ ⟨w, l.set.val⟩ _ (by
    rw [getC_modC_self]
    simp only [List.length_singleton, id] at hroom ⊢
    have : 0 < (getC s w).dhead.length := by rw [htop]; exact Nat.succ_pos _
    omega)), pure_eq, modC_modC]
  refine congrArg (fun t => Except.ok (Flow.seq, t)) (modC_congr _ _ _ _ ?_)
  simp only [restack, id]
  rw [htop]
  simp only [u32, List.drop_succ_cons, List.drop_zero, List.cons_append, List.nil_append, List.length_cons, List.length_nil,
    Coach.mk.injEq, true_and, and_true]
  clear hroom htop
  bv_omega

end

/-- Settles O22: posted loads, TAKE, TEST, and what an invalid ticket does. -/
theorem tickets : Obligations.Tickets := by
  unfold Obligations.Tickets
  intro s l w hup h
  refine ⟨fun a wide e => ?_, fun v e d hv hd hdata => ⟨fun hk ht => ?_, fun hk ht => ?_⟩, fun v e ht hv => ?_, fun v u ht hv => ?_⟩
  · intro n ht hb hf ho hh hq he hr
    obtain ⟨t, hE, hbody⟩ := postLoad_bank (n := n) rfl h.notStalled ht hb hf ho hh hq he hr
    obtain ⟨r, hr, hmem, -, hothers, hentry, hseen⟩ :=
      ends_entered (l := l) (len := 1) (restack 1 [.val (ticketOf t e)]) (endFrame_modC s w id) hE (by rw [modC_up]; exact hup)
    rw [getC_modC_self, ticketOf_entered hE] at hseen
    refine ⟨r, ?_, hmem, hothers, hentry, hseen⟩
    rw [← hr, ← instr_ok (op := if wide then 0x81 else 0x80) h hbody (by decide)]
    cases wide <;> rfl
  · have := execTakeTicket_ok (ws := [loW d]) h ht hv hd (by rw [takenWords, hk, hdata]; rfl)
    exact this
  · have := execTakeTicket_ok (ws := [hiW d, loW d]) h ht hv hd (by rw [takenWords, hk, hdata]; rfl)
    exact this
  · exact execTestTicket_ok h ht hv
  · exact ⟨execTakeTicket_illegal h ht (by omega) hv, execTestTicket_illegal h ht hv⟩

end Sys2Proof.Machine
end

section
/-! SUPPORT. Reads of the banks that the core makes within an instruction (spec/02, R38, R50; spec/11, R283, R285, R291). -/

namespace Sys2Proof.Machine

/-! ### The banks -/

theorem rdN_append (s : State) (a m n : Nat) : rdN s a (m + n) = rdN s a m + rdN s (a + m) n * 256 ^ m := by
  induction m generalizing a with
  | zero => simp [rdN]
  | succ m ih =>
    rw [show m + 1 + n = (m + n) + 1 from by omega, rdN, rdN, ih (a + 1), show a + 1 + m = a + (m + 1) from by omega]
    ring

theorem rdN_lt (s : State) (a n : Nat) : rdN s a n < 256 ^ n := by
  induction n generalizing a with
  | zero => simp [rdN]
  | succ n ih =>
    have h := ih (a + 1)
    have hb := (rdB s a).isLt
    rw [rdN, pow_succ]
    omega

theorem rdN_of_mem {s t : State} (h : SameMemory s t) (a n : Nat) : rdN t a n = rdN s a n := by
  induction n generalizing a with
  | zero => rfl
  | succ n ih => rw [rdN, rdN, h, ih]

theorem checkWords_clean {s : State} {maint : Bool} {ws : List Nat} (h : ∀ x ∈ ws, eccAt s x = 0) :
    checkWords maint ws s = (s, true) := by
  induction ws with
  | nil => rfl
  | cons x r ih =>
    have hx : checkWord s x maint = (s, true) := by
      simp only [checkWord, h x List.mem_cons_self]
    rw [checkWords, hx]
    exact ih (fun y hy => h y (List.mem_cons_of_mem _ hy))

theorem bankRead_clean {s : State} {a n : Nat} (h : ∀ x ∈ wordsOf a n, eccAt s x = 0) : bankRead s a n = (s, 0, rdN s a n) := by
  unfold bankRead
  rw [checkWords_clean h]
  rfl

/-- The words that an access touches have bytes in common with it. -/
theorem touched_of_mem_wordsOf {a n x : Nat} (hn : 0 < n) (h : x ∈ wordsOf a n) : x < a + n ∧ a < x + 8 := by
  unfold wordsOf at h
  dsimp only at h
  split at h
  · simp only [List.mem_singleton] at h; omega
  · simp only [List.mem_cons, List.not_mem_nil, or_false] at h; omega

/-- A part of an access in one bank, of which the bytes before `off` are read. -/
theorem performParts_read {s : State} {r : Req} {live : Bool} {a n off acc : Nat} (rest : List (Nat × Nat))
    (hp : powerFor s live (bankOf a) = .ok) (hc : ∀ x ∈ wordsOf a n, eccAt s x = 0) :
    performParts r live none ((a, n) :: rest) off acc s =
      performParts r live none rest (off + n) (acc + rdN s a n * 256 ^ off) s := by
  rw [performParts, hp]
  simp only [bankRead_clean hc, if_true]

/-- The parts of an access lie within it, and are no more than two. -/
theorem bankParts_cases (a n : Nat) :
    bankParts a n = [(a, n)] ∨ ∃ m, 0 < m ∧ m < n ∧ bankParts a n = [(a, m), (a + m, n - m)] := by
  unfold bankParts
  dsimp only
  split
  · exact .inl rfl
  · refine .inr ⟨(a / 0x10000 + 1) * 0x10000 - a, by omega, by omega, ?_⟩
    have h1 : (a / 0x10000 + 1) * 0x10000 = a + ((a / 0x10000 + 1) * 0x10000 - a) := by omega
    have h2 : a + n - (a / 0x10000 + 1) * 0x10000 = n - ((a / 0x10000 + 1) * 0x10000 - a) := by omega
    rw [h2, ← h1]

/-- An admitted read of clean words of powered banks answers what memory holds. -/
theorem bankPerform_read {s : State} {r : Req} {live : Bool} {a n : Nat} (hn : 0 < n)
    (hp : ∀ p ∈ bankParts a n, powerFor s live (bankOf p.1) = .ok)
    (hc : ∀ b, b < a + n → a < b + 8 → eccAt s b = 0) : bankPerform s r live a n none = (s, .ok (rdN s a n)) := by
  have hw : ∀ b m, a ≤ b → b + m ≤ a + n → 0 < m → ∀ x ∈ wordsOf b m, eccAt s x = 0 := fun b m h1 h2 h3 x hx => by
    have := touched_of_mem_wordsOf h3 hx
    exact hc x (by omega) (by omega)
  have hf : (bankParts a n).find? (fun p => powerFor s live (bankOf p.1) == .waits) = none := by
    rw [List.find?_eq_none]
    intro p hp'
    rw [hp p hp']
    decide
  unfold bankPerform
  simp only [hf]
  rcases bankParts_cases a n with h | ⟨m, h0, hm, h⟩
  · rw [h] at hp ⊢
    rw [performParts_read _ (hp _ List.mem_cons_self) (hw a n (Nat.le_refl a) (Nat.le_refl _) hn), performParts]
    simp
  · rw [h] at hp ⊢
    rw [performParts_read _ (hp _ List.mem_cons_self) (hw a m (by omega) (by omega) h0),
      performParts_read _ (hp _ (List.mem_cons_of_mem _ List.mem_cons_self)) (hw (a + m) (n - m) (by omega) (by omega) (by omega)),
      performParts]
    have hsplit := rdN_append s a m (n - m)
    rw [show m + (n - m) = n from by omega] at hsplit
    simp [hsplit]

theorem bankAccess_read {s : State} {r : Req} {a n : Nat} (hn : 0 < n) (ho : ownerRefusal s r a n .load = none)
    (hp : ∀ p ∈ bankParts a n, powerAns s (bankOf p.1) = .ok) (hc : ∀ b, b < a + n → a < b + 8 → eccAt s b = 0) :
    bankAccess s r a n none = (s, .ok (rdN s a n)) := by
  unfold bankAccess accessOf
  simp only [Option.isSome_none, Bool.false_eq_true, if_false, ho]
  exact bankPerform_read hn hp hc

/-! ### What a read within an instruction leaves -/

/-- State `t` is `s` after reads of the core within an instruction: the entry that they held is free again, and no context
has changed. -/
structure Reads (s t : State) : Prop where
  rest : ∃ c r o k f, t = { s with cons := c, csr := r, order := o, coach := k, fast := f }
  getC : ∀ v, getC t v = getC s v
  csr : ∀ a, a ≠ aCshPool → getR t a = getR s a
  used : ∀ p : Nat × Cons → Bool, (∀ x, p x = true → x.2.used = true) → (t.cons.filter p).Sublist (s.cons.filter p)
  free : ∀ e, (consOf s e).used = false → (consOf t e).used = false
  kept : ∀ e, (consOf s e).used = true → consOf t e = consOf s e
  stalls : (stalls t).Sublist (stalls s)

theorem Reads.refl (s : State) : Reads s s :=
  ⟨⟨_, _, _, _, _, rfl⟩, fun _ => rfl, fun _ _ => rfl, fun _ _ => .refl _, fun _ h => h, fun _ _ => rfl, .refl _⟩

theorem Reads.trans {s t u : State} (h : Reads s t) (g : Reads t u) : Reads s u where
  rest := by
    obtain ⟨_, _, _, _, _, rfl⟩ := h.rest
    obtain ⟨_, _, _, _, _, rfl⟩ := g.rest
    exact ⟨_, _, _, _, _, rfl⟩
  getC v := (g.getC v).trans (h.getC v)
  csr a ha := (g.csr a ha).trans (h.csr a ha)
  used p hp := (g.used p hp).trans (h.used p hp)
  free e he := g.free e (h.free e he)
  kept e he := (g.kept e (by rw [h.kept e he]; exact he)).trans (h.kept e he)
  stalls := g.stalls.trans h.stalls

section
variable {s t : State} (h : Reads s t)
include h

theorem Reads.mem : t.mem = s.mem := by obtain ⟨_, _, _, _, _, rfl⟩ := h.rest; rfl
theorem Reads.sameMemory : SameMemory s t := fun _ => by simp only [rdB, h.mem]
theorem Reads.up : t.up = s.up := by obtain ⟨_, _, _, _, _, rfl⟩ := h.rest; rfl
theorem Reads.bankN (n : Nat) : Machine.bankN t n = Machine.bankN s n := by obtain ⟨_, _, _, _, _, rfl⟩ := h.rest; rfl
theorem Reads.eccAt (a : Nat) : Machine.eccAt t a = Machine.eccAt s a := by obtain ⟨_, _, _, _, _, rfl⟩ := h.rest; rfl

theorem Reads.numOf (w : Who) : Machine.numOf t w = Machine.numOf s w := by
  cases w with
  | coach n => rfl
  | fast => simp only [Machine.numOf, fastCoach, h.csr aCshFastcfg (by decide)]

theorem Reads.reqOf (x : Iss) : Machine.reqOf t x = Machine.reqOf s x := by simp only [Machine.reqOf, h.numOf, h.getC]

theorem Reads.ownerRefusal (r : Req) (a n : Nat) (k : Access) :
    Machine.ownerRefusal t r a n k = Machine.ownerRefusal s r a n k := by simp only [Machine.ownerRefusal, h.bankN]

theorem Reads.quotaOf (n : Nat) : Machine.quotaOf t n = Machine.quotaOf s n := by
  simp only [Machine.quotaOf, h.csr (aCshQuota + 4 * n) (by simp only [aCshQuota, aCshPool]; omega)]

theorem Reads.entriesHeld_le (n : Nat) : Machine.entriesHeld t n ≤ Machine.entriesHeld s n :=
  (h.used _ (fun _ hx => (Bool.and_eq_true _ _ ▸ hx).1)).length_le

theorem Reads.openOf_nil {w : Who} {p : Cons → Bool} (he : openOf s w p = []) : openOf t w p = [] := by
  unfold openOf at he ⊢
  rw [List.map_eq_nil_iff] at he ⊢
  exact List.sublist_nil.mp (he ▸ h.used _ (fun x hx => by
    simp only [Bool.and_eq_true] at hx
    exact hx.1.1.1.1))

end

theorem powerAns_ok_iff (s : State) (n : Nat) : powerAns s n = .ok ↔ (bankN s n).pwr = 0 := by
  unfold powerAns
  dsimp only
  constructor
  · intro h
    split_ifs at h with h0
    exact h0
  · intro h
    rw [if_pos h]

theorem Reads.accessible {s t : State} {w : Who} {r : Req} {k : Access} {a n : Nat} (h : Reads s t)
    (ha : Accessible s w r k a n) : Accessible t w r k a n where
  inside := ha.inside
  owner := (h.ownerRefusal ..).trans ha.owner
  power p hp := by
    rw [powerAns_ok_iff, h.bankN]
    exact (powerAns_ok_iff s _).mp (ha.power p hp)
  clean b h1 h2 := (h.eccAt b).trans (ha.clean b h1 h2)
  quiet := h.openOf_nil ha.quiet
  quota := by rw [h.quotaOf, h.numOf]; exact (h.entriesHeld_le _).trans_lt ha.quota
  free := by rw [h.numOf]; exact h.free _ ha.free
  untold := by rw [h.getC]; exact ha.untold
  unlocked hk := by
    have := ha.unlocked hk
    simp only [vtlock] at this ⊢
    rw [h.csr aRngLock (by decide)]
    exact this

/-! ### One read -/

theorem SMap.filter_insert_sublist {α : Type} {p : Nat × α → Bool} {m : SMap α} {k : Nat} {v : α} (h : p (k, v) = false) :
    ((SMap.insert m k v).filter p) = m.filter p := by
  induction m with
  | nil => simp [SMap.insert, h]
  | cons e r ih =>
    unfold SMap.insert
    split
    · rw [List.filter_cons_of_neg (by simp [h])]
    · rw [List.filter_cons, List.filter_cons, ih]

/-- An entry that is free in the table counts nowhere. -/
theorem SMap.filter_set_sublist {α : Type} [DecidableEq α] {d : α} {p : Nat × α → Bool} {m : SMap α} {k : Nat} {v : α}
    (h : p (k, v) = false) : ((SMap.set d m k v).filter p).Sublist (m.filter p) := by
  have he : (SMap.erase m k).Sublist m := by
    rw [SMap.erase_eq_filter]; exact List.filter_sublist
  unfold SMap.set
  split
  · exact he.filter p
  · rw [SMap.filter_insert_sublist h]
    exact he.filter p

/-- The state after an access of the core has held entry `e`: allocation count `g`, CSH_POOL `p`. -/
def heldOnce (s : State) (e : Nat) (p : Word) (g : Nat) : State :=
  { setR s aCshPool p with cons := s.cons.set {} e { gen := g }, order := s.order + 1 }

theorem notePool_eq (s : State) : ∃ p, notePool s = setR s aCshPool p := ⟨_, rfl⟩

theorem freeCons_allocateAt (s : State) (e : Nat) (k : Cons) : ∃ p g, freeCons (allocateAt s e k) e = heldOnce s e p g := by
  obtain ⟨k1, h1⟩ : ∃ k1, allocateAt s e k = notePool { setCons s e k1 with order := s.order + 1 } :=
    ⟨{ k with used := true, gen := ((consOf s e).gen + 1) % 65536, order := s.order }, rfl⟩
  obtain ⟨p, h2⟩ := notePool_eq { setCons s e k1 with order := s.order + 1 }
  refine ⟨p, (consOf (allocateAt s e k) e).gen, ?_⟩
  rw [freeCons]
  generalize (consOf (allocateAt s e k) e).gen = g
  rw [h1, h2]
  simp only [heldOnce, setCons, setR, SMap.set_set]

theorem reads_heldOnce {s : State} {e : Nat} (p : Word) (g : Nat) (he : (consOf s e).used = false) :
    Reads s (heldOnce s e p g) where
  rest := ⟨_, _, _, _, _, rfl⟩
  getC v := by cases v <;> rfl
  csr a ha := by
    show getR (setR s aCshPool p) a = _
    rw [getR_setR, if_neg ha]
  used q hq := SMap.filter_set_sublist (Bool.eq_false_iff.mpr fun h => absurd (hq _ h) (by simp))
  free f hf := by
    show (consOf (setCons s e { gen := g }) f).used = false
    rw [consOf_setCons]
    split
    · rfl
    · exact hf
  kept f hf := by
    show consOf (setCons s e { gen := g }) f = _
    rw [consOf_setCons, if_neg]
    rintro rfl
    rw [he] at hf
    cases hf
  stalls := .refl _

/-- A change that leaves a context as it is. -/
theorem reads_modC {s : State} {w : Who} {f : Coach → Coach} (hf : f (getC s w) = getC s w) (hs : (getC s w).stall = none) :
    Reads s (modC s w f) where
  rest := by cases w <;> exact ⟨_, _, _, _, _, rfl⟩
  getC v := by
    by_cases hv : v = w
    · rw [hv, getC_modC_self, hf]
    · exact getC_modC_other _ _ _ _ hv
  csr a _ := getR_modC s w f a
  used p _ := by rw [modC_cons]
  free e he := by rw [consOf_modC]; exact he
  kept e _ := consOf_modC s w f e
  stalls := stalls_modC_sublist (by rw [hf]; exact hs)

theorem told_of_nil {c : Coach} (h : c.told = []) :
    { c with told := (c.told.filter (fun e => e.1 ≠ 0)).map (fun e => (e.1 - 1, e.2)) } = c := by
  cases c
  cases h
  rfl

/-- A read that the core makes, with its own entry free: what its unit answers to it, and an entry held once. -/
theorem ownRun_read {s : State} {x : Iss} {a n d : Nat} {wait : Nat → Hold} {run : State → State × Ans}
    (hq : entriesHeld s (numOf s x.who) < quotaOf s (numOf s x.who)) (he : (consOf s (numOf s x.who)).used = false)
    (ht : (getC s x.who).told = []) (hs : (getC s x.who).stall = none)
    (hr : ∀ k, run (allocateAt s (numOf s x.who) k) = (allocateAt s (numOf s x.who) k, .ok d)) :
    ∃ t, ownRun x a n none wait run s = .ok (d, t) ∧ Reads s t := by
  have hfate : ownFate s x.who = none := by
    simp [ownFate, toldOf, ht, SMap.get]
  obtain ⟨k, hk⟩ : ∃ k, ownAccess x (numOf s x.who) a n none run s =
      (ownDone (freeCons (allocateAt s (numOf s x.who) k) (numOf s x.who)) x.who, .ok d) := by
    refine ⟨{ coach := numOf s x.who, fast := x.who == .fast, kind := .load false, addr := a, size := n, unver := x.unver,
              lset := x.lane }, ?_⟩
    unfold ownAccess
    simp only [hfate, hr, Option.isSome_none, Bool.false_eq_true, if_false]
  obtain ⟨p, g, hpg⟩ := freeCons_allocateAt s (numOf s x.who) k
  rw [hpg] at hk
  have h1 := reads_heldOnce p g he
  refine ⟨ownDone (heldOnce s (numOf s x.who) p g) x.who, ?_, h1.trans (reads_modC ?_ (by rw [h1.getC]; exact hs))⟩
  · unfold ownRun
    rw [bind_get, bind_of_ok (chooseEntry_own hq he)]
    simp only [hk]
    rfl
  · rw [h1.getC]
    exact told_of_nil ht

/-- No pending store of the issuer overlaps a range that none of its open accesses touches. -/
theorem forward_of_quiet {s : State} {w : Who} {a n : Nat} (h : openOver s w a n (fun _ => true) = []) :
    forward s w a n = .none := by
  have hl : lastStoreOver s w a n = none := by
    unfold lastStoreOver
    have : (s.cons.filter (fun e => e.2.used && !e.2.orphan && e.2.done.isNone && consWho e.2 == w && isStore e.2
        && overlaps e.2.addr e.2.size a n)) = [] := by
      rw [List.filter_eq_nil_iff]
      intro e he hp
      unfold openOver openOf at h
      rw [List.map_eq_nil_iff, List.filter_eq_nil_iff] at h
      refine h e he ?_
      simp only [Bool.and_eq_true] at hp ⊢
      obtain ⟨⟨⟨⟨⟨hu, ho⟩, hd⟩, hw⟩, hst⟩, hov⟩ := hp
      refine ⟨⟨⟨⟨hu, ho⟩, hd⟩, hw⟩, ⟨hov, trivial⟩, ?_⟩
      unfold isStore at hst
      split at hst
      · rename_i hk; rw [hk]; rfl
      · cases hst
    rw [this]
    rfl
  unfold forward
  rw [hl]

/-- The core reads bank memory that is accessible to it. -/
theorem bankLoad_accessible {s : State} {x : Iss} {r : Req} {a n : Nat} (hn : 0 < n) (h : Accessible s x.who r .load a n)
    (hs : (getC s x.who).stall = none) : ∃ t, bankLoad x r a n s = .ok (rdN s a n, t) ∧ Reads s t := by
  have hi := h.inside
  simp only [inBanks, Bool.and_eq_true, decide_eq_true_eq] at hi
  have hphys : phys a = a := by rw [phys, if_neg (by omega)]
  obtain ⟨t, ht, hr⟩ := ownRun_read (x := x) (a := a) (n := n) (d := rdN s a n) (wait := .bank) (run := fun t => bankAccess t r (phys a) n none)
    h.quota h.free h.untold hs (fun k => by
      have hm : rdN (allocateAt s (numOf s x.who) k) a n = rdN s a n :=
        rdN_of_mem (s := s) (t := allocateAt s (numOf s x.who) k) (fun _ => rfl) a n
      rw [hphys, ← hm]
      exact bankAccess_read (s := allocateAt s (numOf s x.who) k) hn h.owner
        (fun p hp => (powerAns_ok_iff _ _).mpr ((powerAns_ok_iff s _).mp (h.power p hp))) h.clean)
  refine ⟨t, ?_, hr⟩
  unfold bankLoad ownLoad
  rw [bind_get, forward_of_quiet h.quiet]
  exact ht

end Sys2Proof.Machine
end

section
/-! SUPPORT. Stores that the core posts for an instruction or an entry (spec/02, R36, R48; spec/05, R143): each has an entry of
the consignment table, or waits for one. -/

namespace Sys2Proof.Machine

/-! ### The end of an instruction, and its context -/

theorem Settled.getC {s t : State} (h : Settled s t) (w : Who) : SameThread (Machine.getC s w) (Machine.getC t w) := by
  cases w with
  | coach n => exact h.coach n
  | fast => exact h.fast

theorem afterFlow_congr {t u : State} (h : u.sbOrder = t.sbOrder) (pc : Word) (len : Nat) (f : Flow) (c : Coach) :
    afterFlow u pc len f c = afterFlow t pc len f c := by
  cases f <;> simp only [afterFlow, ended, h]

/-- The context of an instruction at its end, but for what the schedulers own. -/
theorem ends_thread (s : State) (l : LaneUse) (w : Who) (len : Nat) (f : Flow) (t : State) (hup : t.up = true) :
    ∃ u, ends s l w len f t = .next u ∧ EndFrame t u w ∧
      SameThread (afterFlow t (getC s w).pc len f (getC t w)) (getC u w) := by
  obtain ⟨u, hu, he⟩ := ends_eq s l w len f hup
  obtain ⟨r, hr, hf, -⟩ := ends_frame s l w len f t hup
  have heq := Host.Outcome.next.inj (hr.symm.trans he)
  refine ⟨r, hr, hf, ?_⟩
  have hsb : u.sbOrder = t.sbOrder := by obtain ⟨_, _, rfl⟩ := hu; rfl
  rw [heq]
  by_cases hg : f = .gone
  · rw [if_pos hg, hg]
    have := (settled_settle u).getC w
    rw [hu.getC] at this
    exact this
  · rw [if_neg hg]
    have := (settled_settle (modC u w (afterFlow u (getC s w).pc len f))).getC w
    rw [getC_modC_self, hu.getC, afterFlow_congr hsb] at this
    exact this

theorem SameThread.out {c d : Coach} (h : SameThread c d) : d.out = c.out := by
  obtain ⟨_, _, _, _, _, _, _, _, _, _, _, rfl⟩ := h
  rfl

theorem afterFlow_out (t : State) (pc : Word) (len : Nat) (f : Flow) (c : Coach) : (afterFlow t pc len f c).out = c.out := by
  cases f with
  | seq =>
    show (advance c pc len).out = c.out
    unfold advance
    split_ifs <;> rfl
  | jump => rfl
  | stay => rfl
  | gone => rfl

/-! ### The relation -/

/-- Entry `k` is that of the posted store `p` of `w`. -/
structure Holds (k : Cons) (w : Who) (p : Posted) : Prop where
  used : k.used = true
  who : consWho k = w
  kind : k.kind = .store
  addr : k.addr = p.addr
  size : k.size = p.size
  data : k.data = p.data

/-- Between `s` and `t` the posted store `p` of `w` has taken an entry, or it waits for one. -/
def Lands (s t : State) (w : Who) (p : Posted) : Prop :=
  p ∈ (getC t w).out ∨ ∃ e, (consOf s e).used = false ∧ Holds (consOf t e) w p

/-- State `t` is `s` but for stores of `w` that are posted, and registers `l`. -/
structure Posts (l : List Nat) (s t : State) (w : Who) : Prop where
  rest : ∃ c r o h k f, t = { s with cons := c, csr := r, order := o, hpt := h, coach := k, fast := f }
  csr : SameRegistersBut l s t
  others : ∀ v, v ≠ w → getC t v = getC s v
  own : ∃ o h st wt, getC t w = { getC s w with out := o, held := h, step := st, waited := wt }
  kept : ∀ e, (consOf s e).used = true → ∃ g, consOf t e = { consOf s e with tag := g }
  pend : ∀ p ∈ (getC s w).out, Lands s t w p

theorem Posts.refl (l : List Nat) (s : State) (w : Who) : Posts l s s w :=
  ⟨⟨_, _, _, _, _, _, rfl⟩, fun _ _ => rfl, fun _ _ => rfl, ⟨_, _, _, _, rfl⟩, fun _ _ => ⟨_, rfl⟩, fun _ h => .inl h⟩

theorem Holds.tag {k : Cons} {w : Who} {p : Posted} (h : Holds k w p) (g : Option Nat) : Holds { k with tag := g } w p :=
  ⟨h.used, h.who, h.kind, h.addr, h.size, h.data⟩

/-- What has taken its entry stays there, and what waits may take one. -/
theorem Lands.later {l : List Nat} {s t u : State} {w : Who} {p : Posted} (h : Lands s t w p) (hs : Posts l s t w)
    (ht : Posts l t u w) : Lands s u w p := by
  rcases h with h | ⟨e, he, hk⟩
  · rcases ht.pend p h with h | ⟨e, he, hk⟩
    · exact .inl h
    · refine .inr ⟨e, ?_, hk⟩
      by_contra hu
      obtain ⟨g, hg⟩ := hs.kept e (by simpa using hu)
      rw [hg] at he
      exact hu he
  · obtain ⟨g, hg⟩ := ht.kept e hk.used
    exact .inr ⟨e, he, hg ▸ hk.tag g⟩

/-- An entry that was free later was free before. -/
theorem Lands.earlier {l : List Nat} {s t u : State} {w : Who} {p : Posted} (h : Lands t u w p) (hs : Posts l s t w) :
    Lands s u w p := by
  rcases h with h | ⟨e, he, hk⟩
  · exact .inl h
  · refine .inr ⟨e, ?_, hk⟩
    by_contra hu
    obtain ⟨g, hg⟩ := hs.kept e (by simpa using hu)
    rw [hg] at he
    exact hu he

theorem Posts.trans {l : List Nat} {s t u : State} {w : Who} (h : Posts l s t w) (g : Posts l t u w) : Posts l s u w where
  rest := by
    obtain ⟨_, _, _, _, _, _, rfl⟩ := h.rest
    obtain ⟨_, _, _, _, _, _, rfl⟩ := g.rest
    exact ⟨_, _, _, _, _, _, rfl⟩
  csr a ha := (g.csr a ha).trans (h.csr a ha)
  others v hv := (g.others v hv).trans (h.others v hv)
  own := by
    obtain ⟨_, _, _, _, e⟩ := h.own
    obtain ⟨_, _, _, _, e'⟩ := g.own
    exact ⟨_, _, _, _, e'.trans (by rw [e])⟩
  kept e he := by
    obtain ⟨_, e1⟩ := h.kept e he
    obtain ⟨_, e2⟩ := g.kept e (by rw [e1]; exact he)
    exact ⟨_, e2.trans (by rw [e1])⟩
  pend p hp := (h.pend p hp).later h g

section
variable {l : List Nat} {s t : State} {w : Who} (h : Posts l s t w)
include h

theorem Posts.mem : t.mem = s.mem := by obtain ⟨_, _, _, _, _, _, rfl⟩ := h.rest; rfl
theorem Posts.sameMemory : SameMemory s t := fun _ => by simp only [rdB, h.mem]
theorem Posts.up : t.up = s.up := by obtain ⟨_, _, _, _, _, _, rfl⟩ := h.rest; rfl
theorem Posts.bankN (n : Nat) : Machine.bankN t n = Machine.bankN s n := by obtain ⟨_, _, _, _, _, _, rfl⟩ := h.rest; rfl

theorem Posts.seen : Machine.seen (getC t w) = Machine.seen (getC s w) := by
  obtain ⟨_, _, _, _, e⟩ := h.own
  rw [e]
  rfl

theorem Posts.ownerRefusal (r : Req) (a n : Nat) (k : Access) :
    Machine.ownerRefusal t r a n k = Machine.ownerRefusal s r a n k := by simp only [Machine.ownerRefusal, h.bankN]

end

/-! ### The host port sends -/

theorem consOf_sendOne_tag (s : State) (x : Nat × Cons) (e : Nat) : ∃ g, consOf (sendOne s x) e = { consOf s e with tag := g } := by
  unfold sendOne
  split
  · rw [consOf_setCons]
    split
    · rename_i h; rw [h]; exact ⟨_, rfl⟩
    · exact ⟨_, rfl⟩
  · exact ⟨_, rfl⟩

theorem consOf_sends_tag (l : List (Nat × Cons)) (e : Nat) (s : State) :
    ∃ g, consOf (l.foldl sendOne s) e = { consOf s e with tag := g } := by
  induction l generalizing s with
  | nil => exact ⟨_, rfl⟩
  | cons x r ih =>
    rw [List.foldl_cons]
    obtain ⟨_, h1⟩ := ih (sendOne s x)
    obtain ⟨_, h2⟩ := consOf_sendOne_tag s x e
    exact ⟨_, h1.trans (by rw [h2])⟩

theorem posts_hostSend (l : List Nat) (s : State) (w : Who) : Posts l s (hostSend s) w := by
  obtain ⟨c, o, hc⟩ := hostSend_frame s
  have hC : ∀ v, getC (hostSend s) v = getC s v := fun v => by rw [hc]; cases v <;> rfl
  refine ⟨⟨c, s.csr, s.order, o, s.coach, s.fast, hc⟩, fun a _ => by rw [hc]; rfl, fun v _ => hC v, ⟨_, _, _, _, hC w⟩,
    fun e _ => ?_, fun p hp => .inl (by rw [hC]; exact hp)⟩
  rw [hostSend_eq]
  split
  · exact consOf_sends_tag _ e s
  · exact ⟨_, rfl⟩

/-! ### One store is posted -/

/-- The Keystone accepts the posted store `p` of `w` (R29, R285). -/
def Admitted (s : State) (w : Who) (p : Posted) : Prop :=
  (vtlock s && inVectors p.addr p.size) = true ∨
    ownerRefusal s ⟨numOf s w, p.ring, p.lset != 0⟩ (phys p.addr) p.size .store = none

/-- The registers of a refusal at the banks. -/
def denyRegs : List Nat := [aBnkDeny, aBnkDenylast]

/-- The registers that note posted stores. -/
def poolRegs : List Nat := [aCshPool, aCshPoolwait]

theorem getC_setR (s : State) (a : Nat) (v : Word) (w : Who) : getC (setR s a v) w = getC s w := by cases w <;> rfl

theorem posts_setR {l : List Nat} {a : Nat} (ha : a ∈ l) (s : State) (v : Word) (w : Who) : Posts l s (setR s a v) w where
  rest := ⟨_, _, _, _, _, _, rfl⟩
  csr b hb := by rw [getR_setR, if_neg (fun h : b = a => hb (by rw [h]; exact ha))]
  others u _ := getC_setR s a v u
  own := ⟨_, _, _, _, getC_setR s a v w⟩
  kept _ _ := ⟨_, rfl⟩
  pend p hp := .inl (by rw [getC_setR]; exact hp)

theorem posts_recordDeny {l : List Nat} (hl : denyRegs ⊆ l) (s : State) (port addr : Nat) (r : Req) (wr : Bool) (why : Nat) (w : Who) :
    Posts l s (recordDeny s port addr r wr why) w :=
  (posts_setR (hl (by simp [denyRegs])) s _ w).trans (posts_setR (hl (by simp [denyRegs])) _ _ w)

theorem consOf_allocateAt (s : State) (e : Nat) (k : Cons) (f : Nat) : consOf (allocateAt s e k) f =
    if f = e then { k with used := true, gen := ((consOf s e).gen + 1) % 65536, order := s.order } else consOf s f := by
  rw [← consOf_setCons]
  rfl

theorem getC_allocateAt (s : State) (e : Nat) (k : Cons) (w : Who) : getC (allocateAt s e k) w = getC s w := by cases w <;> rfl

theorem getR_allocateAt (s : State) (e : Nat) (k : Cons) {a : Nat} (h : a ≠ aCshPool) : getR (allocateAt s e k) a = getR s a := by
  show getR (setR _ aCshPool _) a = _
  rw [getR_setR, if_neg h]
  rfl

/-- A free entry is taken for a store of `w` that no longer waits. -/
theorem posts_allocateAt {l : List Nat} {s : State} {w : Who} {p : Posted} {r : List Posted} {e : Nat} {k : Cons}
    (hl : poolRegs ⊆ l) (he : (consOf s e).used = false) (ho : (getC s w).out = p :: r)
    (hk : ∀ g o, Holds { k with used := true, gen := g, order := o } w p) :
    Posts l s (allocateAt (modC s w (fun c => { c with out := r })) e k) w where
  rest := by cases w <;> exact ⟨_, _, _, _, _, _, rfl⟩
  csr a ha := by rw [getR_allocateAt _ _ _ (fun h => ha (hl (by simp [poolRegs, h]))), getR_modC]
  others v hv := by rw [getC_allocateAt, getC_modC_other _ _ _ _ hv]
  own := by rw [getC_allocateAt, getC_modC_self]; exact ⟨_, _, _, _, rfl⟩
  kept f hf := by
    refine ⟨(consOf s f).tag, ?_⟩
    rw [consOf_allocateAt, if_neg (by rintro rfl; rw [he] at hf; cases hf), consOf_modC]
  pend q hq := by
    rw [ho] at hq
    rcases List.mem_cons.mp hq with rfl | hq
    · exact .inr ⟨e, he, by rw [consOf_allocateAt, if_pos rfl]; exact hk _ _⟩
    · exact .inl (by rw [getC_allocateAt, getC_modC_self]; exact hq)

theorem recordDeny_modC (s : State) (w : Who) (f : Coach → Coach) (port addr : Nat) (r : Req) (wr : Bool) (why : Nat) :
    recordDeny (modC s w f) port addr r wr why = modC (recordDeny s port addr r wr why) w f := by
  have hs : ∀ (u : State) (a : Nat) (v : Word), setR (modC u w f) a v = modC (setR u a v) w f := fun u a v => by
    cases w <;> rfl
  unfold recordDeny
  simp only [bumpR, getR_modC, hs]

theorem getC_recordDeny (s : State) (port addr : Nat) (r : Req) (wr : Bool) (why : Nat) (w : Who) :
    getC (recordDeny s port addr r wr why) w = getC s w := by
  unfold recordDeny
  rw [getC_setR, bumpR, getC_setR]

theorem consOf_setR (s : State) (a : Nat) (v : Word) (e : Nat) : consOf (setR s a v) e = consOf s e := rfl

theorem consOf_recordDeny (s : State) (port addr : Nat) (r : Req) (wr : Bool) (why e : Nat) :
    consOf (recordDeny s port addr r wr why) e = consOf s e := by
  unfold recordDeny
  rw [consOf_setR, bumpR, consOf_setR]

/-- The Keystone notes nothing of an access that it accepts, and else a refusal. -/
theorem acceptance_state (s : State) (q : Req) (r : Region) (k : Access) (a n : Nat) :
    (acceptance s q r k a n).1 = s ∨
      (∃ p why, (acceptance s q r k a n).1 = recordDeny s 0 p q k.writes why) ∧ (r = .bank ∨ r = .vtAlias) ∧
        ownerRefusal s q (phys a) n k ≠ none := by
  unfold acceptance
  split
  · rename_i hr
    cases ho : ownerRefusal s q (phys a) n k with
    | none => exact .inl rfl
    | some p => exact .inr ⟨⟨p.1, p.2, rfl⟩, hr, by simp⟩
  · split
    · exact .inl rfl
    · exact .inl rfl

theorem consWho_issuer (s : State) (w : Who) (k : Cons) (hc : k.coach = numOf s w) (hf : k.fast = (w == .fast)) :
    consWho k = w := by
  unfold consWho
  rw [hc, hf]
  cases w <;> rfl

theorem posts_acceptPosted {l : List Nat} {s : State} {w : Who} {p : Posted} {r : List Posted} {e : Nat}
    (hl : poolRegs ⊆ l) (ha : Admitted s w p ∨ denyRegs ⊆ l) (he : (consOf s e).used = false) (ho : (getC s w).out = p :: r) :
    Posts l s (acceptPosted (modC s w (fun c => { c with out := r })) w e p) w := by
  have hwho : ∀ k : Cons, k.coach = numOf (modC s w (fun c => { c with out := r })) w → k.fast = (w == .fast) → consWho k = w :=
    fun k h1 h2 => consWho_issuer s w k (h1.trans (numOf_modC ..)) h2
  unfold acceptPosted
  dsimp only
  split
  · exact posts_allocateAt hl he ho (fun g o => ⟨rfl, hwho _ rfl rfl, rfl, rfl, rfl, rfl⟩)
  · rename_i hv
    unfold acceptAt
    rcases acceptance_state (modC s w (fun c => { c with out := r }))
        ⟨numOf (modC s w (fun c => { c with out := r })) w, p.ring, p.lset != 0⟩ ((region p.addr).getD .bank) .store p.addr p.size with
      hs | ⟨⟨p', why, hs⟩, hr, hn⟩
    · dsimp only [CKind.access]
      rw [hs]
      exact posts_allocateAt hl he ho (fun g o => ⟨rfl, hwho _ rfl rfl, rfl, rfl, rfl, rfl⟩)
    · have hd : denyRegs ⊆ l := by
        rcases ha with (ha | ha) | ha
        · exact absurd (by simpa [vtlock, getR_modC] using ha) hv
        · refine absurd ?_ hn
          rw [ownerRefusal_modC, numOf_modC]
          exact ha
        · exact ha
      dsimp only [CKind.access]
      rw [hs, recordDeny_modC]
      have h1 := posts_recordDeny hd s 0 p' ⟨numOf (modC s w (fun c => { c with out := r })) w, p.ring, p.lset != 0⟩
        (Access.writes .store) why w
      exact h1.trans (posts_allocateAt hl (by rw [consOf_recordDeny]; exact he) (by rw [getC_recordDeny]; exact ho)
        (fun g o => ⟨rfl, hwho _ rfl rfl, rfl, rfl, rfl, rfl⟩))

theorem storeEntry_free {s : State} {n e : Nat} (h : storeEntry s n = some e) : (consOf s e).used = false := by
  unfold storeEntry at h
  split at h
  · cases h
  · split at h
    · rename_i hu
      cases h
      simpa using hu
    · obtain ⟨i, -, hi⟩ := List.exists_of_findSome?_eq_some h
      split at hi
      · cases hi
      · rename_i hu
        cases hi
        simpa using hu

theorem admitted_of_posts {l : List Nat} {s t : State} {w : Who} {p : Posted} (h : Posts l s t w) (hlock : aRngLock ∉ l)
    (hfast : aCshFastcfg ∉ l) (ha : Admitted s w p) : Admitted t w p := by
  have hn : numOf t w = numOf s w := by
    cases w with
    | coach n => rfl
    | fast => simp only [numOf, fastCoach, h.csr aCshFastcfg hfast]
  rcases ha with ha | ha
  · refine .inl ?_
    simpa only [vtlock, h.csr aRngLock hlock] using ha
  · exact .inr (by rw [h.ownerRefusal, hn]; exact ha)

/-- All the stores that wait are posted as far as there are entries. -/
theorem posts_postFor {l : List Nat} {w : Who} (hl : poolRegs ⊆ l) (hlock : aRngLock ∉ l) (hfast : aCshFastcfg ∉ l) (f : Nat)
    {s : State} (ha : (∀ p ∈ (getC s w).out, Admitted s w p) ∨ denyRegs ⊆ l) : Posts l s (postFor w f s) w := by
  induction f generalizing s with
  | zero => exact .refl l s w
  | succ f ih =>
    unfold postFor
    split
    · rename_i p r e ho he
      have h1 := posts_acceptPosted hl (ha.imp_left fun h => h p (by rw [ho]; exact List.mem_cons_self)) (storeEntry_free he) ho
      refine h1.trans (ih (ha.imp_left fun h q hq => ?_))
      refine admitted_of_posts h1 hlock hfast (h q ?_)
      have hout : (getC (acceptPosted (modC s w (fun c => { c with out := r })) w e p) w).out = r := by
        have : getC (acceptPosted (modC s w (fun c => { c with out := r })) w e p) w = getC (modC s w (fun c => { c with out := r })) w := by
          unfold acceptPosted acceptAt
          dsimp only
          split
          · exact getC_allocateAt ..
          · rw [getC_allocateAt]
            rcases acceptance_state (modC s w (fun c => { c with out := r }))
              ⟨numOf (modC s w (fun c => { c with out := r })) w, p.ring, p.lset != 0⟩ ((region p.addr).getD .bank)
              (CKind.access .store) p.addr p.size with hs | ⟨⟨p', why, hs⟩, -, -⟩
            · rw [hs]
            · rw [hs, getC_recordDeny]
        rw [this, getC_modC_self]
      rw [hout] at hq
      rw [ho]
      exact List.mem_cons_of_mem _ hq
    · exact .refl l s w

theorem posts_postOut {l : List Nat} {s : State} {w : Who} (hl : poolRegs ⊆ l) (hlock : aRngLock ∉ l) (hfast : aCshFastcfg ∉ l)
    (ha : (∀ p ∈ (getC s w).out, Admitted s w p) ∨ denyRegs ⊆ l) : Posts l s (postOut s w) w :=
  (posts_postFor hl hlock hfast _ ha).trans (posts_hostSend l _ w)

/-- A change of the issuer's context that posting makes. -/
theorem posts_modC (l : List Nat) (s : State) (w : Who) {f : Coach → Coach}
    (hf : ∃ o h st wt, f (getC s w) = { getC s w with out := (getC s w).out ++ o, held := h, step := st, waited := wt }) :
    Posts l s (modC s w f) w where
  rest := by cases w <;> exact ⟨_, _, _, _, _, _, rfl⟩
  csr a _ := getR_modC s w f a
  others v hv := getC_modC_other _ _ _ _ hv
  own := by
    obtain ⟨o, h, st, wt, e⟩ := hf
    rw [getC_modC_self, e]
    exact ⟨_, _, _, _, rfl⟩
  kept e _ := by rw [consOf_modC]; exact ⟨_, rfl⟩
  pend p hp := by
    obtain ⟨o, h, st, wt, e⟩ := hf
    refine .inl ?_
    rw [getC_modC_self, e]
    exact List.mem_append_left _ hp

theorem posts_countWait {l : List Nat} (hl : poolRegs ⊆ l) (s : State) (w : Who) : Posts l s (countWait s w) w := by
  unfold countWait
  split
  · exact .refl l s w
  · exact (posts_setR (hl (by simp [poolRegs])) s _ w).trans (posts_modC l _ w ⟨[], _, _, _, by rw [List.append_nil]⟩)

theorem posts_postHold {l : List Nat} (hl : poolRegs ⊆ l) (s : State) (w : Who) (b : Bool) : Posts l s (postHold s w b) w := by
  unfold postHold
  dsimp only
  split
  · exact .refl l s w
  · have hm : ∀ u, Posts l u (modC u w (fun c => { c with held := some .posting, step := false })) w :=
      fun u => posts_modC l u w ⟨[], _, _, _, by rw [List.append_nil]⟩
    split
    · exact (posts_countWait hl s w).trans (hm _)
    · exact hm s

/-- A store that the core posts has an entry, or waits for one. -/
theorem postStore_posts {l : List Nat} {s : State} {x : Iss} {ring a n v : Nat} {frame : Bool} (hl : poolRegs ⊆ l)
    (hlock : aRngLock ∉ l) (hfast : aCshFastcfg ∉ l)
    (ha : (∀ p ∈ (getC s x.who).out ++ [⟨a, n, BitVec.ofNat 64 (v % 256 ^ n), ring, x.lane, frame⟩], Admitted s x.who p) ∨
      denyRegs ⊆ l) :
    ∃ t, postStore x ring a n v frame s = .ok ((), t) ∧ Posts l s t x.who ∧
      Lands s t x.who ⟨a, n, BitVec.ofNat 64 (v % 256 ^ n), ring, x.lane, frame⟩ := by
  have h1 := posts_modC l s x.who (f := fun c => { c with
    out := c.out ++ [⟨a, n, BitVec.ofNat 64 (v % 256 ^ n), ring, x.lane, frame⟩] }) ⟨_, _, _, _, rfl⟩
  obtain ⟨u, hu⟩ : ∃ u, u = modC s x.who (fun c => { c with
    out := c.out ++ [⟨a, n, BitVec.ofNat 64 (v % 256 ^ n), ring, x.lane, frame⟩] }) := ⟨_, rfl⟩
  have hout : (getC u x.who).out = (getC s x.who).out ++ [⟨a, n, BitVec.ofNat 64 (v % 256 ^ n), ring, x.lane, frame⟩] := by
    rw [hu, getC_modC_self]
  rw [← hu] at h1
  have h2 := posts_postOut hl hlock hfast (ha.imp_left fun h p hp => admitted_of_posts h1 hlock hfast (h p (hout ▸ hp)))
  have h3 := posts_postHold hl (postOut u x.who) x.who true
  refine ⟨postHold (postOut u x.who) x.who true, by rw [hu]; rfl, (h1.trans h2).trans h3, ?_⟩
  have hp := (h2.trans h3).pend ⟨a, n, BitVec.ofNat 64 (v % 256 ^ n), ring, x.lane, frame⟩
    (by rw [hout]; exact List.mem_append_right _ List.mem_cons_self)
  exact hp.earlier h1

end Sys2Proof.Machine
end

section
/-! SUPPORT. Spills and fills of the operand head (spec/02, R36 to R38). -/

namespace Sys2Proof.Machine

/-! ### New stores -/

/-- A posted store that has landed is one that has been issued, after the end of the instruction too. -/
theorem newStore_of_lands {s t u : State} {w : Who} {p : Posted} (h : Lands s t w p) (hc : u.cons = t.cons)
    (ho : (getC u w).out = (getC t w).out) : NewStore s u w p.addr p.size p.data := by
  rcases h with h | ⟨e, he, hk⟩
  · exact .inr ⟨p, ho ▸ h, rfl, rfl, rfl⟩
  · have hcu : consOf u e = consOf t e := by simp only [consOf, hc]
    exact .inl ⟨e, he, by rw [hcu]; exact hk.used, by rw [hcu]; exact hk.who, by rw [hcu]; exact hk.kind,
      by rw [hcu]; exact hk.addr, by rw [hcu]; exact hk.size, by rw [hcu]; exact hk.data⟩

theorem storable_admitted {s : State} {l : LaneUse} {w : Who} {a n : Nat} {d : DWord} {f : Bool}
    (h : Storable s l w a n) (hn : 0 < n) : Admitted s w ⟨a, n, d, ringOf (getC s w), l.set.val, f⟩ := by
  have hi := h.inside
  simp only [inBanks, Bool.and_eq_true, decide_eq_true_eq] at hi
  have bank : region a = some .bank := by
    unfold region
    rw [if_neg (by omega), if_neg (by omega), if_pos (by omega)]
  exact .inr (by rw [phys_of_region_bank bank]; exact h.owner)

theorem poolRegs_lock : aRngLock ∉ poolRegs := by decide

theorem poolRegs_fast : aCshFastcfg ∉ poolRegs := by decide

/-- What a program sees after the next address or the loop follows from what it saw before. -/
theorem seen_advance_congr {c d : Coach} (h : seen c = seen d) (pc : Word) (len : Nat) :
    seen (advance c pc len) = seen (advance d pc len) := by
  have hstatus : c.status = d.status := congrArg (fun x => x.1.getD 1 0) h
  have hlend : c.lend = d.lend := congrArg (fun x => x.1.getD 13 0) h
  have hlcount : c.lcount = d.lcount := congrArg (fun x => x.1.getD 14 0) h
  simp only [seen, regList, List.cons_append, List.nil_append, Prod.mk.injEq, List.cons.injEq, and_true] at h
  unfold advance
  rw [hstatus, hlend, hlcount]
  split_ifs <;> simp [seen, regList, h]

/-! ### A spill -/

theorem toNat_sub_four {v : Word} (h : 4 ≤ v.toNat) : (v - 4).toNat = v.toNat - 4 := by
  have := v.isLt
  bv_omega

/-- The deepest entry of the operand head goes to memory. -/
theorem spillOne_posts {s : State} {l : LaneUse} {w : Who} {h : List Entry} {v : Word} (hd : (getC s w).dhead = h ++ [.val v])
    (h4 : 4 ≤ (getC s w).dsp.toNat) (ho : (getC s w).out = []) (hst : Storable s l w ((getC s w).dsp.toNat - 4) 4) :
    ∃ t, spillOne ⟨w, l.set.val⟩ .d false s = .ok ((), modC t w (fun c => { c with
        dhead := c.dhead.dropLast, dsp := (getC s w).dsp - 4, shifted := true })) ∧ Posts poolRegs s t w ∧
      Lands s t w ⟨(getC s w).dsp.toNat - 4, 4, v.zeroExtend 64, ringOf (getC s w), l.set.val, false⟩ := by
  have ha := toNat_sub_four h4
  have hv : BitVec.ofNat 64 (v.toNat % 256 ^ 4) = v.zeroExtend 64 := by
    have := v.isLt
    apply BitVec.eq_of_toNat_eq
    rw [BitVec.toNat_ofNat, BitVec.toNat_setWidth]
    omega
  obtain ⟨t, hp, ht, hl⟩ := postStore_posts (l := poolRegs) (s := s) (x := ⟨w, l.set.val⟩) (ring := ringOf (getC s w))
    (a := (getC s w).dsp.toNat - 4) (n := 4) (v := v.toNat) (frame := false) (List.Subset.refl _) poolRegs_lock poolRegs_fast
    (.inl fun p hp => by
      simp only [ho, List.nil_append, List.mem_singleton] at hp
      subst hp
      exact storable_admitted hst (by decide))
  rw [hv] at hl
  refine ⟨t, ?_, ht, hl⟩
  have hr : bankRange ((getC s w).dsp.toNat - 4) 4 = true := by
    unfold bankRange
    rw [hst.inside, Bool.true_or]
  unfold spillOne
  rw [bind_get]
  have hlast : (headOf .d (getC s w)).getLast? = some (.val v) := by
    simp only [headOf, hd, List.getLast?_append, List.getLast?_singleton, Option.some_or]
  have ha' : (spOf .d (getC s w) - 4).toNat = (getC s w).dsp.toNat - 4 := ha
  have hfree : (!bankRange (spOf .d (getC s w) - 4).toNat 4 || (vtlock s && inVectors (spOf .d (getC s w) - 4).toNat 4)) =
      false := by
    rw [ha', hr, hst.unlocked]
    rfl
  simp only [hlast]
  rw [if_neg (ne_true_of_eq_false hfree), ha', if_neg Bool.false_ne_true, bind_of_ok hp]
  rfl

/-! ### LIT on a full head -/

theorem need_push {s : State} {w : Who} (hh : headOnly s w = false) (hr : (getC s w).rhead.length ≤ 4)
    (h8 : (getC s w).dhead.length = 8) (hlim : spillLimit s .d (getC s w) + 4 ≤ (getC s w).dsp.toNat) :
    need w 0 1 0 0 s = .ok ((), s) := by
  refine need_ok s w 0 1 0 0 ?_ (stackFits_none s w .r hr)
  simp only [stackFits, hh, spillsFor, headOf, h8, Stk.cap, depthOf, spOf]
  simpa using hlim

theorem need_push_below {s : State} {w : Who} (hh : headOnly s w = false) (h8 : (getC s w).dhead.length = 8)
    (hlim : (getC s w).dsp.toNat < spillLimit s .d (getC s w) + 4) :
    need w 0 1 0 0 s = .error (.trap { vec := 5 } id) := by
  have hf : stackFits s w .d 0 1 = false := by
    simp only [stackFits, hh, spillsFor, headOf, h8, Stk.cap, depthOf, spOf]
    simpa using hlim
  rw [need, bind_get, hf]
  rfl

/-- A value pushed onto a full head has the deepest entry stored first. -/
theorem push_full {s : State} {l : LaneUse} {w : Who} {h : List Entry} {v : Word} (n : Word) (h7 : h.length = 7)
    (hd : (getC s w).dhead = h ++ [.val v]) (h4 : 4 ≤ (getC s w).dsp.toNat) (ho : (getC s w).out = [])
    (hst : Storable s l w ((getC s w).dsp.toNat - 4) 4) :
    ∃ t, push ⟨w, l.set.val⟩ n s = .ok ((), modC t w (fun c => { c with
        dhead := .val n :: c.dhead.dropLast, dsp := (getC s w).dsp - 4, ddepth := c.ddepth + 1, shifted := true })) ∧
      Posts poolRegs s t w ∧
      Lands s t w ⟨(getC s w).dsp.toNat - 4, 4, v.zeroExtend 64, ringOf (getC s w), l.set.val, false⟩ := by
  obtain ⟨t, hs, ht, hl⟩ := spillOne_posts hd h4 ho hst
  refine ⟨t, ?_, ht, hl⟩
  have h8 : (headOf .d (getC s w)).length = Stk.d.cap := by
    simp only [headOf, hd, List.length_append, List.length_singleton, h7, Stk.cap]
  unfold push pushE
  rw [bind_get, if_pos h8, bind_of_ok hs]
  show Except.ok ((), modC (modC t w _) w _) = _
  rw [modC_modC]
  rfl

/-- LIT on a full head (R36). -/
theorem execLit_full {s : State} {l : LaneUse} {w : Who} {h : List Entry} {v : Word} (n : BitVec 4) (hi : Issues s l w 1)
    (hh : headOnly s w = false) (hr : (getC s w).rhead.length ≤ 4) (h7 : h.length = 7)
    (hd : (getC s w).dhead = h ++ [.val v]) (hlim : spillLimit s .d (getC s w) + 4 ≤ (getC s w).dsp.toNat)
    (hst : Storable s l w ((getC s w).dsp.toNat - 4) 4) :
    ∃ t, execLit l n s = .next t ∧ NewStore s t w ((getC s w).dsp.toNat - 4) 4 (v.zeroExtend 64) ∧ SameMemory s t ∧
      SameRegistersBut poolRegs s t ∧ SameOthers s t w ∧
      seen (getC t w) = seen (advance { getC s w with
        dsp := (getC s w).dsp - 4, dhead := .val (n.zeroExtend 32) :: h, ddepth := (getC s w).ddepth + 1 } (getC s w).pc 1) := by
  have h8 : (getC s w).dhead.length = 8 := by rw [hd, List.length_append, h7]; rfl
  obtain ⟨t, hp, ht, hl⟩ := push_full (zImm n) h7 hd (by omega) hi.posted hst
  obtain ⟨o, hk, st, wt, hown⟩ := ht.own
  have hb : pushes (zImm n) ⟨w, l.set.val⟩ s = .ok (.seq, modC t w (fun c => { c with
      dhead := .val (zImm n) :: c.dhead.dropLast, dsp := (getC s w).dsp - 4, ddepth := c.ddepth + 1, shifted := true })) := by
    unfold pushes
    rw [bind_of_ok (need_push hh hr h8 hlim), bind_of_ok hp]
    rfl
  obtain ⟨u, hu, hf, hth⟩ := ends_thread s l w 1 .seq (modC t w (fun c => { c with
      dhead := .val (zImm n) :: c.dhead.dropLast, dsp := (getC s w).dsp - 4, ddepth := c.ddepth + 1, shifted := true }))
    (by rw [modC_up, ht.up, hi.up])
  refine ⟨u, (instr_ok hi hb (by decide)).trans hu, ?_, fun a => ?_, fun a ha => ?_, fun x hx => ?_, ?_⟩
  · refine newStore_of_lands hl (by rw [hf.cons, modC_cons]) ?_
    rw [hth.out, afterFlow_out, getC_modC_self]
  · rw [hf.mem, rdB_modC, ht.sameMemory]
  · rw [hf.csr, getR_modC, ht.csr a ha]
  · rw [hf.others x hx, getC_modC_other _ _ _ _ hx, ht.others x hx]
  · rw [hth.seen, seen_afterFlow, if_pos rfl, getC_modC_self, hown]
    refine seen_advance_congr ?_ _ _
    simp only [hd, List.dropLast_concat]
    rfl

/-! ### DROP of an entry in memory -/

theorem stackFits_deep {s : State} {w : Who} {i : Nat} (hh : headOnly s w = false) (hd : (getC s w).dhead.length ≤ 8)
    (hi : i ≤ (getC s w).ddepth.toNat) : stackFits s w .d i 0 = true := by
  have hn : spillsFor .d (getC s w) i 0 = 0 := by simp only [spillsFor, headOf, Stk.cap]; omega
  simp only [stackFits, hh, hn, depthOf, Bool.false_eq_true, if_false]
  exact Bool.and_eq_true_iff.mpr ⟨decide_eq_true hi, rfl⟩

/-- Popping an entry that lies in memory reads it there (R36, R38). -/
theorem popE_fill {s : State} {x : Iss} (hd : (getC s x.who).dhead = [])
    (ha : Accessible s x.who (reqOf s x) .load (getC s x.who).dsp.toNat 4) (hs : (getC s x.who).stall = none) :
    ∃ t, popE x .d s = .ok (.val (rd32 s (getC s x.who).dsp.toNat), modC t x.who (fun c => { c with
      dhead := [], dsp := c.dsp + 4, ddepth := c.ddepth - 1, shifted := true })) ∧ Reads s t := by
  obtain ⟨t, ht, hr⟩ := bankLoad_accessible (by decide) ha hs
  refine ⟨t, ?_, hr⟩
  have hb : bankRange (spOf .d (getC s x.who)).toNat 4 = true := by
    show bankRange (getC s x.who).dsp.toNat 4 = true
    unfold bankRange
    rw [ha.inside, Bool.true_or]
  have hfill : fillOne x .d s = .ok ((), modC t x.who (fun c => { c with
      dhead := [.val (rd32 s (getC s x.who).dsp.toNat)], dsp := c.dsp + 4, shifted := true })) := by
    unfold fillOne
    rw [bind_get, if_pos hb]
    show (bankLoad x (reqOf s x) (getC s x.who).dsp.toNat 4 >>= _) s = _
    rw [bind_of_ok ht]
    rfl
  unfold popE
  rw [bind_get, if_pos (by simp only [headOf, hd, List.isEmpty_nil]), bind_of_ok hfill, bind_get]
  simp only [headOf, getC_modC_self]
  rw [bind_modI, modC_modC]
  rfl

/-- DROP of an entry that lies in memory. -/
theorem execDrop_fill {s : State} {l : LaneUse} {w : Who} (hi : Issues s l w 1) (hh : headOnly s w = false)
    (hr : (getC s w).rhead.length ≤ 4) (hd : (getC s w).dhead = []) (hdd : 0 < (getC s w).ddepth.toNat)
    (ha : Accessible s w (reqOf s ⟨w, l.set.val⟩) .load (getC s w).dsp.toNat 4) :
    ∃ t, execDrop l s = .next t ∧ SameMemory s t ∧ SameRegistersBut [aCshPool] s t ∧ SameOthers s t w ∧
      seen (getC t w) = seen (advance { getC s w with
        dsp := (getC s w).dsp + 4, ddepth := (getC s w).ddepth - 1 } (getC s w).pc 1) := by
  obtain ⟨t, ht, hR⟩ := popE_fill (x := ⟨w, l.set.val⟩) hd ha hi.notStalled
  have hn : need w 1 0 0 0 s = .ok ((), s) :=
    need_ok s w 1 0 0 0 (stackFits_deep hh (by rw [hd]; decide) hdd) (stackFits_none s w .r hr)
  obtain ⟨u, hu, hf, hseen⟩ := ends_frame s l w 1 .seq (modC t w (fun c => { c with
    dhead := [], dsp := c.dsp + 4, ddepth := c.ddepth - 1, shifted := true })) (by rw [modC_up, hR.up, hi.up])
  rw [if_pos rfl, getC_modC_self, hR.getC] at hseen
  refine ⟨u, (instr_ok hi (by rw [bind_of_ok hn, bind_of_ok ht]; rfl) (by decide)).trans hu, fun a => ?_, fun a ha => ?_,
    fun x hx => ?_, ?_⟩
  · rw [hf.mem, rdB_modC, hR.sameMemory]
  · rw [hf.csr, getR_modC, hR.csr a (by simpa using ha)]
  · rw [hf.others x hx, getC_modC_other _ _ _ _ hx, hR.getC]
  · rw [hseen]
    refine seen_advance_congr ?_ _ _
    simp only [seen, hd]
    rfl

/-- Settles O32: the spill of a push, the limit, and the fill of a pop. -/
theorem spillsAndFills : Obligations.SpillsAndFills := by
  unfold Obligations.SpillsAndFills
  intro s l w hi hh hr
  refine ⟨fun n h v h7 hd => ⟨fun hlim hst => execLit_full n hi hh hr h7 hd hlim hst, fun hlim => ?_⟩,
    fun hd hdd ha => execDrop_fill hi hh hr hd hdd ha⟩
  exact instr_trap hi (bind_of_error (need_push_below hh (by rw [hd, List.length_append, h7]; rfl) hlim))

end Sys2Proof.Machine
end

section
/-! SUPPORT. Direct inputs (spec/02, R59, R60; spec/09, R241), borrowed cycles (spec/04, R110), and the instruction caches
(spec/03, R106; spec/04, R121). -/

namespace Sys2Proof.Machine

/-! ### Direct inputs -/

theorem fld_whole (v : Word) : fld v 0 32 = v.toNat := by
  have := v.isLt
  rw [fld, pow_zero, Nat.div_one, Nat.mod_eq_of_lt this]

/-- The lanes whose sample differs from `ref`. -/
def oddLanes (s : State) (x : Nat → Word) (ref : Word) : List Nat :=
  (([0, 1, 2].filter (fun p => (laneAt s p).isSome)).filter (fun p => x p ≠ ref)).filterMap (laneAt s)

theorem mem_oddLanes {s : State} {x : Nat → Word} {ref : Word} {n : Nat} :
    n ∈ oddLanes s x ref ↔ ∃ p, p < 3 ∧ laneAt s p = some n ∧ x p ≠ ref := by
  have hp : ∀ p, p ∈ [0, 1, 2] ↔ p < 3 := fun p => by simp only [List.mem_cons, List.not_mem_nil, or_false]; omega
  simp only [oddLanes, List.mem_filterMap, List.mem_filter, hp, decide_eq_true_eq]
  constructor
  · rintro ⟨p, ⟨⟨hp, -⟩, hx⟩, hn⟩
    exact ⟨p, hp, hn, hx⟩
  · rintro ⟨p, hp, hn, hx⟩
    exact ⟨p, ⟨⟨hp, by rw [hn]; rfl⟩, hx⟩, hn⟩

theorem mem_marks_divergence {s : State} {ls : List Nat} {c n d : Nat} :
    (n, d) ∈ (divergence s ls c).lnc.marks ↔ (n, d) ∈ s.lnc.marks ∨ (n ∈ ls ∧ d = c) := by
  unfold divergence
  split
  · rename_i h
    rw [List.isEmpty_iff] at h
    simp [h]
  · show (n, d) ∈ s.lnc.marks ++ _ ↔ _
    rw [List.mem_append, List.mem_filter, List.mem_map]
    by_cases hm : (n, d) ∈ s.lnc.marks
    · simp [hm]
    · simp only [hm, false_or, Prod.mk.injEq]
      constructor
      · rintro ⟨⟨a, ha, rfl, rfl⟩, -⟩
        exact ⟨ha, rfl⟩
      · rintro ⟨hn, rfl⟩
        exact ⟨⟨n, hn, rfl, rfl⟩, by simpa [bumpR] using hm⟩

/-- What a divergence leaves unchanged. -/
theorem divergence_frame (s : State) (ls : List Nat) (c : Nat) :
    (divergence s ls c).up = s.up ∧ SameMemory s (divergence s ls c) ∧ (∀ w, getC (divergence s ls c) w = getC s w) := by
  unfold divergence
  split
  · exact ⟨rfl, fun _ => rfl, fun _ => rfl⟩
  · exact ⟨rfl, fun _ => rfl, fun w => by cases w <;> rfl⟩

/-- IN.RAW in the voting set pushes the reference and marks the lanes that differ from it. -/
theorem execInRaw_set {s : State} {l : LaneUse} {w : Who} {x y z : Word} (h : Issues s l w 1) (ht : Takes s w [] [] 1 0)
    (hl : l.set.val = 0) : execInRaw l x y z s = ends s l w 1 .seq (divergence
      (modC s w (restack 0 [.val (rawSample s (sampleAt x y z)).1])) (rawSample s (sampleAt x y z)).2 (numOf s w)) := by
  refine instr_ok h ?_ (by decide)
  rw [bind_get, if_neg (by simp only [hl]; decide)]
  dsimp only
  rw [bind_of_ok (pushes_ok s ⟨w, l.set.val⟩ _ ht), bind_modify, numOf_modC, pure_eq]

/-- Settles O34: the samples, the marks and the count. -/
theorem directInputs : Obligations.DirectInputs := by
  unfold Obligations.DirectInputs
  intro s l w x y z h ht push maj low
  have agree : ∀ v, (if l.set.val ≠ 0 then x else agreed s x y z) = v → execInAgree l x y z s = push v := fun v hv => by
    refine instrLong_ok h ?_ (by decide)
    rw [bind_get]
    simp only [hv]
    exact pushes_ok s ⟨w, l.set.val⟩ v ht
  have hval : l.set = 0 ↔ l.set.val = 0 := by rw [Fin.val_eq_zero_iff]
  refine ⟨fun hl => ⟨?_, agree x (if_pos (fun e => hl (hval.mpr e)))⟩, fun hl => agree _ ?_, fun hl => ?_⟩
  · refine instr_ok h ?_ (by decide)
    rw [bind_get, if_pos (fun e => hl (hval.mpr e))]
    exact pushes_ok s ⟨w, l.set.val⟩ x ht
  · rw [if_neg (by simp [hl])]
    rfl
  · intro ref odd
    have hraw : (rawSample s (sampleAt x y z)).1 = ref := rfl
    have hodd : (rawSample s (sampleAt x y z)).2 = oddLanes s (sampleAt x y z) ref := rfl
    obtain ⟨t, htdef⟩ : ∃ t, t = modC s w (restack 0 [.val ref]) := ⟨_, rfl⟩
    have he := execInRaw_set (x := x) (y := y) (z := z) h ht (hval.mp hl)
    rw [hraw, hodd, ← htdef] at he
    obtain ⟨hup, hmem, hctx⟩ := divergence_frame t (oddLanes s (sampleAt x y z) ref) (numOf s w)
    obtain ⟨u, hu, hf, hseen⟩ := ends_frame s l w 1 .seq (divergence t (oddLanes s (sampleAt x y z) ref) (numOf s w))
      (by rw [hup, htdef, modC_up]; exact h.up)
    rw [if_pos rfl, hctx, htdef, getC_modC_self] at hseen
    refine ⟨u, he.trans hu, fun a => ?_, fun v hv => ?_, hseen, fun n d => ?_, fun ⟨n, hn⟩ => ?_, fun hno => fun a => ?_⟩
    · rw [hf.mem, hmem, htdef, rdB_modC]
    · rw [hf.others v hv, hctx, htdef, getC_modC_other _ _ _ _ hv]
    · rw [hf.lnc, mem_marks_divergence, mem_oddLanes, htdef, modC_lnc]
    · have hne : (oddLanes s (sampleAt x y z) ref).isEmpty = false := by
        rw [List.isEmpty_eq_false_iff]
        exact List.ne_nil_of_mem (mem_oddLanes.mpr hn)
      have hreg : getR (divergence t (oddLanes s (sampleAt x y z) ref) (numOf s w)) aKeyIncnt = getR (bumpR t aKeyIncnt 0 32 1) aKeyIncnt := by
        unfold divergence
        rw [if_neg (by rw [hne]; decide)]
        rfl
      rw [hf.csr, hreg, ← fld_whole, fld_bumpR t aKeyIncnt 1 (by decide), fld_whole, htdef, getR_modC]
    · have hnil : oddLanes s (sampleAt x y z) ref = [] := by
        rw [List.eq_nil_iff_forall_not_mem]
        exact fun n hn => hno ⟨n, mem_oddLanes.mp hn⟩
      rw [hf.csr, hnil, htdef]
      exact getR_modC s w _ a

/-! ### Borrowed cycles -/

/-- In a cycle that there is to borrow, LIT of the preselected coach issues (R110). -/
theorem execLit_borrow {s : State} {l : LaneUse} {n : Nat} (k : BitVec 4) (hb : l.borrowed = true)
    (hr : lsRuns s l.set.val = true) (hf : (l.set == 0 && fastReady s) = false) (hv : ∀ op, overrideOf s op = none)
    (hg : l.set.val ∈ s.gaps) (hn : best s l.set.val = some n) (hbd : atBoundary s (.coach n) = none)
    (hd : (coachOf s n).drain = false) (hw : (coachOf s n).window = none) (ho : (coachOf s n).out = [])
    (hst : (coachOf s n).stall = none)
    (hfetch : fetchAll s ⟨.coach n, l.set.val⟩ (fetchWords (coachOf s n).pc.toNat 1) = .ok)
    (ht : Takes s (.coach n) [] [] 1 0) :
    execLit l k s = .next (settle (complete (modC (setGap s l.set.val false) (.coach n) (fun c =>
      restack 0 [.val (zImm k)] { c with shifted := false })) ⟨.coach n, l.set.val⟩ (coachOf s n).pc 1 .seq true)) := by
  obtain ⟨v, hvd⟩ : ∃ v, v = modC (setGap s l.set.val false) (.coach n) (fun c => { c with shifted := false }) := ⟨_, rfl⟩
  have hc : getC v (.coach n) = { coachOf s n with shifted := false } := by rw [hvd, getC_modC_self]; rfl
  have htv : Takes v (.coach n) [] [] 1 0 := by
    have hh : headOnly v (.coach n) = headOnly s (.coach n) := by rw [hvd, headOnly_modC]; rfl
    exact ⟨by rw [hc]; exact ht.top, by rw [hc]; exact ht.rtop, by rw [hh, hc]; exact ht.deep, by rw [hc]; exact ht.room,
      by rw [hc]; exact ht.rroom⟩
  have hbody := pushes_ok v ⟨.coach n, l.set.val⟩ (zImm k) htv
  have hcost : costsOne (coachOf (modC v (.coach n) (restack 0 [.val (zImm k)])) n) .seq = true := by
    have : coachOf (modC v (.coach n) (restack 0 [.val (zImm k)])) n = restack 0 [.val (zImm k)] { coachOf s n with shifted := false } := by
      show getC (modC v (.coach n) _) (.coach n) = _
      rw [getC_modC_self, hc]
    rw [this]
    simp [costsOne, restack, hst]
  have hwords : ¬ 1 < (fetchWords (coachOf s n).pc.toNat 1).length := by
    unfold fetchWords
    simp
  show Host.Outcome.next (settle (dispatchRow k.toNat s l 1 (pushes (zImm k)) .plain)) = _
  unfold dispatchRow issue borrow
  simp only [hv, hr, hf, hb, hn, hbd, hd, hw, ho, hfetch, Bool.not_true, Bool.false_eq_true, if_false, if_true,
    List.contains_iff_mem.mpr hg, Option.isSome_none, Bool.false_or, List.isEmpty_nil, decide_eq_false hwords, bne_self_eq_false]
  rw [← hvd, hbody]
  simp only [hcost, if_true]
  rw [hvd, modC_modC]

/-- An instruction that transfers no control leaves no cycle to borrow. -/
theorem lane_not_mem_gaps (t : State) (x : Iss) (pc : Word) (len : Nat) (b : Bool) (hup : t.up = true) :
    x.lane ∉ (complete t x pc len .seq b).gaps := by
  unfold complete
  rw [if_neg (by simp [hup])]
  simp [setGap]

/-- Settles O33: the borrowed cycle, and what happens without one. -/
theorem borrowedCycle : Obligations.BorrowedCycle := by
  unfold Obligations.BorrowedCycle
  intro s l k hb hr hf hv
  refine ⟨fun n hg hn hbd hd hw ho hst hfetch ht => ?_, fun hg => ?_⟩
  · obtain ⟨t, htd⟩ : ∃ t, t = modC (setGap s l.set.val false) (.coach n) (fun c =>
      restack 0 [.val (zImm k)] { c with shifted := false }) := ⟨_, rfl⟩
    have hrun := execLit_borrow k hb hr hf hv hg hn hbd hd hw ho hst hfetch ht
    rw [← htd] at hrun
    have hup : t.up = true := by
      rw [htd, modC_up]
      simp only [lsRuns, issuing, Bool.and_eq_true] at hr
      exact hr.1.1
    obtain ⟨u, hu, he⟩ := complete_eq t ⟨.coach n, l.set.val⟩ (coachOf s n).pc 1 .seq true hup
    rw [if_neg (by decide)] at he
    have hframe := (hu.endFrame (.coach n)).trans ((endFrame_modC u (.coach n) (afterFlow u (coachOf s n).pc 1 .seq)).trans
      (endFrame_settle _ (.coach n)))
    rw [← he] at hframe
    refine ⟨_, hrun, ?_, fun a => ?_, fun a => ?_, fun x hx => ?_, ?_⟩
    · rw [settle_gaps]
      exact lane_not_mem_gaps t ⟨.coach n, l.set.val⟩ _ 1 true hup
    · rw [hframe.mem, htd, rdB_modC]; rfl
    · rw [hframe.csr, htd, getR_modC]; rfl
    · rw [hframe.others x hx, htd, getC_modC_other _ _ _ _ hx]
      cases x <;> rfl
    · show seen (getC _ (.coach n)) = _
      rw [seen_settle, he, getC_modC_self, seen_afterFlow, if_pos rfl, hu.getC, htd, getC_modC_self]
      refine seen_advance_congr ?_ _ _
      rfl
  · show Host.Outcome.next (settle (dispatchRow k.toNat s l 1 (pushes (zImm k)) .plain)) = _
    unfold dispatchRow issue borrow
    simp only [hv, hr, hf, hb, Bool.not_true, Bool.false_eq_true, if_false, if_true]
    rw [if_pos (by simpa using hg)]

/-! ### Instruction caches -/

theorem mem_icache_icTouch {s : State} {l k key line : Nat} (h : line ∈ (icTouch s l k).icache.get [] key) :
    line ∈ s.icache.get [] key := by
  unfold icTouch at h
  dsimp only at h
  split at h
  · rename_i hk
    rw [SMap.get_set] at h
    split at h
    · rename_i e
      rw [e]
      rcases List.mem_cons.mp h with rfl | h
      · exact List.contains_iff_mem.mp hk
      · exact (List.mem_filter.mp h).1
    · exact h
  · exact h

/-- The end of an instruction puts no line into a cache. -/
theorem mem_icache_complete {t : State} {x : Iss} {pc : Word} {len : Nat} {f : Flow} {b : Bool} {key line : Nat}
    (h : line ∈ (complete t x pc len f b).icache.get [] key) : line ∈ t.icache.get [] key := by
  have hfold : ∀ (ws : List Nat) (u : State), line ∈ (ws.foldl (fun u a => icTouch u x.lane (phys a / 32)) u).icache.get [] key →
      line ∈ u.icache.get [] key := by
    intro ws
    induction ws with
    | nil => exact fun u h => h
    | cons a r ih => exact fun u h => mem_icache_icTouch (ih _ h)
  unfold complete at h
  split at h
  · exact h
  · refine hfold (fetchWords pc.toNat len) t ?_
    cases f with
    | seq => rwa [modC_icache] at h
    | jump => rwa [modC_icache] at h
    | stay => rwa [modC_icache] at h
    | gone => exact h

theorem mem_icache_icDrop {s : State} {p : Nat → Bool} {key line : Nat} (h : line ∈ (icDrop s p).icache.get [] key) :
    p line = false := by
  have hget : ∀ m : SMap (List Nat), line ∈ SMap.get [] ((m.map (fun e => (e.1, e.2.filter (fun k => !p k)))).filter
      (fun e => !e.2.isEmpty)) key → p line = false := by
    intro m
    induction m with
    | nil => exact fun h => absurd h (by simp [SMap.get])
    | cons e r ih =>
      intro h
      rw [List.map_cons, List.filter_cons] at h
      split at h
      · simp only [SMap.get] at h
        split at h
        · simpa using (List.mem_filter.mp h).2
        · exact ih h
      · exact ih h
  exact hget s.icache h

theorem complete_icache_nil {t : State} {x : Iss} {pc : Word} {len : Nat} {f : Flow} {b : Bool} (h : t.icache = []) :
    (complete t x pc len f b).icache = [] := by
  have hfold : ∀ ws : List Nat, (ws.foldl (fun u a => icTouch u x.lane (phys a / 32)) t) = t := by
    intro ws
    induction ws with
    | nil => rfl
    | cons a r ih =>
      have ht : icTouch t x.lane (phys a / 32) = t := by simp [icTouch, h, SMap.get]
      rw [List.foldl_cons, ht, ih]
  unfold complete
  split
  · exact h
  · rw [hfold]
    cases f <;> simp [h, setGap]

theorem icDrop_all (s : State) : (icDrop s (fun _ => true)).icache = [] := by
  simp [icDrop, List.filter_map, Function.comp_def]

theorem icDrop_frame (s : State) (p : Nat → Bool) : SameButCaches s (icDrop s p) := ⟨_, s.gaps, rfl⟩

/-- The end of an instruction that has changed its own context and the caches. -/
theorem ends_caches {s u t : State} {l : LaneUse} {w : Who} {len : Nat} (hu : EndFrame s u w) (ht : SameButCaches u t)
    (hup : u.up = true) : ∃ r, ends s l w len .seq t = .next r ∧ SameMemory s r ∧ SameRegisters s r ∧
      seen (getC r w) = seen (advance (getC u w) (getC s w).pc len) ∧
      r.icache = (complete t ⟨w, l.set.val⟩ (getC s w).pc len .seq).icache := by
  have hframe := hu.trans (ht.endFrame w)
  obtain ⟨r, hr, hf, hseen⟩ := ends_frame s l w len .seq t (by obtain ⟨_, _, rfl⟩ := ht; exact hup)
  rw [if_pos rfl, ht.getC] at hseen
  refine ⟨r, hr, fun a => (hf.mem a).trans (hframe.mem a), fun a => (hf.csr a).trans (hframe.csr a), hseen, ?_⟩
  have hx := Host.Outcome.next.inj (show Host.Outcome.next r = Host.Outcome.next _ from hr.symm.trans rfl)
  rw [hx, settle_icache]

/-- ICINV in a ring that may drops the lines of its range (R106). -/
theorem execIcinv_ok {s : State} {l : LaneUse} {w : Who} {a n : Word} (h : Issues s l w 2)
    (ht : Takes s w [.val n, .val a] [] 0 0) (hr : ringOf (getC s w) ≤ 1) :
    execIcinv l s = ends s l w 2 .seq (if n = 0 then modC s w (restack 2 []) else
      icDrop (modC s w (restack 2 [])) (lineIn a.toNat n.toNat)) := by
  have hn : need w 2 0 0 0 s = .ok ((), s) := ht.need
  have hd := top_drop ht
  refine instrLong_ok h ?_ (by decide)
  rw [bind_of_ok hn, bind_of_ok (pop_restack s ⟨w, l.set.val⟩ n _ hd),
    bind_of_ok (pop_restack _ ⟨w, l.set.val⟩ a ((getC s w).dhead.drop 2) (by rw [getC_modC_self, restack_dhead, hd]; rfl)),
    bind_get, if_neg (by rw [getC_modC_self, getC_modC_self]; simpa [ringOf] using hr), bind_modify, modC_modC, pure_eq]
  simp only [restack_pop]

theorem execIcinv_denied {s : State} {l : LaneUse} {w : Who} {a n : Word} (h : Issues s l w 2)
    (ht : Takes s w [.val n, .val a] [] 0 0) (hr : 1 < ringOf (getC s w)) : execIcinv l s = raises s l w { vec := vPRIV } := by
  have hn : need w 2 0 0 0 s = .ok ((), s) := ht.need
  have hd := top_drop ht
  refine instrLong_trap h ?_
  rw [bind_of_ok hn, bind_of_ok (pop_restack s ⟨w, l.set.val⟩ n _ hd),
    bind_of_ok (pop_restack _ ⟨w, l.set.val⟩ a ((getC s w).dhead.drop 2) (by rw [getC_modC_self, restack_dhead, hd]; rfl)),
    bind_get, if_pos (by rw [getC_modC_self, getC_modC_self]; simpa [ringOf] using hr)]
  rfl

theorem lineIn_of_byte {a n b line : Nat} (h1 : a ≤ b) (h2 : b < a + n) (h3 : b / 32 = line) : lineIn a n line = true := by
  unfold lineIn
  simp only [Bool.or_eq_true, Bool.and_eq_true, decide_eq_true_eq]
  exact .inl (.inl (by omega))

/-! ### The fill of a missed line -/

/-- The reads of a fill of clean words meet no error. -/
theorem fillRead_clean {x : Iss} {s : State} (i : Nat) {w : Nat} (ht : (getC s x.who).told = []) (hw : eccAt s w = 0) :
    fillRead x s i w = (s, 0) := by
  have hc : checkWord s w false = (s, true) := by simp only [checkWord, hw]
  have hb : ¬ 8 < (SMap.get {} (getC s x.who).told i : Told).busy := by
    rw [ht]
    show ¬ 8 < 0
    decide
  unfold fillRead
  rw [if_neg hb, hc]
  rfl

theorem fillReads_clean {x : Iss} {s : State} (ht : (getC s x.who).told = []) (ws : List (Nat × Nat))
    (hw : ∀ w ∈ ws, eccAt s w.1 = 0) (bad : List (Nat × BitVec 3)) :
    ws.foldl (fun acc w => ((fillRead x acc.1 w.2 w.1).1,
      if (fillRead x acc.1 w.2 w.1).2 = 0 then acc.2 else acc.2 ++ [(w.1, (fillRead x acc.1 w.2 w.1).2)])) (s, bad) = (s, bad) := by
  induction ws with
  | nil => rfl
  | cons w r ih =>
    rw [List.foldl_cons, fillRead_clean w.2 ht (hw w List.mem_cons_self)]
    exact ih (fun v hv => hw v (List.mem_cons_of_mem _ hv))

theorem icHas_icFill (s : State) (l line : Nat) : icHas (icFill s l line) l line = true := by
  unfold icFill
  split
  · rename_i h
    unfold icHas
    rw [h, Bool.or_true]
  · unfold icHas
    simp only []
    rw [SMap.get_set, if_pos rfl]
    have hways : 0 < icWays s line := by unfold icWays; split <;> decide
    obtain ⟨k, hk⟩ := Nat.exists_eq_succ_of_ne_zero (Nat.pos_iff_ne_zero.mp hways)
    rw [hk, List.take_succ_cons, List.contains_cons, beq_self_eq_true, Bool.true_or, Bool.true_or]

theorem icFill_frame (s : State) (l line : Nat) : SameButCaches s (icFill s l line) := by
  unfold icFill
  split
  · exact ⟨_, _, rfl⟩
  · exact ⟨_, s.gaps, rfl⟩

/-- A miss fill of a bank line without an error. -/
theorem fillBank_clean {s : State} {x : Iss} {a : Nat} (fa : Nat) (ht : (getC s x.who).told = [])
    (hp : cPort s (bankOf a) (reqOf s x) .load = .ok) (hw : ∀ w ∈ fillOrder a, eccAt s w = 0) :
    fillBank s x a fa = icFill (modC s x.who (fun c => { c with told := [] })) x.lane (a / 32) := by
  have hz : ∀ w ∈ (fillOrder a).zipIdx, eccAt s w.1 = 0 := fun w hm => hw w.1 (List.fst_mem_of_mem_zipIdx hm)
  have hfold := fillReads_clean ht (fillOrder a).zipIdx hz []
  unfold fillBank
  simp only [hp]
  rw [hfold]
  rfl

/-- Settles O35: what ICINV and ICINVA drop, and what a fill brings. -/
theorem instructionCaches : Obligations.InstructionCaches := by
  unfold Obligations.InstructionCaches
  refine ⟨fun s l w a n h => ⟨fun ht => ⟨fun hr => execIcinv_denied h ht hr, fun hr => ?_⟩, fun hr => ?_, fun hr => ?_⟩,
    fun s l w a hr hi hheld hst hwd ho ht hm ha hp hw => ?_⟩
  · have hc : SameButCaches (modC s w (restack 2 [])) (if n = 0 then modC s w (restack 2 []) else
        icDrop (modC s w (restack 2 [])) (lineIn a.toNat n.toNat)) := by
      split
      · exact ⟨_, _, rfl⟩
      · exact icDrop_frame _ _
    obtain ⟨r, hrun, hmem, hcsr, hseen, hic⟩ := ends_caches (l := l) (len := 2) (endFrame_modC s w (restack 2 [])) hc
      (by rw [modC_up]; exact h.up)
    rw [getC_modC_self] at hseen
    refine ⟨r, (execIcinv_ok h ht hr).trans hrun, hmem, hcsr, hseen, fun key line b hl hb => ?_⟩
    rw [hic] at hl
    have hl := mem_icache_complete hl
    have hpos : n ≠ 0 := by
      rintro rfl
      have h0 : (0 : Word).toNat = 0 := rfl
      omega
    rw [if_neg hpos] at hl
    have := mem_icache_icDrop hl
    rw [lineIn_of_byte hb.1 hb.2.1 hb.2.2] at this
    cases this
  · refine instrLong_trap h ?_
    rw [bind_get, if_pos hr]
    rfl
  · obtain ⟨r, hrun, hmem, hcsr, hseen, hic⟩ := ends_caches (l := l) (len := 2) (EndFrame.refl s w)
      (icDrop_frame s (fun _ => true)) h.up
    refine ⟨r, (instrLong_ok h ?_ (by decide)).trans hrun, ?_, hmem, hcsr, hseen⟩
    · rw [bind_get, if_neg (by show ¬ 1 < ringOf (getC s w); omega)]
      rfl
    · rw [hic, complete_icache_nil (icDrop_all s)]
  · have hready : ready s w = s := ready_quiet hwd ho
    have hfill := fillBank_clean (x := ⟨w, l.val⟩) a ht hp hw
    have hrun : missFill s l .none = icFill (modC s w (fun c => { c with told := [] })) l.val (a / 32) := by
      unfold missFill
      simp only [hr, hi, hheld, hst, hready, hm, ha, Bool.not_true, Bool.false_eq_true, if_false, Option.isSome_none, Bool.or_self]
      exact hfill
    have hframe := (endFrame_modC s w (fun c => { c with told := [] })).trans
      ((icFill_frame (modC s w (fun c => { c with told := [] })) l.val (a / 32)).endFrame w)
    refine ⟨settle (missFill s l .none), rfl, ?_, fun b => ?_, fun b => ?_, fun v => ?_⟩
    · have hcsr : (settle (missFill s l .none)).csr = (missFill s l .none).csr := settle_csr _
      have hic : (settle (missFill s l .none)).icache = (missFill s l .none).icache := settle_icache _
      have : icHas (settle (missFill s l .none)) l.val (a / 32) = icHas (missFill s l .none) l.val (a / 32) := by
        simp only [icHas, hic, vtlock, getR, hcsr]
      rw [this, hrun, icHas_icFill]
    · rw [rdB_settle, hrun]; exact hframe.mem b
    · rw [getR_settle, hrun]; exact hframe.csr b
    · rw [seen_settle, hrun]
      by_cases hv : v = w
      · rw [hv, (icFill_frame _ _ _).getC, getC_modC_self]
        rfl
      · exact hframe.others v hv

end Sys2Proof.Machine
end

section
/-! SUPPORT. Routines of the writable microstore of one microword (spec/10, R260, R270 to R275). -/

namespace Sys2Proof.Machine

/-! ### The microword -/

/-- ALU code `code`, source A T0, source B T1, destination U0, END (R271). -/
def aluWord (code : Nat) : Nat := 2 ^ 110 + code * 2 ^ 88 + 2 ^ 80

theorem aluWord_srcA (code : Nat) : mfield (aluWord code) 84 4 = 0 := by unfold mfield aluWord; omega
theorem aluWord_srcB (code : Nat) : mfield (aluWord code) 80 4 = 1 := by unfold mfield aluWord; omega
theorem aluWord_dst (code : Nat) : mfield (aluWord code) 76 4 = 0 := by unfold mfield aluWord; omega
theorem aluWord_res73 (code : Nat) : mfield (aluWord code) 73 3 = 0 := by unfold mfield aluWord; omega
theorem aluWord_mem (code : Nat) : mfield (aluWord code) 69 4 = 0 := by unfold mfield aluWord; omega
theorem aluWord_flg (code : Nat) : mfield (aluWord code) 66 3 = 0 := by unfold mfield aluWord; omega
theorem aluWord_res64 (code : Nat) : mfield (aluWord code) 64 2 = 0 := by unfold mfield aluWord; omega
theorem aluWord_imm (code : Nat) : mfield (aluWord code) 32 32 = 0 := by unfold mfield aluWord; omega
theorem aluWord_vnd (code : Nat) : mfield (aluWord code) 0 32 = 0 := by unfold mfield aluWord; omega

section
variable {code : Nat} (h : code < 16)
include h

theorem aluWord_alu : mfield (aluWord code) 88 6 = code := by unfold mfield aluWord; omega
theorem aluWord_cond : mfield (aluWord code) 104 4 = 0 := by unfold mfield aluWord; omega
theorem aluWord_seq : mfield (aluWord code) 108 2 = 0 := by unfold mfield aluWord; omega
theorem aluWord_yld : mfield (aluWord code) 111 1 = 0 := by unfold mfield aluWord; omega
theorem aluWord_end : mfield (aluWord code) 110 1 = 1 := by unfold mfield aluWord; omega

end

/-- The codes of an ALU result of two operands, each with its result (R272). -/
def aluPairs (a b : Word) : List (Nat × Word) := [(1, b + a), (2, b - a), (8, b &&& a), (9, b ||| a), (10, b ^^^ a)]

theorem aluPairs_code {a b r : Word} {code : Nat} (h : (code, r) ∈ aluPairs a b) :
    code < 16 ∧ aluCodes.contains code = true ∧ code ≠ 0 ∧ (microAlu code b a false).1 = r ∧ (microAlu code b a false).2.2.2 = 1 := by
  simp only [aluPairs, List.mem_cons, Prod.mk.injEq, List.not_mem_nil, or_false] at h
  rcases h with ⟨rfl, rfl⟩ | ⟨rfl, rfl⟩ | ⟨rfl, rfl⟩ | ⟨rfl, rfl⟩ | ⟨rfl, rfl⟩
  · exact ⟨by decide, by decide, by decide, by simp [microAlu, addWith, b2n, BitVec.ofNat_add], rfl⟩
  · exact ⟨by decide, by decide, by decide, by simp [microAlu, subWith, b2n], rfl⟩
  · exact ⟨by decide, by decide, by decide, rfl, rfl⟩
  · exact ⟨by decide, by decide, by decide, rfl, rfl⟩
  · exact ⟨by decide, by decide, by decide, rfl, rfl⟩

theorem aluWord_codes {code : Nat} (h : code < 16) (hc : aluCodes.contains code = true) (r : Bool) :
    badCodes r (aluWord code) = false := by
  have h3f : (code == 0x3F) = false := by
    rw [beq_eq_false_iff_ne]
    omega
  unfold badCodes
  simp only [aluWord_alu h, aluWord_srcA, aluWord_srcB, aluWord_dst, aluWord_res73, aluWord_mem, aluWord_flg,
    aluWord_res64, aluWord_vnd, aluWord_cond h, aluWord_seq h, aluWord_yld h, hc, h3f]
  cases r <;> rfl

theorem aluWord_operands (code : Nat) : badOperands (aluWord code) 2 = false := by
  unfold badOperands
  simp only [aluWord_srcA, aluWord_srcB]
  rfl

/-! ### The routine -/

/-- A commit of a step without loads. -/
theorem commitValues_nil {x : Iss} {q : Routine} {s : State} (k : Nat) (hq : q.met = []) :
    commitValues x q k s =
      .ok ((q.u.take k).map (fun r => match r with | .val w _ => w | _ => 0), modC s x.who (fun c => { c with got := [] })) := by
  unfold commitValues
  simp only [hq, List.filterMap_nil, List.findSome?_nil]
  rfl

theorem microMem_none {x : Iss} {r : Bool} {q : Routine} {dst : Nat} {a : Word} {s : State} :
    microMem x r q 0 dst a s = .ok (q, s) := rfl

/-- A routine of that one microword pushes the ALU's result. -/
theorem runRoutine_alu {x : Iss} {d : Dispatch} {e code : Nat} {a b r : Word} {s : State} (f : Nat)
    (hw : d.words.get 0 e = aluWord code) (hc : (code, r) ∈ aluPairs a b) (hin : d.nin = 2) (hout : d.nout = 1)
    (hg : (getC s x.who).got = []) (hroom : (getC s x.who).dhead.length < 8) :
    runRoutine x d (f + 1) { t := [b, a], pc := e } s = .ok (.seq, modC s x.who (restack 0 [.val r])) := by
  obtain ⟨h16, hcode, h0, hres, hlat⟩ := aluPairs_code hc
  have h3f : code ≠ 0x3F := by omega
  have h28 : code < 0x28 := by omega
  have hlimit : ¬ d.limit ≤ 0 := by unfold Dispatch.limit; split <;> decide
  rw [runRoutine]
  simp only [hw, hin, aluWord_codes h16 hcode, aluWord_operands, aluWord_alu h16, aluWord_srcA, aluWord_srcB,
    aluWord_dst, aluWord_mem, aluWord_flg, aluWord_imm, aluWord_yld h16, aluWord_end h16, h3f, h28, Bool.false_eq_true,
    if_false, ne_eq, decide_true, Bool.and_true, false_and]
  have hA : readSrc x { t := [b, a], pc := e } 0 0 s = .ok ((b, 0), s) := rfl
  have hB : readSrc x { t := [b, a], pc := e } 1 0 s = .ok ((a, 0), s) := rfl
  rw [bind_of_ok hA, if_pos (by simp [h0, h3f]), bind_of_ok hB]
  simp only [Nat.max_self, if_neg hlimit, pure_bind, show ¬ (0 : Nat) = 15 from by decide, not_false_eq_true, and_self, if_true,
    hres, hlat, Nat.zero_add]
  rw [bind_of_ok microMem_none]
  simp only [if_neg hlimit, show ¬ (0 : Nat) = 1 from by decide, if_false, hout]
  rw [bind_of_ok (commitValues_nil 1 rfl)]
  have hpush := pushAll_room x [r] (modC s x.who (fun c => { c with got := [] })) (by simp)
    (by rw [getC_modC_self]; simp only [List.length_singleton]; omega)
  show (pushAll x [r] >>= _) _ = _
  rw [bind_of_ok hpush]
  show Except.ok (Flow.seq, modC (modC s x.who _) x.who _) = _
  rw [modC_modC]
  refine congrArg (fun t => Except.ok (Flow.seq, t)) (modC_congr _ _ _ _ ?_)
  simp [restack, hg, u32]

theorem inside_ok {α : Type} {r : Routed} {m : M α} {s t : State} {v : α} (h : m s = .ok (v, t)) : inside r m s = .ok (v, t) := by
  unfold inside
  rw [h]

/-- A dispatch into a routine of that one microword replaces the two entries by the ALU's result. -/
theorem dispatch_alu {w : Who} {i e code : Nat} {d : Dispatch} {a b r : Word} {s : State}
    (hw : d.words.get 0 e = aluWord code) (hc : (code, r) ∈ aluPairs a b) (hin : d.nin = 2) (hout : d.nout = 1)
    (hr : (getC s w).routine = none) (hg : (getC s w).got = []) (hsw : s.mcs.sw ≠ some d.cmr)
    (ht : Takes s w [.val b, .val a] [] 1 0) :
    dispatch ⟨w, i⟩ d e s = .ok (.seq, modC s w (restack 2 [.val r])) := by
  have hn : need w 2 1 0 0 s = .ok ((), s) := ht.need
  have hroom := ht.room
  have hpop := popN_vals ⟨w, i⟩ [b, a] s ((getC s w).dhead.drop 2) (by simp) (top_drop ht)
  obtain ⟨u, hu⟩ : ∃ u, popN ⟨w, i⟩ 2 s = .ok ([b, a], u) ∧ u = modC s w (restack 2 []) := by
    refine ⟨_, hpop, modC_congr _ _ _ _ ?_⟩
    simp [restack, u32]
  have hrun := runRoutine_alu (x := ⟨w, i⟩) (s := u) 23 hw hc hin hout
    (by rw [hu.2, getC_modC_self]; exact hg) (by
      rw [hu.2, getC_modC_self, restack_dhead]
      simp only [List.length_cons, List.length_nil, List.nil_append, List.length_drop] at hroom ⊢
      omega)
  unfold dispatch
  rw [bind_get, hin, hout, bind_of_ok hn, if_neg (by rw [hr]; simp), if_neg hsw]
  unfold routineStep
  rw [hin, bind_of_ok hu.1, inside_ok hrun, hu.2, modC_modC]
  simp only [restack_push, List.append_nil]

/-! ### CUSTn -/

/-- A body that fails raises its exception on the state before it. -/
theorem instrOwn_trap {op : Nat} {s : State} {l : LaneUse} {w : Who} {len : Nat} {body : Iss → M Flow} {i : XItem}
    (h : Issues s l w len) (hb : body ⟨w, l.set.val⟩ s = .error (.trap i id)) : instrOwn op s l len body = raises s l w i := by
  simp only [instrOwn, noBorrow_of_issues h, dispatch_of_issues h, raises, runBody, hb, id]

/-- A body that succeeds, and does not stall its coach, ends its instruction. -/
theorem instrOwn_ok {op : Nat} {s : State} {l : LaneUse} {w : Who} {len : Nat} {body : Iss → M Flow} {f : Flow} {t : State}
    (h : Issues s l w len) (hb : body ⟨w, l.set.val⟩ s = .ok (f, t)) (hf : f ≠ .stay) :
    instrOwn op s l len body = ends s l w len f t := by
  simp only [instrOwn, noBorrow_of_issues h, dispatch_of_issues h, ends, runBody_ok _ hb hf]

section
variable {s : State} {l : LaneUse} {w : Who} {k : BitVec 4} {d : Word} (h : Issues s l w 1)
  (hd : d = u32 (s.mcs.cact.get 0 (1024 + k.toNat)))
include h hd

theorem execCustn_invalid (hv : bit d 31 = false) : execCustn l k s = raises s l w { vec := vILLEGAL, reason := 3 } := by
  refine instrOwn_trap h ?_
  unfold custom
  rw [bind_get]
  rw [u32] at hd
  simp only [← hd, hv, Bool.not_false, if_true]
  rfl

theorem execCustn_denied (hv : bit d 31 = true) (hr : fld d 28 2 < ringOf (getC s w)) :
    execCustn l k s = raises s l w { vec := vPRIV } := by
  refine instrOwn_trap h ?_
  unfold custom
  rw [bind_get]
  rw [u32] at hd
  simp only [← hd, hv, Bool.not_true, Bool.false_eq_true, if_false, hr, if_true]
  rfl

end

/-- A field of four bits below 8 is one of three bits below a 0. -/
theorem fld_of_fld_four {v : Word} {lo n : Nat} (hf : fld v lo 4 = n) (hn : n < 8) :
    fld v lo 3 = n ∧ bit v (lo + 3) = false := by
  unfold fld at hf ⊢
  refine ⟨by omega, ?_⟩
  have hdiv : v.toNat / 2 ^ (lo + 3) = v.toNat / 2 ^ lo / 8 := by rw [pow_add, Nat.div_div_eq_div_mul]; rfl
  show v.getLsbD (lo + 3) = false
  rw [BitVec.getLsbD, Nat.testBit_eq_decide_div_mod_eq, hdiv, decide_eq_false_iff_not]
  omega

theorem execCustn_ok {s : State} {l : LaneUse} {w : Who} {k : BitVec 4} {d a b r : Word} {code : Nat} (h : Issues s l w 1)
    (hd : d = u32 (s.mcs.cact.get 0 (1024 + k.toNat))) (hr : (getC s w).routine = none) (hg : (getC s w).got = [])
    (hc : (code, r) ∈ aluPairs a b) (ht : Takes s w [.val b, .val a] [] 1 0) (hv : bit d 31 = true)
    (hring : ringOf (getC s w) ≤ fld d 28 2) (hout : fld d 24 4 = 1) (hin : fld d 20 4 = 2) (hres : fld d 10 10 = 0)
    (hsw : s.mcs.sw ≠ some true) (hw : s.mcs.cact.get 0 (fld d 0 10) = aluWord code) :
    execCustn l k s = ends s l w 1 .seq (modC s w (restack 2 [.val r])) := by
  obtain ⟨hout3, h27⟩ := fld_of_fld_four hout (by decide)
  obtain ⟨hin3, h23⟩ := fld_of_fld_four hin (by decide)
  refine instrOwn_ok h ?_ (by decide)
  unfold custom
  rw [bind_get]
  rw [u32] at hd
  simp only [← hd, hv, Bool.not_true, Bool.false_eq_true, if_false, Nat.not_lt.mpr hring, hin3, hout3, h27, h23, hres]
  exact dispatch_alu hw hc rfl rfl hr hg hsw ht

/-! ### The vendor patch -/

/-- When a boundary with no takeover window takes nothing. -/
theorem atBoundary_coach_none {s : State} {n : Nat} (hw : (coachOf s n).window = none) :
    atBoundary s (.coach n) = none ↔
      (coachOf s n).pexc = none ∧ (n == 0 && !svc s && (coachOf s n).l3Req) = false ∧ boundaryItem s n (coachOf s n) = none := by
  unfold atBoundary
  simp only [hw]
  cases (coachOf s n).pexc with
  | some e => simp
  | none => cases (n == 0 && !svc s && (coachOf s n).l3Req) <;> simp

theorem firstRanked_mcs (s : State) (m : Mcs) (ns : List Nat) : firstRanked { s with mcs := m } ns = firstRanked s ns := by
  have hprio (n : Nat) : srcPrio { s with mcs := m } n = srcPrio s n := rfl
  induction ns with
  | nil => rfl
  | cons n r ih => simp only [firstRanked, ih, hprio]

theorem boundaryItem_mcs (s : State) (m : Mcs) (n : Nat) (c : Coach) :
    boundaryItem { s with mcs := m } n c = boundaryItem s n c := by
  have hadm : itemAdmitted { s with mcs := m } c = itemAdmitted s c := rfl
  have hchoice : offerChoice { s with mcs := m } n = offerChoice s n := by
    unfold offerChoice
    rw [firstRanked_mcs]
    rfl
  have hev : eventFor { s with mcs := m } n = eventFor s n := by
    unfold eventFor offerOf
    rw [hchoice]
    rfl
  unfold boundaryItem
  rw [hadm, hev]

/-- What a boundary takes does not depend on the microstore. -/
theorem atBoundary_mcs {s : State} {w : Who} (m : Mcs) (hw : (getC s w).window = none)
    (h : atBoundary { s with mcs := m } w = none) : atBoundary s w = none := by
  cases w with
  | fast =>
    unfold atBoundary at h ⊢
    cases hi : s.fast.imprecise with
    | nil => rfl
    | cons x xs => simp [hi] at h
  | coach n =>
    obtain ⟨hp, hl, hb⟩ := (atBoundary_coach_none (s := { s with mcs := m }) hw).mp h
    exact (atBoundary_coach_none hw).mpr ⟨hp, hl, (boundaryItem_mcs s m n _).symm.trans hb⟩

theorem fetchAll_mcs (s : State) (m : Mcs) (x : Iss) (ws : List Nat) : fetchAll { s with mcs := m } x ws = fetchAll s x ws := by
  induction ws with
  | nil => rfl
  | cons a r ih =>
    have hw : fetchWord { s with mcs := m } x a = fetchWord s x a := rfl
    simp only [fetchAll, hw, ih]

/-- A row that a routine of the vendor patch replaces. -/
theorem instr_patched {op e len : Nat} {s : State} {l : LaneUse} {w : Who} {body : Iss → M Flow} {f : Flow} {t : State} {m : Mcs}
    (h : Issues { s with mcs := m } l w len) (ho : overrideOf s op = some e)
    (hb : patched op e ⟨w, l.set.val⟩ s = .ok (f, t)) (hf : f ≠ .stay) : instr op s l len body = ends s l w len f t := by
  have hq := atBoundary_mcs (s := s) m h.noWindow h.quiet
  have hready : ready s w = s := ready_quiet h.noWindow h.posted
  have hfetch := (fetchAll_mcs s m ⟨w, l.set.val⟩ (fetchWords (getC s w).pc.toNat len)).symm.trans h.fetched
  have hissue : issue s l len (patched op e) .plain = runBody s ⟨w, l.set.val⟩ len (patched op e) .plain := by
    unfold issue issueOwn
    simp only [show lsRuns s l.set.val = true from h.lane, show issuer s l.set.val = some w from h.who,
      show (l.set == 0 && fastReady s) = false from h.notFast, h.own, show (getC s w).held = none from h.notHeld,
      show (getC s w).stall = none from h.notStalled, show (getC s w).drain = false from h.notDraining, hq, hready,
      show fetchAll s ⟨w, l.set.val⟩ (fetchWords (getC s w).pc.toNat len) = .ok from hfetch]
    rfl
  simp only [instr, dispatchRow, ho, noBorrow, h.own, hissue, runBody_ok _ hb hf, ends]
  rfl

theorem execAdd_patched {s : State} {l : LaneUse} {w : Who} {e code : Nat} {a b r : Word}
    (h : Issues { s with mcs := { s.mcs with vact := [] } } l w 1) (ho : overrideOf s 0x20 = some e)
    (hr : (getC s w).routine = none) (hg : (getC s w).got = []) (hsw : s.mcs.sw ≠ some false) (hc : (code, r) ∈ aluPairs a b)
    (ht : Takes s w [.val b, .val a] [] 1 0) (hw : s.mcs.vact.get 0 e = aluWord code) :
    execAdd l s = ends s l w 1 .seq (modC s w (restack 2 [.val r])) := by
  refine instr_patched h ho ?_ (by decide)
  unfold patched
  rw [bind_get]
  exact dispatch_alu hw hc rfl rfl hr hg hsw ht

/-- Settles O37: the checks at issue, and one step of the routine. -/
theorem customerRoutines : Obligations.CustomerRoutines := by
  unfold Obligations.CustomerRoutines
  refine ⟨fun s l w e a b r code h hr hg ht ho hsw hc hw => execAdd_patched h ho hr hg hsw hc ht hw, fun s l w k h hr hg => ?_⟩
  exact ⟨execCustn_invalid h rfl, execCustn_denied h rfl, fun a b r code hc ht hv _ hring hout hin hres hsw hw =>
      execCustn_ok h rfl hr hg hc ht hv hring hout hin hres hsw hw⟩

end Sys2Proof.Machine
end

section
/-! SUPPORT. A finite map of the model is a list of pairs, and a state may hold two of one key. What goes through the list meets
the second, what reads the key the first: the statements whose hypotheses do not exclude such a state fail. -/

namespace Sys2Proof.Machine

/-- The registers that a program sees of context `w` in the state that a command leaves. -/
def registersAfter (w : Who) : Out → Option (List Word)
  | .next t => some (seen (getC t w)).1
  | _ => none

/-- An open load of coach 0. -/
def openLoad0 : Cons := { used := true, gen := 1, kind := .load true, addr := 0x10000404, size := 4 }

/-- Entry 0 holds a load of coach 0; entry 1 a store of coach 1 and, behind it in the list, a BNOP. The
engine is OFF. -/
def doubledEntry : State := { setR (overfull 0x10001000 []) aPwrUnit 0 with
  cons := [(0, openLoad0), (1, { openLoad0 with coach := 1, kind := .store }), (1, { openLoad0 with kind := .engine 0 false })] }

theorem pumpEngine_one {s : State} {x : Nat × Cons} (h : s.cons.filter (heldBnop s) = [x]) : pumpEngine s = releaseBnop s x.1 := by
  unfold pumpEngine
  rw [h, List.mergeSort_singleton]
  rfl

/-- That state once the load has its data. -/
def loadedEntry : State := arrival doubledEntry 0 1 .none .none

theorem completion_doubledEntry :
    exec (.consignmentCompletion 0 1 .none .none) doubledEntry = .next (settle (releaseBnop loadedEntry 1)) :=
  congrArg (fun t => Host.Outcome.next (settle t))
    (pumpEngine_one (s := loadedEntry) (x := (1, { openLoad0 with kind := .engine 0 false })) (by decide +kernel))

/-- Refutes O20: the completion of the load has the engine, which is OFF, refuse the BNOP that the list of entries holds at 1;
what it refuses is the store there, whose failure marks STATUS of coach 1. -/
theorem not_bankCompletion : ¬ Obligations.BankCompletion := by
  unfold Obligations.BankCompletion
  intro h
  obtain ⟨load, -⟩ := h doubledEntry 0 1 (by decide +kernel) (by decide +kernel) (by decide +kernel) (by decide +kernel)
    (by decide +kernel) (by decide +kernel) (by decide +kernel) (by decide +kernel) (by decide +kernel) (by decide +kernel)
    (by decide +kernel) (by decide +kernel) (by decide +kernel) (by decide +kernel) (by decide +kernel)
  obtain ⟨t, ran, -, -, same, -⟩ := load true (by decide +kernel)
  have after : registersAfter (.coach 1) (.next t) = some (seen (getC doubledEntry (.coach 1))).1 :=
    congrArg (fun r : List Word × List Entry × List Entry => some r.1) (same (.coach 1) (by decide +kernel))
  rw [← ran, completion_doubledEntry] at after
  exact absurd after (by decide +kernel)

end Sys2Proof.Machine
end

section
/-! SUPPORT. Two statements leave a second effect of their command out: a suspend in FREE mode that reaches the starvation
limit, and RETX while a store of another waybill frame is open. -/

namespace Sys2Proof.Machine

/-- A suspend of the flash is under way in FREE mode, with FLI_STARVE_N at 1. -/
def lastSuspend : State :=
  { State.reset with up := true, csr := [(aFliCfg, 1), (aFliStarveN, 1)], fli := { going := true } }

/-- The starvation mark of the flash engine in the state that a command leaves. -/
def starvedAfter (o : Out) : Option Bool :=
  match o with
  | .next t => some t.fli.starved
  | _ => none

/-- Refutes O52: the suspend that reaches FLI_STARVE_N also marks the erase as starved, which the statement has unchanged. -/
theorem not_flashCommands : ¬ Obligations.FlashCommands := by
  unfold Obligations.FlashCommands
  rintro ⟨-, h⟩
  obtain ⟨-, -, -, up⟩ := h lastSuspend
  obtain ⟨-, -, suspend, -⟩ := up rfl
  obtain ⟨t, ran, -, fli, -⟩ := suspend rfl true
  have after : starvedAfter (.next t) = some false := congrArg (fun f : Fli => some f.starved) fli
  exact absurd (ran ▸ after) (by decide +kernel)

/-- Coach 0 in a handler: WBP stands behind one frame, and the memory of that frame holds its LINK alone. -/
def handler : State :=
  wr32 { overfull 0x10001000 [] with
    coach := [(0, { overfullCoach 0x10001000 [] with status := 0x0002FF00, wbp := 0x10005080 })] } 0x1000507C 0x57A75000

/-- A store of another frame of coach 0 is open. -/
def otherFrame : State :=
  { handler with cons := [(1024, { openLoad0 with kind := .store, frame := true, addr := 0x10002000, size := 8 })] }

theorem frame_accessible : Accessible otherFrame (.coach 0) (reqOf otherFrame ⟨.coach 0, 0⟩) .load
    ((coachOf otherFrame 0).wbp - 128).toNat 128 where
  inside := by decide +kernel
  owner := by decide +kernel
  power := by decide +kernel
  clean := fun _ _ _ => rfl
  quiet := by decide +kernel
  quota := by decide +kernel
  free := by decide +kernel
  untold := by decide +kernel
  unlocked := nofun

/-- Refutes O31: RETX waits for every open store of a frame, also for one that its own frame does not overlap. -/
theorem not_returns : ¬ Obligations.Returns := by
  unfold Obligations.Returns
  intro h
  obtain ⟨-, -, service, -, -⟩ := h otherFrame ⟨0, false⟩
  obtain ⟨-, restores⟩ := service 0 (by decide +kernel) rfl (issues_of_canIssue (by decide +kernel))
  obtain ⟨t, ran, -, -, -, left⟩ := restores (by decide +kernel) frame_accessible (by decide +kernel) (by decide +kernel)
    (by decide +kernel) (by decide +kernel)
  have after : (afterwards (.next t)).map (fun r => r.1.head?) = some (some 0) :=
    (congrArg (fun r : List Word × List Entry × List Entry => some r.1.head?) left).trans (by decide +kernel)
  exact absurd (ran ▸ after) (by decide +kernel)

end Sys2Proof.Machine
end

section
/-! SUPPORT. How an operation of the big-number engine ends (spec/14): its slots, its result words, its consignment. -/

namespace Sys2Proof.Machine

/-! ### The waiting submissions -/

theorem pumpEngine_of_none {s : State} (h : ∀ x ∈ s.cons, heldBnop s x = false) : pumpEngine s = s := by
  rw [pumpEngine, List.filter_eq_nil_iff.mpr (fun x hx => by rw [h x hx]; decide), List.mergeSort_nil]
  rfl

theorem atEngine_bne {s t : State} (h : t.bne.ops = s.bne.ops) (e g : Nat) : atEngine t e g = atEngine s e g := by
  rw [atEngine, h, atEngine]

theorem heldBnop_bne {s t : State} (h : t.bne.ops = s.bne.ops) (x : Nat × Cons) : heldBnop t x = heldBnop s x := by
  rw [heldBnop, atEngine_bne h, heldBnop]

/-! ### Result words -/

theorem onlyRegisters_setResult (s : State) (i g : Nat) (w : Word) :
    OnlyRegisters ((List.range g).map (fun j => aBneResult + 4 * (i + j))) s (setResult s i g w) := by
  induction g with
  | zero => exact ⟨⟨s.csr, rfl⟩, fun _ _ => rfl⟩
  | succ g ih =>
    have step : setResult s i (g + 1) w = setR (setResult s i g w) (aBneResult + 4 * (i + g)) w := by
      simp only [setResult, List.range_succ, List.foldl_append, List.foldl_cons, List.foldl_nil]
    rw [step, List.range_succ, List.map_append]
    exact ih.trans (onlyRegisters_setR _ _ _)

theorem getR_setResult (s : State) (i : Nat) {g j : Nat} (h : j < g) (w : Word) :
    getR (setResult s i g w) (aBneResult + 4 * (i + j)) = w := by
  induction g with
  | zero => omega
  | succ g ih =>
    have step : setResult s i (g + 1) w = setR (setResult s i g w) (aBneResult + 4 * (i + g)) w := by
      simp only [setResult, List.range_succ, List.foldl_append, List.foldl_cons, List.foldl_nil]
    rw [step, getR_setR]
    by_cases e : j = g
    · rw [if_pos (by rw [e])]
    · rw [if_neg (by omega)]
      exact ih (by omega)

/-! ### The end of a group's operation -/

/-- State `t` is what the end of operation `o` of group `b` with result word `w` makes of `s`. -/
structure Delivered (b : Nat) (o : EOp) (w : Word) (s t : State) : Prop where
  bne : t.bne = { s.bne with ops := s.bne.ops.set none b none }
  mem : t.mem = s.mem
  results : ∀ j, j < o.slots → getR t (aBneResult + 4 * (b + j)) = w
  kept : ∀ a, aBneResult + 4 * 8 ≤ a → a ∉ eventRegs (16 + b) → getR t a = getR s a
  entry : consOf t o.entry = { consOf s o.entry with done := some 0, data := w.zeroExtend 64, info := 0 }
  others : ∀ x ∈ t.cons, x.1 ≠ o.entry → x ∈ s.cons
  entered : ∀ x ∈ t.cons, x.1 = o.entry → x.2.done = some 0
  contexts : SameContexts s t

theorem result_not_event {b k : Nat} (hb : b ≤ 8) (hk : k < 8) : aBneResult + 4 * k ∉ eventRegs (16 + b) := by
  simp only [eventRegs, List.mem_cons, List.not_mem_nil, or_false, not_or, aBneResult, aMlsSqLost, aEvcScfg]
  omega

theorem SMap.mem_of_mem_set {α : Type} [DecidableEq α] {d : α} {m : SMap α} {k : Nat} {v : α} {x : Nat × α}
    (h : x ∈ SMap.set d m k v) (hk : x.1 ≠ k) : x ∈ m := by
  have he : ∀ {y}, y ∈ SMap.erase m k → y ∈ m := fun hy => by
    rw [SMap.erase_eq_filter] at hy
    exact (List.mem_filter.mp hy).1
  unfold SMap.set at h
  split at h
  · exact he h
  · rcases SMap.mem_insert h with rfl | h
    · exact absurd rfl hk
    · exact he h

/-- The consignment of a submission completes: its data are entered and its coach is woken. -/
theorem deliverCons_engine {s : State} {e : Nat} {d : DWord} (ho : (consOf s e).orphan = false)
    (hk : ∃ j q, (consOf s e).kind = .engine j q) :
    deliverCons s e 0 d 0 =
      wake (setCons s e { consOf s e with done := some 0, data := d, info := 0 }) (consOf s e).coach wkCONSIGN := by
  obtain ⟨j, q, hk⟩ := hk
  simp [deliverCons, ho, hk]

theorem engineDeliver_delivered {s : State} {b : Nat} {o : EOp} (w : Word) (hb : b + o.slots ≤ 8)
    (hu : (consOf s o.entry).used = true ∧ (consOf s o.entry).gen = o.gen ∧ (consOf s o.entry).done = none ∧
      (consOf s o.entry).orphan = false) (hk : ∃ j q, (consOf s o.entry).kind = .engine j q) :
    Delivered b o w s (engineDeliver s b o w) := by
  obtain ⟨used, gen, done, orphan⟩ := hu
  have hr := onlyRegisters_setResult s b o.slots w
  obtain ⟨m, hm⟩ := hr.rest
  have hc : consOf (setEop (setResult s b o.slots w) b none) o.entry = consOf s o.entry := by rw [hm]; rfl
  have current : ((consOf s o.entry).used && (consOf s o.entry).gen == o.gen && (consOf s o.entry).done.isNone) = true := by
    simp [used, gen, done]
  have hd : engineDeliver s b o w = trigger (wake (setCons (setEop (setResult s b o.slots w) b none) o.entry
      { consOf s o.entry with done := some 0, data := w.zeroExtend 64, info := 0 }) (consOf s o.entry).coach wkCONSIGN)
      (16 + b) := by
    unfold engineDeliver
    dsimp only
    rw [hc, if_pos current, deliverCons_engine (by rw [hc]; exact orphan) (by rw [hc]; exact hk), hc]
  have hsig := ((signals_wake (setCons (setEop (setResult s b o.slots w) b none) o.entry
      { consOf s o.entry with done := some 0, data := w.zeroExtend 64, info := 0 }) (consOf s o.entry).coach wkCONSIGN).mono
      (List.nil_subset (eventRegs (16 + b))) (List.nil_subset [16 + b, 7, 27])).trans (signals_trigger _ (16 + b))
  rw [← hd] at hsig
  refine { bne := ?_, mem := ?_, results := fun j hj => ?_, kept := fun a ha he => ?_, entry := ?_, others := fun x hx hne => ?_,
           entered := fun x hx he => ?_, contexts := fun v => ?_ }
  · rw [hsig.bne, hm]; rfl
  · rw [hsig.mem, hm]; rfl
  · exact (hsig.csr _ (result_not_event (k := b + j) (by omega) (by omega))).trans (getR_setResult s b hj w)
  · refine (hsig.csr a he).trans (hr.but a ?_)
    simp only [List.mem_map, List.mem_range, not_exists, not_and]
    intro j hj e
    omega
  · rw [consOf, hsig.cons]
    exact (consOf_setCons _ _ _ _).trans (if_pos rfl)
  · rw [hsig.cons, hm] at hx
    exact SMap.mem_of_mem_set hx hne
  · rw [hsig.cons] at hx
    exact congrArg Cons.done (SMap.eq_of_mem_set hx he)
  · rw [hsig.seen v, hm]
    cases v <;> rfl

/-- What an operation with outcome `r` writes before its completion goes out. -/
def finishing (s : State) (b : Nat) (o : EOp) (r : EResult) : State :=
  let base := opBase + b * 0x800
  let s1 := { s with draws := s.draws + 4 }
  let s0 := if o.key && usesKey (cmdOp o.cmd) then setKey s1 o.coach (keyOf s1 o.coach).value else s1
  match r.fault with
  | some cause => bneFault (writeCells s0 base (o.slots * 0x800) (r.cells.map (fun c => (c.1, c.2.1, 0)))) b (cmdOp o.cmd) cause
  | none =>
    let s1 := writeCells s0 base (o.slots * 0x800) r.cells
    match r.newKey with | some v => setKey s1 o.coach v | none => s1

/-- The result word of an outcome. -/
def resultWord (r : EResult) : Word := if r.fault.isSome then 0x06000000 else u32 r.flags

theorem engineFinish_eq (s : State) (b : Nat) (o : EOp) (r : EResult) :
    engineFinish s b o r = engineDeliver (finishing s b o r) b o (resultWord r) := by
  unfold engineFinish finishing resultWord
  cases r.fault <;> rfl

/-- State `t` is `s` but for memory, check bits, registers, draws and key slots. -/
def CellsAndKeys (s t : State) : Prop :=
  ∃ m e c d k, t = { s with mem := m, ecc := e, csr := c, draws := d, bne := { s.bne with keys := k } }

theorem CellsAndKeys.trans {s t u : State} (h : CellsAndKeys s t) (g : CellsAndKeys t u) : CellsAndKeys s u := by
  obtain ⟨_, _, _, _, _, rfl⟩ := h
  obtain ⟨_, _, _, _, _, rfl⟩ := g
  exact ⟨_, _, _, _, _, rfl⟩

theorem cellsAndKeys_setKey (s : State) (c : Nat) (v : BitVec 640) : CellsAndKeys s (setKey s c v) := ⟨_, _, _, _, _, rfl⟩

theorem wrN_rest (s : State) (a n v : Nat) : ∃ m, wrN s a n v = { s with mem := m } := by
  induction n generalizing s a v with
  | zero => exact ⟨_, rfl⟩
  | succ n ih =>
    obtain ⟨m, h⟩ := ih (wrB s a (BitVec.ofNat 8 v)) (a + 1) (v / 256)
    exact ⟨m, h⟩

theorem cellsAndKeys_writeCell (s : State) (a n v : Nat) : CellsAndKeys s (writeCell s a n v) := by
  obtain ⟨m, h⟩ := wrN_rest s a n v
  exact ⟨_, _, _, _, _, by rw [writeCell, h]⟩

theorem cellsAndKeys_writeCells (s : State) (base size : Nat) (cs : List (Nat × Nat × Nat)) :
    CellsAndKeys s (writeCells s base size cs) := by
  induction cs generalizing s with
  | nil => exact ⟨_, _, _, _, _, rfl⟩
  | cons c r ih =>
    refine CellsAndKeys.trans ?_ (ih _)
    dsimp only
    split
    · exact cellsAndKeys_writeCell s _ _ _
    · exact ⟨_, _, _, _, _, rfl⟩

theorem cellsAndKeys_bneFault (s : State) (b op cause : Nat) : CellsAndKeys s (bneFault s b op cause) := ⟨_, _, _, _, _, rfl⟩

theorem finishing_rest (s : State) (b : Nat) (o : EOp) (r : EResult) : CellsAndKeys s (finishing s b o r) := by
  have start : ∀ c : Bool, CellsAndKeys s (if c = true then
      setKey { s with draws := s.draws + 4 } o.coach (keyOf { s with draws := s.draws + 4 } o.coach).value
      else { s with draws := s.draws + 4 }) := fun c => by
    cases c <;> exact ⟨_, _, _, _, _, rfl⟩
  unfold finishing
  dsimp only
  cases r.fault with
  | some cause => exact ((start _).trans (cellsAndKeys_writeCells _ _ _ _)).trans (cellsAndKeys_bneFault _ _ _ _)
  | none =>
    cases r.newKey with
    | some v => exact ((start _).trans (cellsAndKeys_writeCells _ _ _ _)).trans (cellsAndKeys_setKey _ _ _)
    | none => exact (start _).trans (cellsAndKeys_writeCells _ _ _ _)

/-- The completion after such writes, and the submissions that it lets go ahead: none. -/
theorem delivered_pump {s u : State} {b : Nat} {o : EOp} (w : Word) (h : Finishes s b o) (hu : CellsAndKeys s u) :
    Delivered b o w u (pumpEngine (engineDeliver u b o w)) := by
  obtain ⟨m, e, c, d, k, rfl⟩ := hu
  obtain ⟨j, hj⟩ := h.kind
  have hd := engineDeliver_delivered (s := { s with mem := m, ecc := e, csr := c, draws := d, bne := { s.bne with keys := k } })
    w h.fits h.live ⟨j, _, hj⟩
  rw [pumpEngine_of_none]
  · exact hd
  · intro x hx
    by_cases he : x.1 = o.entry
    · simp [heldBnop, hd.entered x hx he]
    · refine (heldBnop_bne (s := { s with bne := { s.bne with ops := s.bne.ops.erase b } }) ?_ x).trans
        (h.alone x (hd.others x hx he) he)
      rw [hd.bne, SMap.set, if_pos rfl]

/-! ### Modular operations -/

/-- What a modular operation on operands that fit and hold no error writes: its result in cell 1. -/
theorem runOp_modular {s : State} {b : Nat} {o : EOp} (h1 : 1 ≤ cmdOp o.cmd) (h4 : cmdOp o.cmd ≤ 4)
    (fits : 8 + 3 * cellLen (cmdSize o.cmd) ≤ o.slots * 0x800) (clean : badOperand s b o = false) :
    runOp s b o = runModular s (opBase + b * 0x800) o.cmd s.draws := by
  have used : bytesUsed s o ≤ o.slots * 0x800 := by
    refine le_trans ?_ fits
    unfold bytesUsed cellsUsed isModular
    have cases : cmdOp o.cmd = 1 ∨ cmdOp o.cmd = 2 ∨ cmdOp o.cmd = 3 ∨ cmdOp o.cmd = 4 := by omega
    rcases cases with e | e | e | e <;> (simp [e]; try omega)
  have modular : isModular (cmdOp o.cmd) = true := by
    simp only [isModular, Bool.and_eq_true, decide_eq_true_eq]
    omega
  simp only [runOp, modular, clean, if_true, if_neg (Nat.not_lt.mpr used), Bool.false_eq_true, if_false]

/-- The value that a modular operation leaves in cell 1. -/
def modularValue (s : State) (base l op : Nat) : Nat :=
  let n := cell s base l 0
  let x := cell s base l 1 % n
  match op with
  | 1 => (x + cell s base l 2) % n
  | 2 => subMod n x (cell s base l 2)
  | 3 => x * cell s base l 2 % n
  | _ => (invMod n x).getD 0

theorem runModular_cells {s : State} {base : Nat} {cmd : Word} {d : Nat} (h1 : 1 ≤ cmdOp cmd) (h4 : cmdOp cmd ≤ 4) :
    ∃ f, runModular s base cmd d = { cells := [(cellOff (cellLen (cmdSize cmd)) 1, cellLen (cmdSize cmd),
      modularValue s base (cellLen (cmdSize cmd)) (cmdOp cmd))], flags := f } := by
  have cases : cmdOp cmd = 1 ∨ cmdOp cmd = 2 ∨ cmdOp cmd = 3 ∨ cmdOp cmd = 4 := by omega
  unfold runModular modularValue
  rcases cases with e | e | e | e <;> rw [e] <;> dsimp only
  · exact ⟨_, rfl⟩
  · exact ⟨_, rfl⟩
  · exact ⟨_, rfl⟩
  · cases invMod (cell s base (cellLen (cmdSize cmd)) 0)
      (cell s base (cellLen (cmdSize cmd)) 1 % cell s base (cellLen (cmdSize cmd)) 0) with
    | some i => exact ⟨_, rfl⟩
    | none => exact ⟨_, rfl⟩

/-- One cell within the operand area is written. -/
theorem finishing_cell {s : State} {b : Nat} {o : EOp} {l v f : Nat} (hk : usesKey (cmdOp o.cmd) = false) (hl : 0 < l)
    (fits : 8 + 3 * l ≤ o.slots * 0x800) :
    finishing s b o { cells := [(cellOff l 1, l, v)], flags := f } =
      writeCell { s with draws := s.draws + 4 } (opBase + b * 0x800 + 8 + l) l v := by
  have hmin : min l (o.slots * 0x800 - cellOff l 1) = l := by unfold cellOff; omega
  unfold finishing writeCells
  simp only [hk, Bool.and_false, Bool.false_eq_true, if_false, List.foldl_cons, List.foldl_nil, hmin]
  rw [if_pos (by unfold cellOff; omega)]
  simp [cellOff, Nat.add_assoc]

theorem rdB_writeCell_other (s : State) (a n v b : Nat) (h : b < a ∨ a + n ≤ b) : rdB (writeCell s a n v) b = rdB s b :=
  rdB_wrN_other s a n v b h

theorem rdN_writeCell (s : State) (a n v : Nat) : rdN (writeCell s a n v) a n = v % 256 ^ n :=
  (rdN_of_mem (s := wrN s a n v) (t := writeCell s a n v) (fun _ => rfl) a n).trans (rdN_wrN s a n v)

theorem isModular_le_four {op : Nat} (h : op ≤ 4) : usesKey op = false := by
  unfold usesKey
  simp
  omega

theorem cell_eq (s : State) (base l k : Nat) : cell s base l k = rdN s (base + 8 + k * l) l := by
  rw [cell, cellOff, Nat.add_assoc]

theorem modularValue_lt {s : State} {base l op : Nat} (h1 : 1 ≤ op) (h4 : op ≤ 3) (odd : rdN s (base + 8) l % 2 = 1) :
    modularValue s base l op < 256 ^ l := by
  have h0 : cell s base l 0 = rdN s (base + 8) l := by rw [cell_eq, Nat.zero_mul, Nat.add_zero]
  have lt : ∀ v, v % cell s base l 0 < 256 ^ l := fun v => by
    refine (Nat.mod_lt v ?_).trans (rdN_lt s _ _)
    rw [h0]
    omega
  have cases : op = 1 ∨ op = 2 ∨ op = 3 := by omega
  rcases cases with rfl | rfl | rfl <;> exact lt _

/-- A modular operation on operands that fit and hold no error writes cell 1 alone. -/
theorem finishing_modular {s : State} {b : Nat} {o : EOp} (h1 : 1 ≤ cmdOp o.cmd) (h4 : cmdOp o.cmd ≤ 4)
    (odd : rdN s (opBase + b * 0x800 + 8) (cellLen (cmdSize o.cmd)) % 2 = 1)
    (fits : 8 + 3 * cellLen (cmdSize o.cmd) ≤ o.slots * 0x800) (clean : badOperand s b o = false) :
    let at_ := opBase + b * 0x800 + 8 + cellLen (cmdSize o.cmd)
    rdN (finishing s b o (runOp s b o)) at_ (cellLen (cmdSize o.cmd)) =
      modularValue s (opBase + b * 0x800) (cellLen (cmdSize o.cmd)) (cmdOp o.cmd) % 256 ^ cellLen (cmdSize o.cmd) ∧
    ∀ a, a < at_ ∨ at_ + cellLen (cmdSize o.cmd) ≤ a → rdB (finishing s b o (runOp s b o)) a = rdB s a := by
  have hlen : 0 < cellLen (cmdSize o.cmd) := Nat.pos_of_ne_zero fun h0 => by
    rw [h0] at odd
    exact absurd (show 0 % 2 = 1 from odd) (by decide)
  obtain ⟨f, hr⟩ := runModular_cells (s := s) (base := opBase + b * 0x800) (d := s.draws) h1 h4
  rw [runOp_modular h1 h4 fits clean, hr, finishing_cell (isModular_le_four h4) hlen fits]
  exact ⟨rdN_writeCell _ _ _ _, fun a ha => rdB_writeCell_other _ _ _ _ _ ha⟩

theorem subMod_of_lt {n y : Nat} (x : Nat) (h : y < n) : subMod n (x % n) y = (x % n + (n - y)) % n := by
  rw [subMod, Nat.mod_mod, Nat.mod_eq_of_lt h, Nat.add_sub_assoc h.le]

/-! ### Settling the statements -/

/-- Whatever ends correctly or with a FAULT, its completion is delivered. -/
theorem engineEnd_delivered {s : State} {b : Nat} {o : EOp} (h : Finishes s b o) (ha : o.aborting = false) :
    pumpEngine (engineEnd s b (cmdOp o.cmd)) =
      pumpEngine (engineDeliver (finishing s b o (runOp s b o)) b o (resultWord (runOp s b o))) := by
  unfold engineEnd
  rw [h.runs]
  simp [ha, engineFinish_eq]

theorem engineEnd_other {s : State} {b code : Nat} {o : EOp} (h : Finishes s b o) (hc : cmdOp o.cmd ≠ code) :
    engineEnd s b code = s := by
  unfold engineEnd
  rw [h.runs]
  simp [hc]

theorem Delivered.eop {b : Nat} {o : EOp} {w : Word} {s t : State} (h : Delivered b o w s t) : eopOf t b = none := by
  rw [eopOf, h.bne]
  exact (SMap.get_set (none : Option EOp) s.bne.ops b b none).trans (if_pos rfl)

/-- The row of an operation runs `engineRow` with its code. -/
theorem exec_engineRow {b : Fin 8} {i : Instr} {code : Nat}
    (h : (i, code) ∈ [(Instr.modadd b, 0x01), (.modsub b, 0x02), (.modmul b, 0x03), (.modinv b, 0x04), (.modexp b, 0x05),
      (.rsacrt b, 0x06), (.ecmul b, 0x10), (.ecmulg b, 0x11), (.oncurve b, 0x12), (.xmul b, 0x13), (.ecdsaver b, 0x14),
      (.ecdsasign b, 0x15), (.ecdh b, 0x16), (.keygen b, 0x17), (.ecpub b, 0x18), (.keyclr b, 0x19)]) (s : State) :
    exec i s = engineRow s b code ∧ 1 ≤ code := by
  simp only [List.mem_cons, List.not_mem_nil, or_false, Prod.mk.injEq] at h
  rcases h with ⟨rfl, rfl⟩ | ⟨rfl, rfl⟩ | ⟨rfl, rfl⟩ | ⟨rfl, rfl⟩ | ⟨rfl, rfl⟩ | ⟨rfl, rfl⟩ | ⟨rfl, rfl⟩ | ⟨rfl, rfl⟩ |
    ⟨rfl, rfl⟩ | ⟨rfl, rfl⟩ | ⟨rfl, rfl⟩ | ⟨rfl, rfl⟩ | ⟨rfl, rfl⟩ | ⟨rfl, rfl⟩ | ⟨rfl, rfl⟩ | ⟨rfl, rfl⟩ <;>
    exact ⟨rfl, by decide⟩

/-- Settles O39: whatever the operation, its completion is delivered; the modular ones write cell 1. -/
theorem engineOperations : Obligations.EngineOperations := by
  unfold Obligations.EngineOperations
  intro s b o i code up h live row
  obtain ⟨ran, code_pos⟩ := exec_engineRow row s
  have settles : exec i s = .next (settle (pumpEngine (engineEnd s b.val code))) := by
    rw [ran, engineRow, whenUp, if_pos up, occurs]
  refine ⟨fun other => by rw [settles, engineEnd_other h other], fun same => ?_⟩
  subst same
  have hd := delivered_pump (resultWord (runOp s b o)) h (finishing_rest s b o (runOp s b o))
  obtain ⟨m, e, c, d, k, hu⟩ := finishing_rest s b o (runOp s b o)
  rw [engineEnd_delivered h live] at settles
  refine ⟨_, settles, ?_, fun j hj => ?_, ?_, ?_, fun v => ?_, fun small odd fits clean => ?_⟩
  · rw [eopOf, settle_bne]; exact hd.eop
  · rw [getR_settle]; exact hd.results j hj
  · rw [consOf_settle, hd.entry]
  · rw [consOf_settle, hd.entry]; rfl
  · rw [seen_settle, hd.contexts v, hu]; cases v <;> rfl
  · have odd' : rdN s (opBase + b.val * 0x800 + 8) (cellLen (cmdSize o.cmd)) % 2 = 1 := odd
    obtain ⟨value, outside⟩ := finishing_modular code_pos small odd' fits clean
    have same : SameMemory (finishing s b o (runOp s b o)) (settle (pumpEngine (engineDeliver (finishing s b o (runOp s b o)) b o
        (resultWord (runOp s b o))))) := fun a => by rw [rdB_settle, rdB, hd.mem, rdB]
    have cell0 := cell_eq s (opBase + b.val * 0x800) (cellLen (cmdSize o.cmd)) 0
    have cell1 := cell_eq s (opBase + b.val * 0x800) (cellLen (cmdSize o.cmd)) 1
    have cell2 := cell_eq s (opBase + b.val * 0x800) (cellLen (cmdSize o.cmd)) 2
    rw [Nat.zero_mul, Nat.add_zero] at cell0
    rw [Nat.one_mul] at cell1
    have result : cmdOp o.cmd ≤ 3 → rdN (settle (pumpEngine (engineDeliver (finishing s b o (runOp s b o)) b o
        (resultWord (runOp s b o))))) (opBase + b.val * 0x800 + 8 + cellLen (cmdSize o.cmd)) (cellLen (cmdSize o.cmd)) =
        modularValue s (opBase + b.val * 0x800) (cellLen (cmdSize o.cmd)) (cmdOp o.cmd) := fun h3 => by
      rw [rdN_of_mem same, value, Nat.mod_eq_of_lt (modularValue_lt code_pos h3 odd')]
    refine ⟨fun hc => ?_, fun hc hy => ?_, fun hc => ?_, fun a ha => (same a).trans (outside a ?_)⟩
    · refine (result (by omega)).trans ?_
      rw [hc, modularValue, cell0, cell1, cell2]
      rfl
    · refine (result (by omega)).trans ?_
      rw [hc, modularValue, cell0, cell1, cell2]
      exact subMod_of_lt _ hy
    · refine (result (by omega)).trans ?_
      rw [hc, modularValue, cell0, cell1, cell2]
      rfl
    · have len : 8 * ((cmdSize o.cmd + 63) / 64) = cellLen (cmdSize o.cmd) := rfl
      omega

end Sys2Proof.Machine
end

section
/-! SUPPORT. The bits and fields of a register word after one of them is written. -/

namespace Sys2Proof.Machine

/-! ### Single bits -/

theorem bit_of_le {w : Word} {i : Nat} (h : 32 ≤ i) : bit w i = false := BitVec.getLsbD_of_ge w i h

theorem bit_setFld (w : Word) (lo n v i : Nat) (hi : i < 32) :
    bit (setFld w lo n v) i = if lo ≤ i ∧ i < lo + n then v.testBit (i - lo) else bit w i := by
  simp only [bit, setFld, BitVec.getLsbD_or, BitVec.getLsbD_and, BitVec.getLsbD_not, BitVec.getLsbD_ofNat,
    Nat.testBit_mul_two_pow, Nat.testBit_two_pow_sub_one, Nat.testBit_mod_two_pow, hi, decide_true, Bool.true_and]
  by_cases h1 : lo ≤ i
  · by_cases h2 : i - lo < n
    · rw [if_pos ⟨h1, by omega⟩]; simp [h1, h2]
    · rw [if_neg (by omega)]; simp [h2]
  · rw [if_neg (by omega)]; simp [h1]

theorem bit_setBit (w : Word) {i j : Nat} (b : Bool) (hj : j < 32) : bit (setBit w i b) j = if j = i then b else bit w j := by
  rw [setBit, bit_setFld _ _ _ _ _ hj]
  by_cases h : j = i
  · subst h
    rw [if_pos ⟨le_rfl, by omega⟩, if_pos rfl]
    cases b <;> simp
  · rw [if_neg (by omega), if_neg h]

theorem bit_or (v w : Word) (i : Nat) : bit (v ||| w) i = (bit v i || bit w i) := BitVec.getLsbD_or

theorem bit_and (v w : Word) (i : Nat) : bit (v &&& w) i = (bit v i && bit w i) := BitVec.getLsbD_and

theorem bit_not (w : Word) {i : Nat} (h : i < 32) : bit (~~~w) i = !bit w i := by simp [bit, h]

/-- A bit of a field is a bit of the word. -/
theorem testBit_fld (w : Word) (lo n i : Nat) : (fld w lo n).testBit i = (decide (i < n) && bit w (lo + i)) := by
  simp [fld, bit, Nat.testBit_mod_two_pow, Nat.testBit_div_two_pow, Nat.add_comm i lo, BitVec.testBit_toNat]

/-- Words that agree in the bits of a field agree in the field. -/
theorem fld_congr {v w : Word} {lo n : Nat} (h : ∀ i, lo ≤ i → i < lo + n → bit v i = bit w i) : fld v lo n = fld w lo n := by
  refine Nat.eq_of_testBit_eq fun i => ?_
  rw [testBit_fld, testBit_fld]
  by_cases hi : i < n
  · rw [h (lo + i) (by omega) (by omega)]
  · simp [hi]

/-! ### Fields beside the one that is written -/

theorem fld_setFld_of_disjoint (w : Word) {lo n lo' n' : Nat} (v : Nat) (h : lo' + n' ≤ lo ∨ lo + n ≤ lo')
    (hw : lo' + n' ≤ 32) : fld (setFld w lo n v) lo' n' = fld w lo' n' :=
  fld_congr fun i h1 h2 => by rw [bit_setFld _ _ _ _ _ (by omega), if_neg (by omega)]

theorem fld_setBit_of_outside (w : Word) {i lo n : Nat} (b : Bool) (h : i < lo ∨ lo + n ≤ i) (hw : lo + n ≤ 32) :
    fld (setBit w i b) lo n = fld w lo n := fld_setFld_of_disjoint w _ (by omega) hw

theorem bit_setFld_of_outside (w : Word) {lo n i : Nat} (v : Nat) (h : i < lo ∨ lo + n ≤ i) :
    bit (setFld w lo n v) i = bit w i := by
  by_cases hi : i < 32
  · rw [bit_setFld _ _ _ _ _ hi, if_neg (by omega)]
  · rw [bit_of_le (by omega), bit_of_le (by omega)]

/-! ### Registers -/

theorem getR_bumpR_other (s : State) {a b : Nat} (lo n k : Nat) (h : b ≠ a) : getR (bumpR s a lo n k) b = getR s b := by
  rw [bumpR, getR_setR, if_neg h]

theorem fld_bumpR_of_disjoint (s : State) (a k : Nat) {lo n lo' n' : Nat} (h : lo' + n' ≤ lo ∨ lo + n ≤ lo') (hw : lo' + n' ≤ 32) :
    fld (getR (bumpR s a lo n k) a) lo' n' = fld (getR s a) lo' n' := by
  rw [bumpR, getR_setR, if_pos rfl, fld_setFld_of_disjoint _ _ h hw]

theorem getR_orR (s : State) (a b : Nat) (m : Word) : getR (orR s a m) b = if b = a then getR s a ||| m else getR s b := by
  rw [orR, getR_setR]

theorem getR_clrR (s : State) (a b : Nat) (m : Word) : getR (clrR s a m) b = if b = a then getR s a &&& ~~~m else getR s b := by
  rw [clrR, getR_setR]

theorem onlyRegisters_bumpR (s : State) (a lo n k : Nat) : OnlyRegisters [a] s (bumpR s a lo n k) := onlyRegisters_setR s a _

theorem onlyRegisters_orR (s : State) (a : Nat) (m : Word) : OnlyRegisters [a] s (orR s a m) := onlyRegisters_setR s a _

theorem onlyRegisters_clrR (s : State) (a : Nat) (m : Word) : OnlyRegisters [a] s (clrR s a m) := onlyRegisters_setR s a _

end Sys2Proof.Machine
end

section
/-! SUPPORT. The other ends in the big-number engine (spec/14): FAULT, abort, curve load, zeroisation. -/

namespace Sys2Proof.Machine

/-! ### Register writes to a switchable unit -/

/-- A register write that the ring admits, in a switchable unit that is ON and with no earlier store to await, reaches its
register (R12, R26, R51). -/
theorem writeAs_of_unit {s : State} {c : BitVec 10} {r a u : Nat} {v : Word} (h : MayAccess s c r)
    (hd : csrDenied s a (ringOf (getC s (whoOf s c.toNat))) (some v) = false) (hs : csrSwitch a = some u) (hon : unitSt s u = 2)
    (hq : Acked s c (csrUnit a)) (ha : a ≠ aRngGcommit) : writeAs s c a v = writeReg s (whoOf s c.toNat) a v := by
  obtain ⟨hup, -, hlane⟩ := h
  have hq' : openOf s (whoOf s c.toNat) (toIsland (csrUnit a)) = [] := hq
  simp [writeAs, onBehalf, hup, csrStore, csrCheck, hd, Iss.unver, hlane, hs, hon, awaitIsland, awaitCons, hq', ha, bind,
    StateT.bind, Except.bind, get, getThe, MonadStateOf.get, StateT.get, pure, StateT.pure, Except.pure, modify, modifyGet,
    MonadStateOf.modifyGet, StateT.modifyGet]

/-! ### Faults -/

theorem finishes_of_bne {s : State} {b : Nat} {o : EOp} (h : Finishes s b o) (g : Bool) :
    Finishes { s with bne := { s.bne with rngerr := g } } b o :=
  { h with alone := fun x hx hn => (heldBnop_bne rfl x).trans (h.alone x hx hn) }

theorem engineEndAny_fault {s : State} {b : Nat} {o : EOp} (h : Finishes s b o) (ha : o.aborting = false) (f : Nat) :
    engineEndAny s b (some f) =
      engineDeliver (finishing s b o { runOp s b o with fault := some f }) b o 0x06000000 := by
  unfold engineEndAny
  rw [h.runs]
  simp [ha, engineFinish_eq, resultWord]

/-- The FAULT is recorded in BNE_FAULT (R346). -/
theorem getR_bneFault (s : State) {b op f : Nat} (hb : b < 8) (hop : op < 256) (hf : f < 3) :
    fld (getR (bneFault s b op f) aBneFault) 16 16 = satAdd 65535 (fld (getR s aBneFault) 16 16) 1 ∧
    fld (getR (bneFault s b op f) aBneFault) 0 16 = f * 2 ^ 14 + b * 2 ^ 8 + op := by
  unfold bneFault
  dsimp only
  rw [getR_setR, if_pos rfl, fld_setFld _ _ (by decide), fld_setFld_of_disjoint _ _ (by decide) (by decide), fld_bumpR _ _ _ (by decide)]
  exact ⟨rfl, Nat.mod_eq_of_lt (by omega)⟩

/-- Registers above BNE_RESULT that neither a FAULT nor a trigger writes. -/
theorem bneFault_not_event (b : Nat) (hb : b < 8) : aBneFault ∉ eventRegs (16 + b) := by
  simp only [eventRegs, List.mem_cons, List.not_mem_nil, or_false, not_or, aBneFault, aMlsSqLost, aEvcScfg]
  omega

theorem getR_setKey (s : State) (c : Nat) (v : BitVec 640) (a : Nat) : getR (setKey s c v) a = getR s a := rfl

theorem getR_writeCells (s : State) (base size : Nat) (cs : List (Nat × Nat × Nat)) (a : Nat) :
    getR (writeCells s base size cs) a = getR s a := by
  induction cs generalizing s with
  | nil => rfl
  | cons c r ih =>
    refine (ih _).trans ?_
    dsimp only
    split
    · obtain ⟨m, h⟩ := wrN_rest s (base + c.1) (min c.2.1 (size - c.1)) c.2.2
      rw [writeCell, h]
      rfl
    · rfl

/-- A FAULT counts from what BNE_FAULT held. -/
theorem getR_finishing_fault (s : State) {b f : Nat} (o : EOp) (r : EResult) (hb : b < 8) (hf : f < 3) :
    fld (getR (finishing s b o { r with fault := some f }) aBneFault) 16 16 = satAdd 65535 (fld (getR s aBneFault) 16 16) 1 ∧
    fld (getR (finishing s b o { r with fault := some f }) aBneFault) 0 16 = f * 2 ^ 14 + b * 2 ^ 8 + cmdOp o.cmd := by
  have hop : cmdOp o.cmd < 256 := Nat.mod_lt _ (by decide)
  unfold finishing
  dsimp only
  obtain ⟨h1, h2⟩ := getR_bneFault (writeCells (if (o.key && usesKey (cmdOp o.cmd)) = true then
      setKey { s with draws := s.draws + 4 } o.coach (keyOf { s with draws := s.draws + 4 } o.coach).value
      else { s with draws := s.draws + 4 }) (opBase + b * 0x800) (o.slots * 0x800)
      (r.cells.map (fun c => (c.1, c.2.1, 0)))) hb hop hf
  refine ⟨h1.trans ?_, h2⟩
  rw [getR_writeCells]
  split <;> rfl

/-! ### Aborts -/

theorem cellsAndKeys_clrRange (s : State) (lo hi : Nat) : CellsAndKeys s (clrRange s lo hi) := ⟨_, _, _, _, _, rfl⟩

/-- One step of `abortWhere`. -/
def abortOne (p : EOp → Bool) (s : State) (b : Nat) : State :=
  match eopOf s b with
  | some o => if p o then setEop s b (some { o with aborting := true }) else s
  | none => s

/-- An operation as `abortWhere` leaves it. -/
def aborted (p : EOp → Bool) (o : EOp) : EOp := if p o then { o with aborting := true } else o

theorem eopOf_abortOne (p : EOp → Bool) (s : State) (b k : Nat) :
    eopOf (abortOne p s b) k = if k = b then (eopOf s k).map (aborted p) else eopOf s k := by
  have get : ∀ v, eopOf (setEop s b v) k = if k = b then v else eopOf s k := fun v =>
    SMap.get_set (none : Option EOp) s.bne.ops b k v
  unfold abortOne
  cases h : eopOf s b with
  | none =>
    by_cases hk : k = b
    · simp [hk, h]
    · simp [hk]
  | some o =>
    dsimp only
    by_cases hp : p o = true
    · rw [if_pos hp, get]
      by_cases hk : k = b
      · simp [hk, h, aborted, hp]
      · simp [hk]
    · rw [if_neg hp]
      by_cases hk : k = b
      · simp [hk, h, aborted, hp]
      · simp [hk]

theorem eopOf_abortWhere (p : EOp → Bool) (s : State) {k : Nat} (hk : k < 8) :
    eopOf (abortWhere s p) k = (eopOf s k).map (aborted p) := by
  have fold : ∀ (l : List Nat) (t : State), l.Nodup →
      eopOf (l.foldl (abortOne p) t) k = if k ∈ l then (eopOf t k).map (aborted p) else eopOf t k := by
    intro l
    induction l with
    | nil => intro t _; simp
    | cons b r ih =>
      intro t hn
      rw [List.foldl_cons, ih _ (List.nodup_cons.mp hn).2, eopOf_abortOne]
      by_cases hb : k = b
      · have hr : k ∉ r := hb ▸ (List.nodup_cons.mp hn).1
        simp [hb, hb ▸ hr]
      · simp [hb]
  exact (fold _ s (List.nodup_range)).trans (if_pos (List.mem_range.mpr hk))

/-- State `t` is `s` but for the operations of the engine. -/
def OnlyOps (s t : State) : Prop := ∃ m, t = { s with bne := { s.bne with ops := m } }

theorem onlyOps_abortWhere (p : EOp → Bool) (s : State) : OnlyOps s (abortWhere s p) := by
  have fold : ∀ (l : List Nat) (t : State), OnlyOps s t → OnlyOps s (l.foldl (abortOne p) t) := by
    intro l
    induction l with
    | nil => exact fun t h => h
    | cons b r ih =>
      intro t h
      obtain ⟨m, rfl⟩ := h
      refine ih _ ?_
      unfold abortOne
      split
      · split
        · exact ⟨_, rfl⟩
        · exact ⟨_, rfl⟩
      · exact ⟨_, rfl⟩
  exact fold _ s ⟨s.bne.ops, rfl⟩

/-! ### Settling the statement -/

theorem engineFault_ends {s : State} (up : s.up = true) {b : Fin 8} {o : EOp} (f : Fin 3) (rng : Bool) (h : Finishes s b.val o)
    (ha : o.aborting = false) :
    ∃ t, exec (.engineOperationComplete b (some f) rng) s = .next t ∧ eopOf t b.val = none ∧
      (unitSt s 0 = 2 → t.bne.rngerr = (s.bne.rngerr || rng)) ∧
      (∀ j, j < o.slots → getR t (aBneResult + 4 * (b.val + j)) = 0x06000000) ∧
      fld (getR t aBneFault) 16 16 = satAdd 65535 (fld (getR s aBneFault) 16 16) 1 ∧
      fld (getR t aBneFault) 0 16 = f.val * 2 ^ 14 + b.val * 2 ^ 8 + cmdOp o.cmd := by
  have start : ∃ g, rngFails s rng = { s with bne := { s.bne with rngerr := g } } ∧
      (unitSt s 0 = 2 → g = (s.bne.rngerr || rng)) := by
    unfold rngFails
    split
    · rename_i hr
      exact ⟨true, rfl, fun _ => by simp_all⟩
    · rename_i hr
      exact ⟨s.bne.rngerr, rfl, fun h2 => by simp_all⟩
  obtain ⟨g, hs, hg⟩ := start
  have hf := finishes_of_bne h g
  have ran : exec (.engineOperationComplete b (some f) rng) s = .next (settle (pumpEngine (engineDeliver
      (finishing (rngFails s rng) b o { runOp (rngFails s rng) b o with fault := some f.val }) b o 0x06000000))) := by
    refine Eq.trans (b := occurs (whenUp s (fun s => pumpEngine (engineEndAny (rngFails s rng) b.val (some f.val))))) rfl ?_
    rw [whenUp, if_pos up, hs, engineEndAny_fault hf ha]
    rfl
  rw [hs] at ran
  have hr := finishing_rest { s with bne := { s.bne with rngerr := g } } b o
    { runOp { s with bne := { s.bne with rngerr := g } } b o with fault := some f.val }
  have hd := delivered_pump 0x06000000 hf hr
  obtain ⟨c1, c2⟩ := getR_finishing_fault { s with bne := { s.bne with rngerr := g } } o
    (runOp { s with bne := { s.bne with rngerr := g } } b o) b.isLt f.isLt
  have kept := hd.kept aBneFault (by decide) (bneFault_not_event b b.isLt)
  refine ⟨_, ran, ?_, fun h2 => ?_, fun j hj => ?_, ?_, ?_⟩
  · rw [eopOf, settle_bne]; exact hd.eop
  · obtain ⟨_, _, _, _, _, hu⟩ := hr
    rw [settle_bne, hd.bne, hu]
    exact hg h2
  · rw [getR_settle]; exact hd.results j hj
  · rw [getR_settle, kept]; exact c1
  · rw [getR_settle, kept]; exact c2

theorem abort_ends {s : State} (up : s.up = true) {b : Fin 8} {o : EOp} (h : Finishes s b.val o) (ha : o.aborting = true) :
    ∃ t, exec (.abortComplete b) s = .next t ∧ eopOf t b.val = none ∧
      (∀ j, j < o.slots → getR t (aBneResult + 4 * (b.val + j)) = 0x0BAD0BAD) ∧
      ∀ a, rdB t a = if opBase + b.val * 0x800 ≤ a ∧ a < opBase + (b.val + o.slots) * 0x800 then unlisted a else rdB s a := by
  have ran : exec (.abortComplete b) s = .next (settle (pumpEngine (engineDeliver
      (clrRange s (opBase + b.val * 0x800) (opBase + (b.val + o.slots) * 0x800)) b o 0x0BAD0BAD))) := by
    refine Eq.trans (b := occurs (whenUp s (fun s => pumpEngine (abortDone s b.val)))) rfl ?_
    rw [whenUp, if_pos up, abortDone, h.runs]
    dsimp only
    rw [if_pos ha]
    rfl
  have hd := delivered_pump 0x0BAD0BAD h (cellsAndKeys_clrRange s (opBase + b.val * 0x800) (opBase + (b.val + o.slots) * 0x800))
  refine ⟨_, ran, ?_, fun j hj => ?_, fun a => ?_⟩
  · rw [eopOf, settle_bne]; exact hd.eop
  · rw [getR_settle]; exact hd.results j hj
  · rw [rdB_settle, rdB, hd.mem]
    exact rdB_clrRange s _ _ a

/-- A write of BNE_CLOAD that names a free entry and slot starts the load. -/
theorem writeCload_starts {s : State} {v : Word} (h4 : 4 ≤ fld v 16 4) (hc : s.bne.cload = none)
    (hs : (s.bne.curves.get {} (fld v 16 4)).state ≠ 1) (hu : curveInUse s (fld v 16 4) = false)
    (hf : slotState s (fld v 0 3) = 0) :
    ∃ c : Curve, c.state = 1 ∧ writeCload s v = { clrR s aBneCload 0x80000000 with
      bne := { s.bne with cload := some (fld v 16 4, fld v 0 3), curves := s.bne.curves.set {} (fld v 16 4) c } } := by
  have ok : (decide (fld v 16 4 < 4) || s.bne.cload.isSome || (s.bne.curves.get {} (fld v 16 4)).state == 1 ||
      curveInUse s (fld v 16 4) || slotState s (fld v 0 3) != 0) = false := by
    simp [hc, hs, hu, hf, h4]
  refine ⟨_, ?_, (if_neg (by rw [ok]; decide)).trans rfl⟩
  rfl

/-- The entry of the curve table that is written. -/
theorem curve_of_set {s t : State} {k : Nat} {c : Curve} {l : Option (Nat × Nat)}
    (h : t.bne = { s.bne with cload := l, curves := s.bne.curves.set {} k c }) : t.bne.curves.get {} k = c := by
  rw [h]
  exact (SMap.get_set ({} : Curve) s.bne.curves k k c).trans (if_pos rfl)

theorem writeAs_bneCload {s : State} {c : BitVec 10} (v : Word) (h : MayAccess s c 0) (hon : unitSt s 0 = 2)
    (hq : Acked s c 10) : writeAs s c aBneCload v = writeCload s v := by
  have ⟨_, hring, _⟩ := h
  have hd : csrDenied s aBneCload (ringOf (getC s (whoOf s c.toNat))) (some v) = false :=
    csrDenied_of_ring_le (r := (regOf aBneCload).getD ⟨0, 0, 0, 0, 0, 0, 0⟩) s v (by decide) (by
      refine hring.trans ?_; exact Nat.zero_le _) (by decide)
  rw [writeAs_of_unit h hd (u := 0) (by decide) hon hq (by decide)]
  rfl

theorem curveLoad_starts {s : State} {c : BitVec 10} {v : Word} (h : MayAccess s c 0) (hon : unitSt s 0 = 2)
    (hq : Acked s c 10) (h4 : 4 ≤ fld v 16 4) (hc : s.bne.cload = none)
    (hs : (s.bne.curves.get {} (fld v 16 4)).state ≠ 1) (hu : curveInUse s (fld v 16 4) = false)
    (hf : slotState s (fld v 0 3) = 0) :
    ∃ t, exec (.bneCloadWrite c v) s = .next t ∧ t.bne.cload = some (fld v 16 4, fld v 0 3) ∧
      (t.bne.curves.get {} (fld v 16 4)).state = 1 ∧ SameMemory s t ∧ SameContexts s t ∧ bit (getR t aBneCload) 31 = false := by
  have ran : exec (.bneCloadWrite c v) s = .next (settle (writeCload s v)) := congrArg occurs (writeAs_bneCload v h hon hq)
  obtain ⟨k, started, hk⟩ := writeCload_starts h4 hc hs hu hf
  rw [hk] at ran
  refine ⟨_, ran, ?_, ?_, fun a => rdB_settle _ a, fun w => (seen_settle _ w).trans ?_, ?_⟩
  · rw [settle_bne]
  · rw [curve_of_set (settle_bne _), started]
  · cases w <;> rfl
  · rw [getR_settle]
    refine (congrArg (bit · 31) ((getR_clrR s aBneCload aBneCload 0x80000000).trans (if_pos rfl))).trans ?_
    rw [bit_and, bit_not _ (by decide), show bit (0x80000000 : Word) 31 = true from rfl]
    simp

/-- The checks of a curve load end: the entry is valid where no check fails, and nothing else changes but the trigger. -/
theorem curveDone_ends {s : State} {k i : Nat} (hc : s.bne.cload = some (k, i)) :
    ∃ d c, curveDone s = trigger { s with draws := d, bne := { s.bne with cload := none, curves := s.bne.curves.set {} k c } } 24 ∧
      (c.state = 2 ↔ c.code = 0) ∧ (c.state = 2 ∨ c.state = 3) := by
  unfold curveDone
  rw [hc]
  refine ⟨_, _, rfl, ?_, ?_⟩
  · dsimp only
    split <;> simp_all
  · dsimp only
    split
    · exact .inl rfl
    · exact .inr rfl

theorem curveCheck_ends {s : State} (up : s.up = true) {k i : Nat} (hc : s.bne.cload = some (k, i)) :
    ∃ t, exec .curveCheckDone s = .next t ∧ t.bne.cload = none ∧ SameMemory s t ∧ SameContexts s t ∧
      ((t.bne.curves.get {} k).state = 2 ↔ (t.bne.curves.get {} k).code = 0) ∧
      ((t.bne.curves.get {} k).state = 2 ∨ (t.bne.curves.get {} k).state = 3) := by
  obtain ⟨d, c, he, hcode, hstate⟩ := curveDone_ends hc
  have ran : exec .curveCheckDone s = .next (settle (curveDone s)) := by
    refine Eq.trans (b := occurs (whenUp s curveDone)) rfl ?_
    rw [whenUp, if_pos up, occurs]
  rw [he] at ran
  have hsig := signals_trigger { s with draws := d, bne := { s.bne with cload := none, curves := s.bne.curves.set {} k c } } 24
  have hb := (settle_bne _).trans hsig.bne
  refine ⟨_, ran, ?_, fun a => ?_, fun w => ?_, ?_, ?_⟩
  · rw [hb]
  · rw [rdB_settle]; exact hsig.sameMemory a
  · rw [seen_settle, hsig.seen w]; cases w <;> rfl
  · rw [curve_of_set hb]; exact hcode
  · rw [curve_of_set hb]; exact hstate

theorem zeroise_starts {s : State} (up : s.up = true) (hz : s.bne.zeroing = false) :
    ∃ t, exec .zeroisation s = .next t ∧ t.bne.zeroing = true ∧ bit (getR t aBneZero) 0 = true ∧
      (∀ b, b < 8 → ∀ o, eopOf s b = some o → eopOf t b = some { o with aborting := o.aborting || o.key }) ∧
      t.bne.keys = s.bne.keys ∧ SameMemory s t ∧ SameContexts s t := by
  have ran : exec .zeroisation s = .next (settle (modBne (orR (abortWhere s (·.key)) aBneZero 1)
      (fun e => { e with zeroing := true }))) := by
    refine Eq.trans (b := occurs (whenUp s zeroise)) rfl ?_
    rw [whenUp, if_pos up, zeroise, if_neg (by rw [hz]; decide), occurs]
  have ops := fun {b : Nat} (hb : b < 8) => eopOf_abortWhere (fun o => o.key) s hb
  obtain ⟨m, hm⟩ := onlyOps_abortWhere (fun o => o.key) s
  generalize abortWhere s (fun o => o.key) = u at ran ops hm
  refine ⟨_, ran, ?_, ?_, fun b hb o ho => ?_, ?_, fun a => ?_, fun w => ?_⟩
  · rw [settle_bne]; rfl
  · rw [getR_settle]
    refine (congrArg (bit · 0) ((getR_orR _ aBneZero aBneZero 1).trans (if_pos rfl))).trans ?_
    rw [bit_or, show bit (1 : Word) 0 = true from rfl, Bool.or_true]
  · rw [eopOf, settle_bne]
    refine (ops hb).trans ?_
    rw [ho, Option.map_some, aborted]
    obtain ⟨_, _, _, key, _, _, _⟩ := o
    cases key <;> simp
  · rw [settle_bne, hm]; rfl
  · rw [rdB_settle, hm]; rfl
  · rw [seen_settle, hm]; cases w <;> rfl

theorem zeroise_ends {s : State} (up : s.up = true) (hz : s.bne.zeroing = true) :
    ∃ t, exec .zeroisationDone s = .next t ∧ t.bne.zeroing = false ∧ t.bne.keys = [] ∧ bit (getR t aBneZero) 0 = false ∧
      fld (getR t aBneZero) 16 16 = satAdd 65535 (fld (getR s aBneZero) 16 16) 1 ∧ SameMemory s t ∧ SameContexts s t := by
  have ran : exec .zeroisationDone s = .next (settle (bumpR (clrR (modBne s (fun e => { e with zeroing := false, keys := [] }))
      aBneZero 1) aBneZero 16 16 1)) := by
    refine Eq.trans (b := occurs (whenUp s zeroiseDone)) rfl ?_
    rw [whenUp, if_pos up, zeroiseDone, if_pos hz, occurs]
  have cleared := (getR_clrR (modBne s (fun e => { e with zeroing := false, keys := [] })) aBneZero aBneZero 1).trans (if_pos rfl)
  refine ⟨_, ran, by rw [settle_bne]; rfl, by rw [settle_bne]; rfl, ?_, ?_, fun a => rdB_settle _ a, fun w => ?_⟩
  · rw [getR_settle, bumpR, getR_setR, if_pos rfl, bit_setFld_of_outside _ _ (.inl (by decide)), cleared, bit_and,
      bit_not _ (by decide), show bit (1 : Word) 0 = true from rfl]
    simp
  · rw [getR_settle, fld_bumpR _ _ _ (by decide), cleared]
    refine congrArg (fun x => satAdd 65535 x 1) (fld_congr fun i h1 h2 => ?_)
    rw [bit_and, bit_not _ (by omega)]
    have : bit (1 : Word) i = false := by
      unfold bit
      rw [show (1 : Word) = BitVec.ofNat 32 (2 ^ 0) from rfl, BitVec.getLsbD_ofNat, Nat.testBit_two_pow]
      simp; omega
    rw [this]
    simp
    rfl
  · rw [seen_settle]; cases w <;> rfl

/-- Settles O40: each end by its own rule. -/
theorem engineService : Obligations.EngineService := by
  unfold Obligations.EngineService
  exact fun s up => ⟨fun b o f rng h ha => engineFault_ends up f rng h ha, fun b o h ha => abort_ends up h ha,
    fun c v h hon hq h4 hc hs hu hf => curveLoad_starts h hon hq h4 hc hs hu hf, fun k i hc => curveCheck_ends up hc,
    fun hz => zeroise_starts up hz, fun hz => zeroise_ends up hz⟩

end Sys2Proof.Machine
end

section
/-! SUPPORT. More effects of a command that a statement leaves out: the rotation that waits for service mode, and the stele
writes that were waiting before the decommissioning. -/

namespace Sys2Proof.Machine

/-- The block in service mode with a rotation requested. -/
def rotating : State := { overfull 0x10001000 [] with lnc := { (overfull 0x10001000 []).lnc with rotReq := true } }

/-- Whether a lane joins in the state that a command leaves. -/
def joinsAfter (o : Out) : Option Bool :=
  match o with
  | .next t => some t.lnc.join.isSome
  | _ => none

/-- Refutes O59: the write of RNG_CTL that sets SVC also starts the rotation that waits. -/
theorem not_schedulerAndRings : ¬ Obligations.SchedulerAndRings := by
  unfold Obligations.SchedulerAndRings
  intro h
  obtain ⟨-, rings⟩ := h rotating 0 0
  obtain ⟨-, -, ⟨service, -⟩, -⟩ := rings ⟨rfl, by decide +kernel, by decide +kernel⟩
  exact absurd (congrArg joinsAfter (service (by decide +kernel) (by decide +kernel))) (by decide +kernel)

/-- A store of four bytes to an uncorrectable word of the stele waits without a requester, and the ledger writer waits for the
turn after it. -/
def waitingStore : State := { overfull 0x10001000 [] with
  csr := [(aMlsLstat, 0x80000000)], ecc := [(0x20030000, 2)], mls := { sq := [⟨0, 0, 2, 0, 0, 0⟩] }
  stl := { late := [⟨0x20030000, 4, true, false, 0⟩] } }

/-- STL_ECC in the state that a command leaves. -/
def steleErrorsAfter (o : Out) : Option Word :=
  match o with
  | .next t => some (getR t aStlEcc)
  | _ => none

/-- Refutes O55: the decommissioning also performs the store that waited, whose read finding STL_ECC counts. -/
theorem not_clockUnitLifecycle : ¬ Obligations.ClockUnitLifecycle := by
  unfold Obligations.ClockUnitLifecycle
  intro h
  obtain ⟨-, -, life⟩ := h waitingStore 0
  obtain ⟨t, ran, -, -, -, -, -, -, -, ends, -⟩ := life ⟨rfl, by decide +kernel, by decide +kernel⟩ 0x6C03
  obtain ⟨-, -, same⟩ := ends (by decide +kernel) (by decide +kernel)
  have after : steleErrorsAfter (.next t) = some (getR waitingStore aStlEcc) :=
    congrArg some (same aStlEcc (by decide +kernel) (by decide +kernel))
  exact absurd (ran ▸ after) (by decide +kernel)

end Sys2Proof.Machine
end

section
/-! SUPPORT. What an event of the attack policy can change (spec/09 R256, R257): what a trigger can, the latches and enable
copies of the supervised outputs, and the operations of the engine that zeroisation aborts. -/

namespace Sys2Proof.Machine

/-- State `t` is `s` but for what the attack policy and the outputs held safe do: what `Signals` names, command latches and
their lanes' copies, and the engine's operations and zeroisation. -/
structure Measures (l ns : List Nat) (s t : State) : Prop where
  rest : ∃ c k q x m i r p b n, t = { s with
    csr := c, coach := k, queue := q, src := x, mls := m, mtr := i, mret := r, fastPend := p, bne := b, lnc := n }
  mls : ∃ q h g c d, t.mls = { s.mls with sq := q, sqHigh := h, gap := g, latch := c, dark := d }
  bne : ∃ o z, t.bne = { s.bne with ops := o, zeroing := z }
  lnc : ∃ m, t.lnc = { s.lnc with lanes := m }
  lane : ∀ n, ∃ e, laneOf t n = { laneOf s n with enable := e }
  coach : ∀ n, ∃ st wk, coachOf t n = { coachOf s n with st := st, wake := wk }
  src : ∀ j, j ∉ ns → srcOf t j = srcOf s j
  csr : SameRegistersBut l s t

theorem Signals.measures {l ns : List Nat} {s t : State} (h : Signals l ns s t) : Measures l ns s t where
  rest := by
    obtain ⟨_, _, _, _, _, _, _, _, rfl⟩ := h.rest
    exact ⟨_, _, _, _, _, _, _, _, _, _, rfl⟩
  mls := by
    obtain ⟨_, _, _, e⟩ := h.mls
    exact ⟨_, _, _, _, _, e⟩
  bne := ⟨_, _, h.bne⟩
  lnc := ⟨_, h.lnc⟩
  lane n := ⟨_, by rw [laneOf, h.lnc]; rfl⟩
  coach := h.coach
  src := h.src
  csr := h.csr

theorem Measures.refl (l ns : List Nat) (s : State) : Measures l ns s s := (Signals.refl l ns s).measures

theorem Measures.trans {l ns : List Nat} {s t u : State} (h : Measures l ns s t) (g : Measures l ns t u) :
    Measures l ns s u where
  rest := by
    obtain ⟨_, _, _, _, _, _, _, _, _, _, rfl⟩ := h.rest
    obtain ⟨_, _, _, _, _, _, _, _, _, _, rfl⟩ := g.rest
    exact ⟨_, _, _, _, _, _, _, _, _, _, rfl⟩
  mls := by
    obtain ⟨_, _, _, _, _, e⟩ := h.mls
    obtain ⟨_, _, _, _, _, e'⟩ := g.mls
    exact ⟨_, _, _, _, _, e'.trans (by rw [e])⟩
  bne := by
    obtain ⟨_, _, e⟩ := h.bne
    obtain ⟨_, _, e'⟩ := g.bne
    exact ⟨_, _, e'.trans (by rw [e])⟩
  lnc := by
    obtain ⟨_, e⟩ := h.lnc
    obtain ⟨_, e'⟩ := g.lnc
    exact ⟨_, e'.trans (by rw [e])⟩
  lane n := by
    obtain ⟨_, e⟩ := h.lane n
    obtain ⟨_, e'⟩ := g.lane n
    exact ⟨_, e'.trans (by rw [e])⟩
  coach n := by
    obtain ⟨_, _, e⟩ := h.coach n
    obtain ⟨_, _, e'⟩ := g.coach n
    exact ⟨_, _, e'.trans (by rw [e])⟩
  src j hj := (g.src j hj).trans (h.src j hj)
  csr a ha := (g.csr a ha).trans (h.csr a ha)

theorem Measures.mono {l l' ns ns' : List Nat} {s t : State} (h : Measures l ns s t) (hl : l ⊆ l') (hn : ns ⊆ ns') :
    Measures l' ns' s t :=
  { h with
    src := fun j hj => h.src j fun hm => hj (hn hm)
    csr := fun a ha => h.csr a fun hm => ha (hl hm) }

/-- What keeps the relation at each step keeps it through a list. -/
theorem measures_foldl {α : Type} {l ns : List Nat} {f : State → α → State} {es : List α}
    (hf : ∀ e ∈ es, ∀ s, Measures l ns s (f s e)) (s : State) : Measures l ns s (es.foldl f s) := by
  induction es generalizing s with
  | nil => exact .refl l ns s
  | cons e r ih => exact (hf e List.mem_cons_self s).trans (ih (fun x hx => hf x (List.mem_cons_of_mem _ hx)) _)

section
variable {l ns : List Nat} {s t : State} (h : Measures l ns s t)
include h

theorem Measures.mem : t.mem = s.mem := by obtain ⟨_, _, _, _, _, _, _, _, _, _, rfl⟩ := h.rest; rfl
theorem Measures.ecc : t.ecc = s.ecc := by obtain ⟨_, _, _, _, _, _, _, _, _, _, rfl⟩ := h.rest; rfl
theorem Measures.bus : t.bus = s.bus := by obtain ⟨_, _, _, _, _, _, _, _, _, _, rfl⟩ := h.rest; rfl
theorem Measures.draws : t.draws = s.draws := by obtain ⟨_, _, _, _, _, _, _, _, _, _, rfl⟩ := h.rest; rfl
theorem Measures.cycles : t.cycles = s.cycles := by obtain ⟨_, _, _, _, _, _, _, _, _, _, rfl⟩ := h.rest; rfl
theorem Measures.up : t.up = s.up := by obtain ⟨_, _, _, _, _, _, _, _, _, _, rfl⟩ := h.rest; rfl
theorem Measures.fast : t.fast = s.fast := by obtain ⟨_, _, _, _, _, _, _, _, _, _, rfl⟩ := h.rest; rfl
theorem Measures.fastOn : t.fastOn = s.fastOn := by obtain ⟨_, _, _, _, _, _, _, _, _, _, rfl⟩ := h.rest; rfl
theorem Measures.cons : t.cons = s.cons := by obtain ⟨_, _, _, _, _, _, _, _, _, _, rfl⟩ := h.rest; rfl
theorem Measures.order : t.order = s.order := by obtain ⟨_, _, _, _, _, _, _, _, _, _, rfl⟩ := h.rest; rfl
theorem Measures.bank : t.bank = s.bank := by obtain ⟨_, _, _, _, _, _, _, _, _, _, rfl⟩ := h.rest; rfl
theorem Measures.fli : t.fli = s.fli := by obtain ⟨_, _, _, _, _, _, _, _, _, _, rfl⟩ := h.rest; rfl
theorem Measures.stl : t.stl = s.stl := by obtain ⟨_, _, _, _, _, _, _, _, _, _, rfl⟩ := h.rest; rfl
theorem Measures.mcs : t.mcs = s.mcs := by obtain ⟨_, _, _, _, _, _, _, _, _, _, rfl⟩ := h.rest; rfl
theorem Measures.hpt : t.hpt = s.hpt := by obtain ⟨_, _, _, _, _, _, _, _, _, _, rfl⟩ := h.rest; rfl
theorem Measures.pwr : t.pwr = s.pwr := by obtain ⟨_, _, _, _, _, _, _, _, _, _, rfl⟩ := h.rest; rfl
theorem Measures.time : t.mls.time = s.mls.time := by obtain ⟨_, _, _, _, _, e⟩ := h.mls; rw [e]

theorem Measures.runOf (k : Nat) : Machine.runOf t k = Machine.runOf s k := by
  obtain ⟨_, _, _, _, _, _, _, _, _, _, rfl⟩ := h.rest; rfl

theorem Measures.sameMemory : SameMemory s t := fun _ => by simp only [rdB, h.mem]

/-- A field that wakes do not change. -/
theorem Measures.get {α : Type} (f : Coach → α) (hf : ∀ c st wk, f { c with st := st, wake := wk } = f c) (w : Who) :
    f (getC t w) = f (getC s w) := by
  cases w with
  | coach n => obtain ⟨_, _, e⟩ := h.coach n; simp only [getC, e, hf]
  | fast => simp only [getC, h.fast]

theorem Measures.sameContexts : SameContexts s t := h.get Machine.seen (fun _ _ _ => rfl)

theorem Measures.sameProgram : SameProgram s t := ⟨h.sameMemory, h.sameContexts⟩

/-- A field of a lane other than its enable copies. -/
theorem Measures.laneGet {α : Type} (f : Lane → α) (hf : ∀ x e, f { x with enable := e } = f x) (n : Nat) :
    f (laneOf t n) = f (laneOf s n) := by
  obtain ⟨_, e⟩ := h.lane n
  rw [e, hf]

end

/-! ### Latches and enable copies -/

theorem measures_modLane_enable (s : State) (n : Nat) (f : BitVec 4 → BitVec 4) :
    Measures [] [] s (modLane s n (fun x => { x with enable := f x.enable })) where
  rest := ⟨_, _, _, _, _, _, _, _, _, _, rfl⟩
  mls := ⟨_, _, _, _, _, rfl⟩
  bne := ⟨_, _, rfl⟩
  lnc := ⟨_, rfl⟩
  lane k := by
    rw [modLane, laneOf_setLane]
    split
    · rename_i e; rw [e]; exact ⟨_, rfl⟩
    · exact ⟨_, rfl⟩
  coach _ := ⟨_, _, rfl⟩
  src _ _ := rfl
  csr _ _ := rfl

theorem measures_latch (s : State) (c : BitVec 4) (d : Option Nat) :
    Measures [] [] s (modMls s (fun m => { m with latch := c, dark := d })) where
  rest := ⟨_, _, _, _, _, _, _, _, _, _, rfl⟩
  mls := ⟨_, _, _, _, _, rfl⟩
  bne := ⟨_, _, rfl⟩
  lnc := ⟨_, rfl⟩
  lane _ := ⟨_, rfl⟩
  coach _ := ⟨_, _, rfl⟩
  src _ _ := rfl
  csr _ _ := rfl

theorem measures_enableAll (s : State) (n : Nat) (on : Bool) : Measures [] [] s (enableAll s n on) := by
  refine measures_foldl (fun k _ t => ?_) s
  split
  · exact measures_modLane_enable t k (withEnable · n on)
  · exact .refl _ _ _

theorem measures_setLatch (s : State) (n : Nat) (on : Bool) (cause coach : Nat) :
    Measures (eventRegs 27) [7, 27] s (setLatch s n on cause coach) := by
  have dark : Measures [] [] s (if !on && s.mls.dark == some n then modMls s (fun m => { m with dark := none }) else s) := by
    split
    · exact measures_latch s s.mls.latch none
    · exact .refl _ _ _
  have copies := (dark.trans (measures_enableAll _ n on)).mono (List.nil_subset (eventRegs 27)) (List.nil_subset [7, 27])
  unfold setLatch
  generalize enableAll _ n on = u at copies ⊢
  dsimp only
  split
  · exact copies
  · exact (copies.trans ((measures_latch u _ u.mls.dark).mono (List.nil_subset _) (List.nil_subset _))).trans
      (signals_queueStamp _ _).measures

/-! ### The actions of an attack -/

theorem measures_setR (s : State) (a : Nat) (v : Word) : Measures [a] [] s (setR s a v) := (signals_setR s a v).measures

theorem measures_holdOutputs (s : State) : Measures (aSvoCtl :: eventRegs 27) [7, 27] s (holdOutputs s) := by
  refine Measures.trans (measures_foldl (fun k _ t => ?_) s) ((measures_setR _ aSvoCtl _).mono ?_ (List.nil_subset _))
  · split
    · exact .refl _ _ _
    · exact (measures_setLatch t k false 1 0).mono (List.subset_cons_self _ _) (List.Subset.refl _)
  · exact List.cons_subset_cons _ (List.nil_subset _)

theorem measures_abortWhere (p : EOp → Bool) (s : State) : Measures [] [] s (abortWhere s p) := by
  obtain ⟨m, e⟩ := onlyOps_abortWhere p s
  rw [e]
  exact { rest := ⟨_, _, _, _, _, _, _, _, _, _, rfl⟩, mls := ⟨_, _, _, _, _, rfl⟩, bne := ⟨_, _, rfl⟩, lnc := ⟨_, rfl⟩,
          lane := fun _ => ⟨_, rfl⟩, coach := fun _ => ⟨_, _, rfl⟩, src := fun _ _ => rfl, csr := fun _ _ => rfl }

theorem measures_zeroising (s : State) (z : Bool) : Measures [] [] s (modBne s (fun e => { e with zeroing := z })) where
  rest := ⟨_, _, _, _, _, _, _, _, _, _, rfl⟩
  mls := ⟨_, _, _, _, _, rfl⟩
  bne := ⟨_, _, rfl⟩
  lnc := ⟨_, rfl⟩
  lane _ := ⟨_, rfl⟩
  coach _ := ⟨_, _, rfl⟩
  src _ _ := rfl
  csr _ _ := rfl

theorem measures_zeroise (s : State) : Measures [aBneZero] [] s (zeroise s) := by
  unfold zeroise
  split
  · exact .refl _ _ _
  · exact (((measures_abortWhere _ s).mono (List.nil_subset _) (List.nil_subset _)).trans (measures_setR _ _ _)).trans
      ((measures_zeroising _ true).mono (List.nil_subset _) (List.nil_subset _))

/-- A conditional step keeps the relation when the step does. -/
theorem measures_ite {l ns : List Nat} {s t : State} {b : Bool} (h : Measures l ns s t) :
    Measures l ns s (if b then t else s) := by
  split
  · exact h
  · exact .refl _ _ _

/-- Registers that an attack declaration may write (R257). -/
def attackRegs : List Nat := [aKeyAttack, aBneZero, aSvoCtl, aZwLifecycle] ++ eventRegs 2

theorem measures_attack (s : State) : Measures attackRegs [2, 7, 27] s (attack s) := by
  have record := fun t v => (measures_setR t aKeyAttack v).mono (l' := attackRegs) (ns' := [2, 7, 27]) (by decide) (by decide)
  have zero := fun t => (measures_zeroise t).mono (l' := attackRegs) (ns' := [2, 7, 27]) (by decide) (by decide)
  have hold := fun t => (measures_holdOutputs t).mono (l' := attackRegs) (ns' := [2, 7, 27]) (by decide) (by decide)
  have event := fun t => (signals_trigger t 2).measures.mono (l' := attackRegs) (ns' := [2, 7, 27]) (by decide) (by decide)
  have lock := fun t v => (measures_setR t aZwLifecycle v).mono (l' := attackRegs) (ns' := [2, 7, 27]) (by decide) (by decide)
  exact ((((record s _).trans (measures_ite (zero _))).trans (measures_ite (hold _))).trans (measures_ite (event _))).trans
    (measures_ite (lock _ _))

theorem measures_attackDue (s : State) : Measures attackRegs [2, 7, 27] s (attackDue s) := by
  unfold attackDue
  dsimp only
  split
  · exact measures_attack s
  · exact .refl _ _ _

theorem measures_policy (s : State) (k : Nat) : Measures policyRegs [2, 7, 27] s (policy s k) :=
  (((measures_setR s aKeyPcount _).mono (by decide) (by decide)).trans
    ((measures_setR _ aKeyPclass _).mono (by decide) (by decide))).trans
    ((measures_attackDue _).mono (by decide) (List.Subset.refl _))

/-- An event of the policy adds 1 to the count of the window (R256). -/
theorem pcount_policy (s : State) {k : Nat} : fld (getR (policy s k) aKeyPcount) 0 12 = satAdd 4095 (fld (getR s aKeyPcount) 0 12) 1 := by
  have le : satAdd 4095 (fld (getR s aKeyPcount) 0 12) 1 < 2 ^ 12 := Nat.lt_succ_of_le (satAdd_le _ _ _)
  unfold policy
  dsimp only
  rw [(measures_attackDue _).csr _ (by decide), getR_bumpR_other _ _ _ _ (by decide), getR_setR, if_pos rfl,
    fld_setFld_of_disjoint _ _ (by omega) (by omega), fld_setFld _ _ (by omega), Nat.mod_eq_of_lt le]

end Sys2Proof.Machine
end

section
/-! SUPPORT. A stall behind a coach's own entry: the list of coaches may hold a second entry of the same number, which no
access of a context sees, but whose stele access an L0 restart still performs. -/

namespace Sys2Proof.Machine

/-! ### What an L0 restart does to memory -/

/-- Steps that leave memory as it is leave it so through a list. -/
theorem mem_foldl {α : Type} {f : State → α → State} (hf : ∀ t e, (f t e).mem = t.mem) (l : List α) (s : State) :
    (l.foldl f s).mem = s.mem := by
  induction l generalizing s with
  | nil => rfl
  | cons e r ih => exact (ih (f s e)).trans (hf s e)

theorem refire_mem (s : State) (n : Nat) : (refire s n).mem = s.mem := by
  unfold refire
  split
  · exact (signals_triggerQuiet s n _).mem
  · rfl

theorem completeSrcs_mem (s : State) (ns : List Nat) : (completeSrcs s ns).mem = s.mem :=
  ((signals_deliveries s _ _).mem.trans (mem_foldl refire_mem ns _)).trans (mem_foldl (f := clearActive) (fun _ _ => rfl) ns s)

theorem completeAll_mem (s : State) : (completeAll s).mem = s.mem := 
  mem_foldl (f := completeAllOf) (fun t _ => completeSrcs_mem t _) _ s

theorem seatLanes_mem (s : State) (ls : List Nat) (r : Role) : (seatLanes s ls r).mem = s.mem := by
  unfold seatLanes
  dsimp only [modLnc_mem]
  refine mem_foldl (fun _ _ => ?_) _ s
  rfl

theorem reformLanes_mem (s : State) : (reformLanes s).mem = s.mem := by
  unfold reformLanes
  dsimp only
  split
  · exact (measures_holdOutputs _).mem.trans (seatLanes_mem s _ _)
  · exact seatLanes_mem s _ _

theorem emptyMicrostore_mem (s : State) : (emptyMicrostore s).mem = s.mem := by
  unfold emptyMicrostore
  dsimp only
  rw [setR_mem, clrR, setR_mem]
  generalize (_ : List Nat) ++ List.map _ _ = l
  exact mem_foldl (f := fun t a => setR t a 0) (fun _ _ => rfl) l s

/-- The state in which an L0 restart begins to perform what was under way. -/
def restarting (s : State) (reason : Nat) (x : XItem) (precise : Bool) : State :=
  let (ws, r0) := headNow (coachOf s (s.run0.getD 0)).dhead s
  setSbox r0 0 (l0Set r0 ws reason x precise)

/-- Memory after an L0 restart: what the writes of the stele that were under way leave. -/
theorem l0Restart_mem (s : State) (reason : Nat) (x : XItem) (precise : Bool) :
    (l0Restart s reason x precise).mem = ((steleQueue (restarting s reason x precise)).foldl (fun t e => lateWrite t e.2)
      (inFlight (restarting s reason x precise))).mem := by
  rw [l0Restart, restarting]
  generalize headNow _ s = p
  obtain ⟨ws, r0⟩ := p
  dsimp only
  generalize List.foldl _ (inFlight _) _ = s1
  rw [(signals_makeReady _ _).mem, setCoach_mem, reformLanes_mem, (measures_holdOutputs _).mem]
  rw [abortAll, (measures_abortWhere _ _).mem, emptyMicrostore_mem, setR_mem, setR_mem]
  split
  · exact completeAll_mem _
  · exact completeAll_mem _

/-! ### One waiting write of eight bytes -/

/-- Registers that the retries of a word write in row `r` count in. -/
def slowRegs (r : Nat) : List Nat := [aStlSlow, aStlRow + 4 * r, aStlRowlast] ++ eventRegs 10

theorem signals_bumpR (s : State) (a lo n k : Nat) : Signals [a] [] s (bumpR s a lo n k) := signals_setR s a _

theorem signals_orR (s : State) (a : Nat) (m : Word) : Signals [a] [] s (orR s a m) := signals_setR s a _

/-- Within a row of the registers that a word write counts in. -/
theorem Signals.counting {r a : Nat} {t u : State} (g : Signals [a] [] t u) (h : a ∈ slowRegs r) :
    Signals (slowRegs r) [10, 7, 27] t u := g.mono (List.cons_subset.2 ⟨h, List.nil_subset _⟩) (List.nil_subset _)

theorem row_mem_slowRegs (r : Nat) : aStlRow + 4 * r ∈ slowRegs r := List.mem_cons_of_mem _ List.mem_cons_self

theorem signals_markWeak (s : State) (r : Nat) : Signals (slowRegs r) [10, 7, 27] s (markWeak s r) := by
  have marked := (signals_orR s (aStlRow + 4 * r) 0x80000000#32).counting (row_mem_slowRegs r)
  have last := (signals_setR (orR s (aStlRow + 4 * r) 0x80000000#32) aStlRowlast (u32 (2 ^ 30 + r))).counting
    (r := r) (by simp [slowRegs])
  exact (marked.trans last).trans ((signals_trigger _ 10).mono (fun x h => List.mem_append_right _ h) (List.Subset.refl _))

theorem signals_slowWrite (s : State) (w retries : Nat) :
    Signals (slowRegs ((w - steleBase) / 256)) [10, 7, 27] s (slowWrite s w retries) := by
  have counted := ((signals_bumpR s aStlSlow 0 32 1).counting (r := (w - steleBase) / 256) (by simp [slowRegs])).trans
    ((signals_bumpR _ (aStlRow + 4 * ((w - steleBase) / 256)) 0 16 1).counting (row_mem_slowRegs _))
  unfold slowWrite
  split
  · exact .refl _ _ _
  · dsimp only
    split
    · exact counted.trans (signals_markWeak _ _)
    · exact counted

theorem rdB_congr {s t : State} (h : t.mem = s.mem) (a : Nat) : rdB t a = rdB s a := by rw [rdB, h, rdB]

/-- The word reads as written when the write is verified, and else as a free value. -/
theorem rdB_steleWord (s : State) (w v retries : Nat) : rdB (steleWord s w v retries).1 w = BitVec.ofNat 8 v ∨
    rdB (steleWord s w v retries).1 w = BitVec.ofNat 8 (Config.freeDWord s.draws).toNat := by
  have first := fun (t : State) x => rdB_wrN_same t w 8 x 0 (by decide)
  simp only [Nat.add_zero, Nat.pow_zero, Nat.div_one] at first
  have draws : (rewritten (slowWrite s w retries) w).draws = s.draws := (signals_slowWrite s w retries).draws
  unfold steleWord
  generalize rewritten (slowWrite s w retries) w = u at draws ⊢
  dsimp only
  split
  · right
    rw [← draws]
    refine (rdB_congr (s := wr64 { u with draws := u.draws + 1 } w (Config.freeDWord u.draws)) ?_ w).trans (first _ _)
    rw [setR_mem, bumpR, setR_mem, setEcc_mem]
    rfl
  · left
    exact (rdB_congr (setEcc_mem (wrN u w 8 v) w 0) w).trans (first u v)

theorem rdB_steleLater {s : State} {a : SAcc} (size : a.size = 8) (aligned : a.addr % 8 = 0) :
    rdB (steleLater s a) a.addr = BitVec.ofNat 8 a.data ∨
      rdB (steleLater s a) a.addr = BitVec.ofNat 8 (Config.freeDWord (s.draws + 1)).toNat := by
  have word : a.addr / 8 * 8 = a.addr := by omega
  have store : ∀ (t : State) (k : Nat), (steleStore t a.addr a.size a.data k).1 = (steleWord t a.addr a.data k).1 := fun t k => by
    unfold steleStore
    rw [word, if_pos size]
  rw [steleLater, freeD]
  dsimp only
  rw [store]
  exact rdB_steleWord { s with draws := s.draws + 1 } a.addr a.data _

/-- A write of the stele without a requester takes place at once when nothing else waits. -/
theorem lateWrite_eq {s : State} {a : SAcc} (write : a.write = true) (alone : s.stl.late = []) (power : holdup s = false)
    (journal : journalWaits s = false) (ledger : ledgerWaits s = false) :
    lateWrite s a = steleLater (tookTurn s true) a := by
  have same : { s with stl := { s.stl with late := [] } } = s := by rw [← alone]
  have waits : ledgerWaits { s with stl := { s.stl with late := [a] } } = false := ledger
  have first : ledgerFirst { s with stl := { s.stl with late := [a] } } = false := by rw [ledgerFirst, waits]; rfl
  have turn : clearTurn { s with stl := { s.stl with late := [a] } } = { s with stl := { s.stl with late := [a] } } := by
    rw [clearTurn, waits]; rfl
  have runs : (holdup s || journalWaits s) = false := by rw [power, journal]; rfl
  rw [lateWrite, if_pos write, alone, List.nil_append, flushLate]
  refine (if_neg (by exact ne_true_of_eq_false runs)).trans ?_
  change flushSome 1 _ = _
  rw [flushSome]
  dsimp only
  rw [if_neg (by rw [first]; decide), turn, flushSome, ← same]

/-! ### The counterexample -/

/-- A coach that stalls for a write of 5 to a word of the stele. -/
def hiddenStall : Coach := { stall := some { pops := 0, push := [], len := 1, stele := some ⟨0x20030000, 8, true, false, 5⟩ } }

/-- A byte that neither the write of `hiddenStall` nor its failure leaves. -/
def otherByte : Byte := if BitVec.ofNat 8 (Config.freeDWord 1).toNat = 6 then 7 else 6

/-- Coach 0 runs, and a second entry of its number holds the stall. -/
def shadowing : State := { overfull 0x10001000 [] with coach := [(0, overfullCoach 0x10001000 []), (0, hiddenStall)] }

/-- The same, where the word of the stall starts with `otherByte`. -/
def shadowed : State := wrB shadowing 0x20030000 otherByte

/-- What an unresolved mismatch at position A does before the core restarts (R243). -/
def suspects (s : State) (b c : Nat) : State :=
  let s2 := trigger (policy (bumpR (logMismatch s 3 0 c b) aKeyMmcnt 16 16 1) pcLANE) 0
  ([0, 1, 2].filterMap (laneAt s2)).foldl (fun t n => modLane t n (fun x => { x with suspect := true })) (holdOutputs s2)

theorem suspects_mem (s : State) (b c : Nat) : (suspects s b c).mem = s.mem := by
  have policied : (policy (bumpR (logMismatch s 3 0 c b) aKeyMmcnt 16 16 1) pcLANE).mem = s.mem :=
    (measures_policy _ _).mem.trans (by rw [bumpR, setR_mem, logMismatch, setR_mem, setR_mem])
  unfold suspects
  generalize policy _ pcLANE = u at policied ⊢
  rw [← policied]
  dsimp only
  refine (mem_foldl (fun _ _ => ?_) _ _).trans ((measures_holdOutputs _).mem.trans (signals_trigger u 0).mem)
  rfl

theorem compareOutputs_shadowed : ∃ b c,
    compareOutputs shadowed ⟨1, 2, 4⟩ = l0Restart (suspects shadowed b c) 1 { vec := 0 } false ∧ b = 0 ∧ c = 0 := by
  have three : differing shadowed ⟨1, 2, 4⟩ = [0, 1, 2] := by decide +kernel
  refine ⟨lowestBit (diffBits shadowed ⟨1, 2, 4⟩) 0, outCoach (outputAt ⟨1, 2, 4⟩ 0), ?_, by decide +kernel, by decide +kernel⟩
  unfold compareOutputs
  rw [if_neg (by decide +kernel), three]
  dsimp only
  rw [if_neg (by decide +kernel), if_neg (by decide +kernel), if_pos (by decide +kernel)]
  rfl

/-- The state in which the restart of `shadowed` begins. -/
def beginning : State := restarting (suspects shadowed 0 0) 1 { vec := 0 } false

/-- What waits in the stele's queue when a single sealed access stalls. -/
theorem steleQueue_single {s : State} {e : Who × Stall} {a : SAcc} (h : stalls s = [e]) (ha : e.2.stele = some a) :
    steleQueue s = [(e.1, a)] := by
  rw [steleQueue, h, List.mergeSort_singleton, List.filterMap_cons, ha]
  rfl

theorem inFlight_of_unstalled {s : State} (h : ∀ n ∈ s.coach.map (·.1), (coachOf s n).stall = none) (fast : s.fast.stall = none) :
    inFlight s = s := by
  have still : ∀ w, (getC s w).stall = none → performSealed s w = s := fun w hw => by rw [performSealed, hw]
  have coaches : (s.coach.map (·.1)).foldl (fun t n => performSealed t (.coach n)) s = s := by
    generalize s.coach.map (·.1) = l at h
    induction l with
    | nil => rfl
    | cons n r ih =>
      rw [List.foldl_cons, still (.coach n) (h n List.mem_cons_self)]
      exact ih (fun m hm => h m (List.mem_cons_of_mem n hm))
  rw [inFlight, coaches, still .fast fast]

theorem restart_performs_hidden : rdB (l0Restart (suspects shadowed 0 0) 1 { vec := 0 } false) 0x20030000 ≠ otherByte := by
  have quiet : inFlight beginning = beginning := inFlight_of_unstalled (by decide +kernel) (by decide +kernel)
  have stalled : stalls beginning = [(.coach 0,
      { pops := 0, push := [], len := 1, stele := some ⟨0x20030000, 8, true, false, 5⟩ })] := by decide +kernel
  have writes := rdB_congr (l0Restart_mem (suspects shadowed 0 0) 1 { vec := 0 } false) 0x20030000
  change _ = rdB ((steleQueue beginning).foldl _ (inFlight beginning)) _ at writes
  rw [steleQueue_single stalled rfl, quiet, List.foldl_cons, List.foldl_nil, lateWrite_eq rfl (by decide +kernel)
    (by decide +kernel) (by decide +kernel) (by decide +kernel)] at writes
  have draws : (tookTurn beginning true).draws = 0 := by decide +kernel
  rw [writes]
  rcases rdB_steleLater (s := tookTurn beginning true) (a := ⟨0x20030000, 8, true, false, 5⟩) rfl rfl with h | h
  · rw [h, otherByte]
    split <;> decide
  · rw [h, draws, otherByte]
    split
    · rename_i six
      rw [six]
      decide
    · assumption

/-- Refutes O47: the L0 restart of an unresolved mismatch performs a write of the stele that no context shows. -/
theorem not_mismatches : ¬ Obligations.Mismatches := by
  unfold Obligations.Mismatches
  intro h
  obtain ⟨-, -, unresolved, -⟩ := h shadowed 0
  obtain ⟨b, c, compares, rfl, rfl⟩ := compareOutputs_shadowed
  have unstalled : ∀ w, (getC shadowed w).stall = none := fun w => by
    cases w with
    | fast => rfl
    | coach n =>
      cases n with
      | zero => rfl
      | succ n => rfl
  obtain ⟨t, ran, same, -⟩ := unresolved ⟨1, 2, 4⟩ 0 0 [1, 2] (by decide +kernel) (by decide +kernel)
    (.inl ⟨rfl, by decide, by decide +kernel⟩) unstalled (by decide +kernel)
  have out : exec (.unresolvedMismatch 1 2 4) shadowed = .next (settle (compareOutputs shadowed ⟨1, 2, 4⟩)) := rfl
  obtain rfl := Host.Outcome.next.inj (out.symm.trans ran)
  have kept := same 0x20030000
  rw [rdB_settle, compares] at kept
  exact restart_performs_hidden (kept.trans (by rw [shadowed, rdB_wrB, if_pos rfl]))

end Sys2Proof.Machine
end

section
/-! SUPPORT. The edge count of a source that triggers (spec/07 R186): one more, and no other event of the same cycle changes
it. -/

namespace Sys2Proof.Machine

/-- No source's edge count changes. -/
def SameEdges (s t : State) : Prop := ∀ j, (srcOf t j).edgecnt = (srcOf s j).edgecnt

theorem SameEdges.trans {s t u : State} (h : SameEdges s t) (g : SameEdges t u) : SameEdges s u := fun j => (g j).trans (h j)

theorem Signals.sameEdges {l : List Nat} {s t : State} (h : Signals l [] s t) : SameEdges s t := fun j => by
  rw [h.src j List.not_mem_nil]

/-- Replacing a source by one with its edge count. -/
theorem sameEdges_setSrc {s : State} {n : Nat} {x : Src} (h : x.edgecnt = (srcOf s n).edgecnt) : SameEdges s (setSrc s n x) := by
  intro j
  rw [srcOf_setSrc]
  split
  · rename_i e
    rw [e, h]
  · rfl

theorem sameEdges_deliver (s : State) (n : Nat) : SameEdges s (deliver s n) := by
  unfold deliver
  split
  · split
    · refine SameEdges.trans ?_ (signals_sendFast _).sameEdges
      exact sameEdges_setSrc rfl
    · exact fun _ => rfl
  · refine (signals_foldl (l := []) (ns := []) (fun c _ t => ?_) s).sameEdges
    split
    · exact signals_sendWake t 6 c wkEVENT
    · exact .refl ..

theorem sameEdges_deliveries (s t : State) (ns : List Nat) : SameEdges t (deliveries s t ns) := by
  unfold deliveries
  generalize inRank t _ = l
  induction l generalizing t with
  | nil => exact fun _ => rfl
  | cons n r ih => exact (sameEdges_deliver t n).trans (ih _)

theorem sameEdges_countTrigger (s : State) (n : Nat) : SameEdges s (countTrigger s n).1 := by
  have pend : SameEdges s (setPend s n).1 := by
    unfold setPend
    dsimp only
    split
    · refine SameEdges.trans ?_ (signals_setR _ _ _).sameEdges
      exact sameEdges_setSrc rfl
    · exact sameEdges_setSrc rfl
  unfold countTrigger
  dsimp only
  split
  · exact sameEdges_setSrc rfl
  · split
    · exact pend
    · exact sameEdges_setSrc rfl

theorem sameEdges_stampSrc (s : State) (n : Nat) (soft : Bool) : SameEdges s (stampSrc s n soft).1 := by
  unfold stampSrc
  split
  · have stamped : SameEdges s (setSrc s n { srcOf s n with stamp := s.mls.time }) := sameEdges_setSrc rfl
    dsimp only
    split
    · rename_i t ht
      exact stamped.trans (signals_heldItem ht).sameEdges
    · exact stamped.trans (signals_sqEnter _ _).sameEdges
  · exact fun _ => rfl

/-- A hardware trigger counts one edge of its own source. -/
theorem edgecnt_triggerRaw (s : State) {n : Nat} (h : srcReserved n = false) (m : Bool) :
    (srcOf (triggerRaw s n (.hardware m)).1 n).edgecnt = (srcOf s n).edgecnt + 1 := by
  have own : (srcOf (setSrc s n { srcOf s n with edgecnt := (srcOf s n).edgecnt + 1, ovr := (srcOf s n).ovr || m }) n).edgecnt =
      (srcOf s n).edgecnt + 1 := by rw [srcOf_setSrc, if_pos rfl]
  unfold triggerRaw
  rw [if_neg (by rw [h]; decide)]
  exact ((sameEdges_stampSrc _ n false n).trans (sameEdges_countTrigger _ n n)).trans own

theorem edgecnt_triggerQuiet (s : State) {n : Nat} (h : srcReserved n = false) (h7 : n ≠ 7) (h27 : n ≠ 27) (m : Bool) :
    (srcOf (triggerQuiet s n (.hardware m)) n).edgecnt = (srcOf s n).edgecnt + 1 := by
  have own := edgecnt_triggerRaw s h m
  have seven := fun t o => (signals_triggerRaw t 7 o).src n (by simpa using h7)
  have full := fun t o => (signals_triggerRaw t 27 o).src n (by simpa using h27)
  have first : (srcOf (if (triggerRaw s n (.hardware m)).2.1 then triggerRaw (triggerRaw s n (.hardware m)).1 7 (.hardware false)
      else ((triggerRaw s n (.hardware m)).1, false, false)).1 n).edgecnt = (srcOf s n).edgecnt + 1 := by
    split
    · rw [seven]; exact own
    · exact own
  unfold triggerQuiet
  dsimp only
  generalize (if (triggerRaw s n (.hardware m)).2.1 = true then triggerRaw (triggerRaw s n (.hardware m)).1 7 (.hardware false)
    else ((triggerRaw s n (.hardware m)).1, false, false)) = r at first ⊢
  split
  · split
    · rw [seven, full]; exact first
    · rw [full]; exact first
  · exact first

theorem edgecnt_trigger (s : State) {n : Nat} (h : srcReserved n = false) (h7 : n ≠ 7) (h27 : n ≠ 27) :
    (srcOf (trigger s n) n).edgecnt = (srcOf s n).edgecnt + 1 :=
  (sameEdges_deliveries s _ _ n).trans (edgecnt_triggerQuiet s h h7 h27 false)

end Sys2Proof.Machine
end

section
/-! SUPPORT. The supply, sensor, temperature and clock monitors (spec/15 R357 to R361). -/

namespace Sys2Proof.Machine

/-! ### What a command answers of a state that only such effects have changed -/

theorem Measures.settle_program {l ns : List Nat} {s t : State} (h : Measures l ns s t) : SameProgram s (settle t) :=
  ⟨fun a => (rdB_settle t a).trans (h.sameMemory a), fun w => (seen_settle t w).trans (h.sameContexts w)⟩

theorem Measures.settle_registers {l ns : List Nat} {s t : State} (h : Measures l ns s t) : SameRegistersBut l s (settle t) :=
  fun a ha => (getR_settle t a).trans (h.csr a ha)

theorem Measures.settle_src {l ns : List Nat} {s t : State} (h : Measures l ns s t) {j : Nat} (hj : j ∉ ns) :
    srcOf (settle t) j = srcOf s j := (srcOf_settle t j).trans (h.src j hj)

theorem exec_whenUp {s : State} {c : Instr} {f : State → State} (up : s.up = true) (h : exec c s = occurs (whenUp s f)) :
    exec c s = .next (settle (f s)) := by
  rw [h, whenUp, if_pos up]
  rfl

/-- A register that gets bits `m` before a trigger of source `n`, which does not write it. -/
theorem raise_and_trigger {s : State} {a n : Nat} {m : Word} (hn : srcReserved n = false) (h7 : n ≠ 7) (h27 : n ≠ 27)
    (ha : a ∉ eventRegs n) : let t := trigger (orR s a m) n
    SameProgram s (settle t) ∧ getR (settle t) a = getR s a ||| m ∧ (srcOf (settle t) n).edgecnt = (srcOf s n).edgecnt + 1 ∧
      SameRegistersBut (a :: eventRegs n) s (settle t) := by
  have raised : Measures (a :: eventRegs n) [n, 7, 27] s (orR s a m) :=
    (measures_setR s a _).mono (List.cons_subset_cons a (List.nil_subset _)) (List.nil_subset _)
  have both := raised.trans ((signals_trigger (orR s a m) n).measures.mono (List.subset_cons_self a _) (List.Subset.refl _))
  refine ⟨both.settle_program, ?_, ?_, both.settle_registers⟩
  · rw [getR_settle, (signals_trigger _ n).csr a ha, getR_orR, if_pos rfl]
  · rw [srcOf_settle, edgecnt_trigger _ hn h7 h27]
    rfl

/-! ### Sensor alarms -/

/-- A sensor alarm: its bit, its count, the policy count, and source 34. -/
theorem sensorAlarm_raises (s : State) (i lo : Nat) (hlo : lo + 16 ≤ 32) :
    let t := trigger (policy (bumpR (orR s aPwrAlarm (u32 (2 ^ i))) aPwrGlitch lo 16 1) pcSENSOR) 34
    (SameProgram s (settle t) ∧ getR (settle t) aPwrAlarm = getR s aPwrAlarm ||| u32 (2 ^ i) ∧
      (srcOf (settle t) 34).edgecnt = (srcOf s 34).edgecnt + 1) ∧
    SameRegistersBut (aPwrAlarm :: aPwrGlitch :: policyRegs ++ eventRegs 34) s (settle t) ∧
    fld (getR (settle t) aPwrGlitch) lo 16 = satAdd 65535 (fld (getR s aPwrGlitch) lo 16) 1 ∧
    fld (getR (settle t) aKeyPcount) 0 12 = satAdd 4095 (fld (getR s aKeyPcount) 0 12) 1 := by
  have first : Measures [aPwrAlarm] [] s (orR s aPwrAlarm (u32 (2 ^ i))) := measures_setR s aPwrAlarm _
  have second := measures_setR (orR s aPwrAlarm (u32 (2 ^ i))) aPwrGlitch
    (setFld (getR (orR s aPwrAlarm (u32 (2 ^ i))) aPwrGlitch) lo 16
      (satAdd (2 ^ 16 - 1) (fld (getR (orR s aPwrAlarm (u32 (2 ^ i))) aPwrGlitch) lo 16) 1))
  change Measures _ _ _ (bumpR _ aPwrGlitch lo 16 1) at second
  have third := measures_policy (bumpR (orR s aPwrAlarm (u32 (2 ^ i))) aPwrGlitch lo 16 1) pcSENSOR
  have fourth := signals_trigger (policy (bumpR (orR s aPwrAlarm (u32 (2 ^ i))) aPwrGlitch lo 16 1) pcSENSOR) 34
  have all := (((first.mono (l' := aPwrAlarm :: aPwrGlitch :: policyRegs ++ eventRegs 34) (ns' := [2, 7, 27, 34]) (by decide)
    (by decide)).trans (second.mono (by decide) (by decide))).trans (third.mono (by decide) (by decide))).trans
    (fourth.measures.mono (by decide) (by decide))
  refine ⟨⟨all.settle_program, ?_, ?_⟩, all.settle_registers, ?_, ?_⟩
  · rw [getR_settle, fourth.csr _ (by decide), third.csr _ (by decide), second.csr _ (by decide), getR_orR, if_pos rfl]
  · rw [srcOf_settle, edgecnt_trigger _ (by decide) (by decide) (by decide), third.src _ (by decide), second.src _ (by decide),
      first.src _ (by decide)]
  · rw [getR_settle, fourth.csr _ (by decide), third.csr _ (by decide), fld_bumpR _ _ _ hlo, first.csr _ (by decide)]
    rfl
  · rw [getR_settle, fourth.csr _ (by decide), pcount_policy, second.csr _ (by decide), first.csr _ (by decide)]

/-! ### Early warning -/

theorem earlyWarning_raises {s : State} (up : s.up = true) : ∃ t, exec .earlyWarning s = .next t ∧
    (SameProgram s t ∧ getR t aPwrAlarm = getR s aPwrAlarm ||| 3 ∧ (srcOf t 34).edgecnt = (srcOf s 34).edgecnt + 1) ∧
    bit (getR t aStlStatus) 31 = true ∧ SameRegistersBut ([aPwrAlarm, aStlStatus] ++ eventRegs 34) s t := by
  have first : Measures [aPwrAlarm] [] s (orR s aPwrAlarm 3) := measures_setR s aPwrAlarm _
  obtain ⟨-, status, edges, -⟩ := raise_and_trigger (s := orR s aPwrAlarm 3) (a := aStlStatus) (n := 34) (m := 0x80000000#32)
    (by decide) (by decide) (by decide) (by decide)
  have second : Measures [aStlStatus] [] (orR s aPwrAlarm 3) (orR (orR s aPwrAlarm 3) aStlStatus 0x80000000#32) :=
    measures_setR _ aStlStatus _
  have third := signals_trigger (orR (orR s aPwrAlarm 3) aStlStatus 0x80000000#32) 34
  have all := ((first.mono (l' := [aPwrAlarm, aStlStatus] ++ eventRegs 34) (ns' := [34, 7, 27]) (by decide) (by decide)).trans
    (second.mono (by decide) (by decide))).trans (third.measures.mono (by decide) (by decide))
  refine ⟨_, exec_whenUp up rfl, ⟨all.settle_program, ?_, edges⟩, ?_, all.settle_registers⟩
  · rw [getR_settle, third.csr _ (by decide), second.csr _ (by decide), getR_orR, if_pos rfl]
  · rw [status, bit_or]
    exact Bool.or_eq_true_iff.2 (.inr (by decide))

/-- The end of the hold-up when it has held nothing back and no row is to be marked. -/
theorem earlyClear_idle {s : State} (up : s.up = true) (late : s.stl.late = []) (repair : s.fli.repair = [])
    (redo : s.fli.redo = []) (rows : ∀ r, r < 1024 → newlyWeak s r = false) :
    earlyClear s = clrR (clrR s aPwrAlarm 1) aStlStatus 0x80000000#32 := by
  have cleared := (onlyRegisters_clrR s aPwrAlarm 1).trans (onlyRegisters_clrR (clrR s aPwrAlarm 1) aStlStatus 0x80000000#32)
  unfold earlyClear
  rw [whenUp, if_pos up]
  dsimp only
  generalize clrR (clrR s aPwrAlarm 1) aStlStatus 0x80000000#32 = u at cleared ⊢
  obtain ⟨m, rest⟩ := cleared.rest
  have stl : u.stl = s.stl := by rw [rest]
  have fli : u.fli = s.fli := by rw [rest]
  have redone : redoSlots u = u := by
    unfold redoSlots
    split
    · rfl
    · rw [fli, redo, List.foldl_nil, modFli, ← redo, ← fli]
  have flushed : flushLate u = u := by
    unfold flushLate
    split
    · rfl
    · rw [stl, late, List.length_nil, flushSome]
  have weak : ∀ r, r < 1024 → newlyWeak u r = false := fun r hr => by
    have row : getR u (aStlRow + 4 * r) = getR s (aStlRow + 4 * r) := cleared.but _ (by
      simp only [List.cons_append, List.nil_append, List.mem_cons, List.not_mem_nil, or_false, aPwrAlarm, aStlStatus, aStlRow]
      omega)
    rw [newlyWeak, row, cleared.but aStlCfg (by decide)]
    exact rows r hr
  have marked : markRows u = u := by
    unfold markRows
    generalize hl : (u.csr.map (·.1)).filter (fun a => decide (aStlRow ≤ a) && decide (a < aStlRow + 4096)) = l
    have within : ∀ a ∈ l, a < aStlRow + 4096 := fun a ha => by
      rw [← hl, List.mem_filter, Bool.and_eq_true, decide_eq_true_iff, decide_eq_true_iff] at ha
      exact ha.2.2
    clear hl
    induction l with
    | nil => rfl
    | cons a r ih =>
      have ha := within a List.mem_cons_self
      have row : (a - aStlRow) / 4 < 1024 := by omega
      rw [List.foldl_cons, if_neg (by rw [weak _ row]; decide)]
      exact ih (fun b hb => within b (List.mem_cons_of_mem a hb))
  rw [redone, flushed, marked, nextRepair, fli, repair]

/-! ### Clocks -/

theorem clockReturn_clears {s : State} (i : Nat) : let t := clrR s aClkStatus (u32 (2 ^ (8 + i)))
    SameProgram s (settle t) ∧ SameRegistersBut [aClkStatus] s (settle t) ∧
      getR (settle t) aClkStatus = getR s aClkStatus &&& ~~~(u32 (2 ^ (8 + i))) := by
  have only := onlyRegisters_clrR s aClkStatus (u32 (2 ^ (8 + i)))
  exact ⟨only.settle_program, only.settle_registers, by rw [getR_settle, getR_clrR, if_pos rfl]⟩

/-- No byte of memory, nothing a program sees, and neither registers outside `l` nor sources outside `ns` change. -/
structure Leaves (l ns : List Nat) (s t : State) : Prop where
  program : SameProgram s t
  csr : SameRegistersBut l s t
  src : ∀ j, j ∉ ns → srcOf t j = srcOf s j

theorem Measures.leaves {l ns : List Nat} {s t : State} (h : Measures l ns s t) : Leaves l ns s t := ⟨h.sameProgram, h.csr, h.src⟩

theorem Leaves.trans {l ns : List Nat} {s t u : State} (h : Leaves l ns s t) (g : Leaves l ns t u) : Leaves l ns s u where
  program := ⟨fun a => (g.program.1 a).trans (h.program.1 a), fun w => (g.program.2 w).trans (h.program.2 w)⟩
  csr a ha := (g.csr a ha).trans (h.csr a ha)
  src j hj := (g.src j hj).trans (h.src j hj)

theorem Leaves.mono {l l' ns ns' : List Nat} {s t : State} (h : Leaves l ns s t) (hl : l ⊆ l') (hn : ns ⊆ ns') :
    Leaves l' ns' s t := ⟨h.program, fun a ha => h.csr a fun hm => ha (hl hm), fun j hj => h.src j fun hm => hj (hn hm)⟩

theorem leaves_modMls (s : State) (f : Mls → Mls) : Leaves [] [] s (modMls s f) :=
  ⟨⟨fun _ => rfl, fun w => by cases w <;> rfl⟩, fun _ _ => rfl, fun _ _ => rfl⟩

theorem Leaves.settle {l ns : List Nat} {s t : State} (h : Leaves l ns s t) : Leaves l ns s (settle t) where
  program := ⟨fun a => (rdB_settle t a).trans (h.program.1 a), fun w => (seen_settle t w).trans (h.program.2 w)⟩
  csr a ha := (getR_settle t a).trans (h.csr a ha)
  src j hj := (srcOf_settle t j).trans (h.src j hj)

/-- Registers of the reference's state (R218). -/
def refRegs : List Nat := aMlsStatus :: eventRegs 26

theorem leaves_setRef (s : State) (i : Nat) (v : Bool) : Leaves refRegs [26, 7, 27] s (setRef s i v) := by
  have status := (measures_setR s aMlsStatus (setBit (getR s aMlsStatus) i v)).mono (l' := refRegs) (ns' := [26, 7, 27])
    (by decide) (by decide)
  unfold setRef
  split
  · exact (Measures.refl _ _ s).leaves
  · dsimp only
    split
    · exact (status.trans ((signals_trigger _ 26).measures.mono (by decide) (by decide))).leaves
    · exact status.leaves

/-- A bit of MLS_STATUS after one of the reference's is set. -/
theorem bit_setRef (s : State) {i j : Nat} (v : Bool) (hj : j < 32) :
    bit (getR (setRef s i v) aMlsStatus) j = if j = i then v else bit (getR s aMlsStatus) j := by
  unfold setRef
  split
  · rename_i same
    split
    · rename_i e
      rw [e, same]
    · rfl
  · dsimp only
    split
    · rw [(signals_trigger _ 26).csr _ (by decide), getR_setR, if_pos rfl, bit_setBit _ _ hj]
    · rw [getR_setR, if_pos rfl, bit_setBit _ _ hj]

theorem leaves_loseLock (s : State) : Leaves refRegs [26, 7, 27] s (loseLock s) :=
  (leaves_setRef s 0 false).trans ((leaves_modMls _ _).mono (by decide) (by decide))

theorem leaves_holdover (s : State) : Leaves (aMlsFreq :: refRegs) [26, 7, 27] s (holdover s) :=
  (((leaves_loseLock s).trans (leaves_setRef _ 1 true)).mono (by decide) (by decide)).trans
    ((measures_setR _ aMlsFreq _).leaves.mono (by decide) (by decide))

/-- The reference is lost: LOCK clears, and HOLDOVER is set. -/
theorem bit_holdover (s : State) : bit (getR (holdover s) aMlsStatus) 0 = false ∧ bit (getR (holdover s) aMlsStatus) 1 = true := by
  have lost : bit (getR (loseLock s) aMlsStatus) 0 = false := by
    change bit (getR (setRef s 0 false) aMlsStatus) 0 = false
    rw [bit_setRef s false (by decide), if_pos rfl]
  have same : getR (holdover s) aMlsStatus = getR (setRef (loseLock s) 1 true) aMlsStatus := by
    rw [holdover, getR_setR, if_neg (by decide)]
  rw [same, bit_setRef _ true (by decide), bit_setRef _ true (by decide), if_neg (by decide), if_pos rfl]
  exact ⟨lost, rfl⟩

end Sys2Proof.Machine
end

section
/-! SUPPORT. What a reset leaves (spec/15 R363 to R366), as far as a second oscillator fault needs it, and the monitors'
statement. -/

namespace Sys2Proof.Machine

/-! ### A state without coaches is settled -/

/-- No coach exists, and no lane set runs one. -/
structure Vacant (s : State) : Prop where
  coach : s.coach = []
  queue : s.queue = []
  run : ∀ l, runOf s l = none

theorem pick_vacant {s : State} (h : Vacant s) (l f : Nat) : pick l f s = s := by
  have nobody : best s l = none := by
    unfold best
    rw [h.queue]
    rfl
  cases f with
  | zero => rfl
  | succ f =>
    unfold pick
    rw [h.run l, nobody]

theorem fixRun_vacant {s : State} (h : Vacant s) (l : Nat) : fixRun s l = s := by
  unfold fixRun
  rw [h.run l]

theorem coachOf_settle_vacant {s : State} (h : Vacant s) (n : Nat) : coachOf (settle s) n = {} := by
  have held : Vacant (applyHalts (refreshHeld s)) ∧ (applyHalts (refreshHeld s)).coach = [] := by
    rw [applyHalts, show (refreshHeld s).queue = [] from h.queue, List.filter_nil, List.foldl_nil]
    have none : (refreshHeld s).coach = [] := by rw [refreshHeld, h.coach, List.map_nil]
    exact ⟨⟨none, h.queue, h.run⟩, none⟩
  have same : settle s = applyHalts (refreshHeld s) := by
    unfold settle
    dsimp only
    rw [pick_vacant held.1, pick_vacant held.1, pick_vacant held.1, fixRun_vacant held.1, fixRun_vacant held.1, fixRun_vacant held.1]
  rw [same, coachOf, held.2]
  rfl

/-! ### Reset -/

/-- State `t` is `s` but for the array, its check bits, the flash interface and the open values drawn. -/
def OnlyFlash (s t : State) : Prop := ∃ m e f d, t = { s with mem := m, ecc := e, fli := f, draws := d }

theorem onlyFlash_openWord (s : State) (a : Nat) : OnlyFlash s (openWord false s a) := by
  unfold openWord freeD
  dsimp only
  obtain ⟨m, e⟩ := wrN_rest { s with draws := s.draws + 1 + 1 } a 8
    (if (Config.freeDWord (s.draws + 1)).getLsbD 0 then 2 ^ 64 - 1 else (Config.freeDWord s.draws).toNat)
  rw [e]
  exact ⟨_, _, _, _, rfl⟩

theorem onlyFlash_lostFlash (s : State) : OnlyFlash s (lostFlash s) := by
  have programmed : OnlyFlash s (match s.fli.prog with | some o => openWord false s o.addr | none => s) := by
    split
    · exact onlyFlash_openWord s _
    · exact ⟨_, _, _, _, rfl⟩
  have erased : ∀ u : State, OnlyFlash s u → OnlyFlash s (match s.fli.era with
      | some o => if o.begin_ || s.fli.fin.isSome then u
        else modFli (clrRange u o.addr (o.addr + 4096)) (fun f => { f with
          fprog := SMap.keep (fun k => decide (k < o.addr) || decide (o.addr + 4096 ≤ k)) f.fprog })
      | none => u) := by
    rintro u ⟨m, e, f, d, rfl⟩
    split
    · split
      · exact ⟨_, _, _, _, rfl⟩
      · exact ⟨_, _, _, _, rfl⟩
    · exact ⟨_, _, _, _, rfl⟩
  exact erased _ programmed

/-- State `t` is `s` but for control registers. -/
def OnlyCsr (s t : State) : Prop := ∃ m, t = { s with csr := m }

theorem OnlyCsr.refl (s : State) : OnlyCsr s s := ⟨s.csr, rfl⟩

theorem OnlyCsr.setR {s t : State} (h : OnlyCsr s t) (a : Nat) (v : Word) : OnlyCsr s (Machine.setR t a v) := by
  obtain ⟨m, rfl⟩ := h
  exact ⟨_, rfl⟩

theorem onlyCsr_foldl {α : Type} {f : State → α → State} (hf : ∀ s t x, OnlyCsr s t → OnlyCsr s (f t x)) (s : State)
    {t : State} (l : List α) (h : OnlyCsr s t) : OnlyCsr s (l.foldl f t) := by
  induction l generalizing t with
  | nil => exact h
  | cons x r ih => exact ih (hf s t x h)

theorem onlyCsr_keptCsr (s : State) (por : Bool) (t : State) : OnlyCsr t (keptCsr s por t) := by
  have rows := onlyCsr_foldl (f := fun u a => setR u a (getR s a)) (fun _ _ a h => h.setR a _) t
    ((s.csr.map (·.1)).filter (fun a => decide (aStlRow ≤ a) && decide (a < aStlRow + 4096))) (.refl t)
  have copied : ∀ {u : State} (a : Nat) (m : Word), OnlyCsr t u →
      OnlyCsr t (setR u a ((getR u a &&& ~~~m) ||| (getR s a &&& m))) := fun a _ h => h.setR a _
  unfold keptCsr
  dsimp only
  split
  · exact copied _ _ (copied _ _ (copied _ _ rows))
  · split
    · exact copied _ _ (copied _ _ (copied _ _ (copied _ _ (copied _ _ (copied _ _ (copied _ _ (copied _ _ rows)))))))
    · exact copied _ _ (copied _ _ (copied _ _ (copied _ _ (copied _ _ (copied _ _ (copied _ _ rows))))))

/-- LSFAIL survives every reset but a power-on (R363). -/
theorem lsfail_keptCsr (s t : State) : bit (getR (keptCsr s false t) aClkStatus) 11 = bit (getR s aClkStatus) 11 := by
  have copied : ∀ (u : State), bit (getR (setR u aClkStatus ((getR u aClkStatus &&& ~~~0x800#32) ||| (getR s aClkStatus &&& 0x800#32)))
      aClkStatus) 11 = bit (getR s aClkStatus) 11 := fun u => by
    rw [getR_setR, if_pos rfl, bit_or, bit_and, bit_and, bit_not _ (by decide)]
    simp [show bit 0x800#32 11 = true from by decide]
  unfold keptCsr
  dsimp only
  split
  · rename_i h
    exact absurd h (by decide)
  · split
    · rw [getR_setR, if_neg (by decide)]
      exact copied _
    · exact copied _

/-- What a reset of the running block leaves of the coaches, the lane sets and the cause. -/
theorem resetBlock_vacant (s : State) (cause : Nat) : Vacant (resetBlock s cause) ∧ (resetBlock s cause).up = false ∧
    (resetBlock s cause).pwr.wir = s.pwr.wir ∧ (s.up = true → (resetBlock s cause).pwr.cause = cause) := by
  obtain ⟨_, _, _, _, lost⟩ := onlyFlash_lostFlash s
  unfold resetBlock
  dsimp only
  obtain ⟨m, kept⟩ := onlyCsr_keptCsr (lostFlash s) (cause = 1) _
  rw [kept]
  refine ⟨⟨rfl, rfl, fun l => ?_⟩, rfl, ?_, fun up => ?_⟩
  · unfold runOf
    split
    · rfl
    · split
      · rfl
      · rfl
  · rw [lost]
  · rw [lost]
    exact if_pos up

theorem lsfail_resetBlock (s : State) : bit (getR (resetBlock s 4) aClkStatus) 11 = bit (getR s aClkStatus) 11 := by
  obtain ⟨_, _, _, _, lost⟩ := onlyFlash_lostFlash s
  have same : getR (lostFlash s) aClkStatus = getR s aClkStatus := by rw [lost]; rfl
  exact (lsfail_keptCsr (lostFlash s) _).trans (congrArg (bit · 11) same)

theorem secondFault_resets {s : State} (up : s.up = true) (off : oscOff s ≠ 0) :
    ∃ t, exec .secondOscillatorFault s = .next t ∧ t.up = false ∧ t.pwr.cause = 4 ∧ bit (getR t aClkStatus) 11 = true ∧
      ∀ n, coachOf t n = {} := by
  have kept := measures_policy (orR s aClkStatus 0x800) pcLANE
  have fails : bit (getR (policy (orR s aClkStatus 0x800) pcLANE) aClkStatus) 11 = true := by
    rw [kept.csr _ (by decide), getR_orR, if_pos rfl, bit_or]
    exact Bool.or_eq_true_iff.2 (.inr (by decide))
  have out : exec .secondOscillatorFault s = occurs (resetBlock (policy (orR s aClkStatus 0x800) pcLANE) 4) := by
    refine Eq.trans (b := occurs (if oscOff s = 0 then s else secondFault s)) rfl ?_
    rw [if_neg off, secondFault, whenUp, if_pos up]
  generalize policy (orR s aClkStatus 0x800) pcLANE = u at kept fails out
  obtain ⟨vacant, down, -, cause⟩ := resetBlock_vacant u 4
  refine ⟨_, out, ?_, ?_, ?_, coachOf_settle_vacant vacant⟩
  · rw [settle_up, down]
  · rw [settle_pwr, cause (kept.up.trans up)]
  · rw [getR_settle, lsfail_resetBlock, fails]

/-! ### Settling the statement -/

theorem refclkFault_raises {s : State} (up : s.up = true) : ∃ t, exec .refclkFault s = .next t ∧
    (SameProgram s t ∧ getR t aClkStatus = getR s aClkStatus ||| 0x101 ∧ (srcOf t 36).edgecnt = (srcOf s 36).edgecnt + 1) ∧
    bit (getR t aMlsStatus) 0 = false ∧ bit (getR t aMlsStatus) 1 = true := by
  have raised : Measures (aClkStatus :: eventRegs 36) [36, 7, 27] s (trigger (orR s aClkStatus 0x101) 36) :=
    ((measures_setR s aClkStatus _).mono (by decide) (by decide)).trans
      ((signals_trigger (orR s aClkStatus 0x101) 36).measures.mono (by decide) (by decide))
  have held := leaves_holdover (trigger (orR s aClkStatus 0x101) 36)
  have all := (raised.leaves.mono (l' := aClkStatus :: aMlsFreq :: refRegs ++ eventRegs 36) (ns' := [26, 36, 7, 27])
    (by decide) (by decide)).trans (held.mono (by decide) (by decide))
  have out : exec .refclkFault s = .next (settle (holdover (trigger (orR s aClkStatus 0x101) 36))) := by
    refine Eq.trans (b := occurs (whenUp s (fun s => holdover (clockFault s 0)))) rfl ?_
    rw [whenUp, if_pos up, clockFault, whenUp, if_pos up]
    rfl
  refine ⟨_, out, ⟨all.settle.program, ?_, ?_⟩, ?_, ?_⟩
  · rw [getR_settle, held.csr _ (by decide), (signals_trigger _ 36).csr _ (by decide), getR_orR, if_pos rfl]
  · rw [srcOf_settle, held.src _ (by decide), edgecnt_trigger _ (by decide) (by decide) (by decide)]
    rfl
  · rw [getR_settle]
    exact (bit_holdover _).1
  · rw [getR_settle]
    exact (bit_holdover _).2

/-- Settles O54: each monitor through the frame of a trigger or of the attack policy, the second oscillator through the
reset. -/
theorem monitorsAndClocks : Obligations.MonitorsAndClocks := by
  unfold Obligations.MonitorsAndClocks
  intro s up
  refine ⟨earlyWarning_raises up, fun late repair redo rows => ?_, ?_, ?_, ?_, fun low => ?_, refclkFault_raises up,
    ⟨_, exec_whenUp up rfl, clockReturn_clears 0⟩, fun flash => ⟨?_, ?_⟩, fun off => ?_, secondFault_resets up⟩
  · have only := (onlyRegisters_clrR s aPwrAlarm 1).trans (onlyRegisters_clrR (clrR s aPwrAlarm 1) aStlStatus 0x80000000#32)
    refine ⟨_, (congrArg occurs (earlyClear_idle up late repair redo rows) : exec .earlyWarningClear s = _),
      only.settle_program, only.settle_registers, ?_, ?_⟩
    · rw [getR_settle, getR_clrR, if_neg (by decide), getR_clrR, if_pos rfl]
    · rw [getR_settle, getR_clrR, if_pos rfl, getR_clrR, if_neg (by decide)]
      rfl
  · exact ⟨_, exec_whenUp up rfl, sensorAlarm_raises s 2 0 (by decide)⟩
  · exact ⟨_, exec_whenUp up rfl, sensorAlarm_raises s 6 0 (by decide)⟩
  · exact ⟨_, exec_whenUp up rfl, sensorAlarm_raises s 5 16 (by decide)⟩
  · obtain ⟨program, alarm, edges, rest⟩ := raise_and_trigger (s := s) (a := aPwrAlarm) (n := 35)
      (m := if low then 0x10 else 8) (by decide) (by decide) (by decide) (by decide)
    exact ⟨_, exec_whenUp up rfl, ⟨program, alarm, edges⟩, rest⟩
  · have bits : u32 (2 ^ (if flash then 2 else 1) + 2 ^ (8 + if flash then 2 else 1)) = if flash then 0x404 else 0x202 := by
      cases flash <;> decide
    obtain ⟨program, status, edges, rest⟩ := raise_and_trigger (s := s) (a := aClkStatus) (n := 36)
      (m := u32 (2 ^ (if flash then 2 else 1) + 2 ^ (8 + if flash then 2 else 1))) (by decide) (by decide) (by decide) (by decide)
    exact ⟨_, exec_whenUp up rfl, ⟨program, status.trans (by rw [bits]), edges⟩, rest⟩
  · obtain ⟨program, registers, status⟩ := clockReturn_clears (s := s) (if flash then 2 else 1)
    exact ⟨_, exec_whenUp up rfl, program, registers, status⟩
  · refine Eq.trans (b := occurs (if oscOff s = 0 then s else secondFault s)) rfl ?_
    rw [if_pos off]
    rfl

end Sys2Proof.Machine
end

section
/-! SUPPORT. The test wrapper (spec/15 R378). -/

namespace Sys2Proof.Machine

/-! ### Loading an instruction -/

/-- State `s` with the wrapper's instruction and data register. -/
def wrapped (s : State) (code : Nat) (d : DWord) : State := { s with pwr := { s.pwr with wir := code, wdr := d } }

/-- State `s` with the wrapper's instruction. -/
def instructed (s : State) (code : Nat) : State := wrapped s code s.pwr.wdr

theorem setWir_inert {s : State} (h3 : s.pwr.wir ≠ 3) (h4 : s.pwr.wir ≠ 4) (code : Nat) : setWir s code = instructed s code := by
  unfold setWir
  rw [beq_eq_false_iff_ne.2 h3, beq_eq_false_iff_ne.2 h4]
  rfl

theorem wrapper_admitted {s : State} (h3 : s.pwr.wir ≠ 3) (h4 : s.pwr.wir ≠ 4) {code : Nat} (h : wrapAdmits s code = true)
    (f : State → State) : wrapper s code f = .next (settle (f (instructed s code))) := by
  unfold wrapper loadWir
  rw [if_pos h, setWir_inert h3 h4]
  rfl

theorem wrapper_refused {s : State} (h3 : s.pwr.wir ≠ 3) (h4 : s.pwr.wir ≠ 4) {code : Nat} (h : ¬ wrapAdmits s code = true)
    (f : State → State) : wrapper s code f = occurs (orR (instructed s 0) aZwLifecycle 0x40000000) := by
  unfold wrapper loadWir
  rw [if_neg h, setWir_inert (s := orR s aZwLifecycle 0x40000000#32) h3 h4]
  rfl

/-- Admission as the lifecycle and LOCK give it. -/
theorem wrapAdmits_extest (s : State) :
    wrapAdmits s 2 = true ↔ bit (getR s aZwLifecycle) 31 = false ∧ fld (getR s aZwLifecycle) 0 2 ≤ 1 := by
  simp only [wrapAdmits, lifeLock, lifecycle, Bool.and_eq_true, Bool.not_eq_true']
  exact and_congr_right fun _ => decide_eq_true_iff

theorem wrapAdmits_intest (s : State) :
    wrapAdmits s 3 = true ↔ bit (getR s aZwLifecycle) 31 = false ∧ fld (getR s aZwLifecycle) 0 2 = 0 := by
  simp [wrapAdmits, lifeLock, lifecycle]

theorem wrapAdmits_mbist (s : State) : wrapAdmits s 4 = true ↔
    bit (getR s aZwLifecycle) 31 = false ∧ (fld (getR s aZwLifecycle) 0 2 = 0 ∨ fld (getR s aZwLifecycle) 0 2 = 3) := by
  simp [wrapAdmits, lifeLock, lifecycle]

theorem wrapAdmits_l3 (s : State) : wrapAdmits s 6 = true ↔ bit (getR s aZwLifecycle) 31 = false ∧
    (fld (getR s aZwLifecycle) 0 2 ≤ 1 ∨ fld (getR s aZwLifecycle) 0 2 = 2 ∧ bit (getR s aZwLifecycle) 2 = true) := by
  simp only [wrapAdmits, lifeLock, lifecycle, Bool.and_eq_true, Bool.or_eq_true, Bool.not_eq_true', beq_iff_eq]
  exact and_congr_right fun _ => or_congr_left decide_eq_true_iff

theorem wrapAdmits_stele (s : State) :
    wrapAdmits s 7 = true ↔ bit (getR s aZwLifecycle) 31 = false ∧ fld (getR s aZwLifecycle) 0 2 = 0 := by
  simp [wrapAdmits, lifeLock, lifecycle]

theorem wrapAdmits_reserved (s : State) {code : Nat} (h : 8 ≤ code) : ¬ wrapAdmits s code = true := by
  obtain ⟨k, rfl⟩ := Nat.exists_eq_add_of_le' h
  exact Bool.false_ne_true

/-! ### Direct access to the stele -/

theorem steleDirect_read {s : State} (w : Nat) (clean : eccAt s (steleBase + 8 * w) = 0) :
    steleDirect s w none = setWdr s (rd64 s (steleBase + 8 * w)) := by
  have word : (steleBase + 8 * w) / 8 * 8 = steleBase + 8 * w := by rw [show steleBase = 8 * 0x4000000 from rfl]; omega
  have ok : steleRead s (steleBase + 8 * w) 8 = (s, 0, rdN s (steleBase + 8 * w) 8) := by
    rw [steleRead, word, steleCheck, clean]
    rfl
  rw [steleDirect, ok]
  rfl

theorem steleDirect_held {s : State} (w : Nat) (v : DWord) (retries : Fin 6) (power : holdup s = true) :
    steleDirect s w (some (v, retries)) =
      { s with stl := { s.stl with late := s.stl.late ++ [⟨steleBase + 8 * w, 8, true, false, v.toNat⟩] } } := by
  have later : holdup { s with stl := { s.stl with late := s.stl.late ++ [⟨steleBase + 8 * w, 8, true, false, v.toNat⟩] } } = true :=
    power
  rw [steleDirect]
  dsimp only
  rw [if_pos (by rw [power]; rfl), lateWrite, if_pos rfl, flushLate, if_pos (by rw [later]; rfl)]

theorem steleDirect_write {s : State} (w : Nat) (v : DWord) (retries : Fin 6) (power : holdup s = false)
    (turn : mayKeystone s = true) (clearing : ledgerClearing s = false) :
    steleDirect s w (some (v, retries)) = (steleWord (tookTurn s true) (steleBase + 8 * w) v.toNat retries.val).1 := by
  have plain : clearTurn s = s := by
    rw [clearTurn, clearing]
    exact if_neg (by simp)
  unfold steleDirect
  exact (if_neg (by rw [power, turn]; decide)).trans (by rw [plain])

/-! ### A word write of the stele -/

/-- State `t` is `u` but for the word at `w`, its check bits, STL_WRFAIL and open values drawn. -/
structure WordWritten (w : Nat) (u t : State) : Prop where
  rest : ∃ m e c d, t = { u with mem := m, ecc := e, csr := c, draws := d }
  bytes : ∀ b, b < w ∨ w + 8 ≤ b → rdB t b = rdB u b
  ecc : ∀ b, eccAt t b = if b = w then 0 else eccAt u b
  csr : SameRegistersBut [aStlWrfail] u t

theorem wordWritten_set (u : State) (w x : Nat) : WordWritten w u (setEcc (wrN u w 8 x) w 0) := by
  obtain ⟨m, e⟩ := wrN_rest u w 8 x
  refine ⟨?_, fun b hb => ?_, fun b => ?_, fun a _ => ?_⟩
  · rw [e]
    exact ⟨_, _, _, _, rfl⟩
  · exact (rdB_congr (setEcc_mem _ _ _) b).trans (rdB_wrN_other u w 8 x b hb)
  · rw [eccAt_setEcc, e]
    rfl
  · rw [e]
    rfl

/-- A failed write: a free value in the word, counted and recorded. -/
theorem wordWritten_failed (u : State) (w x k : Nat) {d : Nat} : let s3 := bumpR (setEcc (wrN { u with draws := d } w 8 x) w 0) aStlWrfail 16 16 1
    WordWritten w u (setR s3 aStlWrfail (setFld (getR s3 aStlWrfail) 0 15 k)) := by
  obtain ⟨⟨m, e, c, n, rest⟩, bytes, ecc, csr⟩ := wordWritten_set { u with draws := d } w x
  generalize setEcc (wrN { u with draws := d } w 8 x) w 0 = t at rest bytes ecc csr ⊢
  refine ⟨⟨m, e, _, n, by rw [rest]; rfl⟩, fun b hb => ?_, ecc, fun a ha => ?_⟩
  · exact bytes b hb
  · have other : a ≠ aStlWrfail := List.ne_of_not_mem_cons ha
    rw [getR_setR, if_neg other, getR_bumpR_other _ _ _ _ other, csr a ha]
    rfl

theorem wordWritten_steleWord (s : State) (w v retries : Nat) :
    WordWritten w (rewritten (slowWrite s w retries) w) (steleWord s w v retries).1 := by
  unfold steleWord
  generalize rewritten (slowWrite s w retries) w = u
  dsimp only
  split
  · exact wordWritten_failed u w (Config.freeDWord u.draws).toNat ((w - steleBase) / 8)
  · exact wordWritten_set u w v

theorem WordWritten.sameContexts {w : Nat} {u t : State} (h : WordWritten w u t) : SameContexts u t := by
  obtain ⟨m, e, c, d, rfl⟩ := h.rest
  exact fun x => by cases x <;> rfl

theorem WordWritten.pwr {w : Nat} {u t : State} (h : WordWritten w u t) : t.pwr = u.pwr := by
  obtain ⟨m, e, c, d, rfl⟩ := h.rest
  rfl

theorem getR_rewritten (s : State) (w a : Nat) : getR (rewritten s w) a = getR s a := rfl

theorem sameContexts_rewritten (s : State) (w : Nat) : SameContexts s (rewritten s w) := fun u => by cases u <;> rfl

/-- A verified write reads back. -/
theorem rd64_steleWord {s : State} {w retries : Nat} (v : DWord) (h : ¬ 4 < retries) : rd64 (steleWord s w v.toNat retries).1 w = v := by
  have word : ∀ u : State, rd64 (setEcc (wrN u w 8 v.toNat) w 0) w = v := fun u => by
    have same : rdN (setEcc (wrN u w 8 v.toNat) w 0) w 8 = rdN (wrN u w 8 v.toNat) w 8 :=
      rdN_of_mem (fun b => rdB_congr (setEcc_mem _ _ _) b) w 8
    rw [rd64, same, rdN_wrN]
    exact BitVec.eq_of_toNat_eq (by rw [BitVec.toNat_ofNat]; have := v.isLt; omega)
  unfold steleWord
  rw [if_neg h]
  exact word _

/-- A write without retries changes no register. -/
theorem steleWord_registers {s : State} (w v : Nat) : SameRegisters s (steleWord s w v 0).1 := by
  have unslow : slowWrite s w 0 = s := if_pos rfl
  unfold steleWord
  rw [unslow, if_neg (by decide)]
  obtain ⟨m, e⟩ := wrN_rest (rewritten s w) w 8 v
  dsimp only
  rw [e]
  exact fun _ => rfl

theorem wrfail_not_slow (r : Nat) : aStlWrfail ∉ slowRegs r := by
  simp only [slowRegs, eventRegs, List.cons_append, List.nil_append, List.mem_cons, List.not_mem_nil, or_false, aStlWrfail,
    aStlSlow, aStlRow, aStlRowlast, aMlsSqLost, aEvcScfg]
  omega

/-- A failed write counts in STL_WRFAIL and records its word there (R299). -/
theorem wrfail_counted {s x : State} (same : getR x aStlWrfail = getR s aStlWrfail) (k : Nat) :
    let t := setR (bumpR x aStlWrfail 16 16 1) aStlWrfail (setFld (getR (bumpR x aStlWrfail 16 16 1) aStlWrfail) 0 15 k)
    fld (getR t aStlWrfail) 16 16 = satAdd 65535 (fld (getR s aStlWrfail) 16 16) 1 ∧ fld (getR t aStlWrfail) 0 15 = k % 2 ^ 15 := by
  dsimp only
  rw [getR_setR, if_pos rfl]
  constructor
  · rw [fld_setFld_of_disjoint _ _ (by omega) (by omega), fld_bumpR x aStlWrfail 1 (lo := 16) (n := 16) (by omega), same]
    rfl
  · rw [fld_setFld _ _ (by omega)]

theorem getR_congr {s t : State} (h : t.csr = s.csr) (a : Nat) : getR t a = getR s a := by rw [getR, h, getR]

theorem getR_setEcc_wr64 (u : State) (w a : Nat) : getR (setEcc (wr64 (freeD u).2 w (freeD u).1) w 0) a = getR u a := by
  obtain ⟨m, e⟩ := wrN_rest (freeD u).2 w 8 (freeD u).1.toNat
  rw [wr64, e]
  rfl

theorem steleWord_failed (s : State) (w v : Nat) : ∃ x, getR x aStlWrfail = getR s aStlWrfail ∧ (steleWord s w v 5).1 =
    setR (bumpR x aStlWrfail 16 16 1) aStlWrfail
      (setFld (getR (bumpR x aStlWrfail 16 16 1) aStlWrfail) 0 15 ((w - steleBase) / 8)) := by
  have slow : getR (rewritten (slowWrite s w 5) w) aStlWrfail = getR s aStlWrfail := by
    rw [getR_rewritten, (signals_slowWrite s w 5).csr _ (wrfail_not_slow _)]
  refine ⟨_, (getR_setEcc_wr64 _ w _).trans slow, ?_⟩
  rw [steleWord, if_pos (by decide)]

theorem wrfail_steleWord (s : State) (w v : Nat) :
    fld (getR (steleWord s w v 5).1 aStlWrfail) 16 16 = satAdd 65535 (fld (getR s aStlWrfail) 16 16) 1 ∧
      fld (getR (steleWord s w v 5).1 aStlWrfail) 0 15 = (w - steleBase) / 8 % 2 ^ 15 := by
  obtain ⟨x, same, e⟩ := steleWord_failed s w v
  rw [e]
  exact wrfail_counted same _

/-! ### Settling the statement -/

/-- A write through the wrapper that may start at once. -/
theorem stele_write {s : State} {d : DWord} (w : BitVec 15) (v : DWord) (tries : Fin 6) (power : holdup s = false)
    (turn : mayKeystone s = true) (clearing : ledgerClearing s = false) : let a := 0x20000000 + 8 * w.toNat
    let t := settle (steleDirect (wrapped s 7 d) w.toNat (some (v, tries)))
    SameContexts s t ∧ t.pwr.wir = 7 ∧ (tries = 0 → SameRegisters s t) ∧ (tries ≠ 5 → rd64 t a = v ∧ eccAt t a = 0) ∧
      (tries = 5 → fld (getR t aStlWrfail) 16 16 = satAdd 65535 (fld (getR s aStlWrfail) 16 16) 1 ∧
        fld (getR t aStlWrfail) 0 15 = w.toNat) ∧ ∀ b, b < a ∨ a + 8 ≤ b → rdB t b = rdB s b := by
  have direct := steleDirect_write (s := wrapped s 7 d) w.toNat v tries power turn clearing
  have slow := signals_slowWrite (tookTurn (wrapped s 7 d) true) (steleBase + 8 * w.toNat) tries.val
  have write := wordWritten_steleWord (tookTurn (wrapped s 7 d) true) (steleBase + 8 * w.toNat) v.toNat tries.val
  have start : SameContexts s (tookTurn (wrapped s 7 d) true) := fun x => by cases x <;> rfl
  dsimp only
  rw [direct]
  refine ⟨fun x => ?_, ?_, fun h => ?_, fun h => ⟨?_, ?_⟩, fun h => ?_, fun b hb => ?_⟩
  · rw [seen_settle, write.sameContexts, sameContexts_rewritten, slow.sameContexts, start]
  · rw [settle_pwr, write.pwr]
    exact congrArg Pwr.wir slow.pwr
  · subst h
    exact fun a => (getR_settle _ a).trans (steleWord_registers _ _ a)
  · have few : ¬ 4 < tries.val := fun more => h (Fin.ext (by have := tries.isLt; omega))
    exact (congrArg (BitVec.ofNat 64) (rdN_of_mem (fun b => rdB_settle _ b) _ 8)).trans (rd64_steleWord v few)
  · rw [eccAt_settle, write.ecc]
    exact if_pos rfl
  · subst h
    obtain ⟨count, word⟩ := wrfail_steleWord (tookTurn (wrapped s 7 d) true) (steleBase + 8 * w.toNat) v.toNat
    rw [getR_settle]
    refine ⟨count, word.trans ?_⟩
    have := w.isLt
    rw [Nat.add_sub_cancel_left]
    omega
  · rw [rdB_settle, write.bytes b hb]
    exact slow.sameMemory b

/-- Leaving WS_INTEST or WS_MBIST resets the block. -/
theorem setWir_resets {s : State} (h : ¬ (s.pwr.wir ≠ 3 ∧ s.pwr.wir ≠ 4)) : let t := settle (setWir s 0)
    t.up = false ∧ t.pwr.wir = 0 ∧ (s.up = true → t.pwr.cause = 5) := by
  have leaves : ((s.pwr.wir == 3 || s.pwr.wir == 4) && s.pwr.wir != 0) = true := by
    have wir : s.pwr.wir = 3 ∨ s.pwr.wir = 4 := by omega
    rcases wir with e | e <;> rw [e] <;> rfl
  have reset : setWir s 0 = resetBlock (instructed s 0) 5 := if_pos leaves
  obtain ⟨-, down, wir, cause⟩ := resetBlock_vacant (instructed s 0) 5
  dsimp only
  rw [reset, settle_up, settle_pwr]
  exact ⟨down, wir, cause⟩

theorem wsIdcode_reads {s : State} (h3 : s.pwr.wir ≠ 3) (h4 : s.pwr.wir ≠ 4) : exec .wsIdcode s =
    .next (settle (wrapped s 1 (mkD (getR s aZwIdent) (0x00020100 ||| Config.fixRev.zeroExtend 32)))) := by
  refine Eq.trans (b := execWsIdcode s) rfl ?_
  rw [execWsIdcode, wrapper_admitted h3 h4 rfl]
  rfl

theorem wsStatus_reads {s : State} (h3 : s.pwr.wir ≠ 3) (h4 : s.pwr.wir ≠ 4) : exec .wsStatus s =
    .next (settle (wrapped s 5 (mkD (getR s aZwLifecycle) (gcauseWord s)))) := by
  refine Eq.trans (b := execWsStatus s) rfl ?_
  rw [execWsStatus, wrapper_admitted h3 h4 rfl]
  rfl

/-- Settles O56: admission read off the lifecycle and LOCK, and the frame of a stele word's write. -/
theorem testWrapper : Obligations.TestWrapper := by
  unfold Obligations.TestWrapper
  intro s
  dsimp only
  refine ⟨fun ⟨h3, h4⟩ => ⟨fun code => ⟨fun h => ?_, fun h => ?_⟩, ?_, wsIdcode_reads h3 h4, wsStatus_reads h3 h4,
    fun h => wrapper_admitted h3 h4 ((wrapAdmits_extest s).2 h) _,
    fun h => wrapper_refused h3 h4 (fun g => h ((wrapAdmits_extest s).1 g)) _,
    fun h => wrapper_admitted h3 h4 ((wrapAdmits_intest s).2 h) _,
    fun h => wrapper_refused h3 h4 (fun g => h ((wrapAdmits_intest s).1 g)) _,
    fun h => wrapper_admitted h3 h4 ((wrapAdmits_mbist s).2 h) _,
    fun h => wrapper_refused h3 h4 (fun g => h ((wrapAdmits_mbist s).1 g)) _,
    fun d => ⟨fun h => wrapper_admitted h3 h4 ((wrapAdmits_l3 s).2 h) _,
      fun h => wrapper_refused h3 h4 (fun g => h ((wrapAdmits_l3 s).1 g)) _⟩,
    fun w d => ⟨fun h => wrapper_refused h3 h4 (fun g => h ((wrapAdmits_stele s).1 g)) _, fun free l hd clean => ?_,
      fun free l v tries hd => ?_⟩⟩, fun h => ?_⟩
  · have plain : wrapper s (if code.toNat < 8 then 0 else code.toNat) id = .next (settle (instructed s 0)) := by
      rw [if_pos h]
      exact wrapper_admitted h3 h4 rfl id
    exact plain
  · have denied : wrapper s (if code.toNat < 8 then 0 else code.toNat) id = occurs (orR (instructed s 0) aZwLifecycle 0x40000000) := by
      rw [if_neg (by omega)]
      exact wrapper_refused h3 h4 (wrapAdmits_reserved s h) id
    exact denied
  · exact congrArg occurs (setWir_inert h3 h4 0)
  · subst hd
    refine (wrapper_admitted h3 h4 ((wrapAdmits_stele s).2 ⟨free, l⟩) _).trans ?_
    rw [steleDirect_read (s := instructed s 7) w.toNat clean]
    rfl
  · subst hd
    have ran := wrapper_admitted h3 h4 ((wrapAdmits_stele s).2 ⟨free, l⟩) (fun t => steleDirect t w.toNat (some (v, tries)))
    refine ⟨fun power => ran.trans ?_, fun power turn clearing => ⟨_, ran, stele_write w v tries power turn clearing⟩⟩
    exact congrArg (fun t => Host.Outcome.next (settle t)) (steleDirect_held (s := instructed s 7) w.toNat v tries power)
  · refine ⟨fun code => ?_, _, rfl, setWir_resets h⟩
    by_cases hc : code.toNat < 8
    · have plain : wrapper s (if code.toNat < 8 then 0 else code.toNat) id = .next (settle (setWir s 0)) := by
        rw [if_pos hc]
        rfl
      exact ⟨_, plain, setWir_resets h⟩
    · have denied : wrapper s (if code.toNat < 8 then 0 else code.toNat) id =
          .next (settle (setWir (orR s aZwLifecycle 0x40000000#32) 0)) := by
        rw [if_neg hc, wrapper, loadWir, if_neg (wrapAdmits_reserved s (by omega))]
        rfl
      exact ⟨_, denied, setWir_resets (s := orR s aZwLifecycle 0x40000000#32) h⟩

end Sys2Proof.Machine
end

section
/-! SUPPORT. Reads and writes of any register on behalf of a coach (spec/00, spec/01): the checks in their order, and what the
register answers. -/

namespace Sys2Proof.Machine

/-! ### Commands on behalf of a coach -/

theorem onBehalf_ok {s t : State} {c : BitVec 10} {m : Iss → M Unit} (up : s.up = true)
    (h : m ⟨whoOf s c.toNat, laneOfWho s (whoOf s c.toNat)⟩ s = .ok ((), t)) : onBehalf s c m = t := by
  unfold onBehalf
  dsimp only
  rw [if_neg (by rw [up]; decide), h]

theorem onBehalf_trap {s : State} {c : BitVec 10} {m : Iss → M Unit} {x : XItem} (up : s.up = true)
    (h : m ⟨whoOf s c.toNat, laneOfWho s (whoOf s c.toNat)⟩ s = .error (.trap x id)) :
    onBehalf s c m = raiseItem s (whoOf s c.toNat) x := by
  unfold onBehalf
  dsimp only
  rw [if_neg (by rw [up]; decide), h]
  rfl

/-- The two rows, each with its access to control space. -/
theorem exec_registerWrite (c : BitVec 10) (addr v : Word) (s : State) : exec (.registerWrite c addr v) s =
    occurs (onBehalf s c (fun x => do csrSpace x addr true; csrStore x addr.toNat v)) := rfl

theorem exec_rsRead (c : BitVec 10) (addr : Word) (s : State) : exec (.rsRead c addr) s =
    occurs (onBehalf s c (fun x => do
      csrSpace x addr false
      let v ← csrLoad x addr.toNat
      modify (fun t => { t with bus := v }))) := rfl

/-! ### The checks -/

/-- The exception of a register access. -/
def accessItem (vec : Nat) (addr : Word) (write : Bool) : XItem := { vec := vec, addr := addr, write := write, info := 0x8000 }

theorem csrSpace_outside {s : State} (x : Iss) {addr : Word} (write : Bool) (h : region addr.toNat = none) :
    csrSpace x addr write s = .error (.trap (accessItem 3 addr write) id) := by
  have none : regionN addr.toNat 4 = Option.none := by rw [regionN, h]
  refine bind_of_error ?_
  rw [checkAccess, bind_get, none]
  rfl

/-- The control space. -/
theorem csr_range {a : Nat} (h : regionN a 4 = some .csr) : 0xE0000000 ≤ a ∧ a < 0xE00E0000 := by
  have first : region a = some .csr := by
    unfold regionN at h
    split at h
    · rename_i r hr
      split at h
      · rw [hr, h]
      · simp at h
    · simp at h
  unfold region at first
  split_ifs at first
  all_goals simp only [Option.some.injEq, reduceCtorEq] at first
  assumption

theorem checkAccess_csr {s : State} (x : Iss) {addr : Word} (write : Bool) (h : regionN addr.toNat 4 = some .csr) :
    checkAccess x addr 4 write s =
      if addr.toNat % 4 ≠ 0 then .error (.trap (accessItem 4 addr write) id) else .ok (.csr, s) := by
  obtain ⟨low, -⟩ := csr_range h
  have outside : inVectors addr.toNat 4 = false := by
    have far : ¬ phys addr.toNat < 0x10000400 := by
      unfold phys
      split
      · omega
      · omega
    rw [inVectors, decide_eq_false far, Bool.false_and]
  rw [checkAccess, bind_get, h]
  dsimp only
  rw [if_neg (by simp), if_neg (by simp), if_neg (by rw [outside]; simp)]
  by_cases aligned : addr.toNat % 4 = 0
  · rw [if_neg (by simp [aligned]), if_neg (by simp), if_neg (not_not_intro aligned)]
    rfl
  · rw [if_pos (by simp [aligned]), if_pos aligned]
    rfl

theorem csrSpace_unaligned {s : State} (x : Iss) {addr : Word} (write : Bool) (h : regionN addr.toNat 4 = some .csr)
    (ha : addr.toNat % 4 ≠ 0) : csrSpace x addr write s = .error (.trap (accessItem 4 addr write) id) :=
  bind_of_error ((checkAccess_csr x write h).trans (if_pos ha))

theorem csrSpace_passes {s : State} (x : Iss) {addr : Word} (write : Bool) (h : regionN addr.toNat 4 = some .csr)
    (ha : addr.toNat % 4 = 0) : csrSpace x addr write s = .ok ((), s) := by
  rw [csrSpace, bind_of_ok ((checkAccess_csr x write h).trans (if_neg (not_not_intro ha)))]
  rfl

theorem csrCheck_denied {s : State} (x : Iss) (addr : Word) (w : Option Word)
    (h : csrDenied s addr.toNat (ringOf (getC s x.who)) w = true) :
    csrCheck x addr.toNat w s = .error (.trap (accessItem 9 addr w.isSome) id) := by
  rw [csrCheck, bind_get, if_pos h, raiseAt, u32, BitVec.ofNat_toNat, BitVec.setWidth_eq]
  rfl

/-- ACCESS of a request of a free lane, and of a register whose unit is OFF or CLOSING. -/
theorem csrCheck_refused {s : State} (x : Iss) (addr : Word) (w : Option Word)
    (h : csrDenied s addr.toNat (ringOf (getC s x.who)) w = false) {u : Nat} (hs : csrSwitch addr.toNat = some u)
    (hu : unitSt s u = 0 ∨ unitSt s u = 3 ∨ x.lane ≠ 0) :
    csrCheck x addr.toNat w s = .error (.trap (accessItem 3 addr w.isSome) id) := by
  rw [csrCheck, bind_get, if_neg (by rw [h]; decide)]
  by_cases lane : x.lane = 0
  · rw [if_neg (by simp [Iss.unver, lane]), hs]
    dsimp only
    rw [if_pos (by tauto), raiseAt, u32, BitVec.ofNat_toNat, BitVec.setWidth_eq]
    rfl
  · rw [if_pos (by simp [Iss.unver, lane]), raiseAt, u32, BitVec.ofNat_toNat, BitVec.setWidth_eq]
    rfl

theorem csrCheck_passes {s : State} (x : Iss) (a : Nat) (w : Option Word) (h : csrDenied s a (ringOf (getC s x.who)) w = false)
    (lane : x.lane = 0) (on : ∀ u, csrSwitch a = some u → unitSt s u = 2) : csrCheck x a w s = .ok ((), s) := by
  rw [csrCheck, bind_get, if_neg (by rw [h]; decide), if_neg (by simp [Iss.unver, lane])]
  cases hs : csrSwitch a with
  | none => rfl
  | some u =>
    dsimp only
    rw [if_neg (by rw [on u hs]; decide), if_neg (by rw [on u hs]; decide)]
    rfl

theorem awaitIsland_passes {s : State} (x : Iss) (u : Nat) (h : openOf s x.who (toIsland u) = []) :
    awaitIsland x u s = .ok ((), s) := by
  rw [awaitIsland, bind_get, h]
  rfl

/-! ### Reads and writes that pass -/

theorem denied_of_ring {s : State} {a ring : Nat} {r : Reg} (hr : regOf a = some r) (h : r.ring < ring) (w : Option Word) :
    csrDenied s a ring w = true := by
  unfold csrDenied
  rw [hr]
  simp [h]

theorem not_denied_read {s : State} {a ring : Nat} (h : ∀ r, regOf a = some r → ring ≤ r.ring) :
    csrDenied s a ring none = false := by
  unfold csrDenied
  rw [Bool.or_false]
  split
  · rename_i r hr
    exact decide_eq_false (Nat.not_lt.2 (h r hr))
  · rfl

/-- A read that passes every check answers the register. -/
theorem read_passes {s : State} {c : BitVec 10} {addr : Word} (up : s.up = true) (h : regionN addr.toNat 4 = some .csr)
    (ha : addr.toNat % 4 = 0) (on : ∀ u, csrSwitch addr.toNat = some u → unitSt s u = 2)
    (lane : laneOfWho s (whoOf s c.toNat) = 0) (acked : Acked s c (csrUnit addr.toNat))
    (ring : ∀ r, regOf addr.toNat = some r → ringOf (getC s (whoOf s c.toNat)) ≤ r.ring) :
    let r := readReg s (whoOf s c.toNat) addr.toNat
    exec (.rsRead c addr) s = .next (settle { r.1 with bus := r.2 }) := by
  have body : (do
      csrSpace ⟨whoOf s c.toNat, laneOfWho s (whoOf s c.toNat)⟩ addr false
      let v ← csrLoad ⟨whoOf s c.toNat, laneOfWho s (whoOf s c.toNat)⟩ addr.toNat
      modify (fun t => { t with bus := v }) : M Unit) s =
      .ok ((), { (readReg s (whoOf s c.toNat) addr.toNat).1 with bus := (readReg s (whoOf s c.toNat) addr.toNat).2 }) := by
    rw [bind_of_ok (csrSpace_passes _ false h ha)]
    rw [bind_of_ok (m := csrLoad _ _) (a := (readReg s (whoOf s c.toNat) addr.toNat).2)
      (t := (readReg s (whoOf s c.toNat) addr.toNat).1)]
    · rfl
    · rw [csrLoad, bind_of_ok (csrCheck_passes _ _ none (not_denied_read ring) lane on), bind_of_ok (awaitIsland_passes ⟨whoOf s c.toNat, laneOfWho s (whoOf s c.toNat)⟩ (csrUnit addr.toNat) acked)]
      rfl
  rw [exec_rsRead, onBehalf_ok up body]
  rfl

theorem modify_eq (f : State → State) (s : State) : (modify f : M Unit) s = .ok ((), f s) := rfl

/-- A write that passes every check, RNG_GCOMMIT apart. -/
theorem write_passes {s : State} {c : BitVec 10} {addr v : Word} (up : s.up = true) (h : regionN addr.toNat 4 = some .csr)
    (ha : addr.toNat % 4 = 0) (on : ∀ u, csrSwitch addr.toNat = some u → unitSt s u = 2)
    (lane : laneOfWho s (whoOf s c.toNat) = 0) (acked : Acked s c (csrUnit addr.toNat))
    (allowed : csrDenied s addr.toNat (ringOf (getC s (whoOf s c.toNat))) (some v) = false) (hc : addr.toNat ≠ aRngGcommit) :
    exec (.registerWrite c addr v) s = .next (settle (writeReg s (whoOf s c.toNat) addr.toNat v)) := by
  have body : (do
      csrSpace ⟨whoOf s c.toNat, laneOfWho s (whoOf s c.toNat)⟩ addr true
      csrStore ⟨whoOf s c.toNat, laneOfWho s (whoOf s c.toNat)⟩ addr.toNat v : M Unit) s =
      .ok ((), writeReg s (whoOf s c.toNat) addr.toNat v) := by
    rw [bind_of_ok (csrSpace_passes _ true h ha), csrStore,
      bind_of_ok (csrCheck_passes ⟨whoOf s c.toNat, laneOfWho s (whoOf s c.toNat)⟩ _ (some v) allowed lane on),
      bind_of_ok (awaitIsland_passes ⟨whoOf s c.toNat, laneOfWho s (whoOf s c.toNat)⟩ (csrUnit addr.toNat) acked), if_neg hc]
    exact modify_eq _ s
  rw [exec_registerWrite, onBehalf_ok up body, occurs]

/-! ### What the registers answer -/

/-- An access to the power island's registers changes only its oscillator. -/
theorem touchPower_rest (s : State) (a : Nat) : ∃ p, touchPower s a = { s with pwr := p } := by
  unfold touchPower
  split
  · exact ⟨_, rfl⟩
  · exact ⟨s.pwr, rfl⟩

/-- State `t` is `s` but for control registers outside `l` kept, the power island's oscillator and the word answered. -/
structure Answers (l : List Nat) (s t : State) : Prop where
  rest : ∃ p m b, t = { s with pwr := p, csr := m, bus := b }
  csr : SameRegistersBut l s t

theorem Answers.settle_program {l : List Nat} {s t : State} (h : Answers l s t) : SameProgram s (settle t) := by
  obtain ⟨p, m, b, rfl⟩ := h.rest
  exact ⟨fun a => rdB_settle _ a, fun w => (seen_settle _ w).trans (by cases w <;> rfl)⟩

theorem Answers.settle_registers {l : List Nat} {s t : State} (h : Answers l s t) : SameRegistersBut l s (settle t) :=
  fun a ha => (getR_settle t a).trans (h.csr a ha)

/-- A state that only the power island's oscillator and the answer have changed. -/
theorem answers_touched {s : State} {a : Nat} (b : Word) : Answers [] s { touchPower s a with bus := b } := by
  obtain ⟨p, e⟩ := touchPower_rest s a
  rw [e]
  exact ⟨⟨_, _, _, rfl⟩, fun _ _ => rfl⟩

theorem answers_setR {s : State} {a : Nat} (v b : Word) : Answers [a] s { setR (touchPower s a) a v with bus := b } := by
  obtain ⟨p, e⟩ := touchPower_rest s a
  rw [e]
  refine ⟨⟨_, _, _, rfl⟩, fun x hx => ?_⟩
  change getR (setR { s with pwr := p } a v) x = _
  rw [getR_setR, if_neg (List.ne_of_not_mem_cons hx)]
  rfl

theorem getR_touchPower (s : State) (a b : Nat) : getR (touchPower s a) b = getR s b := by
  obtain ⟨p, e⟩ := touchPower_rest s a
  rw [e]
  rfl

theorem readReg_unassigned {s : State} (w : Who) {a : Nat} (h : regOf a = none) : readReg s w a = (touchPower s a, 0) := by
  rw [readReg, if_pos (by rw [h]; rfl)]

theorem readReg_cleared {s : State} (w : Who) {a : Nat} (h : (regOf a).isSome = true) (hc : a ∈ clearedByRead) :
    readReg s w a = (setR (touchPower s a) a 0, getR s a) := by
  rw [readReg, if_neg (by rw [Option.isNone_iff_eq_none, ← Option.not_isSome_iff_eq_none]; exact not_not_intro h),
    if_pos (List.contains_iff_mem.2 hc), getR_touchPower]

theorem readReg_countCleared {s : State} (w : Who) {a : Nat} (h : (regOf a).isSome = true) (hn : a ∉ clearedByRead)
    (hc : a ∈ countClearedByRead) :
    readReg s w a = (setR (touchPower s a) a (setFld (getR s a) 16 16 0), getR s a) := by
  rw [readReg, if_neg (by rw [Option.isNone_iff_eq_none, ← Option.not_isSome_iff_eq_none]; exact not_not_intro h),
    if_neg (by rw [List.contains_iff_mem]; exact hn), if_pos (List.contains_iff_mem.2 hc), getR_touchPower]

theorem readReg_xcause (s : State) (w : Who) : readReg s w aRngXcause = (s, (getC s w).xcause) := rfl

/-- The addresses of RNG_GSTAGE. -/
theorem gstage_cases {a : Nat} (low : aRngGstage ≤ a) (high : a < aRngGstage + 16) (aligned : a % 4 = 0) :
    a = 0xE00D0050 ∨ a = 0xE00D0054 ∨ a = 0xE00D0058 ∨ a = 0xE00D005C := by
  simp only [aRngGstage] at low high
  omega

theorem readReg_gstage {s : State} (w : Who) {a : Nat} (low : aRngGstage ≤ a) (high : a < aRngGstage + 16) (aligned : a % 4 = 0) :
    readReg s w a = (s, getR s a) := by
  rcases gstage_cases low high aligned with rfl | rfl | rfl | rfl
  · rfl
  · rfl
  · rfl
  · rfl

/-- A register of 32 stored bits takes the word written. -/
theorem stored_whole (old v : Word) : (old &&& ~~~(u32 0xFFFFFFFF ||| (u32 0 &&& v))) ||| (v &&& u32 0xFFFFFFFF) = v := by
  have ones : u32 0xFFFFFFFF = BitVec.allOnes 32 := by decide
  have zero : u32 0 = 0#32 := rfl
  rw [ones, zero, BitVec.zero_and, BitVec.or_zero, BitVec.not_allOnes, BitVec.and_zero, BitVec.zero_or, BitVec.and_allOnes]

theorem writeReg_gstage {s : State} (w : Who) {a : Nat} (v : Word) (low : aRngGstage ≤ a) (high : a < aRngGstage + 16)
    (aligned : a % 4 = 0) : writeReg s w a v = setR s a v := by
  have whole := stored_whole (getR s a) v
  rcases gstage_cases low high aligned with rfl | rfl | rfl | rfl
  · exact congrArg (setR s _) whole
  · exact congrArg (setR s _) whole
  · exact congrArg (setR s _) whole
  · exact congrArg (setR s _) whole

/-! ### Settling the statement -/

/-- Settles O58: the checks in the order of R385, then the register's own answer. -/
theorem registerAccess : Obligations.RegisterAccess := by
  unfold Obligations.RegisterAccess
  intro s c addr v up
  dsimp only
  refine ⟨fun h => ⟨?_, ?_⟩, fun h ha => ⟨?_, ?_⟩, fun h ha => ⟨fun r hr ring => ⟨?_, ?_⟩, fun u hs hu ring => ?_,
    fun ⟨on, lane, acked⟩ hr => ?_, fun ⟨on, lane, acked⟩ r hr ring => ⟨fun hc => ?_, fun hc => ?_, fun hx => ?_,
      fun low high => ⟨?_, ?_⟩⟩⟩⟩
  · exact congrArg occurs (onBehalf_trap up (bind_of_error (csrSpace_outside _ true h)))
  · exact congrArg occurs (onBehalf_trap up (bind_of_error (csrSpace_outside _ false h)))
  · exact congrArg occurs (onBehalf_trap up (bind_of_error (csrSpace_unaligned _ true h ha)))
  · exact congrArg occurs (onBehalf_trap up (bind_of_error (csrSpace_unaligned _ false h ha)))
  · refine congrArg occurs (onBehalf_trap up ((bind_of_ok (csrSpace_passes _ true h ha)).trans ?_))
    exact bind_of_error (csrCheck_denied _ addr (some v) (denied_of_ring hr ring _))
  · refine congrArg occurs (onBehalf_trap up ((bind_of_ok (csrSpace_passes _ false h ha)).trans ?_))
    exact bind_of_error (bind_of_error (csrCheck_denied _ addr none (denied_of_ring hr ring _)))
  · refine congrArg occurs (onBehalf_trap up ((bind_of_ok (csrSpace_passes _ false h ha)).trans ?_))
    exact bind_of_error (bind_of_error (csrCheck_refused ⟨whoOf s c.toNat, laneOfWho s (whoOf s c.toNat)⟩ addr none
      (not_denied_read ring) hs hu))
  · have ran := read_passes up h ha on lane acked (fun r hr' => by rw [hr] at hr'; cases hr')
    rw [readReg_unassigned _ hr] at ran
    have answers := answers_touched (s := s) (a := addr.toNat) 0
    exact ⟨_, ⟨ran, answers.settle_program, by rw [settle_bus]⟩, fun a => answers.settle_registers a List.not_mem_nil⟩
  all_goals have ran := read_passes up h ha on lane acked (fun r' hr' => by rw [hr] at hr'; cases hr'; exact ring)
  · rw [readReg_cleared _ (by rw [hr]; rfl) hc] at ran
    have answers := answers_setR (s := s) (a := addr.toNat) 0 (getR s addr.toNat)
    refine ⟨_, ⟨ran, answers.settle_program, by rw [settle_bus]⟩, answers.settle_registers, ?_⟩
    rw [getR_settle]
    exact (getR_setR _ _ _ _).trans (if_pos rfl)
  · have apart : ∀ a ∈ countClearedByRead, a ∉ clearedByRead := by decide
    rw [readReg_countCleared _ (by rw [hr]; rfl) (apart _ hc) hc] at ran
    have answers := answers_setR (s := s) (a := addr.toNat) (setFld (getR s addr.toNat) 16 16 0) (getR s addr.toNat)
    refine ⟨_, ⟨ran, answers.settle_program, by rw [settle_bus]⟩, answers.settle_registers, ?_⟩
    rw [getR_settle]
    exact (getR_setR _ _ _ _).trans (if_pos rfl)
  · rw [hx, readReg_xcause] at ran
    have answers := answers_touched (s := s) (a := aRngXcause) (getC s (whoOf s c.toNat)).xcause
    exact ⟨_, ⟨ran, answers.settle_program, by rw [settle_bus]⟩, fun a => answers.settle_registers a List.not_mem_nil⟩
  · rw [readReg_gstage _ low high ha] at ran
    have program : SameProgram s (settle { s with bus := getR s addr.toNat }) :=
      ⟨fun a => rdB_settle _ a, fun w => (seen_settle _ w).trans (by cases w <;> rfl)⟩
    exact ⟨_, ⟨ran, program, by rw [settle_bus]⟩, fun a => getR_settle _ a⟩
  · have gate : addr.toNat ≠ aRngGcommit := by
      rcases gstage_cases low high ha with e | e | e | e <;> rw [e] <;> decide
    have plain : addr.toNat ≠ aSvoCmd := by
      rcases gstage_cases low high ha with e | e | e | e <;> rw [e] <;> decide
    have wrote := write_passes (v := v) up h ha on lane acked (csrDenied_of_ring_le s v hr ring plain) gate
    rw [writeReg_gstage _ v low high ha] at wrote
    have only := onlyRegisters_setR s addr.toNat v
    exact ⟨_, wrote, only.settle_program, only.settle_registers, by rw [getR_settle, getR_setR, if_pos rfl]⟩

end Sys2Proof.Machine
end

section
/-! SUPPORT. An attack that the policy declares: the clause of the statement on outputs that reads the policy's own register
(its `class` and its measures) reads the number of the position instead, whose name hides it. -/

namespace Sys2Proof.Machine

/-- Voting lanes that agree, and a policy that declares an attack beyond one event and then locks the lifecycle. -/
def guarded : State := { overfull 0x10001000 [] with csr := [(aKeyPolicy, 0x08000001), (aKeyPcount, 1)] }

/-- KEY_ATTACK in the state that a command leaves. -/
def attackAfter (o : Out) : Option Word :=
  match o with
  | .next t => some (getR t aKeyAttack)
  | _ => none

/-- Refutes O46: the attack that a disagreeing enable line declares records the measures of KEY_POLICY in KEY_ATTACK, and the
statement takes them from the position's number, which is 0. -/
theorem not_outputsAndPolicy : ¬ Obligations.OutputsAndPolicy := by
  unfold Obligations.OutputsAndPolicy
  intro h
  obtain ⟨-, -, outputs, -⟩ := h guarded 0
  obtain ⟨-, -, -, lines⟩ := outputs rfl 0
  obtain ⟨-, -, disagrees⟩ := lines 0
  obtain ⟨t, ran, -, -, -, -, -, -, -, attacks⟩ := disagrees 0 (by decide +kernel) (by decide +kernel)
    ⟨1, by decide, by decide, by decide +kernel, by decide +kernel⟩
  obtain ⟨record, -⟩ := attacks (by decide +kernel)
  have after : attackAfter (.next t) = some (u32 (2 ^ 31 + 1)) := congrArg some (record.trans (by decide +kernel))
  exact absurd (ran ▸ after) (by decide +kernel)

end Sys2Proof.Machine
end

section
/-! SUPPORT. Entries of the stamp queue, reads that answer a capture, and steps of the time (spec/08 R213 to R221). -/

namespace Sys2Proof.Machine

/-! ### The stamp queue -/

theorem enterQueue_behind {e : Stamp} {l : List Stamp} (h : ∀ x ∈ l, x.cycle ≠ e.cycle) : enterQueue e l = e :: l := by
  cases l with
  | nil => rfl
  | cons x r =>
    rw [enterQueue, if_neg]
    exact fun same => h x List.mem_cons_self same.1

/-- An entry of a cycle of its own goes to the end of a queue with room (R221). -/
theorem queueStamp_room {s : State} {e : Stamp} (room : s.mls.sq.length < 4096) (gap : s.mls.gap = none)
    (own : ∀ x ∈ s.mls.sq, x.cycle ≠ e.cycle) : (queueStamp s e).mls.sq = s.mls.sq ++ [e] := by
  have entered : queueStamp s e = sqPush s e := by
    unfold queueStamp sqEnter
    rw [if_neg (Nat.not_le.2 room), gap]
    rfl
  rw [entered]
  change (enterQueue e s.mls.sq.reverse).reverse = _
  rw [enterQueue_behind (fun x hx => own x (List.mem_reverse.1 hx)), List.reverse_cons, List.reverse_reverse]

/-! ### Reads -/

theorem readAs_passes {s : State} {c : BitVec 10} {r a : Nat} (h : MayAccess s c r) (off : csrSwitch a = none)
    (acked : Acked s c (csrUnit a)) {g : Reg} (hg : regOf a = some g) (ring : r ≤ g.ring) :
    readAs s c a = { (readReg s (whoOf s c.toNat) a).1 with bus := (readReg s (whoOf s c.toNat) a).2 } := by
  obtain ⟨up, low, lane⟩ := h
  have allowed : csrDenied s a (ringOf (getC s (whoOf s c.toNat))) none = false := not_denied_read fun k hk => by
    rw [hg] at hk
    obtain rfl := Option.some.inj hk
    exact low.trans ring
  have body : (do
      let v ← csrLoad ⟨whoOf s c.toNat, laneOfWho s (whoOf s c.toNat)⟩ a
      modify (fun t => { t with bus := v }) : M Unit) s =
      .ok ((), { (readReg s (whoOf s c.toNat) a).1 with bus := (readReg s (whoOf s c.toNat) a).2 }) := by
    rw [bind_of_ok (m := csrLoad _ _) (a := (readReg s (whoOf s c.toNat) a).2) (t := (readReg s (whoOf s c.toNat) a).1)]
    · rfl
    · rw [csrLoad, bind_of_ok (csrCheck_passes ⟨whoOf s c.toNat, laneOfWho s (whoOf s c.toNat)⟩ a none allowed lane
        fun u hu => by rw [off] at hu; cases hu),
        bind_of_ok (awaitIsland_passes ⟨whoOf s c.toNat, laneOfWho s (whoOf s c.toNat)⟩ (csrUnit a) acked)]
      rfl
  exact onBehalf_ok up body

/-- State `s` where coach `n` has a capture that `f` writes, and the answer is `b`. -/
theorem capture_leaves (s : State) (n : Nat) (b : Word) {f : Coach → Coach} (hf : ∀ c, seen (f c) = seen c) :
    let t := settle { modC s (.coach n) f with bus := b }
    SameProgram s t ∧ SameRegisters s t ∧ t.mls = s.mls ∧ t.bus = b := by
  refine ⟨⟨fun a => (rdB_settle _ a).trans ?_, fun w => (seen_settle _ w).trans ?_⟩, fun a => (getR_settle _ a).trans ?_, ?_, ?_⟩
  · exact congrArg (fun m => SMap.get (unlisted a) m a) (modC_mem s (.coach n) f)
  · by_cases e : w = .coach n
    · subst e
      exact (congrArg seen (getC_modC_self s (.coach n) f)).trans (hf _)
    · exact congrArg seen (getC_modC_other s w (.coach n) f e)
  · exact congrArg (fun m => SMap.get (csrReset a) m a) (modC_csr s (.coach n) f)
  · exact (settle_mls _).trans (modC_mls s (.coach n) f)
  · exact settle_bus _

theorem mlsTimeLo_captures {s : State} {c : BitVec 10} (h : MayAccess s c 3) : ∃ t, exec (.mlsTimeLoRead c) s = .next t ∧
    SameProgram s t ∧ SameRegisters s t ∧ t.mls = s.mls ∧ t.bus = s.mls.time.truncate 32 ∧
    (coachOf t (actor s c)).timeCap = some s.mls.time := by
  obtain ⟨program, regs, mls, bus⟩ := capture_leaves s (actor s c) (loW s.mls.time)
    (f := fun x => { x with timeCap := some s.mls.time }) (fun _ => rfl)
  have read := readAs_passes h (a := aMlsTimeLo) rfl (acked_of_no_stores s c (by decide)) rfl (Nat.le_refl _)
  refine ⟨_, congrArg occurs read, program, regs, mls, bus, ?_⟩
  have cap := settle_timeCap { modC s (.coach (actor s c)) (fun x => { x with timeCap := some s.mls.time }) with bus := loW s.mls.time }
    (.coach (actor s c))
  refine cap.trans ?_
  exact congrArg Coach.timeCap (getC_modC_self s (.coach (actor s c)) (fun x => { x with timeCap := some s.mls.time }))

theorem lstamp_reg : ∀ n : Fin 512, regOf (aMlsLstampLo + 8 * n.val) = some ⟨0xE0031000, 512, 8, 2, 0x0, 0x0, 0x0⟩ := by
  decide +kernel

theorem readReg_lstamp (s : State) (w : Who) {n : Nat} (hn : n < 512) :
    readReg s w (aMlsLstampLo + 8 * n) = readStampLo s (numOf s w) n := by
  have reg := lstamp_reg ⟨n, hn⟩
  have unit : csrUnit (aMlsLstampLo + 8 * n) = 3 := by
    simp only [csrUnit, aMlsLstampLo]
    omega
  have out : aMlsLstampLo + 8 * n ∉ clearedByRead ∧ aMlsLstampLo + 8 * n ∉ countClearedByRead := by
    have high : ∀ a ∈ clearedByRead ++ countClearedByRead, ¬ (aMlsLstampLo ≤ a ∧ a < aMlsLstampLo + 4096) := by decide
    exact not_or.1 fun m => high _ (List.mem_append.2 m) ⟨Nat.le_add_right _ _, by omega⟩
  have untouched : touchPower s (aMlsLstampLo + 8 * n) = s := by
    unfold touchPower
    rw [unit]
    rfl
  unfold readReg
  rw [untouched, reg]
  dsimp only
  rw [if_neg (by decide), if_neg (by rw [List.contains_iff_mem]; exact out.1), if_neg (by rw [List.contains_iff_mem]; exact out.2),
    unit, if_neg (by decide), if_pos (.inl rfl)]
  simp only [readMls, aMlsLstampLo, aMlsTimeLo, aMlsTimeHi, aMlsSq, aMlsLstat, aMlsLseq]
  rw [if_neg (by omega), if_neg (by omega), if_neg (by omega), if_neg (by omega), if_neg (by omega), if_pos (by omega),
    if_pos (by omega), show (0xE0031000 + 8 * n - 0xE0031000) / 8 = n by omega]

theorem mlsLstamp_captures {s : State} {c : BitVec 10} (h : MayAccess s c 2) (n : BitVec 9) :
    ∃ t, exec (.mlsLstampLoRead c n) s = .next t ∧ SameProgram s t ∧ SameRegisters s t ∧
    t.bus = (srcOf s n.toNat).stamp.truncate 32 ∧ (coachOf t (actor s c)).stampCap = some (n.toNat, (srcOf s n.toNat).stamp) := by
  obtain ⟨program, regs, -, bus⟩ := capture_leaves s (actor s c) (loW (srcOf s n.toNat).stamp)
    (f := fun x => { x with stampCap := some (n.toNat, (srcOf s n.toNat).stamp) }) (fun _ => rfl)
  have hn : n.toNat < 512 := n.isLt
  have range : csrUnit (aMlsLstampLo + 8 * n.toNat) = 3 ∧ csrSwitch (aMlsLstampLo + 8 * n.toNat) = none := by
    have all : ∀ n : Fin 512, csrUnit (aMlsLstampLo + 8 * n.val) = 3 ∧ csrSwitch (aMlsLstampLo + 8 * n.val) = none := by
      decide +kernel
    exact all ⟨n.toNat, hn⟩
  have read := readAs_passes h (a := aMlsLstampLo + 8 * n.toNat) range.2
    (acked_of_no_stores s c (by rw [range.1]; decide)) (lstamp_reg ⟨n.toNat, hn⟩) (Nat.le_refl _)
  rw [readReg_lstamp s _ hn] at read
  refine ⟨_, congrArg occurs read, program, regs, bus, ?_⟩
  have cap := (getC_settle { modC s (.coach (actor s c)) (fun x => { x with stampCap := some (n.toNat, (srcOf s n.toNat).stamp) })
    with bus := loW (srcOf s n.toNat).stamp } (.coach (actor s c))).get Coach.stampCap (fun _ _ _ _ _ _ _ _ _ _ _ => rfl)
  refine cap.trans ?_
  exact congrArg Coach.stampCap (getC_modC_self s (.coach (actor s c)) (fun x => { x with
    stampCap := some (n.toNat, (srcOf s n.toNat).stamp) }))

/-! ### Steps of the time -/

/-- What the stamp queue and the wheel leave of the milestone island. -/
def timing (m : Mls) : Mls := { m with sq := [], sqHigh := 0, gap := none, tick := none }

theorem Signals.timing {l ns : List Nat} {s t : State} (h : Signals l ns s t) : timing t.mls = timing s.mls := by
  obtain ⟨_, _, _, e⟩ := h.mls
  rw [e]
  rfl

theorem leaves_timer (s : State) (n : Nat) : Leaves [] [] s (modC s (.coach n) (fun c => { c with timer := none })) where
  program := by
    refine ⟨fun a => congrArg (fun m => SMap.get (unlisted a) m a) (modC_mem s (.coach n) _), fun w => ?_⟩
    by_cases e : w = .coach n
    · subst e
      rw [getC_modC_self]
      rfl
    · rw [getC_modC_other _ _ _ _ e]
  csr a _ := congrArg (fun m => SMap.get (csrReset a) m a) (modC_csr s (.coach n) _)
  src _ _ := rfl

theorem leaves_foldl {l ns : List Nat} {f : State → Nat → State} (hf : ∀ s n, Leaves l ns s (f s n)) (es : List Nat) (s : State) :
    Leaves l ns s (es.foldl f s) := by
  induction es generalizing s with
  | nil => exact (Measures.refl l ns s).leaves
  | cons n r ih => exact (hf s n).trans (ih _)

theorem mls_heldItem {s t : State} {src dst : Nat} {l : MtrLoad} {e : Option Stamp} (h : heldItem s src dst l e = some t) :
    t.mls = s.mls := by
  unfold heldItem at h
  dsimp only at h
  split at h
  · cases h; rfl
  · split at h
    · cases h; rfl
    · split at h
      · cases h; rfl
      · cases h

theorem mls_sendWake (s : State) (src n : Nat) (b : BitVec 4) : (sendWake s src n b).mls = s.mls := by
  unfold sendWake
  cases held : heldItem s src 4 (.wake (BitVec.ofNat 10 n) b) none with
  | some t => exact mls_heldItem held
  | none =>
    change (wake s n b).mls = s.mls
    unfold wake
    dsimp only
    split
    · split
      · rfl
      · rfl
    · rfl

/-- A tick of the wheel (R139). -/
theorem wheel_leaves (s : State) : Leaves [] [] s (wheel s) ∧ timing (wheel s).mls = timing s.mls ∧ (wheel s).mls.sq = s.mls.sq := by
  unfold wheel
  split
  · have steps : ∀ (es : List Nat) (t : State), (es.foldl (fun t n =>
        sendWake (modC t (.coach n) (fun c => { c with timer := none })) 7 n wkTIMER) t).mls = t.mls := fun es => by
      induction es with
      | nil => exact fun _ => rfl
      | cons n r ih => exact fun t => (ih _).trans ((mls_sendWake _ _ _ _).trans (modC_mls t _ _))
    unfold fireTimers
    refine ⟨(leaves_modMls s (fun m => { m with tick := some m.time })).trans (leaves_foldl (fun t n =>
      (leaves_timer t n).trans (signals_sendWake _ 7 n wkTIMER).measures.leaves) _ _), ?_, ?_⟩
    · rw [steps]
      rfl
    · rw [steps]
      rfl
  · exact ⟨(Measures.refl [] [] s).leaves, rfl, rfl⟩

end Sys2Proof.Machine
end

section
/-! SUPPORT. Requests of MLS_CTL, and the discipline of the time by its reference (spec/08 R213 to R219). -/

namespace Sys2Proof.Machine

/-! ### Steps of the time -/

theorem stepTo_leaves (s : State) (t : DWord) (phase : Bool) : Leaves (eventRegs 27) [7, 27] s (stepTo s t phase) ∧
    (∃ e, timing (stepTo s t phase).mls = timing { s.mls with time := t, slew := 0, lastEdge := e }) ∧
    (s.mls.sq.length < 4096 → s.mls.gap = none → (∀ e ∈ s.mls.sq, e.cycle ≠ s.cycles) →
      (stepTo s t phase).mls.sq = s.mls.sq ++ [⟨t, s.cycles, 3, stampFlags s phase, 0, s.mls.time⟩]) := by
  unfold stepTo
  dsimp only
  generalize hu : modMls s (fun m => { m with
    time := t, slew := 0, tick := none
    lastEdge := m.lastEdge.map (fun e => ofNs (totalNs e + totalNs t - totalNs s.mls.time)) }) = u
  have set : Leaves [] [] s u := hu ▸ leaves_modMls s _
  have record := signals_queueStamp u ⟨t, u.cycles, 3, stampFlags u phase, 0, s.mls.time⟩
  obtain ⟨tick, clock, queue⟩ := wheel_leaves (queueStamp u ⟨t, u.cycles, 3, stampFlags u phase, 0, s.mls.time⟩)
  refine ⟨((set.mono (List.nil_subset _) (List.nil_subset _)).trans record.measures.leaves).trans
    (tick.mono (List.nil_subset _) (List.nil_subset _)), ⟨u.mls.lastEdge, clock.trans (record.timing.trans ?_)⟩, fun room gap own => ?_⟩
  · rw [← hu]
    rfl
  · rw [queue, queueStamp_room (by rw [← hu]; exact room) (by rw [← hu]; exact gap) (by rw [← hu]; exact own), ← hu]
    rfl

/-! ### Requests of MLS_CTL -/

theorem setBit_bit (w : Word) (i : Nat) : setBit w i (bit w i) = w := by
  refine BitVec.eq_of_getLsbD_eq fun j hj => ?_
  change bit (setBit w i (bit w i)) j = bit w j
  rw [bit_setBit _ _ hj]
  split
  · rename_i e
    rw [e]
  · rfl

/-- State `s` with bit `i` of MLS_CTL written. -/
def ctlSet (s : State) (i : Nat) (b : Bool) : State := setR s aMlsCtl (setBit (getR s aMlsCtl) i b)

theorem getR_ctlSet (s : State) (i : Nat) (b : Bool) (a : Nat) :
    getR (ctlSet s i b) a = if a = aMlsCtl then setBit (getR s aMlsCtl) i b else getR s a := by rw [ctlSet, getR_setR]

theorem leaves_ctlSet (s : State) (i : Nat) (b : Bool) : Leaves [aMlsCtl] [] s (ctlSet s i b) := (measures_setR s aMlsCtl _).leaves

/-- State `s` once DISC of a request `v` is written: the time free-runs from DISC 0. -/
def disciplineSet (s : State) (v : Word) : State :=
  if bit v 2 then ctlSet s 2 (bit v 2) else modMls (ctlSet s 2 (bit v 2)) (fun m => { m with slew := 0, frac := 0 })

theorem writeMlsCtl_refused {s : State} {v : Word} (h : ((bit v 0 && bit v 1) || ((bit v 0 || bit v 1) && setBad s)) = true) :
    writeMlsCtl s v = ctlSet s 31 true := if_pos h

theorem writeMlsCtl_taken {s : State} {v : Word} (h : ((bit v 0 && bit v 1) || ((bit v 0 || bit v 1) && setBad s)) = false) :
    writeMlsCtl s v =
      let u := disciplineSet (if bit v 3 then modMls (loseLock s) (fun m => { m with acquiring := true }) else s) v
      if bit v 0 then stepTo (ctlSet u 31 false) (setValue u) false
      else if bit v 1 then ctlSet (ctlSet u 31 false) 1 true
      else u := if_neg (by rw [h]; decide)

/-- A request that keeps DISC writes no register with it. -/
theorem disciplineSet_keeps {s : State} {v : Word} (h : bit v 2 = bit (getR s aMlsCtl) 2) :
    Leaves [] [] s (disciplineSet s v) ∧ (disciplineSet s v).mls =
      (if bit (getR s aMlsCtl) 2 = true then s.mls else { s.mls with slew := 0, frac := 0 }) ∧
      (disciplineSet s v).cycles = s.cycles := by
  have same : SameRegisters s (ctlSet s 2 (bit v 2)) := fun a => by
    rw [getR_ctlSet, h, setBit_bit]
    split
    · rename_i e
      rw [e]
    · rfl
  have quiet : Leaves [] [] s (ctlSet s 2 (bit v 2)) := ⟨(leaves_ctlSet s 2 (bit v 2)).program, fun a _ => same a, fun _ _ => rfl⟩
  unfold disciplineSet
  rw [← h]
  split
  · exact ⟨quiet, rfl, rfl⟩
  · exact ⟨quiet.trans (leaves_modMls _ _), rfl, rfl⟩

/-- The bits of a request `m` that keeps DISC. -/
theorem request_bits (w : Word) {m : Word} (h : bit m 2 = false) : let v := (w &&& 4#32) ||| m
    bit v 0 = bit m 0 ∧ bit v 1 = bit m 1 ∧ bit v 2 = bit w 2 ∧ bit v 3 = bit m 3 := by
  refine ⟨?_, ?_, ?_, ?_⟩
  · rw [bit_or, bit_and, show bit 4#32 0 = false from rfl, Bool.and_false, Bool.false_or]
  · rw [bit_or, bit_and, show bit 4#32 1 = false from rfl, Bool.and_false, Bool.false_or]
  · rw [bit_or, bit_and, show bit 4#32 2 = true from rfl, Bool.and_true, h, Bool.or_false]
  · rw [bit_or, bit_and, show bit 4#32 3 = false from rfl, Bool.and_false, Bool.false_or]

theorem exec_mlsRequest {s : State} {c : BitVec 10} (h : MayAccess s c 0) (m : Word) :
    occurs (mlsRequest s c m) = .next (settle (writeMlsCtl s ((getR s aMlsCtl &&& 4#32) ||| m))) := by
  have wrote := writeAs_of_mayAccess (v := (getR s aMlsCtl &&& 4#32) ||| m) h (csrDenied_of_ring_le s _ (a := aMlsCtl) rfl
    (h.2.1.trans (Nat.zero_le _)) (by decide)) rfl (acked_of_no_stores s c (by decide)) (by decide)
  exact congrArg occurs (wrote.trans rfl)

theorem setBad_iff (s : State) : setBad s = false ↔ fld (getR s aMlsSetLo) 0 30 < 1000000000 :=
  decide_eq_false_iff_not.trans Nat.not_le

theorem setValue_congr {s t : State} (h : ∀ a, a ≠ aMlsCtl → getR t a = getR s a) : setValue t = setValue s := by
  rw [setValue, setValue, h aMlsSetHi (by decide), h aMlsSetLo (by decide)]

theorem stepTime_steps {s : State} {c : BitVec 10} (h : MayAccess s c 0) (ok : fld (getR s aMlsSetLo) 0 30 < 1000000000) :
    ∃ t, exec (.stepTime c) s = .next t ∧ SameProgram s t ∧ SameRegistersBut (aMlsCtl :: eventRegs 27) s t ∧
    t.mls.time = setValue s ∧ t.mls.slew = 0 ∧ getR t aMlsCtl = setBit (getR s aMlsCtl) 31 false ∧
    (s.mls.sq.length < 4096 ∧ s.mls.gap = none ∧ (∀ e ∈ s.mls.sq, e.cycle ≠ s.cycles) →
      t.mls.sq = s.mls.sq ++ [⟨setValue s, s.cycles, 3, stampFlags s false, 0, s.mls.time⟩]) := by
  obtain ⟨step, pps, disc, acq⟩ := request_bits (getR s aMlsCtl) (m := 1) rfl
  have ran := exec_mlsRequest h 1
  rw [writeMlsCtl_taken (by rw [step, pps, (setBad_iff s).2 ok]; rfl), acq] at ran
  obtain ⟨kept, mls, cycles⟩ := disciplineSet_keeps disc
  dsimp only at ran
  rw [step, if_neg (show ¬ bit 1 3 = true by decide), if_pos (show bit 1 0 = true by decide)] at ran
  generalize disciplineSet s ((getR s aMlsCtl &&& 4#32) ||| 1) = u at ran kept mls cycles
  rw [setValue_congr (fun a _ => kept.csr a List.not_mem_nil)] at ran
  obtain ⟨leaves, ⟨e, clock⟩, record⟩ := stepTo_leaves (ctlSet u 31 false) (setValue s) false
  have set := leaves_ctlSet u 31 false
  have all := ((kept.mono (l' := aMlsCtl :: eventRegs 27) (ns' := [7, 27]) (by decide) (by decide)).trans
    (set.mono (by decide) (by decide))).trans (leaves.mono (by decide) (by decide))
  have queue : u.mls.sq = s.mls.sq ∧ u.mls.gap = s.mls.gap ∧ u.mls.time = s.mls.time := by
    rw [mls]
    split
    · exact ⟨rfl, rfl, rfl⟩
    · exact ⟨rfl, rfl, rfl⟩
  have flags : stampFlags (ctlSet u 31 false) false = stampFlags s false := by
    rw [stampFlags, getR_ctlSet, if_neg (by decide), kept.csr _ List.not_mem_nil]
    rfl
  refine ⟨_, ran, all.settle.program, all.settle.csr, ?_, ?_, ?_, fun ⟨room, gap, own⟩ => ?_⟩
  · rw [settle_mls]
    exact congrArg Mls.time clock
  · rw [settle_mls]
    exact congrArg Mls.slew clock
  · rw [getR_settle, leaves.csr _ (by decide), getR_ctlSet, if_pos rfl, kept.csr _ List.not_mem_nil]
  · rw [settle_mls, record (queue.1 ▸ room) (queue.2.1.trans gap) (fun x hx => cycles.symm ▸ own x (queue.1 ▸ hx)), flags]
    change u.mls.sq ++ [⟨_, u.cycles, _, _, _, u.mls.time⟩] = _
    rw [queue.1, cycles, queue.2.2]

theorem steppps_waits {s : State} {c : BitVec 10} (h : MayAccess s c 0) (ok : fld (getR s aMlsSetLo) 0 30 < 1000000000) :
    ∃ t, exec (.steppps c) s = .next t ∧ SameProgram s t ∧ SameRegistersBut [aMlsCtl] s t ∧
    t.mls = (if bit (getR s aMlsCtl) 2 = true then s.mls else { s.mls with slew := 0, frac := 0 }) ∧
    getR t aMlsCtl = setBit (setBit (getR s aMlsCtl) 31 false) 1 true := by
  obtain ⟨step, pps, disc, acq⟩ := request_bits (getR s aMlsCtl) (m := 2) rfl
  have ran := exec_mlsRequest h 2
  rw [writeMlsCtl_taken (by rw [step, pps, (setBad_iff s).2 ok]; rfl), acq] at ran
  obtain ⟨kept, mls, -⟩ := disciplineSet_keeps disc
  dsimp only at ran
  rw [step, pps, if_neg (show ¬ bit 2 3 = true by decide), if_neg (show ¬ bit 2 0 = true by decide),
    if_pos (show bit 2 1 = true by decide)] at ran
  generalize disciplineSet s ((getR s aMlsCtl &&& 4#32) ||| 2) = u at ran kept mls
  have all := ((kept.mono (l' := [aMlsCtl]) (by decide) (List.Subset.refl _)).trans (leaves_ctlSet u 31 false)).trans
    (leaves_ctlSet (ctlSet u 31 false) 1 true)
  refine ⟨_, ran, all.settle.program, all.settle.csr, (settle_mls _).trans mls, ?_⟩
  rw [getR_settle, getR_ctlSet, if_pos rfl, getR_ctlSet, if_pos rfl, kept.csr _ List.not_mem_nil]

/-- A step that is refused sets ERR. -/
theorem mlsRequest_refused {s : State} {c : BitVec 10} (h : MayAccess s c 0) (bad : ¬ fld (getR s aMlsSetLo) 0 30 < 1000000000)
    {m : Word} (disc : bit m 2 = false) (steps : (bit m 0 || bit m 1) = true) : ∃ t, occurs (mlsRequest s c m) = .next t ∧ SameProgram s t ∧
    SameRegistersBut [aMlsCtl] s t ∧ t.mls = s.mls ∧ getR t aMlsCtl = setBit (getR s aMlsCtl) 31 true := by
  obtain ⟨step, pps, -, -⟩ := request_bits (getR s aMlsCtl) disc
  have refused : setBad s = true := Bool.not_eq_false _ ▸ fun h => bad ((setBad_iff s).1 h)
  have ran := exec_mlsRequest h m
  rw [writeMlsCtl_refused (by rw [step, pps, refused, steps, Bool.and_true, Bool.or_true])] at ran
  have set := leaves_ctlSet s 31 true
  refine ⟨_, ran, set.settle.program, set.settle.csr, settle_mls _, ?_⟩
  rw [getR_settle, getR_ctlSet, if_pos rfl]

theorem setRef_timing (s : State) (i : Nat) (v : Bool) : timing (setRef s i v).mls = timing s.mls := by
  unfold setRef
  split
  · rfl
  · dsimp only
    split
    · exact (signals_trigger _ 26).timing.trans rfl
    · rfl

theorem loseLock_timing (s : State) : timing (loseLock s).mls = { timing s.mls with good := 0 } :=
  congrArg (fun m : Mls => { m with good := 0 }) (setRef_timing s 0 false)

theorem bit_loseLock (s : State) {j : Nat} (hj : j < 32) :
    bit (getR (loseLock s) aMlsStatus) j = if j = 0 then false else bit (getR s aMlsStatus) j := bit_setRef s false hj

/-- Registers that the discipline of the time may write (R217, R218). -/
def clockRegs : List Nat := [aMlsStatus, aMlsFreq, aMlsPpserr, aMlsCtl] ++ eventRegs 25 ++ eventRegs 26 ++ eventRegs 7

theorem acq_starts {s : State} {c : BitVec 10} (h : MayAccess s c 0) : ∃ t, exec (.acq c) s = .next t ∧ SameProgram s t ∧
    SameRegistersBut clockRegs s t ∧ t.mls.acquiring = true ∧ t.mls.good = 0 ∧ bit (getR t aMlsStatus) 0 = false ∧
    t.mls.time = s.mls.time := by
  obtain ⟨step, pps, disc, acq⟩ := request_bits (getR s aMlsCtl) (m := 8) rfl
  have ran := exec_mlsRequest h 8
  rw [writeMlsCtl_taken (by rw [step, pps]; rfl), acq] at ran
  dsimp only at ran
  rw [step, pps, if_pos (show bit 8 3 = true by decide), if_neg (show ¬ bit 8 0 = true by decide),
    if_neg (show ¬ bit 8 1 = true by decide)] at ran
  have lost := leaves_loseLock s
  have clock := loseLock_timing s
  have bit0 := bit_loseLock s (j := 0) (by decide)
  generalize loseLock s = u at ran lost clock bit0
  have marked := leaves_modMls u (fun m => { m with acquiring := true })
  have ctl : getR (modMls u (fun m => { m with acquiring := true })) aMlsCtl = getR s aMlsCtl := lost.csr _ (by decide)
  obtain ⟨kept, mls, -⟩ := disciplineSet_keeps (disc.trans (by rw [ctl]))
  generalize disciplineSet (modMls u (fun m => { m with acquiring := true })) ((getR s aMlsCtl &&& 4#32) ||| 8) = w at ran kept mls
  have all := ((lost.mono (l' := clockRegs) (ns' := [26, 7, 27]) (by decide) (by decide)).trans
    (marked.mono (by decide) (by decide))).trans (kept.mono (by decide) (by decide))
  have fields : w.mls.acquiring = true ∧ w.mls.good = u.mls.good ∧ w.mls.time = u.mls.time := by
    rw [mls]
    split
    · exact ⟨rfl, rfl, rfl⟩
    · exact ⟨rfl, rfl, rfl⟩
  refine ⟨_, ran, all.settle.program, all.settle.csr, ?_, ?_, ?_, ?_⟩
  · rw [settle_mls, fields.1]
  · rw [settle_mls, fields.2.1]
    exact congrArg Mls.good clock
  · rw [getR_settle, kept.csr _ List.not_mem_nil]
    exact bit0
  · rw [settle_mls, fields.2.2]
    have same := congrArg Mls.time clock
    exact same

end Sys2Proof.Machine
end

section
/-! SUPPORT. Edges of the time reference, holdover and alarms (spec/08 R214 to R219), and the statement on milestone time. -/

namespace Sys2Proof.Machine

/-! ### An accepted edge -/

theorem edgeOk_iff (s : State) (width : Nat) : edgeOk s width = true ↔ (1000 ≤ width ∧ width ≤ 500000000) ∧
    (s.mls.acquiring = true ∨ bit (getR s aMlsStatus) 1 = true ∨
      ∀ d, s.mls.lastEdge = some d → (spanNs s.mls.time d - 1000000000).natAbs ≤ 100000) := by
  unfold edgeOk
  rw [Bool.and_eq_true, Bool.and_eq_true, decide_eq_true_iff, decide_eq_true_iff, Bool.or_eq_true, Bool.or_eq_true, or_assoc]
  refine and_congr_right fun _ => or_congr_right (or_congr_right ?_)
  cases s.mls.lastEdge with
  | none =>
    constructor
    · intro _ d h
      cases h
    · exact fun _ => rfl
  | some d => exact decide_eq_true_iff.trans ⟨fun h x hx => Option.some.inj hx ▸ h, fun h => h d rfl⟩

/-- What the correction of the time at an edge leaves (R217 step 3). -/
theorem discipline_leaves (s : State) (e : Int) (first : Bool) :
    Leaves (aMlsCtl :: aMlsFreq :: eventRegs 27) [7, 27] s (discipline s e first) ∧
    (discipline s e first).mls.good = s.mls.good := by
  have steps : ∀ (u : State) (t : DWord) (phase : Bool),
      Leaves (aMlsCtl :: aMlsFreq :: eventRegs 27) [7, 27] u (stepTo u t phase) ∧ (stepTo u t phase).mls.good = u.mls.good :=
    fun u t phase => by
      obtain ⟨leaves, ⟨_, clock⟩, -⟩ := stepTo_leaves u t phase
      have good := congrArg Mls.good clock
      exact ⟨leaves.mono (by decide) (List.Subset.refl _), good⟩
  have ctl : ∀ (u : State) (i : Nat) (b : Bool), Leaves (aMlsCtl :: aMlsFreq :: eventRegs 27) [7, 27] u (ctlSet u i b) :=
    fun u i b => (leaves_ctlSet u i b).mono (by decide) (List.nil_subset _)
  unfold discipline
  dsimp only
  split
  · split
    · exact ⟨(ctl s 1 false).trans (ctl _ 31 true), rfl⟩
    · exact ⟨(ctl s 1 false).trans (steps _ _ _).1, (steps _ _ _).2⟩
  · split
    · exact ⟨(Measures.refl _ _ s).leaves, rfl⟩
    · split
      · exact steps _ _ _
      · have drawn : Leaves [] [] s { s with draws := s.draws + 1 } := ⟨⟨fun _ => rfl, fun w => by cases w <;> rfl⟩, fun _ _ => rfl,
          fun _ _ => rfl⟩
        have freq := (measures_setR { s with draws := s.draws + 1 } aMlsFreq (BitVec.ofInt 32 (freeCorr s).1)).leaves
        exact ⟨((drawn.mono (List.nil_subset _) (List.nil_subset _)).trans (freq.mono (by decide) (by decide))).trans
          ((leaves_modMls _ _).mono (List.nil_subset _) (List.nil_subset _)), rfl⟩

/-- A requested step, at the edge it waits for. -/
theorem discipline_requested {s : State} (e : Int) (first : Bool) (pps : bit (getR s aMlsCtl) 1 = true) :
    let t := discipline s e first
    bit (getR t aMlsCtl) 1 = false ∧ (if fld (getR s aMlsSetLo) 0 30 < 1000000000 then t.mls.time = setValue s
      else t.mls.time = s.mls.time ∧ bit (getR t aMlsCtl) 31 = true) := by
  unfold discipline
  dsimp only
  rw [if_pos pps]
  by_cases ok : fld (getR s aMlsSetLo) 0 30 < 1000000000
  · rw [if_pos ok, if_neg (by rw [(setBad_iff s).2 ok]; decide)]
    obtain ⟨leaves, ⟨_, clock⟩, -⟩ := stepTo_leaves (ctlSet s 1 false) (setValue s) false
    have ctl := leaves.csr aMlsCtl (by decide)
    have time := congrArg Mls.time clock
    refine ⟨?_, time⟩
    change bit (getR (stepTo (ctlSet s 1 false) (setValue s) false) aMlsCtl) 1 = false
    rw [ctl, getR_ctlSet, if_pos rfl, bit_setBit _ _ (by decide), if_pos rfl]
  · rw [if_neg ok, if_pos (Bool.not_eq_false _ ▸ fun h => ok ((setBad_iff s).1 h))]
    refine ⟨?_, rfl, ?_⟩
    · rw [getR_setR, if_pos rfl, bit_setBit _ _ (by decide), if_neg (by decide), getR_setR, if_pos rfl, bit_setBit _ _ (by decide),
        if_pos rfl]
    · rw [getR_setR, if_pos rfl, bit_setBit _ _ (by decide), if_pos rfl]

/-- The correction at an edge that no step waits for. -/
theorem discipline_corrects {s : State} (e : Int) (first : Bool) (pps : bit (getR s aMlsCtl) 1 = false) :
    let t := discipline s e first
    let time := s.mls.time
    (bit (getR s aMlsCtl) 2 = false → t.mls.time = time ∧ t.mls.slew = s.mls.slew) ∧
    (bit (getR s aMlsCtl) 2 = true → first = true ∨ 1000 < e.natAbs →
      t.mls.time = mkTime (if 500000000 < nsOf time then secOf time + 1 else secOf time) 0 ∧ t.mls.slew = 0) ∧
    (bit (getR s aMlsCtl) 2 = true → ¬ (first = true ∨ 1000 < e.natAbs) →
      t.mls.time = time ∧ t.mls.slew = e ∧ (getR t aMlsFreq).toInt.natAbs ≤ 200000) := by
  unfold discipline
  dsimp only
  rw [if_neg (by rw [pps]; decide)]
  refine ⟨fun off => ?_, fun on far => ?_, fun on near => ?_⟩
  · rw [off, if_pos (show (!false) = true from rfl)]
    exact ⟨rfl, rfl⟩
  · rw [on, if_neg (by decide), if_pos (by rw [Bool.or_eq_true, decide_eq_true_iff]; exact far)]
    obtain ⟨-, ⟨_, clock⟩, -⟩ := stepTo_leaves s (mkTime (if 500000000 < nsOf s.mls.time then secOf s.mls.time + 1
      else secOf s.mls.time) 0) true
    exact ⟨congrArg Mls.time clock, congrArg Mls.slew clock⟩
  · rw [on, if_neg (by decide), if_neg (by rw [Bool.or_eq_true, decide_eq_true_iff]; exact near)]
    refine ⟨rfl, rfl, ?_⟩
    change (getR (setR (freeCorr s).2 aMlsFreq (BitVec.ofInt 32 (freeCorr s).1)) aMlsFreq).toInt.natAbs ≤ 200000
    have small : -200000 ≤ (freeCorr s).1 ∧ (freeCorr s).1 ≤ 200000 := by
      unfold freeCorr
      dsimp only
      have := Nat.mod_lt (Config.freeNat s.draws) (show 400001 > 0 by decide)
      omega
    rw [getR_setR, if_pos rfl, BitVec.toInt_ofInt, Int.bmod_def]
    omega

/-- LOCK after an accepted edge (R217, R218). -/
theorem lockEdge_leaves (s : State) (e : Int) : Leaves refRegs [26, 7, 27] s (lockEdge s e) ∧
    (∃ g, timing (lockEdge s e).mls = timing { s.mls with good := g }) ∧
    bit (getR (lockEdge s e) aMlsStatus) 0 = (if 200 < e.natAbs then false
      else if e.natAbs ≤ 40 ∧ 3 ≤ s.mls.good then true else bit (getR s aMlsStatus) 0) ∧
    ∀ j, j < 32 → j ≠ 0 → bit (getR (lockEdge s e) aMlsStatus) j = bit (getR s aMlsStatus) j := by
  have four : ((if e.natAbs ≤ 40 then satAdd 4 s.mls.good 1 else 0) = 4) ↔ e.natAbs ≤ 40 ∧ 3 ≤ s.mls.good := by
    unfold satAdd
    split
    · split <;> omega
    · omega
  unfold lockEdge
  dsimp only
  generalize (if e.natAbs ≤ 40 then satAdd 4 s.mls.good 1 else 0) = g at four ⊢
  have marked := (leaves_modMls s (fun m => { m with good := g })).mono (l' := refRegs) (ns' := [26, 7, 27]) (List.nil_subset _)
    (List.nil_subset _)
  by_cases wide : 200 < e.natAbs
  · rw [if_pos wide, if_pos wide]
    refine ⟨marked.trans (leaves_loseLock _), ⟨0, (loseLock_timing _).trans rfl⟩, ?_, fun j hj h0 => ?_⟩
    · rw [bit_loseLock _ (by decide), if_pos rfl]
    · rw [bit_loseLock _ hj, if_neg h0]
      rfl
  · rw [if_neg wide, if_neg wide]
    by_cases lock : g = 4
    · rw [if_pos lock, if_pos (four.1 lock)]
      refine ⟨marked.trans (leaves_setRef _ 0 true), ⟨g, (setRef_timing _ 0 true).trans rfl⟩, ?_, fun j hj h0 => ?_⟩
      · rw [bit_setRef _ _ (by decide), if_pos rfl]
      · rw [bit_setRef _ _ hj, if_neg h0]
        rfl
    · rw [if_neg lock, if_neg (fun h => lock (four.2 h))]
      exact ⟨marked, ⟨g, rfl⟩, rfl, fun _ _ _ => rfl⟩

/-- The three reports of a lost reference cleared by an edge. -/
theorem cleared_reports (s : State) : let t := setRef (setRef (setRef s 1 false) 3 false) 4 false
    Leaves refRegs [26, 7, 27] s t ∧ timing t.mls = timing s.mls ∧
    ∀ j, j < 32 → bit (getR t aMlsStatus) j = if j = 4 ∨ j = 3 ∨ j = 1 then false else bit (getR s aMlsStatus) j := by
  refine ⟨((leaves_setRef s 1 false).trans (leaves_setRef _ 3 false)).trans (leaves_setRef _ 4 false), ?_, fun j hj => ?_⟩
  · rw [setRef_timing, setRef_timing, setRef_timing]
  · rw [bit_setRef _ _ hj, bit_setRef _ _ hj, bit_setRef _ _ hj]
    by_cases h4 : j = 4
    · rw [if_pos h4, if_pos (.inl h4)]
    · rw [if_neg h4]
      by_cases h3 : j = 3
      · rw [if_pos h3, if_pos (.inr (.inl h3))]
      · rw [if_neg h3]
        by_cases h1 : j = 1
        · rw [if_pos h1, if_pos (.inr (.inr h1))]
        · rw [if_neg h1, if_neg (by omega)]

theorem ppsEdge_accepted {s : State} {width : Nat} (ok : edgeOk s width = true) : let t := ppsEdge s width
    let e := phaseError s.mls.time
    let far := s.mls.acquiring = true ∨ 1000 < e.natAbs
    Leaves clockRegs [25, 26, 7, 27] s t ∧
    getR t aMlsPpserr = BitVec.ofInt 32 e ∧ bit (getR t aMlsStatus) 1 = false ∧ bit (getR t aMlsStatus) 3 = false ∧
    bit (getR t aMlsStatus) 4 = false ∧ t.mls.acquiring = false ∧ t.mls.lastEdge = some t.mls.time ∧
    bit (getR t aMlsStatus) 0 = (if 200 < e.natAbs then false
      else if e.natAbs ≤ 40 ∧ 3 ≤ s.mls.good then true else bit (getR s aMlsStatus) 0) ∧
    (bit (getR s aMlsCtl) 1 = true → bit (getR t aMlsCtl) 1 = false ∧
      (if fld (getR s aMlsSetLo) 0 30 < 1000000000 then t.mls.time = setValue s
        else t.mls.time = s.mls.time ∧ bit (getR t aMlsCtl) 31 = true)) ∧
    (bit (getR s aMlsCtl) 1 = false →
      (bit (getR s aMlsCtl) 2 = false → t.mls.time = s.mls.time ∧ t.mls.slew = s.mls.slew) ∧
      (bit (getR s aMlsCtl) 2 = true → far →
        t.mls.time = mkTime (if 500000000 < nsOf s.mls.time then secOf s.mls.time + 1 else secOf s.mls.time) 0 ∧ t.mls.slew = 0) ∧
      (bit (getR s aMlsCtl) 2 = true → ¬ far →
        t.mls.time = s.mls.time ∧ t.mls.slew = e ∧ (getR t aMlsFreq).toInt.natAbs ≤ 200000)) := by
  unfold ppsEdge
  rw [if_pos ok]
  dsimp only
  generalize phaseError s.mls.time = e
  have phase := measures_setR s aMlsPpserr (BitVec.ofInt 32 e)
  have event := signals_trigger (setR s aMlsPpserr (BitVec.ofInt 32 e)) 25
  have err : getR (trigger (setR s aMlsPpserr (BitVec.ofInt 32 e)) 25) aMlsPpserr = BitVec.ofInt 32 e := by
    rw [event.csr _ (by decide), getR_setR, if_pos rfl]
  have recorded := (phase.leaves.mono (l' := clockRegs) (ns' := [25, 26, 7, 27]) (by decide) (by decide)).trans
    (event.measures.leaves.mono (by decide) (by decide))
  have regs : ∀ a, a ∉ aMlsPpserr :: eventRegs 25 → getR (trigger (setR s aMlsPpserr (BitVec.ofInt 32 e)) 25) a = getR s a :=
    fun a ha => (event.csr a fun m => ha (List.mem_cons_of_mem _ m)).trans (phase.csr a fun m => ha (by
      rw [List.mem_singleton.1 m]; exact List.mem_cons_self))
  have clock : timing (trigger (setR s aMlsPpserr (BitVec.ofInt 32 e)) 25).mls = timing s.mls := event.timing
  generalize trigger (setR s aMlsPpserr (BitVec.ofInt 32 e)) 25 = u1 at err recorded regs clock ⊢
  obtain ⟨reports, clock', bits⟩ := cleared_reports u1
  generalize setRef (setRef (setRef u1 1 false) 3 false) 4 false = u2 at reports clock' bits ⊢
  have early : ∀ a, a ∉ aMlsPpserr :: aMlsStatus :: eventRegs 25 ++ eventRegs 26 → getR u2 a = getR s a := fun a ha =>
    (reports.csr a fun m => ha (List.mem_cons_of_mem _ (by
      rcases List.mem_cons.1 m with e | m
      · exact e ▸ List.mem_cons_self
      · exact List.mem_cons_of_mem _ (List.mem_append_right _ m)))).trans (regs a fun m => ha (by
        rcases List.mem_cons.1 m with e | m
        · exact e ▸ List.mem_cons_self
        · exact List.mem_cons_of_mem _ (List.mem_cons_of_mem _ (List.mem_append_left _ m))))
  have same : timing u2.mls = timing s.mls := clock'.trans clock
  have time : u2.mls.time = s.mls.time := (congrArg Mls.time same :)
  have slew : u2.mls.slew = s.mls.slew := (congrArg Mls.slew same :)
  have good : u2.mls.good = s.mls.good := (congrArg Mls.good same :)
  have value : setValue u2 = setValue s := by rw [setValue, setValue, early aMlsSetHi (by decide), early aMlsSetLo (by decide)]
  obtain ⟨corrected, good'⟩ := discipline_leaves u2 e s.mls.acquiring
  have requested := discipline_requested (s := u2) e s.mls.acquiring
  have corrects := discipline_corrects (s := u2) e s.mls.acquiring
  dsimp only at requested corrects
  rw [early aMlsCtl (by decide), early aMlsSetLo (by decide), value, time] at requested
  rw [early aMlsCtl (by decide), time, slew] at corrects
  generalize discipline u2 e s.mls.acquiring = u3 at corrected good' requested corrects ⊢
  obtain ⟨locked, ⟨g, clock3⟩, lock, others⟩ := lockEdge_leaves u3 e
  generalize lockEdge u3 e = u4 at locked clock3 lock others ⊢
  have time4 : u4.mls.time = u3.mls.time := (congrArg Mls.time clock3 :)
  have slew4 : u4.mls.slew = u3.mls.slew := (congrArg Mls.slew clock3 :)
  have ctl4 : getR u4 aMlsCtl = getR u3 aMlsCtl := locked.csr _ (by decide)
  have freq4 : getR u4 aMlsFreq = getR u3 aMlsFreq := locked.csr _ (by decide)
  have status3 : getR u3 aMlsStatus = getR u2 aMlsStatus := corrected.csr _ (by decide)
  have all := ((recorded.trans (reports.mono (by decide) (by decide))).trans (corrected.mono (by decide) (by decide))).trans
    (locked.mono (by decide) (by decide))
  have bitOf : ∀ j, j < 32 → j ≠ 0 → j = 4 ∨ j = 3 ∨ j = 1 → bit (getR u4 aMlsStatus) j = false := fun j hj h0 hc => by
    rw [others j hj h0, status3, bits j hj, if_pos hc]
  change Leaves clockRegs [25, 26, 7, 27] s (modMls u4 _) ∧ getR u4 aMlsPpserr = _ ∧ bit (getR u4 aMlsStatus) 1 = false ∧
    bit (getR u4 aMlsStatus) 3 = false ∧ bit (getR u4 aMlsStatus) 4 = false ∧ false = false ∧ some u4.mls.time = some u4.mls.time ∧
    bit (getR u4 aMlsStatus) 0 = _ ∧ (_ → bit (getR u4 aMlsCtl) 1 = false ∧ (if _ then u4.mls.time = _ else
      u4.mls.time = _ ∧ bit (getR u4 aMlsCtl) 31 = true)) ∧ (_ → (_ → u4.mls.time = _ ∧ u4.mls.slew = _) ∧
      (_ → _ → u4.mls.time = _ ∧ u4.mls.slew = 0) ∧ (_ → _ → u4.mls.time = _ ∧ u4.mls.slew = _ ∧ (getR u4 aMlsFreq).toInt.natAbs ≤ _))
  rw [time4, slew4, ctl4, freq4]
  refine ⟨all.trans ((leaves_modMls _ _).mono (List.nil_subset _) (List.nil_subset _)), ?_, bitOf 1 (by decide) (by decide) (by decide),
    bitOf 3 (by decide) (by decide) (by decide), bitOf 4 (by decide) (by decide) (by decide), rfl, rfl, ?_, requested, corrects⟩
  · rw [locked.csr _ (by decide), corrected.csr _ (by decide), reports.csr _ (by decide), err]
  · rw [lock, good', good, status3, bits 0 (by decide), if_neg (show ¬ ((0 : Nat) = 4 ∨ 0 = 3 ∨ 0 = 1) by decide), regs aMlsStatus (by decide)]

/-! ### Holdover and alarms -/

/-- What a loss of the reference leaves (R218). -/
theorem holdover_leaves (s : State) : Leaves clockRegs [26, 7, 27] s (holdover s) ∧ (holdover s).mls.time = s.mls.time ∧
    getR (holdover s) aMlsFreq = BitVec.ofInt 32 (meanCorr s.mls.corrs) := by
  have clock : timing (holdover s).mls = { timing s.mls with good := 0 } := (setRef_timing _ 1 true).trans (loseLock_timing s)
  have corrs : (setRef (loseLock s) 1 true).mls.corrs = s.mls.corrs := (congrArg Mls.corrs clock :)
  refine ⟨(leaves_holdover s).mono (by decide) (List.Subset.refl _), ?_, ?_⟩
  · have time := congrArg Mls.time clock
    exact time
  · unfold holdover
    dsimp only
    rw [getR_setR, if_pos rfl, corrs]

/-- Every bit but LOCK and HOLDOVER as before. -/
theorem bit_holdover_other (s : State) {j : Nat} (hj : j < 32) (h0 : j ≠ 0) (h1 : j ≠ 1) :
    bit (getR (holdover s) aMlsStatus) j = bit (getR s aMlsStatus) j := by
  have same : getR (holdover s) aMlsStatus = getR (setRef (loseLock s) 1 true) aMlsStatus := by
    rw [holdover, getR_setR, if_neg (by decide)]
  rw [same, bit_setRef _ _ hj, if_neg h1, bit_loseLock _ hj, if_neg h0]

theorem getR_setRef_changes {s : State} {i : Nat} {v : Bool} (h : bit (getR s aMlsStatus) i ≠ v) :
    getR (setRef s i v) aMlsStatus = setBit (getR s aMlsStatus) i v := by
  unfold setRef
  rw [if_neg h]
  dsimp only
  split
  · rw [(signals_trigger _ 26).csr _ (by decide), getR_setR, if_pos rfl]
  · rw [getR_setR, if_pos rfl]

theorem getR_loseLock (s : State) : getR (loseLock s) aMlsStatus = setBit (getR s aMlsStatus) 0 false := by
  change getR (setRef s 0 false) aMlsStatus = _
  by_cases same : bit (getR s aMlsStatus) 0 = false
  · rw [setRef, if_pos same, ← same, setBit_bit]
  · exact getR_setRef_changes same

/-- A difference of the counters (R214). -/
theorem counterDifference_leaves (s : State) : let t := counterDifference s
    SameMemory s t ∧ t.mls.time = s.mls.time ∧ getR t aMlsStatus = setBit (getR s aMlsStatus ||| 0x20) 0 false ∧ t.mls.good = 0 := by
  have flag := (measures_setR s aMlsStatus (getR s aMlsStatus ||| 0x20#32)).leaves
  change Leaves _ _ s (orR s aMlsStatus 0x20#32) at flag
  have stat : getR (orR s aMlsStatus 0x20#32) aMlsStatus = getR s aMlsStatus ||| 0x20 := by rw [getR_orR, if_pos rfl]; rfl
  have lost := leaves_loseLock (orR s aMlsStatus 0x20#32)
  have clock := loseLock_timing (orR s aMlsStatus 0x20#32)
  have unlocked := getR_loseLock (orR s aMlsStatus 0x20#32)
  rw [stat] at unlocked
  have counted := measures_policy (loseLock (orR s aMlsStatus 0x20#32)) pcMLS
  have event := signals_trigger (policy (loseLock (orR s aMlsStatus 0x20#32)) pcMLS) 0
  have mls := event.timing
  unfold counterDifference
  generalize loseLock (orR s aMlsStatus 0x20#32) = u at lost clock unlocked counted event mls ⊢
  generalize policy u pcMLS = w at counted event mls ⊢
  obtain ⟨_, _, _, _, _, e⟩ := counted.mls
  refine ⟨fun a => ?_, ?_, ?_, ?_⟩
  · exact (event.sameMemory a).trans ((counted.sameMemory a).trans ((lost.program.1 a).trans (flag.program.1 a)))
  · rw [event.time, e]
    have time := congrArg Mls.time clock
    exact time
  · rw [event.csr _ (by decide), counted.csr _ (by decide), unlocked]
  · have good := (congrArg Mls.good mls).trans (congrArg Mls.good (congrArg timing e))
    exact good.trans (congrArg Mls.good clock :)

/-! ### Settling the statement -/

theorem ppsHoldover_holds {s : State} : let t := settle (holdover s)
    bit (getR t aMlsStatus) 0 = false ∧ bit (getR t aMlsStatus) 1 = true ∧ SameProgram s t ∧ t.mls.time = s.mls.time ∧
    SameRegistersBut clockRegs s t ∧ getR t aMlsFreq = BitVec.ofInt 32 (meanCorr s.mls.corrs) := by
  obtain ⟨leaves, time, freq⟩ := holdover_leaves s
  obtain ⟨lock, held⟩ := bit_holdover s
  dsimp only
  rw [getR_settle, getR_settle, settle_mls]
  exact ⟨lock, held, leaves.settle.program, time, leaves.settle.csr, freq⟩

theorem refLost_holds (s : State) (short : Bool) : let t := settle (refLost s short)
    (bit (getR t aMlsStatus) 0 = false ∧ bit (getR t aMlsStatus) 1 = true ∧ SameProgram s t ∧ t.mls.time = s.mls.time ∧
      SameRegistersBut clockRegs s t ∧ getR t aMlsFreq = BitVec.ofInt 32 (meanCorr s.mls.corrs)) ∧
    bit (getR t aMlsStatus) (if short then 4 else 3) = true := by
  have low : (if short = true then 4 else 3) < 32 ∧ (if short = true then 4 else 3) ≠ 0 ∧ (if short = true then 4 else 3) ≠ 1 := by
    cases short
    · decide
    · decide
  have reported := leaves_setRef s (if short then 4 else 3) true
  have clock := setRef_timing s (if short then 4 else 3) true
  have flag := bit_setRef s (i := if short then 4 else 3) true low.1
  rw [if_pos rfl] at flag
  unfold refLost
  generalize setRef s (if short then 4 else 3) true = u at reported clock flag ⊢
  obtain ⟨leaves, time, freq⟩ := holdover_leaves u
  obtain ⟨lock, held⟩ := bit_holdover u
  have all := (reported.mono (l' := clockRegs) (by decide) (List.Subset.refl _)).trans leaves
  have before : u.mls.time = s.mls.time := (congrArg Mls.time clock :)
  have corrs : u.mls.corrs = s.mls.corrs := (congrArg Mls.corrs clock :)
  dsimp only
  rw [getR_settle, getR_settle, settle_mls, time, before, freq, corrs, bit_holdover_other u low.1 low.2.1 low.2.2]
  exact ⟨⟨lock, held, all.settle.program, rfl, all.settle.csr, rfl⟩, flag⟩

theorem refReversed_reports (s : State) : let t := settle (refReversed s)
    SameProgram s t ∧ SameRegistersBut clockRegs s t ∧ getR t aMlsStatus = setBit (getR s aMlsStatus) 2 (!bit (getR s aMlsStatus) 2) := by
  have leaves := (leaves_setRef s 2 (!bit (getR s aMlsStatus) 2)).mono (l' := clockRegs) (by decide) (List.Subset.refl _)
  refine ⟨leaves.settle.program, leaves.settle.csr, (getR_settle _ _).trans (getR_setRef_changes ?_)⟩
  exact fun same => Bool.not_ne_self _ same.symm

/-- Settles O44: reads capture, MLS_CTL steps the time, an accepted edge corrects it, and the alarms of the reference and of
the counters are reported. -/
theorem milestoneTime : Obligations.MilestoneTime := by
  unfold Obligations.MilestoneTime
  refine fun s c => ⟨mlsTimeLo_captures, mlsLstamp_captures, fun h => ⟨stepTime_steps h, steppps_waits h,
    fun bad i hi => ?_, acq_starts h⟩, fun up width => ⟨fun rejected => ?_, fun fits near => ?_⟩,
    fun up => ⟨⟨_, exec_whenUp up rfl, ppsHoldover_holds⟩, ⟨_, exec_whenUp up rfl, refReversed_reports s⟩,
      fun short => ⟨_, exec_whenUp (f := fun s => refLost s short) up rfl, refLost_holds s short⟩, ?_⟩⟩
  · simp only [List.mem_cons, List.not_mem_nil, or_false] at hi
    rcases hi with rfl | rfl
    · exact mlsRequest_refused h bad (m := 1) rfl rfl
    · exact mlsRequest_refused h bad (m := 2) rfl rfl
  · refine (exec_whenUp (f := fun s => ppsEdge s width.toNat) up rfl).trans ?_
    have refused : ¬ edgeOk s width.toNat = true := fun ok => rejected ((edgeOk_iff s _).1 ok)
    rw [ppsEdge, if_neg refused]
  · obtain ⟨leaves, effects⟩ := ppsEdge_accepted ((edgeOk_iff s width.toNat).2 ⟨fits, near⟩)
    refine ⟨_, exec_whenUp (f := fun s => ppsEdge s width.toNat) up rfl, leaves.settle.program, leaves.settle.csr, ?_⟩
    beta_reduce
    rw [getR_settle, getR_settle, getR_settle, getR_settle, settle_mls]
    exact effects
  · obtain ⟨memory, time, status, good⟩ := counterDifference_leaves s
    refine ⟨_, exec_whenUp (f := counterDifference) up rfl, fun a => (rdB_settle _ a).trans (memory a), ?_, ?_, ?_⟩
    · rw [settle_mls, time]
    · exact (getR_settle _ _).trans status
    · rw [settle_mls, good]

end Sys2Proof.Machine
end

section
/-! SUPPORT. Runs of word writes in the stele, as the ledger makes them (spec/12 R299, spec/08 R222, R225). -/

namespace Sys2Proof.Machine

/-! ### The relation -/

/-- Registers, other than those of the rows, that word writes of the stele count in. -/
def wearRegs : List Nat := [aStlSlow, aStlRowlast, aStlWrfail] ++ eventRegs 10

/-- Only the words at the addresses `ws` are written: of the milestone island the stamp queue changes, and what waits for the
stele still waits. -/
structure Inscribes (ws : List Nat) (s t : State) : Prop where
  contexts : SameContexts s t
  bytes : ∀ b, (∀ w ∈ ws, b < w ∨ w + 8 ≤ b) → rdB t b = rdB s b
  mls : ∃ q h g, t.mls = { s.mls with sq := q, sqHigh := h, gap := g }
  late : t.stl.late = s.stl.late
  csr : ∀ a, a ∉ wearRegs → (∀ w ∈ ws, a ≠ aStlRow + 4 * ((w - steleBase) / 256)) → getR t a = getR s a

theorem Inscribes.refl (ws : List Nat) (s : State) : Inscribes ws s s :=
  ⟨fun _ => rfl, fun _ _ => rfl, ⟨_, _, _, rfl⟩, rfl, fun _ _ _ => rfl⟩

theorem Inscribes.trans {ws : List Nat} {s t u : State} (h : Inscribes ws s t) (g : Inscribes ws t u) : Inscribes ws s u where
  contexts w := (g.contexts w).trans (h.contexts w)
  bytes b hb := (g.bytes b hb).trans (h.bytes b hb)
  mls := by
    obtain ⟨_, _, _, e⟩ := h.mls
    obtain ⟨_, _, _, e'⟩ := g.mls
    exact ⟨_, _, _, e'.trans (by rw [e])⟩
  late := g.late.trans h.late
  csr a ha hw := (g.csr a ha hw).trans (h.csr a ha hw)

theorem Inscribes.mono {ws ws' : List Nat} {s t : State} (h : Inscribes ws s t) (sub : ws ⊆ ws') : Inscribes ws' s t :=
  { h with
    bytes := fun b hb => h.bytes b fun w hw => hb w (sub hw)
    csr := fun a ha hw => h.csr a ha fun w hm => hw w (sub hm) }

theorem Signals.inscribes {ws l ns : List Nat} {s t : State} (h : Signals l ns s t)
    (hl : ∀ a ∈ l, a ∈ wearRegs ∨ ∃ w ∈ ws, a = aStlRow + 4 * ((w - steleBase) / 256)) : Inscribes ws s t where
  contexts := h.sameContexts
  bytes b _ := h.sameMemory b
  mls := h.mls
  late := by rw [h.stl]
  csr a ha hw := h.csr a fun m => (hl a m).elim ha fun ⟨w, hm, e⟩ => hw w hm e

theorem slowRegs_wear (w a : Nat) (h : a ∈ slowRegs ((w - steleBase) / 256)) :
    a ∈ wearRegs ∨ ∃ v ∈ [w], a = aStlRow + 4 * ((v - steleBase) / 256) := by
  rcases List.mem_append.1 h with low | event
  · simp only [List.mem_cons, List.not_mem_nil, or_false] at low
    rcases low with rfl | rfl | rfl
    · exact .inl (by decide)
    · exact .inr ⟨w, List.mem_singleton_self w, rfl⟩
    · exact .inl (by decide)
  · exact .inl (List.mem_append_right _ event)

/-! ### One word -/

theorem inscribes_steleWord (s : State) (w v k : Nat) : Inscribes [w] s (steleWord s w v k).1 := by
  have slow := (signals_slowWrite s w k).inscribes (slowRegs_wear w)
  have mark : Inscribes [w] (slowWrite s w k) (rewritten (slowWrite s w k) w) :=
    ⟨fun u => by cases u <;> rfl, fun _ _ => rfl, ⟨_, _, _, rfl⟩, rfl, fun _ _ _ => rfl⟩
  have written := wordWritten_steleWord s w v k
  refine (slow.trans mark).trans ?_
  generalize rewritten (slowWrite s w k) w = u at written
  obtain ⟨m, e, c, d, rest⟩ := written.rest
  refine ⟨written.sameContexts, fun b hb => written.bytes b (hb w (List.mem_singleton_self w)), ?_, ?_, fun a ha _ =>
    written.csr a fun m => ha (by rw [List.mem_singleton.1 m]; decide)⟩
  · rw [rest]
    exact ⟨_, _, _, rfl⟩
  · rw [rest]

theorem steleWord_ok (s : State) (w v k : Nat) : (steleWord s w v k).2 = decide (k ≤ 4) := by
  unfold steleWord
  dsimp only
  split
  · rename_i more
    exact (decide_eq_false (Nat.not_le.2 more)).symm
  · rename_i few
    exact (decide_eq_true (Nat.not_lt.1 few)).symm

/-- A verified write reads back. -/
theorem rdN_steleWord (s : State) (w v : Nat) {k : Nat} (h : k ≤ 4) : rdN (steleWord s w v k).1 w 8 = v % 2 ^ 64 := by
  have word : ∀ u : State, rdN (setEcc (wrN u w 8 v) w 0) w 8 = v % 256 ^ 8 := fun u =>
    (rdN_of_mem (fun b => rdB_congr (setEcc_mem _ _ _) b) w 8).trans (rdN_wrN u w 8 v)
  unfold steleWord
  rw [if_neg (Nat.not_lt.2 h)]
  exact word _

/-- A write without retries leaves the milestone island and the registers. -/
theorem steleWord_quiet (s : State) (w v : Nat) : (steleWord s w v 0).1.mls = s.mls ∧ SameRegisters s (steleWord s w v 0).1 := by
  refine ⟨?_, steleWord_registers w v⟩
  have unslow : slowWrite s w 0 = s := if_pos rfl
  unfold steleWord
  rw [unslow, if_neg (by decide)]
  obtain ⟨m, e⟩ := wrN_rest (rewritten s w) w 8 v
  dsimp only
  rw [e]
  rfl

/-- STL_WRFAIL counts the failed writes (R299). -/
theorem wrfail_of_steleWord (s : State) (w v : Nat) {k : Nat} (h : k ≤ 5) : fld (getR (steleWord s w v k).1 aStlWrfail) 16 16 =
    if k ≤ 4 then fld (getR s aStlWrfail) 16 16 else satAdd 65535 (fld (getR s aStlWrfail) 16 16) 1 := by
  by_cases few : k ≤ 4
  · have kept : getR (steleWord s w v k).1 aStlWrfail = getR (rewritten (slowWrite s w k) w) aStlWrfail := by
      unfold steleWord
      generalize rewritten (slowWrite s w k) w = u
      rw [if_neg (Nat.not_lt.2 few)]
      obtain ⟨m, e⟩ := wrN_rest u w 8 v
      dsimp only
      rw [e]
      rfl
    rw [if_pos few, kept, getR_rewritten, (signals_slowWrite s w k).csr _ (wrfail_not_slow _)]
  · obtain rfl : k = 5 := by omega
    rw [if_neg few, (wrfail_steleWord s w v).1]

/-! ### Words in order -/

theorem rdN_of_bytes {s t : State} {a n : Nat} (h : ∀ i, i < n → rdB t (a + i) = rdB s (a + i)) : rdN t a n = rdN s a n := by
  induction n generalizing a with
  | zero => rfl
  | succ n ih =>
    have first : rdB t a = rdB s a := h 0 (Nat.zero_lt_succ n)
    have rest := ih (a := a + 1) fun i hi => by
      rw [Nat.add_assoc, Nat.add_comm 1 i]
      exact h (i + 1) (Nat.succ_lt_succ hi)
    rw [rdN, rdN, first, rest]

theorem rdB_of_rdN_zero {s : State} {a n : Nat} (h : rdN s a n = 0) {i : Nat} (hi : i < n) : rdB s (a + i) = 0 := by
  induction n generalizing a i with
  | zero => exact absurd hi (Nat.not_lt_zero i)
  | succ n ih =>
    rw [rdN] at h
    have rest : rdN s (a + 1) n = 0 := by omega
    cases i with
    | zero => exact BitVec.eq_of_toNat_eq (show (rdB s a).toNat = 0 by omega)
    | succ i =>
      rw [← Nat.add_assoc, Nat.add_right_comm]
      exact ih rest (Nat.lt_of_succ_lt_succ hi)

theorem inscribes_steleSeq (ws : List (Nat × Nat)) (ts : List Nat) (s : State) : Inscribes (ws.map (·.1)) s (steleSeq ws ts s).1 := by
  induction ws generalizing ts s with
  | nil => exact .refl _ _
  | cons p r ih =>
    obtain ⟨w, v⟩ := p
    have first : Inscribes (((w, v) :: r).map (·.1)) s (steleWord s w v (ts.headD 0)).1 :=
      (inscribes_steleWord s w v (ts.headD 0)).mono (List.cons_subset_cons _ (List.nil_subset _))
    rw [steleSeq]
    dsimp only
    split
    · exact first.trans ((ih ts.tail _).mono (List.subset_cons_self _ _))
    · exact first

theorem steleSeq_ok (ws : List (Nat × Nat)) (ts : List Nat) (s : State) (h : ws.length = ts.length) :
    (steleSeq ws ts s).2 = ts.all (fun k => decide (k ≤ 4)) := by
  induction ws generalizing ts s with
  | nil => rw [List.length_eq_zero_iff.1 h.symm]; rfl
  | cons p r ih =>
    obtain ⟨w, v⟩ := p
    cases ts with
    | nil => cases h
    | cons k ts =>
      rw [steleSeq, List.all_cons]
      dsimp only
      rw [steleWord_ok, List.headD_cons, List.tail_cons]
      by_cases few : k ≤ 4
      · rw [decide_eq_true few, if_pos rfl, Bool.true_and]
        exact ih ts _ (Nat.succ.inj h)
      · rw [decide_eq_false few, if_neg (by decide), Bool.false_and]

/-- The words of a run that is verified read back. -/
theorem rdN_steleSeq (ws : List (Nat × Nat)) (ts : List Nat) (s : State) (apart : ws.Pairwise (fun p q => p.1 + 8 ≤ q.1))
    (h : ∀ k ∈ ts, k ≤ 4) : ∀ p ∈ ws, rdN (steleSeq ws ts s).1 p.1 8 = p.2 % 2 ^ 64 := by
  induction ws generalizing ts s with
  | nil => exact fun _ hp => absurd hp List.not_mem_nil
  | cons p r ih =>
    obtain ⟨w, v⟩ := p
    have few : ts.headD 0 ≤ 4 := by
      cases ts with
      | nil => exact Nat.zero_le _
      | cons k _ => exact h k List.mem_cons_self
    obtain ⟨ahead, rest⟩ := List.pairwise_cons.1 apart
    rw [steleSeq]
    dsimp only
    rw [steleWord_ok, decide_eq_true few, if_pos rfl]
    intro q hq
    rcases List.mem_cons.1 hq with rfl | hq
    · have later := inscribes_steleSeq r ts.tail (steleWord s w v (ts.headD 0)).1
      have kept : ∀ i, i < 8 → rdB (steleSeq r ts.tail (steleWord s w v (ts.headD 0)).1).1 (w + i) =
          rdB (steleWord s w v (ts.headD 0)).1 (w + i) := fun i hi => later.bytes _ fun x hx => by
        obtain ⟨q, hq, rfl⟩ := List.mem_map.1 hx
        have := ahead q hq
        dsimp only at this
        omega
      exact (rdN_of_bytes kept).trans (rdN_steleWord s w v few)
    · exact ih ts.tail _ rest (fun k hk => h k (List.mem_of_mem_tail hk)) q hq

theorem steleSeq_quiet (ws : List (Nat × Nat)) (ts : List Nat) (s : State) (h : ∀ k ∈ ts, k = 0) :
    (steleSeq ws ts s).1.mls = s.mls ∧ SameRegisters s (steleSeq ws ts s).1 := by
  induction ws generalizing ts s with
  | nil => exact ⟨rfl, fun _ => rfl⟩
  | cons p r ih =>
    obtain ⟨w, v⟩ := p
    have none : ts.headD 0 = 0 := by
      cases ts with
      | nil => rfl
      | cons k _ => exact h k List.mem_cons_self
    obtain ⟨mls, regs⟩ := steleWord_quiet s w v
    obtain ⟨mls', regs'⟩ := ih ts.tail (steleWord s w v 0).1 (fun k hk => h k (List.mem_of_mem_tail hk))
    rw [steleSeq, none]
    dsimp only
    rw [steleWord_ok, if_pos (by decide)]
    exact ⟨mls'.trans mls, fun a => (regs' a).trans (regs a)⟩

end Sys2Proof.Machine
end

section
/-! SUPPORT. The ledger writer, its clear, its search and software records (spec/08 R221 to R225), and the statement on them. -/

namespace Sys2Proof.Machine

/-! ### A record -/

/-- The head moves on to the next slot (R225). -/
theorem signals_nextSlot (s : State) : Signals (eventRegs 28) [28, 7, 27] (modMls s (fun m => { m with lhead := (s.mls.lhead + 1) % 2048 }))
    (nextSlot s) := by
  unfold nextSlot
  dsimp only
  split
  · exact signals_trigger _ 28
  · exact .refl ..

theorem flushLate_idle {s : State} (h : s.stl.late = []) : flushLate s = s := by
  unfold flushLate
  split
  · rfl
  · rw [h, List.length_nil, flushSome]

/-- The words of the record for entry `e` (R222). -/
def recordWords (s : State) (e : Stamp) : List (Nat × Nat) :=
  let a := ledgerAddr s.mls.lhead
  let h := recordHead s.mls.lseq e
  [(a, e.time.toNat), (a + 8, h), (a + 16, e.data.toNat), (a + 24, chainOf s.mls.lchain.toNat e.time.toNat h e.data.toNat)]

/-- State `s` as the writer has taken the front entry of the stamp queue, which leaves `r`. -/
def recording (s : State) (r : List Stamp) : State := tookTurn (modMls s (fun m => { m with sq := r })) false

/-- What the writer does after the words of a record (R222, R223). -/
def recorded (t : State) (ok : Bool) (chain : Nat) : State :=
  if ok then nextSlot (modMls t (fun m => { m with lseq := (m.lseq + 1) % 2 ^ 32, lchain := BitVec.ofNat 64 chain }))
  else nextSlot (orR t aMlsLstat 0x20000000#32)

theorem recorded_mls (t : State) (ok : Bool) (chain : Nat) : ∃ q h g, (recorded t ok chain).mls = { t.mls with
    sq := q, sqHigh := h, gap := g, lhead := (t.mls.lhead + 1) % 2048,
    lseq := if ok then (t.mls.lseq + 1) % 2 ^ 32 else t.mls.lseq, lchain := if ok then BitVec.ofNat 64 chain else t.mls.lchain } := by
  unfold recorded
  cases ok
  · obtain ⟨q, h, g, e⟩ := (signals_nextSlot (orR t aMlsLstat 0x20000000#32)).mls
    exact ⟨q, h, g, e⟩
  · obtain ⟨q, h, g, e⟩ := (signals_nextSlot (modMls t (fun m => { m with
      lseq := (m.lseq + 1) % 2 ^ 32, lchain := BitVec.ofNat 64 chain }))).mls
    exact ⟨q, h, g, e⟩

theorem recorded_program (t : State) (ok : Bool) (chain : Nat) : SameProgram t (recorded t ok chain) ∧
    (recorded t ok chain).stl = t.stl := by
  unfold recorded
  split
  · have slot := signals_nextSlot (modMls t (fun m => { m with lseq := (m.lseq + 1) % 2 ^ 32, lchain := BitVec.ofNat 64 chain }))
    have before := leaves_modMls t (fun m => { m with lseq := (m.lseq + 1) % 2 ^ 32, lchain := BitVec.ofNat 64 chain })
    exact ⟨⟨fun a => (slot.sameMemory a).trans (before.program.1 a), fun w => (slot.sameContexts w).trans (by cases w <;> rfl)⟩, slot.stl⟩
  · have slot := signals_nextSlot (orR t aMlsLstat 0x20000000#32)
    exact ⟨⟨slot.sameMemory, fun w => (slot.sameContexts w).trans (by cases w <;> rfl)⟩, slot.stl⟩

/-- State `s` once the writer has written the record of `e`, with `ts` the retries of its words. -/
def afterRecord (s : State) (e : Stamp) (r : List Stamp) (ts : List Nat) : State :=
  recorded (steleSeq (recordWords s e) ts (recording s r)).1 (steleSeq (recordWords s e) ts (recording s r)).2
    (chainOf s.mls.lchain.toNat e.time.toNat (recordHead s.mls.lseq e) e.data.toNat)

theorem ledgerWrite_eq {s : State} {e : Stamp} {r : List Stamp} (queue : s.mls.sq = e :: r) (open_ : bit (getR s aMlsLctl) 0 = false)
    (turn : mayLedger s = true) (free : ledgerHeld s = false) (late : s.stl.late = []) (tries : List Nat) :
    ledgerWrite s tries = afterRecord s e r tries := by
  unfold ledgerWrite
  rw [queue]
  have runs : (ledgerClearing s || !mayLedger s || ledgerHeld s) = false := by rw [ledgerClearing, open_, turn, free]; rfl
  dsimp only
  rw [if_neg (by rw [runs]; decide)]
  refine flushLate_idle ?_
  change (recorded (steleSeq (recordWords s e) tries (recording s r)).1 (steleSeq (recordWords s e) tries (recording s r)).2
    (chainOf s.mls.lchain.toNat e.time.toNat (recordHead s.mls.lseq e) e.data.toNat)).stl.late = []
  rw [(recorded_program _ _ _).2, (inscribes_steleSeq _ _ _).late]
  exact late

/-- What the words of a record and the move of the head leave, whether or not a word fails. -/
theorem recorded_leaves (u : State) (ws : List (Nat × Nat)) (ts : List Nat) (chain : Nat) :
    let t := recorded (steleSeq ws ts u).1 (steleSeq ws ts u).2 chain
    t.mls.lhead = (u.mls.lhead + 1) % 2048 ∧ SameContexts u t ∧
      ∀ b, (∀ w ∈ ws.map (·.1), b < w ∨ w + 8 ≤ b) → rdB t b = rdB u b := by
  have words := inscribes_steleSeq ws ts u
  generalize steleSeq ws ts u = p at words ⊢
  obtain ⟨q, h, g, e⟩ := recorded_mls p.1 p.2 chain
  obtain ⟨program, -⟩ := recorded_program p.1 p.2 chain
  have head : p.1.mls.lhead = u.mls.lhead := by
    obtain ⟨_, _, _, e'⟩ := words.mls
    rw [e']
  refine ⟨?_, fun w => (program.2 w).trans (words.contexts w), fun b hb => (program.1 b).trans (words.bytes b hb)⟩
  rw [← head]
  exact (congrArg Mls.lhead e :)

theorem recording_program (s : State) (r : List Stamp) : SameProgram s (recording s r) := ⟨fun _ => rfl, fun w => by cases w <;> rfl⟩

theorem exec_ledgerRecordWrite {s : State} (up : s.up = true) (tries : Vector (Fin 6) 4) :
    exec (.ledgerRecordWrite tries) s = .next (settle (ledgerWrite s (tries.toList.map (·.val)))) := by
  have ran : exec (.ledgerRecordWrite tries) s = execLedgerRecordWrite tries s := rfl
  rw [ran, execLedgerRecordWrite, whenUp, if_pos up]
  rfl

/-- The record write, whatever retries its words need (R222, R223). -/
theorem afterRecord_leaves (s : State) (e : Stamp) (r : List Stamp) (ts : List Nat) :
    let a := 0x20009400 + 32 * s.mls.lhead
    let t := settle (afterRecord s e r ts)
    t.mls.lhead = (s.mls.lhead + 1) % 2048 ∧ SameContexts s t ∧ ∀ b, b < a ∨ a + 32 ≤ b → rdB t b = rdB s b := by
  obtain ⟨head, contexts, bytes⟩ := recorded_leaves (recording s r) (recordWords s e) ts
    (chainOf s.mls.lchain.toNat e.time.toNat (recordHead s.mls.lseq e) e.data.toNat)
  have program := recording_program s r
  refine ⟨?_, fun w => (seen_settle _ w).trans ((contexts w).trans (program.2 w)), fun b hb => ?_⟩
  · rw [settle_mls]
    exact head
  · refine (rdB_settle _ b).trans ((bytes b fun w hw => ?_).trans (program.1 b))
    simp only [recordWords, ledgerAddr, List.map_cons, List.map_nil, List.mem_cons, List.not_mem_nil, or_false] at hw
    omega

theorem recordWords_apart (s : State) (e : Stamp) : (recordWords s e).Pairwise (fun p q => p.1 + 8 ≤ q.1) := by
  simp [recordWords]

theorem fewTries {tries : Vector (Fin 6) 4} : ((tries.toList.map (·.val)).all (fun k => decide (k ≤ 4)) = true) ↔
    ∀ x ∈ tries.toList, x ≠ 5 := by
  rw [List.all_eq_true]
  simp only [List.mem_map, forall_exists_index, and_imp, forall_apply_eq_imp_iff₂, decide_eq_true_iff]
  refine forall₂_congr fun x _ => ?_
  have := x.isLt
  rw [ne_eq, Fin.ext_iff]
  exact ⟨fun h e => by simp [e] at h, fun h => by have : x.val ≠ 5 := h; omega⟩

/-! ### Clearing -/

/-- A word that the clear writes (R225). -/
def clearAccess (i : Nat) : SAcc := ⟨ledgerAddr 0 + 8 * i, 8, true, false, 0⟩

theorem steleLater_word (s : State) (i : Nat) : ∃ k, k ≤ 5 ∧
    steleLater s (clearAccess i) = (steleWord { s with draws := s.draws + 1 } (ledgerAddr 0 + 8 * i) 0 k).1 := by
  refine ⟨(Config.freeDWord s.draws).toNat % 6, by omega, ?_⟩
  have aligned : (ledgerAddr 0 + 8 * i) / 8 * 8 = ledgerAddr 0 + 8 * i := by
    rw [ledgerAddr]
    omega
  unfold steleLater steleStore clearAccess
  dsimp only [freeD]
  rw [aligned, if_pos rfl]

theorem inscribes_clearAccess (s : State) (i : Nat) : Inscribes [ledgerAddr 0 + 8 * i] s (steleLater s (clearAccess i)) := by
  obtain ⟨k, -, e⟩ := steleLater_word s i
  rw [e]
  have drawn : Inscribes [ledgerAddr 0 + 8 * i] s { s with draws := s.draws + 1 } :=
    ⟨fun w => by cases w <;> rfl, fun _ _ => rfl, ⟨_, _, _, rfl⟩, rfl, fun _ _ _ => rfl⟩
  exact drawn.trans (inscribes_steleWord _ _ _ _)

theorem inscribes_clear (l : List Nat) (s : State) :
    Inscribes (l.map (fun i => ledgerAddr 0 + 8 * i)) s ((l.map clearAccess).foldl steleLater s) := by
  induction l generalizing s with
  | nil => exact .refl _ _
  | cons i r ih =>
    rw [List.map_cons, List.map_cons, List.foldl_cons]
    exact ((inscribes_clearAccess s i).mono (List.cons_subset_cons _ (List.nil_subset _))).trans
      ((ih _).mono (List.subset_cons_self _ _))

/-- Number of failed writes that STL_WRFAIL counts. -/
def failures (s : State) : Nat := fld (getR s aStlWrfail) 16 16

/-- A write of the clear that does not fail leaves zeros; one that does is counted. -/
theorem clearAccess_result (s : State) (i : Nat) : let t := steleLater s (clearAccess i)
    (failures t = failures s ∧ ∀ j, j < 8 → rdB t (ledgerAddr 0 + 8 * i + j) = 0) ∨ failures t = satAdd 65535 (failures s) 1 := by
  obtain ⟨k, hk, e⟩ := steleLater_word s i
  have count := wrfail_of_steleWord { s with draws := s.draws + 1 } (ledgerAddr 0 + 8 * i) 0 hk
  dsimp only
  rw [e]
  by_cases few : k ≤ 4
  · left
    rw [if_pos few] at count
    have zero := rdN_steleWord { s with draws := s.draws + 1 } (ledgerAddr 0 + 8 * i) 0 few
    refine ⟨count, fun j hj => ?_⟩
    have byte := rdB_of_rdN_zero (zero.trans rfl) hj
    exact byte
  · right
    rw [if_neg few] at count
    exact count

/-- A clear after which no failure is counted leaves zeros (R225). -/
theorem clear_zero (l : List Nat) (s : State) (apart : l.Nodup) : let t := (l.map clearAccess).foldl steleLater s
    failures s ≤ failures t ∧ (failures t = failures s → failures s < 65535 →
      ∀ i ∈ l, ∀ j, j < 8 → rdB t (ledgerAddr 0 + 8 * i + j) = 0) := by
  induction l generalizing s with
  | nil => exact ⟨le_rfl, fun _ _ i hi => absurd hi List.not_mem_nil⟩
  | cons i r ih =>
    obtain ⟨fresh, rest⟩ := List.nodup_cons.1 apart
    obtain ⟨more, zeros⟩ := ih (steleLater s (clearAccess i)) rest
    have small : failures s < 65536 := Nat.mod_lt _ (by decide)
    have later := inscribes_clear r (steleLater s (clearAccess i))
    dsimp only
    rw [List.map_cons, List.foldl_cons]
    rcases clearAccess_result s i with ⟨same, zero⟩ | failed
    · refine ⟨same ▸ more, fun total room x hx j hj => ?_⟩
      rcases List.mem_cons.1 hx with rfl | hx
      · refine (later.bytes _ fun w hw => ?_).trans (zero j hj)
        obtain ⟨y, hy, rfl⟩ := List.mem_map.1 hw
        have : y ≠ x := fun e => fresh (e ▸ hy)
        omega
      · exact zeros (total.trans same.symm) (same.symm ▸ room) x hx j hj
    · unfold satAdd at failed
      refine ⟨by split at failed <;> omega, fun total room => ?_⟩
      rw [if_pos (by omega)] at failed
      omega

/-! ### The clauses on records -/

theorem tries_length (tries : Vector (Fin 6) 4) (s : State) (e : Stamp) :
    (recordWords s e).length = (tries.toList.map (·.val)).length := by
  rw [List.length_map, Vector.length_toList]
  rfl

/-- A record whose words are all verified. -/
theorem afterRecord_good (s : State) (e : Stamp) (r : List Stamp) {tries : Vector (Fin 6) 4} (few : ∀ x ∈ tries.toList, x ≠ 5) :
    let t := settle (afterRecord s e r (tries.toList.map (·.val)))
    let chain := chainOf s.mls.lchain.toNat e.time.toNat (recordHead s.mls.lseq e) e.data.toNat
    t.mls.lseq = (s.mls.lseq + 1) % 2 ^ 32 ∧ t.mls.lchain = BitVec.ofNat 64 chain ∧
      (∀ p ∈ recordWords s e, rdN t p.1 8 = p.2 % 2 ^ 64) ∧
      ((∀ x ∈ tries.toList, x = 0) → s.mls.lhead ≠ 2047 → t.mls.sq = r ∧ SameRegisters s t) := by
  have ok := (steleSeq_ok (recordWords s e) (tries.toList.map (·.val)) (recording s r) (tries_length tries s e)).trans
    (fewTries.2 few)
  have words := inscribes_steleSeq (recordWords s e) (tries.toList.map (·.val)) (recording s r)
  have read := rdN_steleSeq (recordWords s e) (tries.toList.map (·.val)) (recording s r) (recordWords_apart s e) (fun k hk =>
    of_decide_eq_true (List.all_eq_true.1 (fewTries.2 few) k hk))
  have quiet := steleSeq_quiet (recordWords s e) (tries.toList.map (·.val)) (recording s r)
  have seq : (recording s r).mls.lseq = s.mls.lseq := rfl
  unfold afterRecord
  generalize chainOf s.mls.lchain.toNat e.time.toNat (recordHead s.mls.lseq e) e.data.toNat = chain
  generalize steleSeq (recordWords s e) (tries.toList.map (·.val)) (recording s r) = q at ok words read quiet ⊢
  obtain ⟨_, _, _, mls⟩ := recorded_mls q.1 q.2 chain
  obtain ⟨program, -⟩ := recorded_program q.1 q.2 chain
  obtain ⟨_, _, _, before⟩ := words.mls
  rw [ok] at mls
  refine ⟨?_, ?_, fun p hp => ?_, fun clean head => ?_⟩
  · rw [settle_mls, ok, (congrArg Mls.lseq mls :), if_pos rfl, (congrArg Mls.lseq before :)]
    rfl
  · rw [settle_mls, ok, (congrArg Mls.lchain mls :)]
    rfl
  · exact (rdN_of_mem (fun b => (rdB_settle _ b).trans (program.1 b)) p.1 8).trans (read p hp)
  · obtain ⟨still, regs⟩ := quiet (fun k hk => by
      obtain ⟨x, hx, rfl⟩ := List.mem_map.1 hk
      rw [clean x hx]
      rfl)
    have slot : nextSlot (modMls q.1 (fun m => { m with lseq := (m.lseq + 1) % 2 ^ 32, lchain := BitVec.ofNat 64 chain })) =
        modMls (modMls q.1 (fun m => { m with lseq := (m.lseq + 1) % 2 ^ 32, lchain := BitVec.ofNat 64 chain }))
          (fun m => { m with lhead := (q.1.mls.lhead + 1) % 2048 }) := if_neg (by
        change ¬ q.1.mls.lhead = 2047
        rw [still]
        exact head)
    rw [recorded, ok, if_pos rfl, slot]
    refine ⟨?_, fun a => (getR_settle _ a).trans (regs a)⟩
    rw [settle_mls]
    exact (congrArg Mls.sq still :)

/-- A record that a failed word ends (R223). -/
theorem afterRecord_failed (s : State) (e : Stamp) (r : List Stamp) {tries : Vector (Fin 6) 4} (failed : ∃ x ∈ tries.toList, x = 5) :
    let t := settle (afterRecord s e r (tries.toList.map (·.val)))
    t.mls.lseq = s.mls.lseq ∧ t.mls.lchain = s.mls.lchain ∧ bit (getR t aMlsLstat) 29 = true := by
  have bad : ¬ (tries.toList.map (·.val)).all (fun k => decide (k ≤ 4)) = true := fun all => by
    obtain ⟨x, hx, five⟩ := failed
    exact fewTries.1 all x hx five
  have ok := (steleSeq_ok (recordWords s e) (tries.toList.map (·.val)) (recording s r) (tries_length tries s e)).trans
    (Bool.eq_false_iff.2 bad)
  have words := inscribes_steleSeq (recordWords s e) (tries.toList.map (·.val)) (recording s r)
  unfold afterRecord
  generalize chainOf s.mls.lchain.toNat e.time.toNat (recordHead s.mls.lseq e) e.data.toNat = chain
  generalize steleSeq (recordWords s e) (tries.toList.map (·.val)) (recording s r) = q at ok words ⊢
  obtain ⟨_, _, _, mls⟩ := recorded_mls q.1 q.2 chain
  obtain ⟨_, _, _, before⟩ := words.mls
  rw [ok] at mls
  refine ⟨?_, ?_, ?_⟩
  · rw [settle_mls, ok, (congrArg Mls.lseq mls :), if_neg (by decide), (congrArg Mls.lseq before :)]
    rfl
  · rw [settle_mls, ok, (congrArg Mls.lchain mls :), if_neg (by decide), (congrArg Mls.lchain before :)]
    rfl
  · rw [getR_settle, recorded, ok, if_neg (by decide), (signals_nextSlot _).csr _ (by decide)]
    change bit (getR (orR q.1 aMlsLstat 0x20000000#32) aMlsLstat) 29 = true
    rw [getR_orR, if_pos rfl, bit_or]
    exact Bool.or_eq_true_iff.2 (.inr (by decide))

/-! ### INIT and the clear -/

theorem initLedger_sets {s : State} {c : BitVec 10} (h : MayAccess s c 0) : ∃ t, exec (.initLedger c) s = .next t ∧ SameProgram s t ∧
    SameRegistersBut [aMlsLctl] s t ∧ getR t aMlsLctl = getR s aMlsLctl ||| 1 := by
  have wrote := writeAs_of_mayAccess (v := 1) h (csrDenied_of_ring_le s _ (a := aMlsLctl) rfl
    (h.2.1.trans (Nat.zero_le _)) (by decide)) rfl (acked_of_no_stores s c (by decide)) (by decide)
  have set := (onlyRegisters_orR s aMlsLctl 1)
  refine ⟨_, congrArg occurs (wrote.trans rfl), set.settle_program, set.settle_registers, (getR_settle _ _).trans ?_⟩
  change getR (orR s aMlsLctl 1) aMlsLctl = _
  rw [getR_orR, if_pos rfl]

theorem exec_ledgerClearDone {s : State} (up : s.up = true) (clearing : bit (getR s aMlsLctl) 0 = true) (turn : mayLedger s = true)
    (free : ledgerHeld s = false) : exec .ledgerClearDone s =
      .next (settle (clearWords s (if (keystoneNext s).isSome then 1 else 8192 - s.mls.cleared))) := by
  have runs : (ledgerClearing s && mayLedger s && !ledgerHeld s) = true := by rw [ledgerClearing, clearing, turn, free]; rfl
  refine (exec_whenUp (f := ledgerClearDone) up rfl).trans ?_
  rw [ledgerClearDone, if_pos runs]

/-- One word of the clear, while the Keystone waits. -/
theorem clearWords_one {s : State} (more : s.mls.cleared < 8191) :
    clearWords s 1 = modMls (steleLater (tookTurn s false) (clearAccess s.mls.cleared)) (fun m => { m with cleared := s.mls.cleared + 1 }) := by
  unfold clearWords
  dsimp only
  rw [if_pos (by omega), show min 1 (8192 - s.mls.cleared) = 1 by omega]
  rfl

/-- The last words of the clear. -/
theorem clearWords_last {s : State} (more : s.mls.cleared < 8192) :
    clearWords s (8192 - s.mls.cleared) = modMls (clrR (((List.range' s.mls.cleared (8192 - s.mls.cleared)).map clearAccess).foldl steleLater
      (tookTurn s false)) aMlsLctl 1) (fun m => { m with cleared := 0, lhead := 0, lseq := 1, lchain := 0 }) := by
  unfold clearWords
  dsimp only
  rw [if_neg (by omega), Nat.min_self]
  rfl

theorem sameContexts_tookTurn (s : State) (b : Bool) : SameContexts s (tookTurn s b) := fun w => by cases w <;> rfl

theorem lctl_not_row (i : Nat) : aMlsLctl ≠ aStlRow + 4 * ((ledgerAddr 0 + 8 * i - steleBase) / 256) := by
  simp only [aMlsLctl, aStlRow]
  omega

theorem clear_goes_on {s : State} (up : s.up = true) (clearing : bit (getR s aMlsLctl) 0 = true) (turn : mayLedger s = true)
    (free : ledgerHeld s = false) (waits : (keystoneNext s).isSome = true) (more : s.mls.cleared < 8191) :
    let w := 0x20009400 + 8 * s.mls.cleared
    ∃ t, exec .ledgerClearDone s = .next t ∧ SameContexts s t ∧ bit (getR t aMlsLctl) 0 = true ∧
      t.mls.cleared = s.mls.cleared + 1 ∧ ∀ b, b < w ∨ w + 8 ≤ b → rdB t b = rdB s b := by
  have ran := exec_ledgerClearDone up clearing turn free
  rw [if_pos waits, clearWords_one more] at ran
  have word := inscribes_clearAccess (tookTurn s false) s.mls.cleared
  refine ⟨_, ran, fun w => ?_, ?_, ?_, fun b hb => ?_⟩
  · refine (seen_settle _ w).trans (Eq.trans ?_ ((word.contexts w).trans (sameContexts_tookTurn s false w)))
    cases w <;> rfl
  · rw [getR_settle]
    change bit (getR (steleLater (tookTurn s false) (clearAccess s.mls.cleared)) aMlsLctl) 0 = true
    rw [word.csr _ (by decide) (fun w hw => List.mem_singleton.1 hw ▸ lctl_not_row _)]
    exact clearing
  · rw [settle_mls]
    rfl
  · refine (rdB_settle _ b).trans (word.bytes b fun w hw => ?_)
    rw [List.mem_singleton.1 hw]
    exact hb

theorem clear_ends {s : State} (up : s.up = true) (clearing : bit (getR s aMlsLctl) 0 = true) (turn : mayLedger s = true)
    (free : ledgerHeld s = false) (alone : keystoneNext s = none) (more : s.mls.cleared < 8192) :
    ∃ t, exec .ledgerClearDone s = .next t ∧ SameContexts s t ∧
      bit (getR t aMlsLctl) 0 = false ∧ t.mls.lhead = 0 ∧ t.mls.lseq = 1 ∧ t.mls.lchain = 0 ∧
      (∀ b, b < 0x20009400 + 8 * s.mls.cleared ∨ 0x20019400 ≤ b → rdB t b = rdB s b) ∧
      (∀ a, a ∉ [aMlsLctl, aStlSlow, aStlRowlast, aStlWrfail] ++ eventRegs 10 →
        (a < aStlRow ∨ aStlRow + 4096 ≤ a) → getR t a = getR s a) ∧
      (fld (getR t aStlWrfail) 16 16 = fld (getR s aStlWrfail) 16 16 → fld (getR s aStlWrfail) 16 16 < 65535 →
        ∀ b, 0x20009400 + 8 * s.mls.cleared ≤ b → b < 0x20019400 → rdB t b = 0) := by
  have ran := exec_ledgerClearDone up clearing turn free
  rw [if_neg (by rw [alone]; decide), clearWords_last more] at ran
  have words := inscribes_clear (List.range' s.mls.cleared (8192 - s.mls.cleared)) (tookTurn s false)
  obtain ⟨-, zeros⟩ := clear_zero (List.range' s.mls.cleared (8192 - s.mls.cleared)) (tookTurn s false) List.nodup_range'
  have within : ∀ w ∈ (List.range' s.mls.cleared (8192 - s.mls.cleared)).map (fun i => ledgerAddr 0 + 8 * i),
      0x20009400 + 8 * s.mls.cleared ≤ w ∧ w + 8 ≤ 0x20019400 := fun w hw => by
    obtain ⟨i, hi, rfl⟩ := List.mem_map.1 hw
    have := List.mem_range'_1.1 hi
    simp only [ledgerAddr]
    omega
  generalize ((List.range' s.mls.cleared (8192 - s.mls.cleared)).map clearAccess).foldl steleLater (tookTurn s false) = u
    at ran words zeros
  have regs : ∀ a, getR (settle (modMls (clrR u aMlsLctl 1) (fun m => { m with cleared := 0, lhead := 0, lseq := 1, lchain := 0 }))) a =
      getR (clrR u aMlsLctl 1) a := fun a => getR_settle _ a
  refine ⟨_, ran, fun w => ?_, ?_, ?_, ?_, ?_, fun b hb => ?_, fun a ha row => ?_, fun total room b low high => ?_⟩
  · refine (seen_settle _ w).trans (Eq.trans ?_ ((words.contexts w).trans (sameContexts_tookTurn s false w)))
    cases w <;> rfl
  · rw [regs, getR_clrR, if_pos rfl, bit_and]
    exact Bool.and_eq_false_imp.2 fun _ => by decide
  · rw [settle_mls]
    rfl
  · rw [settle_mls]
    rfl
  · rw [settle_mls]
    rfl
  · refine (rdB_settle _ b).trans (words.bytes b fun w hw => ?_)
    have := within w hw
    omega
  · obtain ⟨other, ha⟩ := not_or.1 (mt List.mem_cons.2 ha)
    rw [regs, getR_clrR, if_neg other]
    refine words.csr a ha fun w hw e => ?_
    have := within w hw
    simp only [steleBase] at e
    omega
  · rw [regs, getR_clrR, if_neg (by decide)] at total
    have zero := zeros total room ((b - 0x20009400) / 8) (List.mem_range'_1.2 (by omega)) ((b - 0x20009400) % 8)
      (Nat.mod_lt _ (by decide))
    rw [show ledgerAddr 0 + 8 * ((b - 0x20009400) / 8) + (b - 0x20009400) % 8 = b by simp only [ledgerAddr]; omega] at zero
    exact (rdB_settle _ b).trans zero

end Sys2Proof.Machine
end

section
/-! SUPPORT. The reset search of the ledger, software records into a full queue, and the statement on the ledger
(spec/08 R221 to R225). -/

namespace Sys2Proof.Machine

/-! ### The reset search -/

/-- Reads of the stele count their findings and leave the rest (R298). -/
theorem onlyRegisters_readWords (s : State) (a n : Nat) : OnlyRegisters [aStlEcc, aStlEccaddr] s (readWords s a n) := by
  have all : ∀ (l : List (Nat × Nat)) (t : State), OnlyRegisters [aStlEcc, aStlEccaddr] t
      (l.foldl (fun t e => steleFinding t e.1 (decide (2 ≤ e.2)) false) t) := fun l => by
    induction l with
    | nil => exact fun t => ⟨⟨_, rfl⟩, fun _ _ => rfl⟩
    | cons e r ih =>
      intro t
      have finds : OnlyRegisters ([aStlEcc] ++ [aStlEccaddr]) t (steleFinding t e.1 (decide (2 ≤ e.2)) false) :=
        (onlyRegisters_bumpR _ _ _ _ _).trans (onlyRegisters_setR _ _ _)
      have both := finds.trans (ih (steleFinding t e.1 (decide (2 ≤ e.2)) false))
      exact ⟨both.rest, fun b hb => both.but b fun h => hb ((List.mem_append.1 h).elim id id)⟩
  exact all _ s

/-- State `t` of the search's registers with the writer's place set. -/
theorem leaves_placed {l : List Nat} {s t : State} (h : OnlyRegisters l s t) (f : Mls → Mls) :
    SameProgram s (settle (modMls t f)) ∧ SameRegistersBut l s (settle (modMls t f)) ∧ (settle (modMls t f)).mls = f s.mls := by
  obtain ⟨m, e⟩ := h.rest
  refine ⟨⟨fun a => (rdB_settle _ a).trans ?_, fun w => (seen_settle _ w).trans ?_⟩, fun a ha => (getR_settle _ a).trans (h.but a ha), ?_⟩
  · rw [e]
    rfl
  · rw [e]
    cases w <;> rfl
  · rw [settle_mls, e]
    rfl

/-- State `s` as the search has read the ledger and set READY. -/
def searched (s : State) : State := orR (readWords s (ledgerAddr 0) 8192) aMlsLstat 0x80000000#32

theorem searched_reads (s : State) : OnlyRegisters [aMlsLstat, aStlEcc, aStlEccaddr] s (searched s) ∧
    getR (searched s) aMlsLstat = getR s aMlsLstat ||| 0x80000000 := by
  have read := onlyRegisters_readWords s (ledgerAddr 0) 8192
  have ready := read.trans (onlyRegisters_orR (readWords s (ledgerAddr 0) 8192) aMlsLstat 0x80000000#32)
  refine ⟨⟨ready.rest, fun a ha => ready.but a ?_⟩, ?_⟩
  · simp only [List.cons_append, List.nil_append, List.mem_cons, List.not_mem_nil, or_false, not_or] at ha ⊢
    exact ⟨ha.2.1, ha.2.2, ha.1⟩
  · rw [searched, getR_orR, if_pos rfl, read.but _ (by decide)]
    rfl

theorem bit31_ready (w : Word) : bit (w ||| 0x80000000) 31 = true := by
  rw [bit_or]
  exact Bool.or_eq_true_iff.2 (.inr (by decide))

theorem ledgerSearch_empty {s : State} (up : s.up = true) (first : bit (getR s aMlsLstat) 31 = false) (found : newestRecord s = none) :
    ∃ t, exec .ledgerSearchDone s = .next t ∧ SameProgram s t ∧ SameRegistersBut [aMlsLstat, aStlEcc, aStlEccaddr] s t ∧
      bit (getR t aMlsLstat) 31 = true ∧ bit (getR t aMlsLstat) 30 = true ∧
      t.mls = { s.mls with lhead := 0, lseq := 1, lchain := 0 } := by
  have ran : exec .ledgerSearchDone s = .next (settle (modMls (orR (searched s) aMlsLstat 0x40000000#32)
      (fun m => { m with lhead := 0, lseq := 1, lchain := 0 }))) := by
    refine (exec_whenUp (f := ledgerSearchDone) up rfl).trans ?_
    rw [ledgerSearchDone, if_neg (by rw [ledgerReady, first]; decide), found]
    rfl
  obtain ⟨ready, stat⟩ := searched_reads s
  obtain ⟨program, regs, mls⟩ := leaves_placed (ready.trans (onlyRegisters_orR (searched s) aMlsLstat 0x40000000#32))
    (fun m => { m with lhead := 0, lseq := 1, lchain := 0 })
  have word : getR (settle (modMls (orR (searched s) aMlsLstat 0x40000000#32) (fun m => { m with lhead := 0, lseq := 1, lchain := 0 })))
      aMlsLstat = getR s aMlsLstat ||| 0x80000000 ||| 0x40000000#32 := by
    rw [getR_settle]
    change getR (orR (searched s) aMlsLstat 0x40000000#32) aMlsLstat = _
    rw [getR_orR, if_pos rfl, stat]
  refine ⟨_, ran, program, fun a ha => regs a fun m => ha ?_, ?_, ?_, mls⟩
  · rcases List.mem_append.1 m with m | m
    · exact m
    · exact List.mem_singleton.1 m ▸ List.mem_cons_self
  · rw [word, bit_or, bit31_ready, Bool.true_or]
  · rw [word, bit_or]
    exact Bool.or_eq_true_iff.2 (.inr (by decide))

theorem ledgerSearch_finds {s : State} (up : s.up = true) (first : bit (getR s aMlsLstat) 31 = false) {j q : Nat}
    (found : newestRecord s = some (j, q)) :
    ∃ t, exec .ledgerSearchDone s = .next t ∧ SameProgram s t ∧ SameRegistersBut [aMlsLstat, aStlEcc, aStlEccaddr] s t ∧
      getR t aMlsLstat = getR s aMlsLstat ||| 0x80000000 ∧ t.mls = { s.mls with
        lhead := (j + 1) % 2048, lseq := (q + 1) % 2 ^ 32, lchain := BitVec.ofNat 64 (rdN s (0x20009400 + 32 * j + 24) 8) } := by
  have ran : exec .ledgerSearchDone s = .next (settle (modMls (searched s) (fun m => { m with
      lhead := (j + 1) % 2048, lseq := (q + 1) % 2 ^ 32, lchain := BitVec.ofNat 64 (slotWords s j).2.2.2 }))) := by
    refine (exec_whenUp (f := ledgerSearchDone) up rfl).trans ?_
    rw [ledgerSearchDone, if_neg (by rw [ledgerReady, first]; decide), found]
    rfl
  obtain ⟨ready, stat⟩ := searched_reads s
  obtain ⟨program, regs, mls⟩ := leaves_placed ready (fun m => { m with
    lhead := (j + 1) % 2048, lseq := (q + 1) % 2 ^ 32, lchain := BitVec.ofNat 64 (slotWords s j).2.2.2 })
  exact ⟨_, ran, program, regs, (getR_settle _ _).trans stat, mls⟩

theorem ledgerSearch_ends {s : State} (up : s.up = true) (first : bit (getR s aMlsLstat) 31 = false) :
    ∃ t, exec .ledgerSearchDone s = .next t ∧ SameProgram s t ∧ SameRegistersBut [aMlsLstat, aStlEcc, aStlEccaddr] s t ∧
      bit (getR t aMlsLstat) 31 = true ∧
      (newestRecord s = none → bit (getR t aMlsLstat) 30 = true ∧
        t.mls = { s.mls with lhead := 0, lseq := 1, lchain := 0 }) ∧
      ∀ j q, newestRecord s = some (j, q) → getR t aMlsLstat = getR s aMlsLstat ||| 0x80000000 ∧ t.mls = { s.mls with
        lhead := (j + 1) % 2048, lseq := (q + 1) % 2 ^ 32, lchain := BitVec.ofNat 64 (rdN s (0x20009400 + 32 * j + 24) 8) } := by
  cases found : newestRecord s with
  | none =>
    obtain ⟨t, ran, program, regs, ready, empty, mls⟩ := ledgerSearch_empty up first found
    exact ⟨t, ran, program, regs, ready, fun _ => ⟨empty, mls⟩, fun _ _ h => absurd h (by simp)⟩
  | some p =>
    obtain ⟨t, ran, program, regs, stat, mls⟩ := ledgerSearch_finds up first found
    refine ⟨t, ran, program, regs, by rw [stat]; exact bit31_ready _, fun h => absurd h (by simp), fun j q h => ?_⟩
    obtain rfl := Option.some.inj h
    exact ⟨stat, mls⟩

/-! ### A full stamp queue -/

/-- Whatever is entered into a queue that is full is discarded (R221). -/
def StaysFull (s t : State) : Prop := 4096 ≤ s.mls.sq.length → t.mls.sq = s.mls.sq

theorem StaysFull.trans {s t u : State} (h : StaysFull s t) (g : StaysFull t u) : StaysFull s u := fun full => by
  have first := h full
  exact (g (by rw [first]; exact full)).trans first

theorem staysFull_of_mls {s t : State} (h : t.mls = s.mls) : StaysFull s t := fun _ => by rw [h]

theorem staysFull_sqEnter (s : State) (e : Stamp) : StaysFull s (sqEnter s e).1 := fun full => by
  rw [sqEnter, if_pos full]
  unfold sqLose
  dsimp only
  split
  · rfl
  · rfl

theorem staysFull_stampSrc (s : State) (n : Nat) (soft : Bool) : StaysFull s (stampSrc s n soft).1 := by
  have latest : StaysFull s (setSrc s n { srcOf s n with stamp := s.mls.time }) := staysFull_of_mls rfl
  unfold stampSrc
  split
  · dsimp only
    split
    · rename_i t ht
      exact latest.trans (staysFull_of_mls (mls_heldItem ht))
    · exact latest.trans (staysFull_sqEnter _ _)
  · exact fun _ => rfl

theorem mls_setPend (s : State) (n : Nat) : (setPend s n).1.mls = s.mls := by
  unfold setPend
  dsimp only
  split
  · rfl
  · rfl

theorem mls_countTrigger (s : State) (n : Nat) : (countTrigger s n).1.mls = s.mls := by
  unfold countTrigger
  dsimp only
  split
  · rfl
  · split
    · exact mls_setPend s n
    · rfl

theorem staysFull_triggerRaw (s : State) (n : Nat) (m : Bool) : StaysFull s (triggerRaw s n (.hardware m)).1 := by
  unfold triggerRaw
  split
  · exact fun _ => rfl
  · dsimp only
    generalize hu : setSrc s n { srcOf s n with edgecnt := (srcOf s n).edgecnt + 1, ovr := (srcOf s n).ovr || m } = u
    have same : u.mls = s.mls := by rw [← hu]; rfl
    exact (staysFull_of_mls ((mls_countTrigger u n).trans same)).trans (staysFull_stampSrc _ n false)

theorem mls_sendFast (s : State) : (sendFast s).mls = s.mls := by
  unfold sendFast
  cases held : heldItem s 6 4 .fast none with
  | some t => exact mls_heldItem held
  | none => rfl

theorem mls_deliver (s : State) (n : Nat) : (deliver s n).mls = s.mls := by
  have wakes : ∀ (l : List Nat) (t : State), (l.foldl (fun t c => if inListening s n c then sendWake t 6 c wkEVENT else t) t).mls = t.mls :=
    fun l => by
      induction l with
      | nil => exact fun _ => rfl
      | cons c r ih =>
        intro t
        have one : (if inListening s n c then sendWake t 6 c wkEVENT else t).mls = t.mls := by
          split
          · exact mls_sendWake _ _ _ _
          · rfl
        exact (ih _).trans one
  unfold deliver
  split
  · split
    · exact (mls_sendFast _).trans rfl
    · rfl
  · exact wakes _ s

theorem mls_deliveries (s t : State) (ns : List Nat) : (deliveries s t ns).mls = t.mls := by
  have all : ∀ (l : List Nat) (t : State), (l.foldl deliver t).mls = t.mls := fun l => by
    induction l with
    | nil => exact fun _ => rfl
    | cons n r ih => exact fun t => (ih _).trans (mls_deliver t n)
  exact all _ t

theorem staysFull_trigger (s : State) (n : Nat) : StaysFull s (trigger s n) := by
  have first : StaysFull s (if (triggerRaw s n (.hardware false)).2.1 then triggerRaw (triggerRaw s n (.hardware false)).1 7 (.hardware false)
      else ((triggerRaw s n (.hardware false)).1, false, false)).1 := by
    split
    · exact (staysFull_triggerRaw s n false).trans (staysFull_triggerRaw _ 7 false)
    · exact staysFull_triggerRaw s n false
  have quiet : StaysFull s (triggerQuiet s n (.hardware false)) := by
    unfold triggerQuiet
    dsimp only
    generalize (if (triggerRaw s n (.hardware false)).2.1 = true then triggerRaw (triggerRaw s n (.hardware false)).1 7 (.hardware false)
      else ((triggerRaw s n (.hardware false)).1, false, false)) = r at first ⊢
    split
    · split
      · exact (first.trans (staysFull_triggerRaw _ 27 false)).trans (staysFull_triggerRaw _ 7 false)
      · exact first.trans (staysFull_triggerRaw _ 27 false)
    · exact first
  exact quiet.trans (staysFull_of_mls (mls_deliveries _ _ _))

/-- A source that takes no stamps enters nothing when it triggers (R220). -/
theorem triggerRaw_unstamped {s : State} {n : Nat} (hn : n < 512) (h : srcStamp s n = false) (m : Bool) :
    getR (triggerRaw s n (.hardware m)).1 aMlsSqLost = getR s aMlsSqLost ∧ (triggerRaw s n (.hardware m)).2.2 = false ∧
    ∀ j, srcStamp s j = false → srcStamp (triggerRaw s n (.hardware m)).1 j = false := by
  have pend : ∀ t : State, ∀ j, srcStamp (setPend t n).1 j = srcStamp t j := fun t j => by
    unfold setPend
    dsimp only
    split
    · change bit (getR (setR (setSrc t n _) (aEvcScfg + 4 * n) (setBit (scfg (setSrc t n _) n) 31 false)) (aEvcScfg + 4 * j)) 30 = _
      rw [getR_setR]
      by_cases e : aEvcScfg + 4 * j = aEvcScfg + 4 * n
      · obtain rfl : j = n := by omega
        rw [if_pos rfl, bit_setBit _ _ (by decide), if_neg (by decide)]
        rfl
      · rw [if_neg e]
        rfl
    · rfl
  have count : ∀ t : State, ∀ j, srcStamp (countTrigger t n).1 j = srcStamp t j := fun t j => by
    unfold countTrigger
    dsimp only
    split
    · rfl
    · split
      · exact pend t j
      · rfl
  have lost : ∀ t : State, getR (countTrigger t n).1 aMlsSqLost = getR t aMlsSqLost := fun t =>
    (signals_countTrigger t n).csr _ (by
      unfold stormRegs
      split
      · exact List.not_mem_nil
      · simp only [List.mem_singleton, aMlsSqLost, aEvcScfg]
        omega)
  unfold triggerRaw
  split
  · exact ⟨rfl, rfl, fun _ h => h⟩
  · dsimp only
    generalize hu : setSrc s n { srcOf s n with edgecnt := (srcOf s n).edgecnt + 1, ovr := (srcOf s n).ovr || m } = u
    have same : ∀ j, srcStamp u j = srcStamp s j := fun j => by rw [← hu]; rfl
    have none : stampSrc (countTrigger u n).1 n false = ((countTrigger u n).1, false) := by
      rw [stampSrc, if_neg (by rw [count, same, h]; decide)]
    rw [none]
    exact ⟨(lost u).trans (by rw [← hu]; rfl), rfl, fun j hj => by rw [count, same, hj]⟩

/-- A trigger of source 27 that takes no stamps loses no entry. -/
theorem lost_trigger27 {s : State} (h27 : srcStamp s 27 = false) (h7 : srcStamp s 7 = false) :
    getR (trigger s 27) aMlsSqLost = getR s aMlsSqLost := by
  obtain ⟨lost, full, stamps⟩ := triggerRaw_unstamped (by decide) h27 false
  obtain ⟨lost7, full7, -⟩ := triggerRaw_unstamped (by decide) (stamps 7 h7) false
  have quiet : getR (triggerQuiet s 27 (.hardware false)) aMlsSqLost = getR s aMlsSqLost := by
    unfold triggerQuiet
    dsimp only
    rw [full]
    by_cases storm : (triggerRaw s 27 (.hardware false)).2.1 = true
    · rw [if_pos storm, full7, if_neg (by decide), lost7, lost]
    · rw [if_neg storm]
      exact lost
  exact ((signals_deliveries s _ _).csr _ List.not_mem_nil).trans quiet

/-- A software record that finds the queue full is discarded and counted (R221). -/
theorem queueStamp_full {s : State} {e : Stamp} (full : 4096 ≤ s.mls.sq.length) : (queueStamp s e).mls.sq = s.mls.sq ∧
    (s.mls.gap ≠ none ∨ (srcStamp s 27 = false ∧ srcStamp s 7 = false) →
      (getR (queueStamp s e) aMlsSqLost).toNat = satAdd (2 ^ 32 - 1) (getR s aMlsSqLost).toNat 1) := by
  have counted : (getR (bumpR s aMlsSqLost 0 32 1) aMlsSqLost).toNat = satAdd (2 ^ 32 - 1) (getR s aMlsSqLost).toNat 1 := by
    rw [← fld_whole, fld_bumpR _ _ _ (by decide), fld_whole]
  have entered : sqEnter s e = sqLose s e := if_pos full
  cases gap : s.mls.gap with
  | none =>
    have lost : sqLose s e = (modMls (bumpR s aMlsSqLost 0 32 1) (fun m => { m with gap := some (1, e.time, e.flags &&& 0xC0) }), true) := by
      unfold sqLose
      dsimp only
      rw [show (bumpR s aMlsSqLost 0 32 1).mls.gap = none from gap]
    rw [queueStamp, entered, lost]
    refine ⟨staysFull_trigger _ 27 full, fun quiet => ?_⟩
    obtain ⟨h27, h7⟩ := quiet.resolve_left (not_not_intro rfl)
    have stamps : ∀ n, n < 512 → srcStamp (bumpR s aMlsSqLost 0 32 1) n = srcStamp s n := fun n hn => by
      rw [srcStamp, srcStamp, scfg, scfg, getR_bumpR_other s 0 32 1 (a := aMlsSqLost) (b := aEvcScfg + 4 * n) (by
        simp only [aMlsSqLost, aEvcScfg, ne_eq]
        omega)]
    have kept := lost_trigger27 (s := modMls (bumpR s aMlsSqLost 0 32 1) (fun m => { m with gap := some (1, e.time, e.flags &&& 0xC0) }))
      ((stamps 27 (by decide)).trans h27) ((stamps 7 (by decide)).trans h7)
    dsimp only
    rw [if_pos rfl, kept]
    exact counted
  | some g =>
    have lost : sqLose s e = (modMls (bumpR s aMlsSqLost 0 32 1) (fun m => { m with gap := some (g.1 + 1, g.2) }), false) := by
      unfold sqLose
      dsimp only
      rw [show (bumpR s aMlsSqLost 0 32 1).mls.gap = some g from gap]
    rw [queueStamp, entered, lost]
    exact ⟨rfl, fun _ => counted⟩

theorem lsoft_records {s : State} {c : BitVec 10} (h : MayAccess s c 1) (v : Word) : ∃ t, exec (.mlsLsoftWrite c v) s = .next t ∧
    SameProgram s t ∧ SameRegistersBut (eventRegs 27) s t ∧
    (s.mls.sq.length < 4096 → s.mls.gap = none → (∀ e ∈ s.mls.sq, e.cycle ≠ s.cycles) →
      t.mls.sq = s.mls.sq ++ [⟨s.mls.time, s.cycles, 5, stampFlags s false, actor s c, v.zeroExtend 64⟩]) ∧
    (4096 ≤ s.mls.sq.length → t.mls.sq = s.mls.sq ∧ (s.mls.gap ≠ none ∨ (srcStamp s 27 = false ∧ srcStamp s 7 = false) →
      (getR t aMlsSqLost).toNat = satAdd (2 ^ 32 - 1) (getR s aMlsSqLost).toNat 1)) := by
  have wrote := writeAs_of_mayAccess (v := v) h (csrDenied_of_ring_le s _ (a := aMlsLsoft) rfl h.2.1 (by decide)) rfl
    (acked_of_no_stores s c (by decide)) (by decide)
  have records : writeReg s (whoOf s c.toNat) aMlsLsoft v =
      queueStamp s ⟨s.mls.time, s.cycles, 5, stampFlags s false, actor s c, v.zeroExtend 64⟩ := rfl
  rw [records] at wrote
  have entered := signals_queueStamp s ⟨s.mls.time, s.cycles, 5, stampFlags s false, actor s c, v.zeroExtend 64⟩
  refine ⟨_, congrArg occurs wrote, entered.measures.settle_program, entered.measures.settle_registers,
    fun room gap own => ?_, fun full => ?_⟩
  · rw [settle_mls]
    exact queueStamp_room room gap own
  · rw [settle_mls, getR_settle]
    exact queueStamp_full full

/-! ### Settling the statement -/

/-- Settles O45: the writer's record with its retries, INIT and the clear, the reset search, and software records. -/
theorem ledger : Obligations.Ledger := by
  unfold Obligations.Ledger
  refine fun s c => ⟨fun up e r queue open_ turn free late tries => ?_, initLedger_sets, clear_goes_on, clear_ends,
    ledgerSearch_ends, lsoft_records⟩
  have ran := exec_ledgerRecordWrite up tries
  rw [ledgerWrite_eq queue open_ turn free late] at ran
  have next := afterRecord_leaves s e r (tries.toList.map (·.val))
  refine ⟨fun few => ?_, fun failed => ?_⟩
  · obtain ⟨seq, chain, words, clean⟩ := afterRecord_good s e r few
    have time := words (ledgerAddr s.mls.lhead, e.time.toNat) (by simp [recordWords])
    have head := words (ledgerAddr s.mls.lhead + 8, recordHead s.mls.lseq e) (by simp [recordWords])
    have data := words (ledgerAddr s.mls.lhead + 16, e.data.toNat) (by simp [recordWords])
    have link := words (ledgerAddr s.mls.lhead + 24, chainOf s.mls.lchain.toNat e.time.toNat (recordHead s.mls.lseq e) e.data.toNat)
      (by simp [recordWords])
    exact ⟨_, ran, next, seq, chain, time.trans (Nat.mod_eq_of_lt e.time.isLt), head, data.trans (Nat.mod_eq_of_lt e.data.isLt),
      link, clean⟩
  · exact ⟨_, ran, next, afterRecord_failed s e r failed⟩

end Sys2Proof.Machine
end

section
/-! SUPPORT. Accesses of the E port and the H port to one word of a bank (spec/11 R277 to R285). -/

namespace Sys2Proof.Machine

/-- Steps of a list of which only that of `j` changes a view of the state. -/
theorem foldl_view {β α : Type} {V : β → α} {g : α → α} {F : β → Nat → β} {j : Nat} {l : List Nat}
    (h : ∀ t, ∀ k ∈ l, V (F t k) = if k = j then g (V t) else V t) (once : l.Nodup) (s : β) :
    V (l.foldl F s) = if j ∈ l then g (V s) else V s := by
  induction l generalizing s with
  | nil => rfl
  | cons k r ih =>
    obtain ⟨new, rest⟩ := List.nodup_cons.1 once
    rw [List.foldl_cons, ih (fun t m hm => h t m (List.mem_cons_of_mem k hm)) rest, h s k List.mem_cons_self]
    by_cases e : k = j
    · subst e
      rw [if_pos rfl, if_neg new, if_pos List.mem_cons_self]
    · rw [if_neg e]
      by_cases hj : j ∈ r
      · rw [if_pos hj, if_pos (List.mem_cons_of_mem k hj)]
      · rw [if_neg hj, if_neg (fun hm => (List.mem_cons.1 hm).elim (fun h => e h.symm) hj)]

/-! ### Merged words -/

/-- Bit `j` of a word with the bytes that BE names taken from new data. -/
theorem getLsbD_mergeBytes (be : BitVec 8) (old new : DWord) {j : Nat} (hj : j < 64) :
    (mergeBytes be old new).getLsbD j = if be.getLsbD (j / 8) then new.getLsbD j else old.getLsbD j := by
  have mask : ∀ i, i < 8 → ((0xFF#64) <<< (8 * i)).getLsbD j = decide (i = j / 8) := fun i hi => by
    rw [BitVec.getLsbD_shiftLeft, decide_eq_true hj, Bool.true_and]
    have ones : ∀ k, (0xFF#64).getLsbD k = decide (k < 8) := fun k => by
      rw [show (0xFF#64) = BitVec.ofNat 64 (2 ^ 8 - 1) from rfl, BitVec.getLsbD_ofNat, Nat.testBit_two_pow_sub_one]
      by_cases hk : k < 8
      · rw [decide_eq_true hk, decide_eq_true (show k < 64 by omega)]; rfl
      · rw [decide_eq_false hk, Bool.and_false]
    rw [ones]
    by_cases e : i = j / 8
    · rw [decide_eq_true e, decide_eq_true (show j - 8 * i < 8 by omega), decide_eq_false (show ¬ j < 8 * i by omega)]
      rfl
    · rw [decide_eq_false e]
      by_cases low : j < 8 * i
      · rw [decide_eq_true low]; rfl
      · rw [decide_eq_false (show ¬ j - 8 * i < 8 by omega), Bool.and_false]
  have view := foldl_view (V := fun acc : DWord => acc.getLsbD j) (g := fun b => if be.getLsbD (j / 8) then new.getLsbD j else b)
    (j := j / 8) (l := List.range 8) (F := fun acc i =>
      let m : DWord := 0xFF#64 <<< (8 * i)
      if be.getLsbD i then (acc &&& ~~~m) ||| (new &&& m) else acc) (fun t k hk => ?_) List.nodup_range old
  · exact view.trans (if_pos (List.mem_range.2 (by omega)))
  · dsimp only
    by_cases named : be.getLsbD k = true
    · rw [if_pos named, BitVec.getLsbD_or, BitVec.getLsbD_and, BitVec.getLsbD_and, BitVec.getLsbD_not, mask k (List.mem_range.1 hk),
        decide_eq_true hj]
      by_cases e : k = j / 8
      · rw [if_pos e, ← e, if_pos named, decide_eq_true rfl]
        simp
      · rw [if_neg e, decide_eq_false e]
        simp
    · rw [if_neg named]
      by_cases e : k = j / 8
      · rw [if_pos e, ← e, if_neg named]
      · rw [if_neg e]

/-- Byte `i` of a 64-bit number. -/
theorem byte_of_dword (d : DWord) (i : Nat) : BitVec.ofNat 8 (d.toNat / 256 ^ i) = (d >>> (8 * i)).truncate 8 := by
  refine BitVec.eq_of_toNat_eq ?_
  rw [BitVec.toNat_ofNat, BitVec.truncate, BitVec.toNat_setWidth, BitVec.toNat_ushiftRight, Nat.shiftRight_eq_div_pow,
    show (256 : Nat) = 2 ^ 8 from rfl, ← pow_mul]

theorem byte_mergeBytes (be : BitVec 8) (old new : DWord) {i : Nat} (hi : i < 8) :
    (mergeBytes be old new >>> (8 * i)).truncate 8 =
      if be.getLsbD i then (new >>> (8 * i)).truncate 8 else (old >>> (8 * i)).truncate 8 := by
  refine BitVec.eq_of_getLsbD_eq fun j hj => ?_
  rw [BitVec.truncate, BitVec.getLsbD_setWidth, BitVec.getLsbD_ushiftRight, getLsbD_mergeBytes be old new (by omega),
    show (8 * i + j) / 8 = i by omega]
  split
  · rw [BitVec.getLsbD_setWidth, BitVec.getLsbD_ushiftRight]
  · rw [BitVec.getLsbD_setWidth, BitVec.getLsbD_ushiftRight]

/-- Byte `i` of the word that memory holds. -/
theorem byte_rd64 (s : State) (a : Nat) {i : Nat} (hi : i < 8) : (rd64 s a >>> (8 * i)).truncate 8 = rdB s (a + i) := by
  have digits : ∀ (n b j : Nat), j < n → rdN s b n / 256 ^ j % 256 = (rdB s (b + j)).toNat := fun n => by
    induction n with
    | zero => exact fun _ _ h => absurd h (Nat.not_lt_zero _)
    | succ n ih =>
      intro b j hj
      have byte := (rdB s b).isLt
      cases j with
      | zero =>
        change rdN s b (n + 1) / 1 % 256 = (rdB s b).toNat
        rw [rdN, Nat.div_one]
        omega
      | succ j =>
        have rest := ih (b + 1) j (by omega)
        have shift : ((rdB s b).toNat + 256 * rdN s (b + 1) n) / 256 = rdN s (b + 1) n := by omega
        rw [rdN, Nat.pow_succ', ← Nat.div_div_eq_div_mul, shift, rest, show b + 1 + j = b + (j + 1) by omega]
  rw [← byte_of_dword, rd64, BitVec.toNat_ofNat, Nat.mod_eq_of_lt (by have := rdN_lt s a 8; omega)]
  exact BitVec.eq_of_toNat_eq (by rw [BitVec.toNat_ofNat]; exact digits 8 a i hi)

/-! ### One word of a bank -/

theorem wordsOf_aligned {a : Nat} (h : a % 8 = 0) : wordsOf a 8 = [a] := by
  unfold wordsOf
  rw [show a / 8 * 8 = a by omega]
  exact if_pos (Nat.le_refl _)

theorem bankRead_word {s : State} {a : Nat} (h : a % 8 = 0) (clean : eccAt s a = 0) : bankRead s a 8 = (s, 0, rdN s a 8) :=
  bankRead_clean (by rw [wordsOf_aligned h]; simpa using clean)

/-- A read that finds an uncorrectable word counts it, records it and triggers source 5 (R283). -/
theorem bankRead_bad {s : State} {a : Nat} (h : a % 8 = 0) (bad : eccAt s a = 2) : bankRead s a 8 = (eccFinding s a true false, 2, 0) := by
  unfold bankRead
  rw [wordsOf_aligned h, checkWords, checkWord, bad]
  rfl

/-- Registers of a finding. -/
def findRegs (n : Nat) : List Nat := [aBnkEcc, aBnkEccaddr] ++ eventRegs n

theorem signals_eccFinding (s : State) (a : Nat) (unc maint : Bool) :
    Signals (findRegs (if unc then 5 else 4)) [if unc then 5 else 4, 7, 27] s (eccFinding s a unc maint) := by
  unfold eccFinding
  generalize eccPlace a = p
  obtain ⟨b, w⟩ := p
  dsimp only
  have count := (signals_bumpR s aBnkEcc (if unc then 16 else 0) 16 1).mono
    (l' := findRegs (if unc then 5 else 4)) (ns' := [if unc then 5 else 4, 7, 27])
    (List.cons_subset.2 ⟨List.mem_append_left _ (by decide), List.nil_subset _⟩) (List.nil_subset _)
  have place := fun t v => (signals_setR t aBnkEccaddr v).mono
    (l' := findRegs (if unc then 5 else 4)) (ns' := [if unc then 5 else 4, 7, 27])
    (List.cons_subset.2 ⟨List.mem_append_left _ (by decide), List.nil_subset _⟩) (List.nil_subset _)
  exact (count.trans (place _ _)).trans ((signals_trigger _ _).mono (fun x hx => List.mem_append_right _ hx) (List.Subset.refl _))

theorem eccAt_upset (s : State) (a : Nat) : eccAt (upsetEcc s a .double) a = 2 := (eccAt_setEcc s a a 2).trans (if_pos rfl)

/-- State `t` is `s` but for bytes and check bits, at and above the spare's place and in the word at `a`, and open values. -/
structure WordPut (a : Nat) (s t : State) : Prop where
  rest : ∃ m e d, t = { s with mem := m, ecc := e, draws := d }
  bytes : ∀ k, k < spareBase → k < a ∨ a + 8 ≤ k → rdB t k = rdB s k

theorem WordPut.trans {a : Nat} {s t u : State} (h : WordPut a s t) (g : WordPut a t u) : WordPut a s u where
  rest := by
    obtain ⟨_, _, _, rfl⟩ := h.rest
    obtain ⟨_, _, _, rfl⟩ := g.rest
    exact ⟨_, _, _, rfl⟩
  bytes k hk hw := (g.bytes k hk hw).trans (h.bytes k hk hw)

theorem wordPut_setEcc (a : Nat) (s : State) (b x : Nat) : WordPut a s (setEcc s b x) := ⟨⟨_, _, _, rfl⟩, fun _ _ _ => rfl⟩

/-- A write into the spare's place. -/
theorem spareWrite_rest (s : State) (a v : Nat) : (∃ m d, spareWrite s a 8 v = { s with mem := m, draws := d }) ∧
    ∀ k, k < spareBase → rdB (spareWrite s a 8 v) k = rdB s k := by
  unfold spareWrite
  split
  · obtain ⟨m, e⟩ := wrN_rest s (spareBase + a % 0x10000) 8 v
    refine ⟨⟨m, _, e⟩, fun k hk => rdB_wrN_other s _ _ _ _ (.inl (by omega))⟩
  · obtain ⟨m, e⟩ := wrN_rest (freeD s).2 (spareBase + a % 0x10000) 8 (freeD s).1.toNat
    refine ⟨⟨m, s.draws + 1, e⟩, fun k hk => ?_⟩
    exact rdB_wrN_other (freeD s).2 _ _ _ _ (.inl (by omega))

/-- A write of the word at `a` of a bank. -/
theorem bankPut_word (s : State) {a : Nat} (v : DWord) (low : a + 8 ≤ spareBase) : WordPut a s (bankPut s a 8 v.toNat) ∧
    (∃ m d, bankPut s a 8 v.toNat = { s with mem := m, draws := d }) ∧
    ∀ i, i < 8 → rdB (bankPut s a 8 v.toNat) (a + i) = (v >>> (8 * i)).truncate 8 := by
  obtain ⟨m, e⟩ := wrN_rest s a 8 v.toNat
  have same : ∀ i, i < 8 → rdB (wrN s a 8 v.toNat) (a + i) = (v >>> (8 * i)).truncate 8 := fun i hi => by
    rw [rdB_wrN_same s a 8 _ i hi, byte_of_dword]
  unfold bankPut
  dsimp only
  split
  · obtain ⟨⟨m', d, e'⟩, bytes⟩ := spareWrite_rest (wrN s a 8 v.toNat) a v.toNat
    have rest : ∃ m d, spareWrite (wrN s a 8 v.toNat) a 8 v.toNat = { s with mem := m, draws := d } := ⟨m', d, by rw [e', e]⟩
    refine ⟨⟨?_, fun k hk hw => (bytes k hk).trans (rdB_wrN_other s a 8 _ k hw)⟩, rest, fun i hi =>
      (bytes _ (by omega)).trans (same i hi)⟩
    obtain ⟨x, y, z⟩ := rest
    exact ⟨x, s.ecc, y, z⟩
  · exact ⟨⟨⟨m, s.ecc, s.draws, e⟩, fun k _ hw => rdB_wrN_other s a 8 _ k hw⟩, ⟨m, s.draws, e⟩, same⟩

/-- A clean word is written in the bytes that BE names, with fresh check bits (R283). -/
theorem portWrite_clean {s : State} {a : Nat} (be : BitVec 8) (d : DWord) (aligned : a % 8 = 0) (low : a + 8 ≤ spareBase)
    (clean : eccAt s a = 0) : (portWrite s a be d).2 = true ∧ WordPut a s (portWrite s a be d).1 ∧
    eccAt (portWrite s a be d).1 a = 0 ∧ ∀ i, i < 8 → rdB (portWrite s a be d).1 (a + i) =
      if be.getLsbD i = true then (d >>> (8 * i)).truncate 8 else rdB s (a + i) := by
  have check : (if be = 0xFF#8 then (s, true) else checkWord s a false) = (s, true) := by
    split
    · rfl
    · rw [checkWord, clean]
      rfl
  have whole : partialWords a 8 [a] = [] := by
    rw [partialWords, List.filter_cons, if_neg (by simp), List.filter_nil]
  have wrote : portWrite s a be d = ((cleanWords (bankPut s a 8 (mergeBytes be (rd64 s a) d).toNat) [a]), true) := by
    unfold portWrite
    rw [check]
    dsimp only
    rw [if_pos rfl, bankWrite, wordsOf_aligned aligned]
    dsimp only
    rw [whole]
    rfl
  obtain ⟨put, -, bytes⟩ := bankPut_word s (mergeBytes be (rd64 s a) d) low
  rw [wrote]
  dsimp only
  generalize bankPut s a 8 (mergeBytes be (rd64 s a) d).toNat = u at put bytes
  have cleaned : WordPut a u (cleanWords u [a]) ∧ (∀ b, rdB (cleanWords u [a]) b = rdB u b) ∧ eccAt (cleanWords u [a]) a = 0 := by
    unfold cleanWords
    rw [List.foldl_cons, List.foldl_nil]
    dsimp only
    split
    · refine ⟨(wordPut_setEcc a u a 0).trans (wordPut_setEcc a _ _ 0), fun _ => rfl, ?_⟩
      rw [eccAt_setEcc, if_neg (by omega), eccAt_setEcc, if_pos rfl]
    · exact ⟨wordPut_setEcc a u a 0, fun _ => rfl, by rw [eccAt_setEcc, if_pos rfl]⟩
  obtain ⟨more, same, ecc⟩ := cleaned
  refine ⟨rfl, put.trans more, ecc, fun i hi => ?_⟩
  rw [same, bytes i hi, byte_mergeBytes be _ _ hi, byte_rd64 s a hi]

/-! ### Refusals and collisions -/

/-- A refusal at a port (R285). -/
theorem onlyRegisters_recordDeny (s : State) (port addr : Nat) (r : Req) (wr : Bool) (why : Nat) :
    OnlyRegisters [aBnkDeny, aBnkDenylast] s (recordDeny s port addr r wr why) ∧
    (getR (recordDeny s port addr r wr why) aBnkDeny).toNat = satAdd (2 ^ 32 - 1) (getR s aBnkDeny).toNat 1 ∧
    getR (recordDeny s port addr r wr why) aBnkDenylast = u32 (port * 2 ^ 30 + b2n wr * 2 ^ 29 + b2n r.unver * 2 ^ 28
      + (if port = 0 then r.ring else 0) * 2 ^ 24 + why * 2 ^ 22 + bankOf addr * 2 ^ 16 + addr % 0x10000 / 8) := by
  have both := (onlyRegisters_bumpR s aBnkDeny 0 32 1).trans (onlyRegisters_setR (bumpR s aBnkDeny 0 32 1) aBnkDenylast
    (u32 (port * 2 ^ 30 + b2n wr * 2 ^ 29 + b2n r.unver * 2 ^ 28
      + (if port = 0 then r.ring else 0) * 2 ^ 24 + why * 2 ^ 22 + bankOf addr * 2 ^ 16 + addr % 0x10000 / 8)))
  refine ⟨both, ?_, ?_⟩
  · rw [recordDeny, getR_setR, if_neg (by decide), ← fld_whole, fld_bumpR _ _ _ (by decide), fld_whole]
  · rw [recordDeny, getR_setR, if_pos rfl]

end Sys2Proof.Machine
end

section
/-! SUPPORT. Inbound requests at the host port (spec/15 R371 to R375). -/

namespace Sys2Proof.Machine

/-! ### Requests and answers -/

/-- The port answers inbound requests. -/
def PortOn (s : State) : Prop := s.up = true ∧ unitSt s 2 = 2 ∧ bit (getR s aHptCfg) 0 = true

theorem inbound_off {s : State} (h : s.up = false ∨ unitSt s 2 ≠ 2) (tag : Nat) (f : State → State × Nat × DWord) :
    inbound s tag f = s := by
  unfold inbound
  rw [if_pos]
  rcases h with down | off
  · rw [down]; rfl
  · rw [bne_iff_ne.2 off, Bool.or_true]

theorem inbound_denied {s : State} (up : s.up = true) (unit : unitSt s 2 = 2) (off : bit (getR s aHptCfg) 0 = false) (tag : Nat)
    (f : State → State × Nat × DWord) : inbound s tag f = answer s tag (3, 0) := by
  unfold inbound
  rw [up, unit, if_neg (by decide), off, if_pos (by rfl)]

theorem inbound_on {s : State} (h : PortOn s) (tag : Nat) (f : State → State × Nat × DWord) :
    inbound s tag f = answer (f s).1 tag (f s).2 := by
  obtain ⟨up, unit, on⟩ := h
  unfold inbound
  rw [up, unit, if_neg (by decide), on, if_neg (by decide)]

/-- What an answer leaves of state `u`: the response on the SS channel (R373). -/
theorem answered (u : State) (tag st : Nat) (d : DWord) : let t := settle (answer u tag (st, d))
    (∀ a, rdB t a = rdB u a) ∧ (∀ w, seen (getC t w) = seen (getC u w)) ∧ (∀ a, getR t a = getR u a) ∧ t.bank = u.bank ∧
    (∀ a, eccAt t a = eccAt u a) ∧ (∀ j, srcOf t j = srcOf u j) ∧
    t.hpt.last = some ⟨tag, st, if st = 0 then d else 0⟩ ∧ t.hpt.out = u.hpt.out := by
  refine ⟨fun a => rdB_settle _ a, fun w => (seen_settle _ w).trans (by cases w <;> rfl), fun a => getR_settle _ a,
    settle_bank _, fun a => eccAt_settle _ a, fun j => srcOf_settle _ j, ?_, ?_⟩
  · rw [settle_hpt]
    rfl
  · rw [settle_hpt]
    rfl

/-- A state with the same bytes, contexts, registers and banks, and its answer. -/
theorem answered_same (s : State) (tag st : Nat) (d : DWord) : let t := settle (answer s tag (st, d))
    (SameProgram s t ∧ SameRegisters s t ∧ t.bank = s.bank) ∧
    t.hpt.last = some ⟨tag, st, if st = 0 then d else 0⟩ ∧ t.hpt.out = s.hpt.out := by
  obtain ⟨bytes, contexts, regs, bank, -, -, sent⟩ := answered s tag st d
  exact ⟨⟨⟨bytes, contexts⟩, regs, bank⟩, sent⟩

theorem exec_hostRead {s : State} (addr : Word) (tag : BitVec 12) (r : Option Rival) (u : Upset) :
    exec (.hostRead addr tag r u) s = .next (settle (inbound s tag.toNat (fun t => hostRead t addr.toNat r u))) := rfl

theorem exec_hostWrite {s : State} (addr : Word) (be : BitVec 8) (d : DWord) (tag : BitVec 12) (r : Option Rival) (u : Upset) :
    exec (.hostWrite addr be d tag r u) s = .next (settle (inbound s tag.toNat (fun t => hostWrite t addr.toNat be d r u))) := rfl

/-! ### The way to the bank -/

theorem hostBank_iff (a : Nat) : hostBank a = true ↔ 0x10000000 ≤ a ∧ a < 0x10200000 := by
  rw [hostBank, Bool.and_eq_true, decide_eq_true_iff, decide_eq_true_iff]

section
variable {s : State} {a : Nat} {wr : Bool} {r : Option Rival} {u : Upset} {go : State → State × Nat × DWord}

theorem hostAccess_outside (h : ¬ (0x10000000 ≤ a ∧ a < 0x10200000 ∧ a % 8 = 0)) : hostAccess s a wr r u go = (s, 3, 0) := by
  have bad : (!hostBank a || a % 8 != 0) = true := by
    by_cases inside : hostBank a = true
    · have odd : ¬ a % 8 = 0 := fun z => h ⟨((hostBank_iff a).1 inside).1, ((hostBank_iff a).1 inside).2, z⟩
      rw [bne_iff_ne.2 odd, Bool.or_true]
    · rw [Bool.not_eq_true] at inside
      rw [inside]; rfl
  unfold hostAccess
  rw [if_pos bad]

/-- An access to a word of the banks. -/
theorem hostAccess_word (h : 0x10000000 ≤ a ∧ a < 0x10200000 ∧ a % 8 = 0) : hostAccess s a wr r u go =
    match hPort s a wr with
    | (t, some st) => (t, st, 0)
    | (t, none) => if r.any (loses .h wr false) then (bumpR t aBnkColl 16 16 1, 1, 0) else go (upsetEcc t a u) := by
  have good : (!hostBank a || a % 8 != 0) = false := by
    rw [(hostBank_iff a).2 ⟨h.1, h.2.1⟩, h.2.2]; rfl
  unfold hostAccess
  exact if_neg (by rw [good]; decide)

theorem hPort_foreign (h : ¬ ((bankN s (bankOf a)).own = .owned ∧ fld (bankN s (bankOf a)).owner 18 2 = 3)) :
    ∃ why, hPort s a wr = (recordDeny s 2 a ⟨0, 0, false⟩ wr why, some 3) := by
  unfold hPort bankAns
  dsimp only
  by_cases owned : (bankN s (bankOf a)).own = .owned
  · have other : (fld (bankN s (bankOf a)).owner 18 2 == 3) = false := beq_eq_false_iff_ne.2 fun e => h ⟨owned, e⟩
    rw [if_neg (not_not_intro owned), other]
    exact ⟨0, rfl⟩
  · rw [if_pos owned]
    exact ⟨1, rfl⟩

theorem hPort_owned (h : (bankN s (bankOf a)).own = .owned ∧ fld (bankN s (bankOf a)).owner 18 2 = 3) :
    hPort s a wr = match powerAns s (bankOf a) with
      | .ok => (s, none)
      | .waits => (wakeBank s (bankOf a), some 1)
      | .refuse _ why => (recordDeny s 2 a ⟨0, 0, false⟩ wr why, some 3) := by
  unfold hPort bankAns
  dsimp only
  rw [if_neg (not_not_intro h.1), beq_iff_eq.2 h.2, if_neg (by decide)] <;> rfl

theorem powerAns_active {n : Nat} (h : (bankN s n).pwr = 0) : powerAns s n = .ok := if_pos h

theorem powerAns_retained {n : Nat} (h : (bankN s n).pwr = 2) (auto : bit (getR s (aBnkPwr + 4 * n)) 4 = true) :
    powerAns s n = .waits := by
  unfold powerAns
  dsimp only
  rw [h, if_neg (by decide), if_neg (by simp), if_pos (show autowake s n = true from auto)]

/-- AUTOWAKE wakes a retained bank (R291). -/
theorem wakeBank_retained {n : Nat} (h : (bankN s n).pwr = 2) : wakeBank s n =
    setBank (setR s (aBnkPwr + 4 * n) (setFld (getR s (aBnkPwr + 4 * n)) 0 2 0)) n
      { bankN s n with pwr := 3, fromOff := false, latched := none } := by
  unfold wakeBank
  dsimp only
  rw [if_pos (.inr h), if_pos h]

end

/-! ### Reads and writes that the bank answers -/

/-- An access of either kind, as the port makes it. -/
theorem row_access {s : State} (addr : Word) (tag : BitVec 12) (be : BitVec 8) (d : DWord) (r : Option Rival) (u : Upset)
    (some_ : be ≠ 0) (wr : Bool) : ∃ go, exec (if wr then .hostWrite addr be d tag r u else .hostRead addr tag r u) s =
      .next (settle (inbound s tag.toNat (fun t => hostAccess t addr.toNat wr r u go))) := by
  cases wr
  · exact ⟨_, exec_hostRead addr tag r u⟩
  · refine ⟨fun t => ((portWrite t addr.toNat be d).1, if (portWrite t addr.toNat be d).2 then 0 else 2, 0),
      (exec_hostWrite addr be d tag r u).trans ?_⟩
    have same : (fun t => hostWrite t addr.toNat be d r u) = fun t => hostAccess t addr.toNat true r u
        (fun t => ((portWrite t addr.toNat be d).1, if (portWrite t addr.toNat be d).2 then 0 else 2, 0)) := by
      funext t
      exact if_neg some_
    rw [same]

section
variable {s : State} {addr : Word} {tag : BitVec 12} {be : BitVec 8} {d : DWord} {r : Option Rival} {u : Upset}

theorem request_outside (on : PortOn s) (some_ : be ≠ 0) (wr : Bool)
    (h : ¬ (0x10000000 ≤ addr.toNat ∧ addr.toNat < 0x10200000 ∧ addr.toNat % 8 = 0)) :
    exec (if wr then .hostWrite addr be d tag r u else .hostRead addr tag r u) s = .next (settle (answer s tag.toNat (3, 0))) := by
  obtain ⟨go, ran⟩ := row_access (s := s) addr tag be d r u some_ wr
  rw [ran, inbound_on on, hostAccess_outside h]

theorem request_foreign (on : PortOn s) (some_ : be ≠ 0) (wr : Bool)
    (h : 0x10000000 ≤ addr.toNat ∧ addr.toNat < 0x10200000 ∧ addr.toNat % 8 = 0)
    (other : ¬ ((bankN s (bankOf addr.toNat)).own = .owned ∧ fld (bankN s (bankOf addr.toNat)).owner 18 2 = 3)) :
    ∃ why, exec (if wr then .hostWrite addr be d tag r u else .hostRead addr tag r u) s =
      .next (settle (answer (recordDeny s 2 addr.toNat ⟨0, 0, false⟩ wr why) tag.toNat (3, 0))) := by
  obtain ⟨go, ran⟩ := row_access (s := s) addr tag be d r u some_ wr
  obtain ⟨why, port⟩ := hPort_foreign (s := s) (a := addr.toNat) (wr := wr) other
  refine ⟨why, ?_⟩
  rw [ran, inbound_on on, hostAccess_word h, port]

theorem request_wakes (on : PortOn s) (some_ : be ≠ 0) (wr : Bool)
    (h : 0x10000000 ≤ addr.toNat ∧ addr.toNat < 0x10200000 ∧ addr.toNat % 8 = 0)
    (hosts : (bankN s (bankOf addr.toNat)).own = .owned ∧ fld (bankN s (bankOf addr.toNat)).owner 18 2 = 3)
    (pwr : (bankN s (bankOf addr.toNat)).pwr = 2) (auto : bit (getR s (aBnkPwr + 4 * bankOf addr.toNat)) 4 = true) :
    exec (if wr then .hostWrite addr be d tag r u else .hostRead addr tag r u) s =
      .next (settle (answer (wakeBank s (bankOf addr.toNat)) tag.toNat (1, 0))) := by
  obtain ⟨go, ran⟩ := row_access (s := s) addr tag be d r u some_ wr
  rw [ran, inbound_on on, hostAccess_word h, hPort_owned hosts, powerAns_retained pwr auto]

theorem request_loses (on : PortOn s) (some_ : be ≠ 0) (wr : Bool)
    (h : 0x10000000 ≤ addr.toNat ∧ addr.toNat < 0x10200000 ∧ addr.toNat % 8 = 0)
    (hosts : (bankN s (bankOf addr.toNat)).own = .owned ∧ fld (bankN s (bankOf addr.toNat)).owner 18 2 = 3)
    (pwr : (bankN s (bankOf addr.toNat)).pwr = 0) (lost : r.any (loses .h wr false) = true) :
    exec (if wr then .hostWrite addr be d tag r u else .hostRead addr tag r u) s =
      .next (settle (answer (bumpR s aBnkColl 16 16 1) tag.toNat (1, 0))) := by
  obtain ⟨go, ran⟩ := row_access (s := s) addr tag be d r u some_ wr
  rw [ran, inbound_on on, hostAccess_word h, hPort_owned hosts, powerAns_active pwr]
  dsimp only
  rw [if_pos lost]

theorem hostRead_passes (h : 0x10000000 ≤ addr.toNat ∧ addr.toNat < 0x10200000 ∧ addr.toNat % 8 = 0)
    (hosts : (bankN s (bankOf addr.toNat)).own = .owned ∧ fld (bankN s (bankOf addr.toNat)).owner 18 2 = 3)
    (pwr : (bankN s (bankOf addr.toNat)).pwr = 0) (lost : r.any (loses .h false false) = false) :
    hostRead s addr.toNat r u = (let q := bankRead (upsetEcc s addr.toNat u) addr.toNat 8
      if q.2.1 = 0 then (q.1, 0, BitVec.ofNat 64 q.2.2) else (q.1, 2, 0)) := by
  rw [hostRead, hostAccess_word h, hPort_owned hosts, powerAns_active pwr]
  dsimp only
  rw [if_neg (by rw [lost]; decide)]

theorem hostWrite_passes (some_ : be ≠ 0) (h : 0x10000000 ≤ addr.toNat ∧ addr.toNat < 0x10200000 ∧ addr.toNat % 8 = 0)
    (hosts : (bankN s (bankOf addr.toNat)).own = .owned ∧ fld (bankN s (bankOf addr.toNat)).owner 18 2 = 3)
    (pwr : (bankN s (bankOf addr.toNat)).pwr = 0) (lost : r.any (loses .h true false) = false) :
    hostWrite s addr.toNat be d r .none = ((portWrite s addr.toNat be d).1, if (portWrite s addr.toNat be d).2 then 0 else 2, 0) := by
  rw [hostWrite, if_neg some_, hostAccess_word h, hPort_owned hosts, powerAns_active pwr]
  dsimp only
  rw [if_neg (by rw [lost]; decide)]
  rfl

end

end Sys2Proof.Machine
end

section
/-! SUPPORT. What an inbound request answers and leaves (spec/15 R371 to R375; spec/11 R285 to R289). -/

namespace Sys2Proof.Machine

/-- The response that the port leaves on the SS channel, with the requests it has sent as before. -/
def Sent (s : State) (tag st : Nat) (x : DWord) (t : State) : Prop := t.hpt.last = some ⟨tag, st, x⟩ ∧ t.hpt.out = s.hpt.out

/-- The bytes, the contexts, the registers and the banks are as before. -/
def Untouched (s t : State) : Prop := SameProgram s t ∧ SameRegisters s t ∧ t.bank = s.bank

theorem untouched_answer (s : State) (tag st : Nat) (d : DWord) : Untouched s (settle (answer s tag (st, d))) ∧
    Sent s tag st (if st = 0 then d else 0) (settle (answer s tag (st, d))) := by
  obtain ⟨same, sent⟩ := answered_same s tag st d
  exact ⟨same, sent⟩

/-- An answer after a step that touches registers and event sources alone. -/
theorem Signals.answered {l ns : List Nat} {s u : State} (h : Signals l ns s u) (tag st : Nat) (d : DWord) :
    let t := settle (answer u tag (st, d))
    SameProgram s t ∧ SameRegistersBut l s t ∧ Sent s tag st (if st = 0 then d else 0) t := by
  obtain ⟨bytes, contexts, regs, -, -, -, last, out⟩ := Machine.answered u tag st d
  refine ⟨⟨fun a => (bytes a).trans (h.sameMemory a), fun w => (contexts w).trans (h.seen w)⟩,
    fun a ha => (regs a).trans (h.csr a ha), last, out.trans (congrArg Hpt.out h.hpt)⟩

theorem onlyRegisters_answered {l : List Nat} {s u : State} (h : OnlyRegisters l s u) (tag st : Nat) (d : DWord) :
    let t := settle (answer u tag (st, d))
    (SameProgram s t ∧ SameRegistersBut l s t ∧ Sent s tag st (if st = 0 then d else 0) t) ∧ ∀ a, getR t a = getR u a := by
  obtain ⟨bytes, contexts, regs, -, -, -, last, out⟩ := answered u tag st d
  obtain ⟨m, rfl⟩ := h.rest
  exact ⟨⟨⟨bytes, fun w => (contexts w).trans (by cases w <;> rfl)⟩, fun a ha => (regs a).trans (h.but a ha), last, out⟩, regs⟩

section
variable {s : State} {addr : Word} {tag : BitVec 12} {be : BitVec 8} {d : DWord} {r : Option Rival} {u : Upset}

/-- A request to a bank that is not the host's is refused and recorded (R285). -/
theorem foreign_recorded (a : Nat) (wr : Bool) (why : Nat) :
    let t := settle (answer (recordDeny s 2 a ⟨0, 0, false⟩ wr why) tag.toNat (3, 0))
    SameProgram s t ∧ SameRegistersBut [aBnkDeny, aBnkDenylast] s t ∧ Sent s tag.toNat 3 0 t ∧
      (getR t aBnkDeny).toNat = satAdd (2 ^ 32 - 1) (getR s aBnkDeny).toNat 1 := by
  obtain ⟨only, count, -⟩ := onlyRegisters_recordDeny s 2 a ⟨0, 0, false⟩ wr why
  obtain ⟨⟨program, regs, sent⟩, same⟩ := onlyRegisters_answered only tag.toNat 3 0
  refine ⟨program, regs, sent, ?_⟩
  rw [same]
  exact count

theorem wakes_answered {n : Nat} (h : (bankN s n).pwr = 2) :
    let t := settle (answer (wakeBank s n) tag.toNat (1, 0))
    SameProgram s t ∧ Sent s tag.toNat 1 0 t ∧ (bankN t n).pwr = 3 := by
  rw [wakeBank_retained h]
  obtain ⟨bytes, contexts, -, bank, -, -, last, out⟩ := answered (setBank (setR s (aBnkPwr + 4 * n)
    (setFld (getR s (aBnkPwr + 4 * n)) 0 2 0)) n { bankN s n with pwr := 3, fromOff := false, latched := none }) tag.toNat 1 0
  refine ⟨⟨bytes, fun w => (contexts w).trans (by cases w <;> rfl)⟩, ⟨last, out⟩, ?_⟩
  rw [bankN, bank]
  exact congrArg Bank.pwr ((bankN_setBank _ n n _).trans (if_pos rfl))

/-- A lost collision is counted and answers BUSY (R278). -/
theorem loses_answered : let t := settle (answer (bumpR s aBnkColl 16 16 1) tag.toNat (1, 0))
    SameProgram s t ∧ SameRegistersBut [aBnkColl] s t ∧ Sent s tag.toNat 1 0 t ∧
      fld (getR t aBnkColl) 16 16 = satAdd 65535 (fld (getR s aBnkColl) 16 16) 1 := by
  obtain ⟨⟨program, regs, sent⟩, same⟩ := onlyRegisters_answered (onlyRegisters_bumpR s aBnkColl 16 16 1) tag.toNat 1 0
  refine ⟨program, regs, sent, ?_⟩
  rw [same]
  exact fld_bumpR s aBnkColl 1 (by decide)

theorem empty_write (on : PortOn s) (word : 0x10000000 ≤ addr.toNat ∧ addr.toNat < 0x10200000 ∧ addr.toNat % 8 = 0) :
    exec (.hostWrite addr 0 d tag r u) s = .next (settle (answer s tag.toNat (0, 0))) := by
  rw [exec_hostWrite, inbound_on on, hostWrite, if_pos rfl, (hostBank_iff _).2 ⟨word.1, word.2.1⟩, word.2.2]
  rfl

/-- A read of a clean word (R375). -/
theorem read_answers (on : PortOn s) (word : 0x10000000 ≤ addr.toNat ∧ addr.toNat < 0x10200000 ∧ addr.toNat % 8 = 0)
    (hosts : (bankN s (bankOf addr.toNat)).own = .owned ∧ fld (bankN s (bankOf addr.toNat)).owner 18 2 = 3)
    (pwr : (bankN s (bankOf addr.toNat)).pwr = 0) (clean : eccAt s addr.toNat = 0)
    (wins : r.any (loses .h false false) = false) :
    exec (.hostRead addr tag r .none) s = .next (settle (answer s tag.toNat (0, rd64 s addr.toNat))) := by
  rw [exec_hostRead, inbound_on on, hostRead_passes word hosts pwr wins, upsetEcc, bankRead_word word.2.2 clean]
  rfl

/-- A read of a word that an upset has made uncorrectable fails (R283). -/
theorem read_fails (on : PortOn s) (word : 0x10000000 ≤ addr.toNat ∧ addr.toNat < 0x10200000 ∧ addr.toNat % 8 = 0)
    (hosts : (bankN s (bankOf addr.toNat)).own = .owned ∧ fld (bankN s (bankOf addr.toNat)).owner 18 2 = 3)
    (pwr : (bankN s (bankOf addr.toNat)).pwr = 0) (wins : r.any (loses .h false false) = false) :
    ∃ t, exec (.hostRead addr tag r .double) s = .next t ∧ SameProgram s t ∧ Sent s tag.toNat 2 0 t ∧ eccAt t addr.toNat = 2 := by
  have ran : exec (.hostRead addr tag r .double) s =
      .next (settle (answer (eccFinding (upsetEcc s addr.toNat .double) addr.toNat true false) tag.toNat (2, 0))) := by
    rw [exec_hostRead, inbound_on on, hostRead_passes word hosts pwr wins, bankRead_bad word.2.2 (eccAt_upset s addr.toNat)]
    rfl
  have found := signals_eccFinding (upsetEcc s addr.toNat .double) addr.toNat true false
  obtain ⟨⟨bytes, contexts⟩, -, sent⟩ := found.answered tag.toNat 2 0
  refine ⟨_, ran, ⟨bytes, contexts⟩, sent, ?_⟩
  rw [eccAt_settle]
  exact (congrArg (fun m => SMap.get 0 m addr.toNat) found.ecc).trans (eccAt_upset s addr.toNat)

/-- A write of the bytes that BE names to a clean word (R283, R375). -/
theorem write_answers (on : PortOn s) (some_ : be ≠ 0)
    (word : 0x10000000 ≤ addr.toNat ∧ addr.toNat < 0x10200000 ∧ addr.toNat % 8 = 0)
    (hosts : (bankN s (bankOf addr.toNat)).own = .owned ∧ fld (bankN s (bankOf addr.toNat)).owner 18 2 = 3)
    (pwr : (bankN s (bankOf addr.toNat)).pwr = 0) (clean : eccAt s addr.toNat = 0)
    (wins : r.any (loses .h true false) = false) :
    ∃ t, exec (.hostWrite addr be d tag r .none) s = .next t ∧ SameContexts s t ∧ SameRegisters s t ∧ t.bank = s.bank ∧
      Sent s tag.toNat 0 0 t ∧ eccAt t addr.toNat = 0 ∧
      (∀ i, i < 8 → rdB t (addr.toNat + i) = if be.getLsbD i = true then (d >>> (8 * i)).truncate 8 else rdB s (addr.toNat + i)) ∧
      ∀ k, k < spareBase → k < addr.toNat ∨ addr.toNat + 8 ≤ k → rdB t k = rdB s k := by
  have low : addr.toNat + 8 ≤ spareBase := by rw [spareBase]; omega
  obtain ⟨fits, put, good, named⟩ := portWrite_clean be d word.2.2 low clean
  have ran : exec (.hostWrite addr be d tag r .none) s =
      .next (settle (answer (portWrite s addr.toNat be d).1 tag.toNat (0, 0))) := by
    rw [exec_hostWrite, inbound_on on, hostWrite_passes some_ word hosts pwr wins, fits]
    rfl
  generalize (portWrite s addr.toNat be d).1 = v at ran put good named
  obtain ⟨bytes, contexts, regs, bank, ecc, -, last, out⟩ := answered v tag.toNat 0 0
  obtain ⟨m, e, x, rfl⟩ := put.rest
  exact ⟨_, ran, fun w => (contexts w).trans (by cases w <;> rfl), regs, bank, ⟨last, out⟩, (ecc _).trans good,
    fun i hi => (bytes _).trans (named i hi), fun k hk hw => (bytes k).trans (put.bytes k hk hw)⟩

/-! ### RELEASE and DOORBELL -/

theorem exec_releaseBank : exec (.releaseBank addr tag) s = .next (settle (inbound s tag.toNat (fun t => releaseReq t addr.toNat))) := rfl

theorem exec_doorbell : exec (.doorbell d tag) s = .next (settle (inbound s tag.toNat (fun t => doorbellReq t d))) := rfl

/-- The host may hand bank `n` back. -/
def MayRelease (s : State) (a : Nat) : Prop := 0x10000000 ≤ a ∧ a < 0x10200000 ∧
  ((bankN s (bankOf a)).own = .owned ∧ fld (bankN s (bankOf a)).owner 18 2 = 3) ∧
  ¬ (bankOf a = 0 ∧ vtlock s = true) ∧ copying s (bankOf a) = false

theorem mayRelease_iff (s : State) (a : Nat) : (!hostBank a || (bankN s (bankOf a)).own != .owned ||
    fld (bankN s (bankOf a)).owner 18 2 != 3 || (bankOf a == 0 && vtlock s) || copying s (bankOf a)) = false ↔ MayRelease s a := by
  rw [Bool.or_eq_false_iff, Bool.or_eq_false_iff, Bool.or_eq_false_iff, Bool.or_eq_false_iff, Bool.not_eq_false', hostBank_iff,
    bne_eq_false_iff_eq, bne_eq_false_iff_eq, ← Bool.not_eq_true, Bool.and_eq_true, beq_iff_eq, MayRelease]
  constructor
  · rintro ⟨⟨⟨⟨⟨low, high⟩, own⟩, host⟩, lock⟩, copy⟩
    exact ⟨low, high, ⟨own, host⟩, lock, copy⟩
  · rintro ⟨low, high, ⟨own, host⟩, lock, copy⟩
    exact ⟨⟨⟨⟨⟨low, high⟩, own⟩, host⟩, lock⟩, copy⟩

theorem release_refused (on : PortOn s) (h : ¬ MayRelease s addr.toNat) :
    exec (.releaseBank addr tag) s = .next (settle (answer s tag.toNat (3, 0))) := by
  have bad := Bool.eq_true_of_not_eq_false (mt (mayRelease_iff s addr.toNat).1 h)
  rw [exec_releaseBank, inbound_on on, releaseReq]
  dsimp only
  rw [if_pos bad]

/-- A bank that is being handed back (R289). -/
def handedBack (b : Bank) (v : Word) : Bank := { b with
  own := .handing, next := v, beforeHost := if fld v 18 2 = 3 then b.owner else b.beforeHost, hrel := true }

theorem release_eq {n : Nat} {v : Word} (on : PortOn s) (h : MayRelease s addr.toNat) (hn : bankOf addr.toNat = n)
    (hv : (bankN s n).beforeHost &&& 0x7FFFFFFF#32 = v) :
    ∃ u, exec (.releaseBank addr tag) s = .next (settle (answer u tag.toNat (0, 0))) ∧
      (∃ m, u = { setR s (aBnkOwner + 4 * n) v with bank := m }) ∧
      ∀ k, bankN u k = if k = n then handedBack (bankN s n) v else bankN s k := by
  have good := (mayRelease_iff s addr.toNat).2 h
  refine ⟨modBank (startHand (setR s (aBnkOwner + 4 * n) v) n v) n (fun x => { x with hrel := true }), ?_, ⟨_, rfl⟩, fun k => ?_⟩
  · rw [exec_releaseBank, inbound_on on, releaseReq]
    dsimp only
    rw [if_neg (by rw [good]; decide), hn, hv]
  · rw [modBank, bankN_setBank, startHand, modBank, bankN_setBank, bankN_setBank, if_pos rfl]
    split
    · rfl
    · rfl

/-- A bank handed back starts its hand-over to the owner before the host, without a wipe (R289). -/
theorem release_hands {n : Nat} {v : Word} (on : PortOn s) (h : MayRelease s addr.toNat) (hn : bankOf addr.toNat = n)
    (hv : (bankN s n).beforeHost &&& 0x7FFFFFFF#32 = v) :
    ∃ t, exec (.releaseBank addr tag) s = .next t ∧ SameProgram s t ∧ SameRegistersBut [aBnkOwner + 4 * n] s t ∧
      Sent s tag.toNat 0 0 t ∧ getR t (aBnkOwner + 4 * n) = v ∧ (∀ k, k ≠ n → bankN t k = bankN s k) ∧
      (bankN t n).own = .handing ∧ (bankN t n).next = v ∧ (bankN t n).hrel = true ∧ (bankN t n).owner = (bankN s n).owner := by
  obtain ⟨u, ran, ⟨m, rest⟩, handed⟩ := release_eq (tag := tag) on h hn hv
  obtain ⟨bytes, contexts, regs, bank, -, -, last, out⟩ := answered u tag.toNat 0 0
  have banks : ∀ k, bankN (settle (answer u tag.toNat (0, 0))) k = if k = n then handedBack (bankN s n) v else bankN s k :=
    fun k => by rw [bankN, bank]; exact handed k
  subst rest
  refine ⟨_, ran, ⟨bytes, fun w => (contexts w).trans (by cases w <;> rfl)⟩, fun a ha => (regs a).trans ?_, ⟨last, out⟩,
    (regs _).trans ?_, fun k hk => (banks k).trans (if_neg hk), ?_, ?_, ?_, ?_⟩
  · exact (getR_setR s _ a v).trans (if_neg (fun e => ha (List.mem_singleton.2 e)))
  · exact (getR_setR s _ _ v).trans (if_pos rfl)
  · rw [banks, if_pos rfl]; rfl
  · rw [banks, if_pos rfl]; rfl
  · rw [banks, if_pos rfl]; rfl
  · rw [banks, if_pos rfl]; rfl

/-- A doorbell sets its bits and triggers source 39 (R375). -/
theorem doorbell_rings (on : PortOn s) : ∃ t, exec (.doorbell d tag) s = .next t ∧ SameProgram s t ∧ Sent s tag.toNat 0 0 t ∧
    SameRegistersBut (aHptDbell :: eventRegs 39) s t ∧ getR t aHptDbell = getR s aHptDbell ||| d.truncate 32 ∧
    (srcOf t 39).edgecnt = (srcOf s 39).edgecnt + 1 := by
  have ran : exec (.doorbell d tag) s = .next (settle (answer (trigger (orR s aHptDbell (loW d)) 39) tag.toNat (0, 0))) := by
    rw [exec_doorbell, inbound_on on]
    rfl
  have rings := ((signals_setR s aHptDbell (getR s aHptDbell ||| loW d)).mono (l' := aHptDbell :: eventRegs 39) (ns' := [39, 7, 27])
    (List.cons_subset.2 ⟨List.mem_cons_self, List.nil_subset _⟩) (List.nil_subset _)).trans
    ((signals_trigger (orR s aHptDbell (loW d)) 39).mono (List.subset_cons_self _ _) (List.Subset.refl _))
  obtain ⟨program, regs, sent⟩ := rings.answered tag.toNat 0 0
  refine ⟨_, ran, program, sent, regs, ?_, ?_⟩
  · rw [getR_settle]
    have kept : getR (trigger (orR s aHptDbell (loW d)) 39) aHptDbell = getR (orR s aHptDbell (loW d)) aHptDbell :=
      (signals_trigger _ 39).csr aHptDbell (by decide)
    exact kept.trans ((getR_setR s _ _ _).trans (if_pos rfl))
  · rw [srcOf_settle]
    exact (edgecnt_trigger (orR s aHptDbell (loW d)) rfl (by decide) (by decide))

end

end Sys2Proof.Machine
end

section
/-! SUPPORT. Responses of the host to outbound requests (spec/15 R374). -/

namespace Sys2Proof.Machine

@[simp] theorem outOf_setOut (s : State) (g j : Nat) (o : Option OutReq) : outOf (setOut s g o) j = if j = g then o else outOf s j :=
  SMap.get_set none s.hpt.out g j o

/-- The host port has nothing to send. -/
theorem hostSend_idle {s : State} (h : ∀ e ∈ s.cons, unsent e.2 = false) : hostSend s = s := by
  rw [hostSend_eq]
  have none_ : s.cons.filter (fun e => unsent e.2 && !hostBehind s e.2) = [] :=
    List.filter_eq_nil_iff.2 fun e he => by rw [h e he, Bool.false_and]; exact Bool.false_ne_true
  rw [none_, List.mergeSort_nil]
  exact ite_self _

/-- Freeing an entry leaves nothing more to send. -/
theorem unsent_freeCons {s : State} {e : Nat} (h : ∀ x ∈ s.cons, unsent x.2 = false) :
    ∀ x ∈ (freeCons s e).cons, unsent x.2 = false := by
  intro x hx
  by_cases hk : x.1 = e
  · rw [SMap.eq_of_mem_set (m := s.cons) (d := ({} : Cons)) hx hk]
    rfl
  · have old : x ∈ SMap.set ({} : Cons) s.cons e { gen := (consOf s e).gen } := hx
    unfold SMap.set at old
    have kept : x ∈ SMap.erase s.cons e := by
      split at old
      · exact old
      · exact (SMap.mem_insert old).resolve_left (fun eq => hk (congrArg Prod.fst eq))
    rw [SMap.erase_eq_filter] at kept
    exact h x (List.mem_filter.1 kept).1

theorem exec_hostResponse {s : State} (up : s.up = true) (tag : BitVec 12) (stat : BitVec 2) (d : DWord) :
    exec (.hostResponse tag stat d) s = .next (settle (hostResponse s tag.toNat stat.toNat d)) := by
  have ran : exec (.hostResponse tag stat d) s = execHostResponse tag stat d s := rfl
  rw [ran, execHostResponse, whenUp, if_pos up]
  rfl

theorem exec_hostBusyResend (tag : BitVec 12) (s : State) : exec (.hostBusyResend tag) s = .next (settle (hostResend s tag.toNat)) := rfl

theorem hostResend_busy {s : State} {g : Nat} {o : OutReq} (h : outOf s g = some o) (busy : o.busy = true) :
    hostResend s g = setOut s g (some { o with busy := false }) := by
  unfold hostResend
  rw [h]
  exact if_pos busy

/-! ### Responses that end nothing -/

section
variable {s : State} {g st : Nat} {d : DWord} {o : OutReq}

theorem hostResponse_unknown (open_ : unitSt s 2 ≠ 0) (h : outOf s g = none) : hostResponse s g st d = bumpR s aHptErr 24 8 1 := by
  unfold hostResponse
  rw [if_neg open_, h]

theorem hostResponse_gone (open_ : unitSt s 2 ≠ 0) (h : outOf s g = some o) (gone : o.gone = true) :
    hostResponse s g st d = setOut s g none := by
  unfold hostResponse
  rw [if_neg open_, h]
  exact if_pos gone

theorem hostResponse_busy (open_ : unitSt s 2 ≠ 0) (h : outOf s g = some o) (here : o.gone = false) (st1 : st = 1)
    (more : o.tries < fld (getR s aHptCfg) 4 4) :
    hostResponse s g st d = setOut s g (some { o with busy := true, tries := o.tries + 1 }) := by
  unfold hostResponse
  rw [if_neg open_, h]
  dsimp only
  rw [if_neg (by rw [here]; decide), if_pos ⟨st1, more⟩]

/-- A step that touches the requests sent alone. -/
theorem setOut_same (s : State) (g : Nat) (o : Option OutReq) : let t := settle (setOut s g o)
    SameProgram s t ∧ SameRegisters s t ∧ t.cons = s.cons ∧ outOf t g = o := by
  refine ⟨⟨fun a => rdB_settle _ a, fun w => (seen_settle _ w).trans (by cases w <;> rfl)⟩, fun a => getR_settle _ a,
    settle_cons _, ?_⟩
  rw [outOf, settle_hpt]
  exact (outOf_setOut s g g o).trans (if_pos rfl)

theorem unknown_counted (s : State) : let t := settle (bumpR s aHptErr 24 8 1)
    SameProgram s t ∧ SameRegistersBut [aHptErr] s t ∧ t.cons = s.cons ∧
      fld (getR t aHptErr) 24 8 = satAdd 255 (fld (getR s aHptErr) 24 8) 1 := by
  have only := onlyRegisters_bumpR s aHptErr 24 8 1
  refine ⟨only.settle_program, only.settle_registers, settle_cons _, ?_⟩
  rw [getR_settle]
  exact fld_bumpR s aHptErr 1 (by decide)

end

/-! ### Final responses -/

/-- The final response to the request `o` of tag `g`, the first of its access. -/
structure FinalAnswer (s : State) (g st : Nat) (o : OutReq) : Prop where
  sent : outOf s g = some o
  here : o.gone = false
  spent : st = 1 → fld (getR s aHptCfg) 4 4 ≤ o.tries
  used : (consOf s o.entry).used = true
  gen : (consOf s o.entry).gen = o.gen
  done : (consOf s o.entry).done = none
  tag : (consOf s o.entry).tag = some g
  orphan : (consOf s o.entry).orphan = false
  first : (consOf s o.entry).first = none
  rest : ∀ e ∈ s.cons, unsent e.2 = false

/-- What the port counts of a response that is not OK (R374). -/
def countResponse (s : State) (st : Nat) : State :=
  if st = 1 then bumpR s aHptErr 16 8 1 else if st = 2 then bumpR s aHptErr 8 8 1 else if st = 3 then bumpR s aHptErr 0 8 1 else s

/-- The status with which an access completes (R374). -/
def responseStatus (st : Nat) : BitVec 3 := if st = 0 then 0 else if st = 3 then 3 else 6

/-- The entry is free again, and no other entry has changed. -/
def Freed (s t : State) (g e : Nat) : Prop :=
  outOf t g = none ∧ consOf t e = { gen := (consOf s e).gen } ∧ ∀ f, f ≠ e → consOf t f = consOf s f

section
variable {s : State} {g st : Nat} {d : DWord} {o : OutReq}

theorem FinalAnswer.response (h : FinalAnswer s g st o) (open_ : unitSt s 2 ≠ 0) :
    hostResponse s g st d = hostSend (hostFinal (countResponse (setOut s g none) st) o.entry (responseStatus st) d) := by
  have live : ((consOf (setOut s g none) o.entry).used && (consOf (setOut s g none) o.entry).gen == o.gen &&
      (consOf (setOut s g none) o.entry).done.isNone && (consOf (setOut s g none) o.entry).tag == some g) = true := by
    rw [show consOf (setOut s g none) o.entry = consOf s o.entry from rfl, h.used, h.done, beq_iff_eq.2 h.gen, beq_iff_eq.2 h.tag]
    rfl
  unfold hostResponse
  rw [if_neg open_, h.sent]
  dsimp only
  rw [if_neg (by rw [h.here]; decide), if_neg (fun both => absurd (h.spent both.1) (Nat.not_le.2 both.2)), if_pos live]
  rfl

/-- The counts leave the table, the bytes and the contexts. -/
theorem countResponse_rest (s : State) (st : Nat) : OnlyRegisters [aHptErr] s (countResponse s st) := by
  unfold countResponse
  split
  · exact onlyRegisters_bumpR s aHptErr 16 8 1
  · split
    · exact onlyRegisters_bumpR s aHptErr 8 8 1
    · split
      · exact onlyRegisters_bumpR s aHptErr 0 8 1
      · exact ⟨⟨s.csr, rfl⟩, fun _ _ => rfl⟩

theorem countResponse_ok (s : State) : countResponse s 0 = s := rfl

theorem countResponse_counts {s : State} {st : Nat} (bad : st ≠ 0) (small : st < 4) :
    let lo := if st = 1 then 16 else if st = 2 then 8 else 0
    fld (getR (countResponse s st) aHptErr) lo 8 = satAdd 255 (fld (getR s aHptErr) lo 8) 1 := by
  unfold countResponse
  by_cases h1 : st = 1
  · rw [if_pos h1, if_pos h1]
    exact fld_bumpR s aHptErr 1 (by decide)
  · rw [if_neg h1, if_neg h1]
    by_cases h2 : st = 2
    · rw [if_pos h2, if_pos h2]
      exact fld_bumpR s aHptErr 1 (by decide)
    · rw [if_neg h2, if_neg h2, if_pos (show st = 3 by omega)]
      exact fld_bumpR s aHptErr 1 (by decide)

theorem freed_of {u : State} {e : Nat} (hcons : ∀ f, consOf u f = if f = e then { gen := (consOf s e).gen } else consOf s f)
    (hout : outOf u g = none) : Freed s (settle u) g e := by
  refine ⟨?_, ?_, fun f hf => ?_⟩
  · rw [outOf, settle_hpt]
    exact hout
  · rw [consOf_settle, hcons, if_pos rfl]
  · rw [consOf_settle, hcons, if_neg hf]

theorem cons_fillLoad (s : State) (w : Who) (e : Nat) (lo hi : Word) : (fillLoad s w e lo hi).cons = s.cons := by
  cases w <;> rfl

/-- Delivering a store that has been performed frees its entry. -/
theorem deliverCons_store {u : State} {e : Nat} {x : DWord} {i : Word} (kind : (consOf u e).kind = .store) :
    deliverCons u e 0 x i = freeCons u e := by
  unfold deliverCons
  dsimp only
  rw [kind]
  dsimp only
  split
  · rfl
  · exact if_pos (.inl rfl)

/-- Delivering a load fills the pending entries and frees the table entry. -/
theorem deliverCons_load {u : State} {e : Nat} {x : DWord} {i : Word} {sg : Bool} (kind : (consOf u e).kind = .load sg)
    (orphan : (consOf u e).orphan = false) : deliverCons u e 0 x i =
      freeCons (fillLoad u (consWho (consOf u e)) e (extend sg (consOf u e).size x) (hiW x)) e := by
  unfold deliverCons
  dsimp only
  rw [kind, orphan, if_neg Bool.false_ne_true, if_pos (show (0 : BitVec 3) = 0 from rfl)]
  exact if_pos (Or.inl rfl)

/-- A failed store is delivered to its issuer as an imprecise exception (R144). -/
theorem deliverCons_storeFails {u : State} {e : Nat} {st : BitVec 3} {x : DWord} {i : Word} (kind : (consOf u e).kind = .store)
    (orphan : (consOf u e).orphan = false) (bad : st ≠ 0) (here : ((consOf u e).fast && u.fastOn.isNone) = false) :
    deliverCons u e st x i = deliverItem (freeCons u e) (consWho (consOf u e)) (consItem (consOf u e) st i) := by
  unfold deliverCons
  dsimp only
  rw [kind, orphan, if_neg Bool.false_ne_true]
  exact if_neg (fun both => Or.elim both bad (fun away => absurd (here.symm.trans away) Bool.false_ne_true))

section
variable {u : State} {e : Nat} {d : DWord} (first : (consOf u e).first = none)
include first

theorem hostFinal_ok (one : (wordParts (consOf u e).addr (consOf u e).size).length = 1) : hostFinal u e 0 d =
    deliverCons u e 0 (BitVec.ofNat 64 (hostBytes (hostPart (consOf u e)).1 (hostPart (consOf u e)).2 d)) 0 := by
  unfold hostFinal
  dsimp only
  rw [if_neg (not_not_intro rfl), first]
  exact if_neg (by rw [one]; decide)

theorem hostFinal_half (two : (wordParts (consOf u e).addr (consOf u e).size).length = 2) : hostFinal u e 0 d =
    hostSend (setCons u e { consOf u e with
      tag := none, first := some (BitVec.ofNat 64 (hostBytes (hostPart (consOf u e)).1 (hostPart (consOf u e)).2 d)) }) := by
  unfold hostFinal
  dsimp only
  rw [if_neg (not_not_intro rfl), first]
  exact if_pos two

theorem hostFinal_fails {st : BitVec 3} (bad : st ≠ 0) : hostFinal u e st d = deliverCons u e st 0 (finfo (consOf u e).size e) := by
  unfold hostFinal
  dsimp only
  rw [if_pos bad, first]

end

/-- A final response to a store that the host has done: its entry is free. -/
theorem FinalAnswer.store (h : FinalAnswer s g 0 o) (open_ : unitSt s 2 ≠ 0) (kind : (consOf s o.entry).kind = .store)
    (one : (wordParts (consOf s o.entry).addr (consOf s o.entry).size).length = 1) :
    hostResponse s g 0 d = freeCons (setOut s g none) o.entry := by
  rw [h.response open_, countResponse_ok]
  have final : hostFinal (setOut s g none) o.entry (responseStatus 0) d = freeCons (setOut s g none) o.entry :=
    (hostFinal_ok (u := setOut s g none) h.first one).trans (deliverCons_store (u := setOut s g none) kind)
  rw [final]
  exact hostSend_idle (unsent_freeCons (s := setOut s g none) h.rest)

theorem FinalAnswer.storeLeaves (h : FinalAnswer s g 0 o) (open_ : unitSt s 2 ≠ 0) (kind : (consOf s o.entry).kind = .store)
    (one : (wordParts (consOf s o.entry).addr (consOf s o.entry).size).length = 1) :
    let t := settle (hostResponse s g 0 d)
    SameProgram s t ∧ SameRegisters s t ∧ Freed s t g o.entry := by
  rw [h.store open_ kind one]
  refine ⟨⟨fun a => rdB_settle _ a, fun w => (seen_settle _ w).trans (by cases w <;> rfl)⟩, fun a => getR_settle _ a,
    freed_of (fun f => (consOf_setCons _ _ _ _).trans rfl) ((outOf_setOut s g g none).trans (if_pos rfl))⟩

/-- A final response to a load: its value is in the heads, and its entry free. -/
theorem FinalAnswer.load (h : FinalAnswer s g 0 o) (open_ : unitSt s 2 ≠ 0) {sg : Bool} (kind : (consOf s o.entry).kind = .load sg)
    (one : (wordParts (consOf s o.entry).addr (consOf s o.entry).size).length = 1) :
    hostResponse s g 0 d = freeCons (fillLoad (setOut s g none) (consWho (consOf s o.entry)) o.entry
      (extend sg (consOf s o.entry).size (BitVec.ofNat 64 (hostBytes (hostPart (consOf s o.entry)).1 (hostPart (consOf s o.entry)).2 d)))
      (hiW (BitVec.ofNat 64 (hostBytes (hostPart (consOf s o.entry)).1 (hostPart (consOf s o.entry)).2 d)))) o.entry := by
  rw [h.response open_, countResponse_ok]
  have final := (hostFinal_ok (u := setOut s g none) (d := d) h.first one).trans
    (deliverCons_load (u := setOut s g none) kind h.orphan)
  rw [show responseStatus 0 = 0 from rfl]
  rw [final]
  exact hostSend_idle (unsent_freeCons fun e he => h.rest e (by rwa [cons_fillLoad] at he))

theorem fillHead_eq (e : Nat) (lo hi : Word) (l : List Entry) : fillHead e lo hi l =
    l.map (fun x => if x = .load e false then .val lo else if x = .load e true then .val hi else x) := by
  refine List.map_congr_left fun x _ => ?_
  cases x with
  | load f b =>
    by_cases hf : f = e
    · subst hf
      cases b
      · simp
      · simp
    · simp [hf]
  | _ => simp

theorem consOf_fillLoad (s : State) (w : Who) (e : Nat) (lo hi : Word) (f : Nat) : consOf (fillLoad s w e lo hi) f = consOf s f := by
  cases w <;> rfl

theorem FinalAnswer.loadLeaves (h : FinalAnswer s g 0 o) (open_ : unitSt s 2 ≠ 0) {sg : Bool} (kind : (consOf s o.entry).kind = .load sg)
    (one : (wordParts (consOf s o.entry).addr (consOf s o.entry).size).length = 1) :
    let t := settle (hostResponse s g 0 d)
    let k := consOf s o.entry
    let w := consWho k
    let x := BitVec.ofNat 64 (hostBytes (hostPart k).1 (hostPart k).2 d)
    SameMemory s t ∧ SameRegisters s t ∧ SameOthers s t w ∧ Freed s t g o.entry ∧
      (getC t w).dhead = fillHead o.entry (extend sg k.size x) (hiW x) (getC s w).dhead ∧
      (getC t w).rhead = fillHead o.entry (extend sg k.size x) (hiW x) (getC s w).rhead := by
  rw [h.load open_ kind one]
  intro t k w x
  generalize hlo : extend sg (consOf s o.entry).size x = lo
  generalize hhi : hiW x = hi
  have filled : t = settle (freeCons (fillLoad (setOut s g none) w o.entry lo hi) o.entry) := by rw [← hlo, ← hhi]
  rw [filled]
  have who : ∀ v, getC (freeCons (fillLoad (setOut s g none) w o.entry lo hi) o.entry) v =
      getC (fillLoad (setOut s g none) w o.entry lo hi) v := fun v => by cases v <;> rfl
  have self : getC (fillLoad (setOut s g none) w o.entry lo hi) w = { getC s w with
      dhead := fillHead o.entry lo hi (getC s w).dhead, rhead := fillHead o.entry lo hi (getC s w).rhead } := by
    rw [fillLoad, getC_modC_self]
    cases w <;> rfl
  refine ⟨fun a => (rdB_settle _ a).trans (by cases w <;> rfl), fun a => (getR_settle _ a).trans (by cases w <;> rfl),
    fun v hv => (seen_settle _ v).trans ?_, freed_of (fun f => ?_) ?_, ?_, ?_⟩
  · rw [who, fillLoad, getC_modC_other _ _ _ _ hv]
    cases v <;> rfl
  · rw [freeCons, consOf_setCons, consOf_fillLoad, consOf_fillLoad]
    rfl
  · have out : outOf (freeCons (fillLoad (setOut s g none) w o.entry lo hi) o.entry) g = outOf (setOut s g none) g := by
      cases w <;> rfl
    rw [out, outOf_setOut, if_pos rfl]
  · rw [settle_dhead, who, self]
  · rw [settle_rhead, who, self]

/-- A failed store of a coach: the count, its exception, and the free entry (R144, R374). -/
theorem FinalAnswer.failure (h : FinalAnswer s g st o) (open_ : unitSt s 2 ≠ 0) (bad : st ≠ 0)
    (slow : (consOf s o.entry).fast = false) (kind : (consOf s o.entry).kind = .store) :
    hostResponse s g st d = deliverItem (freeCons (countResponse (setOut s g none) st) o.entry) (consWho (consOf s o.entry))
      (consItem (consOf s o.entry) (responseStatus st) (finfo (consOf s o.entry).size o.entry)) := by
  obtain ⟨m, rest⟩ := (countResponse_rest (setOut s g none) st).rest
  have status : responseStatus st ≠ 0 := by
    unfold responseStatus
    rw [if_neg bad]
    split
    · decide
    · decide
  have entry : consOf (countResponse (setOut s g none) st) o.entry = consOf s o.entry := by rw [rest]; rfl
  have table : (countResponse (setOut s g none) st).cons = s.cons := by rw [rest]; rfl
  rw [h.response open_, hostFinal_fails (by rw [entry]; exact h.first) status,
    deliverCons_storeFails (by rw [entry]; exact kind) (by rw [entry]; exact h.orphan) status (by rw [entry, slow]; rfl), entry]
  refine hostSend_idle fun e he => unsent_freeCons (s := countResponse (setOut s g none) st) (e := o.entry) ?_ e ?_
  · rw [table]
    exact h.rest
  · revert he
    cases consWho (consOf s o.entry) <;> exact id

theorem FinalAnswer.failureLeaves (h : FinalAnswer s g st o) (open_ : unitSt s 2 ≠ 0) (bad : st ≠ 0) (small : st < 4)
    (slow : (consOf s o.entry).fast = false) (kind : (consOf s o.entry).kind = .store) :
    let t := settle (hostResponse s g st d)
    let k := consOf s o.entry
    let w := consWho k
    let lo := if st = 1 then 16 else if st = 2 then 8 else 0
    SameMemory s t ∧ SameOthers s t w ∧ Freed s t g o.entry ∧ SameRegistersBut [aHptErr] s t ∧
      fld (getR t aHptErr) lo 8 = satAdd 255 (fld (getR s aHptErr) lo 8) 1 ∧
      (getC t w).imprecise = (getC s w).imprecise ++ [consItem k (responseStatus st) (finfo k.size o.entry)] := by
  rw [h.failure open_ bad slow kind]
  have counts := countResponse_counts (s := setOut s g none) bad small
  have counted := countResponse_rest (setOut s g none) st
  generalize countResponse (setOut s g none) st = v at counts counted
  intro t k w lo
  obtain ⟨m, rest⟩ := counted.rest
  have csr : ∀ a, getR t a = getR v a := fun a => (getR_settle _ a).trans (by
    change getR (deliverItem (freeCons v o.entry) w _) a = _
    cases w <;> rfl)
  have who : ∀ x, getC (freeCons v o.entry) x = getC s x := fun x => by rw [rest]; cases x <;> rfl
  have cons : ∀ (u : State) (x : XItem) (f : Nat), consOf (deliverItem u w x) f = consOf u f := fun u x f => by cases w <;> rfl
  refine ⟨fun a => (rdB_settle _ a).trans ?_, fun x hx => (seen_settle _ x).trans ?_, freed_of (fun f => ?_) ?_,
    fun a ha => (csr a).trans (counted.but a ha), ?_, ?_⟩
  · change rdB (deliverItem (freeCons v o.entry) w _) a = _
    rw [rest]
    cases w <;> rfl
  · rw [deliverItem, getC_modC_other _ _ _ _ hx, who]
  · rw [cons, freeCons, consOf_setCons]
    rw [rest]
    rfl
  · have out : outOf (deliverItem (freeCons v o.entry) w (consItem k (responseStatus st) (finfo k.size o.entry))) g =
        outOf (setOut s g none) g := by
      rw [rest]
      cases w <;> rfl
    exact out.trans ((outOf_setOut s g g none).trans (if_pos rfl))
  · rw [csr]
    exact counts
  · rw [settle_imprecise, deliverItem, getC_modC_self, who]
    rfl

/-- The first half of an access at two words has been answered; the second is sent (R54). -/
theorem FinalAnswer.half (h : FinalAnswer s g 0 o) (open_ : unitSt s 2 ≠ 0)
    (two : (wordParts (consOf s o.entry).addr (consOf s o.entry).size).length = 2) :
    let t := settle (hostResponse s g 0 d)
    let k := consOf s o.entry
    SameProgram s t ∧ SameRegisters s t ∧
      (consOf t o.entry).first = some (BitVec.ofNat 64 (hostBytes (hostPart k).1 (hostPart k).2 d)) ∧
      (consOf t o.entry).done = none := by
  intro t k
  generalize hx : hostBytes (hostPart k).1 (hostPart k).2 d = x
  have final : hostFinal (setOut s g none) o.entry (responseStatus 0) d =
      hostSend (setCons (setOut s g none) o.entry { k with tag := none, first := some (BitVec.ofNat 64 x) }) :=
    hx ▸ hostFinal_half (u := setOut s g none) (d := d) h.first two
  have sends : hostResponse s g 0 d = hostSend (hostSend (setCons (setOut s g none) o.entry
      { k with tag := none, first := some (BitVec.ofNat 64 x) })) := by
    rw [h.response open_, countResponse_ok, final]
  have frame : SameButSends s (hostResponse s g 0 d) := by
    rw [sends]
    exact (SameButSends.trans ⟨_, _, rfl⟩ (hostSend_frame _)).trans (hostSend_frame _)
  have entry : ∃ tag, consOf (hostResponse s g 0 d) o.entry = { k with tag := tag, first := some (BitVec.ofNat 64 x) } := by
    rw [sends]
    have start : consOf (setCons (setOut s g none) o.entry { k with tag := none, first := some (BitVec.ofNat 64 x) }) o.entry =
        { k with tag := none, first := some (BitVec.ofNat 64 x) } := (consOf_setCons _ _ _ _).trans (if_pos rfl)
    obtain ⟨t1, e1⟩ := (posts_hostSend [] (setCons (setOut s g none) o.entry { k with tag := none, first := some (BitVec.ofNat 64 x) })
      .fast).kept o.entry (by rw [start]; exact h.used)
    rw [start] at e1
    obtain ⟨t2, e2⟩ := (posts_hostSend [] (hostSend (setCons (setOut s g none) o.entry
      { k with tag := none, first := some (BitVec.ofNat 64 x) })) .fast).kept o.entry (by rw [e1]; exact h.used)
    rw [e1] at e2
    exact ⟨t2, e2⟩
  obtain ⟨c, p, rest⟩ := frame
  obtain ⟨tag, held⟩ := entry
  refine ⟨⟨fun a => (rdB_settle _ a).trans ?_, fun w => (seen_settle _ w).trans ?_⟩, fun a => (getR_settle _ a).trans ?_, ?_, ?_⟩
  · rw [rest]; rfl
  · rw [rest]; cases w <;> rfl
  · rw [rest]; rfl
  · rw [consOf_settle, held]
  · rw [consOf_settle, held]
    exact h.done

end

end Sys2Proof.Machine
end

section
/-! SUPPORT. The host port as a whole (O57). -/

namespace Sys2Proof.Machine

theorem inbound_untouched {s : State} (tag : Nat) (f : State → State × Nat × DWord) :
    (s.up = false ∨ unitSt s 2 ≠ 2 → settle (inbound s tag f) = settle s) ∧
    (s.up = true → unitSt s 2 = 2 → bit (getR s aHptCfg) 0 = false →
      Untouched s (settle (inbound s tag f)) ∧ Sent s tag 3 0 (settle (inbound s tag f))) := by
  refine ⟨fun off => by rw [inbound_off off], fun up unit off => ?_⟩
  rw [inbound_denied up unit off]
  exact untouched_answer s tag 3 0

/-- Every request of the host passes the port. -/
theorem request_inbound (s : State) (addr : Word) (tag : BitVec 12) (be : BitVec 8) (d : DWord) (r : Option Rival) (u : Upset)
    {i : Instr} (h : i ∈ [.hostRead addr tag r u, .hostWrite addr be d tag r u] ++ [.releaseBank addr tag, .doorbell d tag]) :
    ∃ f, exec i s = .next (settle (inbound s tag.toNat f)) := by
  rcases List.mem_append.1 h with access | other
  · rcases List.mem_cons.1 access with rfl | access
    · exact ⟨_, exec_hostRead addr tag r u⟩
    · rw [List.mem_singleton.1 access]
      exact ⟨_, exec_hostWrite addr be d tag r u⟩
  · rcases List.mem_cons.1 other with rfl | other
    · exact ⟨_, exec_releaseBank⟩
    · rw [List.mem_singleton.1 other]
      exact ⟨_, exec_doorbell⟩

/-- Which of the two requests an access is. -/
theorem access_kind {addr : Word} {tag : BitVec 12} {be : BitVec 8} {d : DWord} {r : Option Rival} {u : Upset} {i : Instr}
    (h : i ∈ [Instr.hostRead addr tag r u, .hostWrite addr be d tag r u]) :
    ∃ wr : Bool, i = if wr then .hostWrite addr be d tag r u else .hostRead addr tag r u := by
  rcases List.mem_cons.1 h with rfl | write
  · exact ⟨false, rfl⟩
  · exact ⟨true, List.mem_singleton.1 write⟩

/-- Settles O57: a request is denied, refused, answered BUSY or performed by the way it takes to the bank; a response is matched
with the request of its tag, and the last one completes the access. -/
theorem hostPort : Obligations.HostPort := by
  unfold Obligations.HostPort
  refine ⟨fun s addr tag d be r u => ⟨fun i hi => ?_, fun on some_ i hi => ⟨?_, ?_, ?_, ?_⟩, fun on word empty => ?_,
    fun on word hosts pwr clean => ⟨?_, ?_, ?_⟩, fun on => ⟨?_, ?_⟩, fun on => ?_⟩,
    fun s tag stat d => ⟨?_, fun up open_ => ⟨fun unknown => ?_, fun o sent => ⟨?_, ?_, ?_, ?_, ?_, ?_⟩⟩⟩⟩
  · obtain ⟨f, ran⟩ := request_inbound s addr tag be d r u hi
    obtain ⟨off, denied⟩ := inbound_untouched (s := s) tag.toNat f
    refine ⟨fun h => ran.trans (congrArg Host.Outcome.next (off h)), fun up unit h => ⟨_, ran, denied up unit h⟩⟩
  · intro outside
    obtain ⟨wr, rfl⟩ := access_kind hi
    exact ⟨_, request_outside on some_ wr outside, untouched_answer s tag.toNat 3 0⟩
  · intro word other
    obtain ⟨wr, rfl⟩ := access_kind hi
    obtain ⟨why, ran⟩ := request_foreign (tag := tag) (be := be) (d := d) (r := r) (u := u) on some_ wr word other
    exact ⟨_, ran, foreign_recorded addr.toNat wr why⟩
  · intro word hosts pwr auto
    obtain ⟨wr, rfl⟩ := access_kind hi
    exact ⟨_, request_wakes on some_ wr word hosts pwr auto, wakes_answered pwr⟩
  · intro word hosts pwr wr eq lost
    subst eq
    exact ⟨_, request_loses on some_ wr word hosts pwr lost, loses_answered⟩
  · rw [empty]
    exact ⟨_, empty_write on word, untouched_answer s tag.toNat 0 0⟩
  · rintro wins rfl
    exact ⟨_, read_answers on word hosts pwr clean wins, untouched_answer s tag.toNat 0 _⟩
  · rintro wins rfl
    exact read_fails on word hosts pwr wins
  · rintro wins rfl some_
    exact write_answers on some_ word hosts pwr clean wins
  · intro may
    exact ⟨_, release_refused on may, untouched_answer s tag.toNat 3 0⟩
  · intro may
    exact release_hands on may rfl rfl
  · exact doorbell_rings on
  · intro o sent busy
    rw [exec_hostBusyResend, hostResend_busy sent busy]
    rfl
  · exact ⟨_, (exec_hostResponse up tag stat d).trans (by rw [hostResponse_unknown open_ unknown]), unknown_counted s⟩
  · intro gone
    exact ⟨_, (exec_hostResponse up tag stat d).trans (by rw [hostResponse_gone open_ sent gone]), setOut_same s tag.toNat none⟩
  · intro here st1 more
    exact ⟨_, (exec_hostResponse up tag stat d).trans (by rw [hostResponse_busy open_ sent here st1 more]), setOut_same s tag.toNat _⟩
  · rintro ⟨here, spent, used, gen, done, held, orphan, first, rest⟩ st0 kind one
    have final : FinalAnswer s tag.toNat 0 o := ⟨sent, here, st0 ▸ spent, used, gen, done, held, orphan, first, rest⟩
    exact ⟨_, (exec_hostResponse up tag stat d).trans (by rw [st0]), final.storeLeaves open_ kind one⟩
  · rintro ⟨here, spent, used, gen, done, held, orphan, first, rest⟩ st0 sg kind one
    have final : FinalAnswer s tag.toNat 0 o := ⟨sent, here, st0 ▸ spent, used, gen, done, held, orphan, first, rest⟩
    obtain ⟨memory, regs, others, freed, dhead, rhead⟩ := final.loadLeaves (d := d) open_ kind one
    exact ⟨_, (exec_hostResponse up tag stat d).trans (by rw [st0]), memory, regs, others, freed,
      dhead.trans (fillHead_eq _ _ _ _), rhead.trans (fillHead_eq _ _ _ _)⟩
  · rintro ⟨here, spent, used, gen, done, held, orphan, first, rest⟩ st0 two - - - -
    have final : FinalAnswer s tag.toNat 0 o := ⟨sent, here, st0 ▸ spent, used, gen, done, held, orphan, first, rest⟩
    exact ⟨_, (exec_hostResponse up tag stat d).trans (by rw [st0]), final.half open_ two⟩
  · rintro ⟨here, spent, used, gen, done, held, orphan, first, rest⟩ bad slow kind
    have final : FinalAnswer s tag.toNat stat.toNat o := ⟨sent, here, spent, used, gen, done, held, orphan, first, rest⟩
    obtain ⟨memory, others, freed, regs, count, failed⟩ := final.failureLeaves (d := d) open_ bad stat.isLt slow kind
    refine ⟨_, exec_hostResponse up tag stat d, memory, others, freed, regs, count, failed.trans ?_⟩
    rw [responseStatus, if_neg bad]
    rfl

end Sys2Proof.Machine
end

section
/-! SUPPORT. The E port of a bank (spec/11 R277, R280, R283, R285). -/

namespace Sys2Proof.Machine

/-- Bank `n` is `x` in state `t`, and every other bank as in `s`. -/
def OneBank (n : Nat) (x : Bank) (s t : State) : Prop := (∀ k, k ≠ n → bankN t k = bankN s k) ∧ bankN t n = x

theorem oneBank_setBank {s u : State} {n : Nat} {x : Bank} (h : u.bank = s.bank) : OneBank n x s (setBank u n x) := by
  refine ⟨fun k hk => ?_, ?_⟩
  · rw [bankN_setBank, if_neg hk, bankN, bankN, h]
  · rw [bankN_setBank, if_pos rfl]

theorem OneBank.settle {s t : State} {n : Nat} {x : Bank} (h : OneBank n x s t) : OneBank n x s (settle t) :=
  ⟨fun k hk => (bankN_settle t k).trans (h.1 k hk), (bankN_settle t n).trans h.2⟩

theorem getR_setBank (s : State) (n : Nat) (x : Bank) (a : Nat) : getR (setBank s n x) a = getR s a := rfl

/-- A change of the banks alone. -/
theorem setBank_same (s : State) (n : Nat) (x : Bank) :
    let t := settle (setBank s n x)
    SameProgram s t ∧ SameRegisters s t ∧ OneBank n x s t :=
  ⟨⟨fun a => rdB_settle _ a, fun w => (seen_settle _ w).trans (by cases w <;> rfl)⟩, fun a => getR_settle _ a,
    (oneBank_setBank rfl).settle⟩

/-- A change of a bank after a step on registers alone. -/
theorem OnlyRegisters.setBank {l : List Nat} {s u : State} (h : OnlyRegisters l s u) (n : Nat) (x : Bank) :
    let t := Machine.settle (Machine.setBank u n x)
    SameProgram s t ∧ SameRegistersBut l s t ∧ OneBank n x s t := by
  obtain ⟨m, rest⟩ := h.rest
  refine ⟨⟨fun a => (rdB_settle _ a).trans ?_, fun w => (seen_settle _ w).trans ?_⟩, fun a ha => (getR_settle _ a).trans (h.but a ha),
    (oneBank_setBank ?_).settle⟩
  · rw [rest]; rfl
  · rw [rest]; cases w <;> rfl
  · rw [rest]

/-- A change of a bank after a step that reports events. -/
theorem Signals.setBank {l ns : List Nat} {s u : State} (h : Signals l ns s u) (n : Nat) (x : Bank) :
    let t := Machine.settle (Machine.setBank u n x)
    SameProgram s t ∧ SameRegistersBut l s t ∧ OneBank n x s t :=
  ⟨⟨fun a => (rdB_settle _ a).trans (h.sameMemory a), fun w => (seen_settle _ w).trans ((congrArg Machine.seen (by cases w <;> rfl)).trans (h.seen w))⟩,
    fun a ha => (getR_settle _ a).trans (h.csr a ha), (oneBank_setBank h.bank).settle⟩

theorem exec_bankERetry {s : State} (up : s.up = true) (x : EAccess) :
    exec (.bankERetry x) s = .next (settle (ePort s x.bank.val x.word.toNat x.write x.rival x.upset)) := by
  have ran : exec (.bankERetry x) s = execBankERetry x s := rfl
  rw [ran, execBankERetry, whenUp, if_pos up]
  rfl

section
variable {s : State} {n w : Nat} {wr : Option (BitVec 8 × DWord)} {r : Option Rival} {u : Upset}

/-- BUSY results in a row that the access has met. -/
def eBusy (s : State) (n w : Nat) (wr : Bool) : Nat := if (bankN s n).e.acc = some (w, wr) then (bankN s n).e.busy else 0

theorem ePort_foreign (h : ¬ ((bankN s n).own = .owned ∧ fld (bankN s n).owner 18 2 = 2)) :
    ePort s n w wr r u = eAnswer (recordDeny s 1 (0x10000000 + n * 0x10000 + 8 * w) ⟨0, 0, false⟩ wr.isSome
      (if (bankN s n).own = .owned then 0 else 1)) n .error := by
  unfold ePort bankAns
  dsimp only
  by_cases owned : (bankN s n).own = .owned
  · have other : (fld (bankN s n).owner 18 2 == 2) = false := beq_eq_false_iff_ne.2 fun e => h ⟨owned, e⟩
    rw [if_neg (not_not_intro owned), if_pos owned, other]
    rfl
  · rw [if_pos owned, if_neg owned]

theorem ePort_own (h : (bankN s n).own = .owned ∧ fld (bankN s n).owner 18 2 = 2) (pwr : (bankN s n).pwr = 0) :
    ePort s n w wr r u = if r.any (loses .e wr.isSome (decide (4 ≤ eBusy s n w wr.isSome))) then
      modBank (bumpR s aBnkColl 0 16 1) n (fun b => { b with
        e := { b.e with acc := some (w, wr.isSome), busy := eBusy s n w wr.isSome + 1 } })
    else
      match wr with
      | none => eAnswer (bankRead (upsetEcc s (0x10000000 + n * 0x10000 + 8 * w) u) (0x10000000 + n * 0x10000 + 8 * w) 8).1 n
          (if (bankRead (upsetEcc s (0x10000000 + n * 0x10000 + 8 * w) u) (0x10000000 + n * 0x10000 + 8 * w) 8).2.1 = 0 then
            .data (BitVec.ofNat 64 (bankRead (upsetEcc s (0x10000000 + n * 0x10000 + 8 * w) u) (0x10000000 + n * 0x10000 + 8 * w) 8).2.2)
          else .error)
      | some (be, d) => eAnswer (portWrite (upsetEcc s (0x10000000 + n * 0x10000 + 8 * w) u) (0x10000000 + n * 0x10000 + 8 * w) be d).1 n
          (if (portWrite (upsetEcc s (0x10000000 + n * 0x10000 + 8 * w) u) (0x10000000 + n * 0x10000 + 8 * w) be d).2 then .done else .error) := by
  unfold ePort bankAns
  dsimp only
  rw [if_neg (not_not_intro h.1), beq_iff_eq.2 h.2, if_neg (by decide), powerAns_active pwr] <;> rfl

end

/-! ### One attempt -/

section
variable {s : State} {n : Fin 32} {w : BitVec 13} {wr : Option (BitVec 8 × DWord)} {r : Option Rival} {u : Upset}

/-- Bank `n` and word `w` of an address in the banks. -/
theorem bank_place (n : Fin 32) (w : BitVec 13) : bankOf (0x10000000 + n.val * 0x10000 + 8 * w.toNat) = n.val ∧
    (0x10000000 + n.val * 0x10000 + 8 * w.toNat) % 0x10000 / 8 = w.toNat ∧
    (0x10000000 + n.val * 0x10000 + 8 * w.toNat) % 8 = 0 ∧
    0x10000000 + n.val * 0x10000 + 8 * w.toNat + 8 ≤ spareBase := by
  have hn := n.isLt
  have hw := w.isLt
  rw [bankOf, spareBase]
  omega

/-- The word that records a refusal at the E port. -/
theorem denied_word {p : Prop} [Decidable p] {q : Bool} {y n w : Nat} (h : (if p then 0 else 1) = y) :
    1 * 2 ^ 30 + b2n q * 2 ^ 29 + b2n (Req.mk 0 0 false).unver * 2 ^ 28 + (if 1 = 0 then (Req.mk 0 0 false).ring else 0) * 2 ^ 24 + y * 2 ^ 22 + n * 2 ^ 16 + w =
      2 ^ 30 + (if q = true then 2 ^ 29 else 0) + (if p then 0 else 2 ^ 22) + n * 2 ^ 16 + w := by
  have first : b2n q * 2 ^ 29 = if q = true then 2 ^ 29 else 0 := by cases q <;> rfl
  have second : y * 2 ^ 22 = if p then 0 else 2 ^ 22 := by
    rw [← h]
    split
    · rfl
    · rfl
  have none_ : b2n (Req.mk 0 0 false).unver = 0 := rfl
  rw [first, second, none_, if_neg Nat.one_ne_zero]
  generalize (2 : Nat) ^ 30 = top
  omega

theorem engine_refused (up : s.up = true) (h : ¬ ((bankN s n.val).own = .owned ∧ fld (bankN s n.val).owner 18 2 = 2)) :
    ∃ t, exec (.bankERetry ⟨n, w, wr, r, u⟩) s = .next t ∧ SameProgram s t ∧ SameRegistersBut [aBnkDeny, aBnkDenylast] s t ∧
      OneBank n.val { bankN s n.val with e := ⟨none, 0, some .error⟩ } s t ∧
      (getR t aBnkDeny).toNat = satAdd (2 ^ 32 - 1) (getR s aBnkDeny).toNat 1 ∧
      getR t aBnkDenylast = u32 (2 ^ 30 + (if wr.isSome = true then 2 ^ 29 else 0) +
        (if (bankN s n.val).own = .owned then 0 else 2 ^ 22) + n.val * 2 ^ 16 + w.toNat) := by
  obtain ⟨place, word, -, -⟩ := bank_place n w
  have ran := (exec_bankERetry up ⟨n, w, wr, r, u⟩).trans (congrArg (fun t => Host.Outcome.next (settle t))
    (ePort_foreign (w := w.toNat) (wr := wr) (r := r) (u := u) h))
  generalize hy : (if (bankN s n.val).own = .owned then 0 else 1) = y at ran
  obtain ⟨only, count, last⟩ := onlyRegisters_recordDeny s 1 (0x10000000 + n.val * 0x10000 + 8 * w.toNat) ⟨0, 0, false⟩ wr.isSome y
  rw [place, word] at last
  generalize recordDeny s 1 (0x10000000 + n.val * 0x10000 + 8 * w.toNat) ⟨0, 0, false⟩ wr.isSome y = v at ran only count last
  have bank : bankN v n.val = bankN s n.val := by
    obtain ⟨m, rfl⟩ := only.rest
    rfl
  rw [eAnswer, modBank, bank] at ran
  obtain ⟨program, regs, one⟩ := only.setBank n.val { bankN s n.val with e := ⟨none, 0, some .error⟩ }
  refine ⟨_, ran, program, regs, one, ?_, ?_⟩
  · rw [getR_settle, getR_setBank]
    exact count
  · rw [getR_settle, getR_setBank]
    exact last.trans (congrArg u32 (denied_word hy))

theorem engine_loses (up : s.up = true) (h : (bankN s n.val).own = .owned ∧ fld (bankN s n.val).owner 18 2 = 2)
    (pwr : (bankN s n.val).pwr = 0)
    (lost : r.any (loses .e wr.isSome (decide (4 ≤ eBusy s n.val w.toNat wr.isSome))) = true) :
    ∃ t, exec (.bankERetry ⟨n, w, wr, r, u⟩) s = .next t ∧ SameProgram s t ∧ SameRegistersBut [aBnkColl] s t ∧
      OneBank n.val { bankN s n.val with e := { (bankN s n.val).e with
        acc := some (w.toNat, wr.isSome), busy := eBusy s n.val w.toNat wr.isSome + 1 } } s t ∧
      fld (getR t aBnkColl) 0 16 = satAdd 65535 (fld (getR s aBnkColl) 0 16) 1 := by
  have ran := exec_bankERetry up ⟨n, w, wr, r, u⟩
  rw [ePort_own h pwr, if_pos lost] at ran
  obtain ⟨program, regs, one⟩ := (onlyRegisters_bumpR s aBnkColl 0 16 1).setBank n.val { bankN s n.val with
    e := { (bankN s n.val).e with acc := some (w.toNat, wr.isSome), busy := eBusy s n.val w.toNat wr.isSome + 1 } }
  refine ⟨_, ran, program, regs, one, ?_⟩
  rw [getR_settle]
  exact fld_bumpR s aBnkColl 1 (by decide)

theorem engine_reads (up : s.up = true) (h : (bankN s n.val).own = .owned ∧ fld (bankN s n.val).owner 18 2 = 2)
    (pwr : (bankN s n.val).pwr = 0) (wins : r.any (loses .e false (decide (4 ≤ eBusy s n.val w.toNat false))) = false)
    (clean : eccAt s (0x10000000 + n.val * 0x10000 + 8 * w.toNat) = 0) :
    ∃ t, exec (.bankERetry ⟨n, w, none, r, .none⟩) s = .next t ∧ SameProgram s t ∧ SameRegisters s t ∧ OneBank n.val
      { bankN s n.val with e := ⟨none, 0, some (.data (rd64 s (0x10000000 + n.val * 0x10000 + 8 * w.toNat)))⟩ } s t := by
  have ran := exec_bankERetry up ⟨n, w, none, r, .none⟩
  rw [ePort_own h pwr, if_neg (by rw [show (Option.isSome (none : Option (BitVec 8 × DWord))) = false from rfl, wins]; decide)] at ran
  dsimp only at ran
  rw [upsetEcc, bankRead_word (bank_place n w).2.2.1 clean] at ran
  exact ⟨_, ran, setBank_same s n.val _⟩

theorem engine_reads_bad (up : s.up = true) (h : (bankN s n.val).own = .owned ∧ fld (bankN s n.val).owner 18 2 = 2)
    (pwr : (bankN s n.val).pwr = 0) (wins : r.any (loses .e false (decide (4 ≤ eBusy s n.val w.toNat false))) = false) :
    ∃ t, exec (.bankERetry ⟨n, w, none, r, .double⟩) s = .next t ∧ SameProgram s t ∧
      OneBank n.val { bankN s n.val with e := ⟨none, 0, some .error⟩ } s t := by
  have ran := exec_bankERetry up ⟨n, w, none, r, .double⟩
  rw [ePort_own h pwr, if_neg (by rw [show (Option.isSome (none : Option (BitVec 8 × DWord))) = false from rfl, wins]; decide)] at ran
  dsimp only at ran
  rw [bankRead_bad (bank_place n w).2.2.1 (eccAt_upset s _)] at ran
  have found := signals_eccFinding (upsetEcc s (0x10000000 + n.val * 0x10000 + 8 * w.toNat) .double)
    (0x10000000 + n.val * 0x10000 + 8 * w.toNat) true false
  have bank : bankN (eccFinding (upsetEcc s (0x10000000 + n.val * 0x10000 + 8 * w.toNat) .double)
      (0x10000000 + n.val * 0x10000 + 8 * w.toNat) true false) n.val = bankN s n.val := by
    rw [bankN, found.bank]
    rfl
  rw [eAnswer, modBank, bank] at ran
  obtain ⟨⟨bytes, contexts⟩, -, one⟩ := found.setBank n.val { bankN s n.val with e := ⟨none, 0, some .error⟩ }
  exact ⟨_, ran, ⟨bytes, contexts⟩, one⟩

theorem engine_writes {be : BitVec 8} {d : DWord} (up : s.up = true)
    (h : (bankN s n.val).own = .owned ∧ fld (bankN s n.val).owner 18 2 = 2) (pwr : (bankN s n.val).pwr = 0)
    (wins : r.any (loses .e true (decide (4 ≤ eBusy s n.val w.toNat true))) = false)
    (clean : eccAt s (0x10000000 + n.val * 0x10000 + 8 * w.toNat) = 0) :
    let a := 0x10000000 + n.val * 0x10000 + 8 * w.toNat
    ∃ t, exec (.bankERetry ⟨n, w, some (be, d), r, .none⟩) s = .next t ∧ SameContexts s t ∧ SameRegisters s t ∧
      OneBank n.val { bankN s n.val with e := ⟨none, 0, some .done⟩ } s t ∧
      (∀ i, i < 8 → rdB t (a + i) = if be.getLsbD i = true then (d >>> (8 * i)).truncate 8 else rdB s (a + i)) ∧
      ∀ k, k < spareBase → k < a ∨ a + 8 ≤ k → rdB t k = rdB s k := by
  intro a
  have ran := exec_bankERetry up ⟨n, w, some (be, d), r, .none⟩
  rw [ePort_own h pwr, if_neg (by rw [show (Option.isSome (some (be, d))) = true from rfl, wins]; decide)] at ran
  obtain ⟨fits, put, -, named⟩ := portWrite_clean be d (bank_place n w).2.2.1 (bank_place n w).2.2.2 clean
  dsimp only at ran
  rw [upsetEcc, fits] at ran
  generalize (portWrite s (0x10000000 + n.val * 0x10000 + 8 * w.toNat) be d).1 = v at ran put named
  have bytes := put.bytes
  obtain ⟨m, e, x, rfl⟩ := put.rest
  refine ⟨_, ran, fun w => (seen_settle _ w).trans (by cases w <;> rfl), fun a => getR_settle _ a,
    (oneBank_setBank rfl).settle, fun i hi => ?_, fun k hk hw => ?_⟩
  · rw [rdB_settle]
    exact named i hi
  · rw [rdB_settle]
    exact bytes k hk hw

end

end Sys2Proof.Machine
end

section
/-! SUPPORT. Ownership and power requests of the banks (spec/11 R288 to R293). -/

namespace Sys2Proof.Machine

/-! ### Writes of the bank registers -/

theorem writeReg_bnk {s : State} {w : Who} {a : Nat} {v : Word} (h : csrUnit a = 7) : writeReg s w a v = writeBnk s a v := by
  unfold writeReg touchPower
  rw [h]
  rfl

/-- A write of a bank register that the ring may write reaches the unit. -/
theorem writeAs_bnk {s : State} {c : BitVec 10} {r a : Nat} (v : Word) (may : MayAccess s c r) (acked : Acked s c 7)
    (ring : (regOf a).any (fun x => decide (r ≤ x.ring)) = true) (unit : csrUnit a = 7) (switch : csrSwitch a = none)
    (other : a ≠ aSvoCmd ∧ a ≠ aRngGcommit) : writeAs s c a v = writeBnk s a v := by
  obtain ⟨known, low⟩ := (Option.any_eq_true_iff_get _ _).1 ring
  have reg : regOf a = some ((regOf a).get known) := (Option.some_get known).symm
  rw [writeAs_of_mayAccess may (csrDenied_of_ring_le s v reg (may.2.1.trans (of_decide_eq_true low)) other.1) switch (by rw [unit]; exact acked) other.2,
    writeReg_bnk unit]

theorem owner_place : ∀ n : Fin 32, (regOf (aBnkOwner + 4 * n.val)).any (fun x => decide (0 ≤ x.ring)) = true ∧
    csrUnit (aBnkOwner + 4 * n.val) = 7 ∧ csrSwitch (aBnkOwner + 4 * n.val) = none ∧
    aBnkOwner + 4 * n.val ≠ aSvoCmd ∧ aBnkOwner + 4 * n.val ≠ aRngGcommit := by decide +kernel

theorem power_place : ∀ n : Fin 33, (regOf (aBnkPwr + 4 * n.val)).any (fun x => decide (1 ≤ x.ring)) = true ∧
    csrUnit (aBnkPwr + 4 * n.val) = 7 ∧ csrSwitch (aBnkPwr + 4 * n.val) = none ∧
    aBnkPwr + 4 * n.val ≠ aSvoCmd ∧ aBnkPwr + 4 * n.val ≠ aRngGcommit := by decide +kernel

theorem writeBnk_owner (s : State) (n : Fin 32) (v : Word) : writeBnk s (aBnkOwner + 4 * n.val) v = writeOwner s n.val v := by
  have hn := n.isLt
  unfold writeBnk
  rw [if_pos (by simp only [aBnkOwner]; omega), show (aBnkOwner + 4 * n.val - aBnkOwner) / 4 = n.val by omega]

theorem writeBnk_power (s : State) (n : Fin 33) (v : Word) : writeBnk s (aBnkPwr + 4 * n.val) v = writeBnkPwr s n.val v := by
  have hn := n.isLt
  unfold writeBnk
  rw [if_neg (by simp only [aBnkOwner, aBnkPwr]; omega), if_neg (by simp only [aBnkState, aBnkPwr]; omega),
    if_pos (by simp only [aBnkPwr]; omega), show (aBnkPwr + 4 * n.val - aBnkPwr) / 4 = n.val by omega]

section
variable {s : State} {c : BitVec 10} {v : Word}

theorem exec_bnkOwnerWrite {n : Fin 32} (may : MayAccess s c 0) (acked : Acked s c 7) :
    exec (.bnkOwnerWrite c n v) s = .next (settle (writeOwner s n.val v)) := by
  obtain ⟨ring, unit, switch, other⟩ := owner_place n
  exact congrArg occurs ((writeAs_bnk v may acked ring unit switch other).trans (writeBnk_owner s n v))

theorem exec_bnkPwrWrite {n : Fin 33} (may : MayAccess s c 1) (acked : Acked s c 7) :
    exec (.bnkPwrWrite c n v) s = .next (settle (writeBnkPwr s n.val v)) := by
  obtain ⟨ring, unit, switch, other⟩ := power_place n
  exact congrArg occurs ((writeAs_bnk v may acked ring unit switch other).trans (writeBnk_power s n v))

/-! ### Ownership -/

/-- The hand-over of bank `n` is refused (R288, R292, R294). -/
def OwnerRefused (s : State) (n : Nat) (v : Word) : Prop :=
  (bankN s n).own ≠ .owned ∨ (bit v 31 = true ∧ (bankN s n).pwr ≠ 0) ∨ (n = 0 ∧ vtlock s = true) ∨ copying s n = true

theorem ownerRefused_iff (s : State) (n : Nat) (v : Word) : ((bankN s n).own ≠ .owned || (bit v 31 && (bankN s n).pwr != 0) ||
    (n == 0 && vtlock s) || copying s n) = true ↔ OwnerRefused s n v := by
  rw [Bool.or_eq_true, Bool.or_eq_true, Bool.or_eq_true, Bool.and_eq_true, Bool.and_eq_true, decide_eq_true_iff, bne_iff_ne,
    beq_iff_eq, OwnerRefused, or_assoc, or_assoc]

theorem owner_refused {n : Fin 32} (may : MayAccess s c 0) (acked : Acked s c 7) (h : OwnerRefused s n.val v) :
    ∃ t, exec (.bnkOwnerWrite c n v) s = .next t ∧ SameProgram s t ∧ SameRegisters s t ∧
      OneBank n.val { bankN s n.val with err := true } s t := by
  have wrote : writeOwner s n.val v = bankErr s n.val := if_pos ((ownerRefused_iff s n.val v).2 h)
  exact ⟨settle (bankErr s n.val), (exec_bnkOwnerWrite may acked).trans (by rw [wrote]), setBank_same s n.val _⟩

/-- A bank whose hand-over has begun (R288). -/
def handed (b : Bank) (v : Word) : Bank :=
  { b with own := .handing, next := v, beforeHost := if fld v 18 2 = 3 then b.owner else b.beforeHost }

theorem owner_hands {n : Fin 32} {m : Word} (may : MayAccess s c 0) (acked : Acked s c 7) (h : ¬ OwnerRefused s n.val v)
    (hm : v &&& 0x800D1F73#32 = m) :
    ∃ t, exec (.bnkOwnerWrite c n v) s = .next t ∧ SameProgram s t ∧ SameRegistersBut [aBnkOwner + 4 * n.val] s t ∧
      OneBank n.val (handed (bankN s n.val) m) s t ∧ getR t (aBnkOwner + 4 * n.val) = m := by
  have wrote : writeOwner s n.val v = setBank (setR s (aBnkOwner + 4 * n.val) m) n.val (handed (bankN s n.val) m) :=
    (if_neg (mt (ownerRefused_iff s n.val v).1 h)).trans (by rw [hm]; rfl)
  obtain ⟨program, regs, one⟩ := (onlyRegisters_setR s (aBnkOwner + 4 * n.val) m).setBank n.val (handed (bankN s n.val) m)
  refine ⟨_, (exec_bnkOwnerWrite may acked).trans (by rw [wrote]), program, regs, one, ?_⟩
  rw [getR_settle, getR_setBank, getR_setR, if_pos rfl]

/-! ### HANDING and WIPING -/

theorem handing_ends {n : Fin 32} (own : (bankN s n.val).own = .handing) (idle : acceptedAt s n.val = false) :
    ∃ t, exec (.handingEnd n) s = .next t ∧ SameProgram s t ∧ SameRegisters s t ∧ OneBank n.val
      (if bit (bankN s n.val).next 31 = true then { bankN s n.val with own := .wiping }
        else { bankN s n.val with own := .owned, owner := (bankN s n.val).next }) s t := by
  have ends : handingEnd s n.val = setBank s n.val (if bit (bankN s n.val).next 31 = true then { bankN s n.val with own := .wiping }
      else { bankN s n.val with own := .owned, owner := (bankN s n.val).next }) := by
    unfold handingEnd
    dsimp only
    rw [if_neg (by rw [own, idle]; decide)]
    split
    · rfl
    · rfl
  have ran : exec (.handingEnd n) s = .next (settle (handingEnd s n.val)) := rfl
  exact ⟨_, ran.trans (by rw [ends]), setBank_same s n.val _⟩

theorem handing_waits {n : Fin 32} (busy : acceptedAt s n.val = true) : exec (.handingEnd n) s = .next (settle s) := by
  have ran : exec (.handingEnd n) s = .next (settle (handingEnd s n.val)) := rfl
  rw [ran, handingEnd, if_pos (.inr busy)]

theorem eccAt_clrRange (s : State) (lo hi a : Nat) : eccAt (clrRange s lo hi) a = if lo ≤ a ∧ a < hi then 0 else eccAt s a := by
  simp only [eccAt, clrRange, SMap.get_keep, Bool.or_eq_true, decide_eq_true_eq]
  by_cases h : a < lo ∨ hi ≤ a
  · rw [if_pos h, if_neg (by omega)]
  · rw [if_neg h, if_pos (by omega)]

/-- Bytes of the banks, and of the spare's place, that nothing has written are 0. -/
theorem unlisted_bank {a : Nat} (h : (0x10000000 ≤ a ∧ a < 0x10200000) ∨ spareBase ≤ a) : unlisted a = 0 := by
  rw [spareBase] at h
  unfold unlisted
  rw [if_neg (by omega), if_neg (by omega), if_neg (by omega)]

/-- An array of 64 KiB is cleared, and its bank changed. -/
theorem cleared_array (s : State) (n : Nat) (x : Bank) (base : Nat) :
    let t := settle (setBank (clrRange s base (base + 0x10000)) n x)
    SameContexts s t ∧ SameRegisters s t ∧ OneBank n x s t ∧
      (∀ a, rdB t a = if base ≤ a ∧ a < base + 0x10000 then unlisted a else rdB s a) ∧
      ∀ a, eccAt t a = if base ≤ a ∧ a < base + 0x10000 then 0 else eccAt s a :=
  ⟨fun w => (seen_settle _ w).trans (by cases w <;> rfl), fun a => getR_settle _ a, (oneBank_setBank rfl).settle,
    fun a => (rdB_settle _ a).trans (rdB_clrRange s _ _ a), fun a => (eccAt_settle _ a).trans (eccAt_clrRange s _ _ a)⟩

theorem wipe_ends {n : Fin 32} (own : (bankN s n.val).own = .wiping) :
    let base := 0x10000000 + n.val * 0x10000
    ∃ t, exec (.wipeEnd n) s = .next t ∧ SameContexts s t ∧ SameRegisters s t ∧
      OneBank n.val { bankN s n.val with own := .owned, owner := (bankN s n.val).next } s t ∧
      (∀ a, rdB t a = if base ≤ a ∧ a < base + 0x10000 then 0 else rdB s a) ∧
      ∀ a, eccAt t a = if base ≤ a ∧ a < base + 0x10000 then 0 else eccAt s a := by
  intro base
  have hn := n.isLt
  have array : arrayOf n.val = base := if_neg (by omega)
  have ran : exec (.wipeEnd n) s = .next (settle (wipeEnd s n.val)) := rfl
  rw [wipeEnd, if_pos own, array] at ran
  obtain ⟨contexts, regs, one, bytes, ecc⟩ := cleared_array s n.val
    { bankN s n.val with own := .owned, owner := (bankN s n.val).next } base
  refine ⟨_, ran, contexts, regs, one, fun a => (bytes a).trans ?_, ecc⟩
  by_cases inside : base ≤ a ∧ a < base + 0x10000
  · rw [if_pos inside, if_pos inside, unlisted_bank (.inl (by omega))]
  · rw [if_neg inside, if_neg inside]

/-! ### Power requests -/

/-- The power request is refused (R292, R293). -/
def PowerRefused (s : State) (n : Nat) (v : Word) : Prop :=
  (n = 0 ∧ vtlock s = true ∧ (fld v 0 2 = 1 ∨ fld v 0 2 = 2)) ∨ copying s n = true ∨
    ((bankN s n).own = .wiping ∧ (fld v 0 2 = 1 ∨ fld v 0 2 = 2))

theorem fld_two_bits (v : Word) : fld v 0 2 < 4 := Nat.mod_lt _ (by decide)

theorem powerRefused_iff (s : State) (n : Nat) (v : Word) : ((n == 0 && vtlock s && fld v 0 2 != 0 && fld v 0 2 != 3) || copying s n ||
    ((bankN s n).own == .wiping && (fld v 0 2 == 1 || fld v 0 2 == 2))) = true ↔ PowerRefused s n v := by
  have small := fld_two_bits v
  have two : (fld v 0 2 ≠ 0 ∧ fld v 0 2 ≠ 3) ↔ (fld v 0 2 = 1 ∨ fld v 0 2 = 2) := by omega
  simp only [Bool.or_eq_true, Bool.and_eq_true, beq_iff_eq, bne_iff_ne, PowerRefused, and_assoc, or_assoc, two]

theorem power_refused {n : Fin 33} (may : MayAccess s c 1) (acked : Acked s c 7)
    (own : ¬ (n.val = 32 ∧ spareUsed s = true)) (h : PowerRefused s n.val v) :
    ∃ t, exec (.bnkPwrWrite c n v) s = .next t ∧ SameProgram s t ∧ SameRegisters s t ∧
      OneBank n.val { bankN s n.val with err := true } s t := by
  have wrote : writeBnkPwr s n.val v = bankErr s n.val := by
    unfold writeBnkPwr
    dsimp only
    rw [if_neg own, if_pos ((powerRefused_iff s n.val v).2 h)]
  exact ⟨settle (bankErr s n.val), (exec_bnkPwrWrite may acked).trans (by rw [wrote]), setBank_same s n.val _⟩

/-- What an admitted request does to its bank (R290, R292). -/
def poweredBy (b : Bank) (req : Nat) : Bank :=
  if req = 3 then b
  else if b.pwr = 1 ∨ b.pwr = 3 ∨ b.pwr = 4 then { b with latched := if req = pwrTarget b then none else some req }
  else startPwr b req

/-- The register of an admitted request. -/
def pwrWord (w v : Word) : Word := if fld v 0 2 = 3 then setBit w 4 (bit v 4) else setFld (setBit w 4 (bit v 4)) 0 2 (fld v 0 2)

theorem writeBnkPwr_admitted {n : Nat} (own : ¬ (n = 32 ∧ spareUsed s = true)) (h : ¬ PowerRefused s n v) :
    ∃ u, OnlyRegisters [aBnkPwr + 4 * n] s u ∧ getR u (aBnkPwr + 4 * n) = pwrWord (getR s (aBnkPwr + 4 * n)) v ∧
      settle (writeBnkPwr s n v) = settle (if fld v 0 2 = 3 then u else setBank u n (poweredBy (bankN s n) (fld v 0 2))) := by
  generalize ha : aBnkPwr + 4 * n = a
  have first := onlyRegisters_setR s a (setBit (getR s a) 4 (bit v 4))
  have second := first.trans (onlyRegisters_setR (setR s a (setBit (getR s a) 4 (bit v 4))) a
    (setFld (getR (setR s a (setBit (getR s a) 4 (bit v 4))) a) 0 2 (fld v 0 2)))
  by_cases three : fld v 0 2 = 3
  · refine ⟨setR s a (setBit (getR s a) 4 (bit v 4)), first, ?_, congrArg settle ?_⟩
    · rw [getR_setR, if_pos rfl, pwrWord, if_pos three]
    · unfold writeBnkPwr
      dsimp only
      rw [if_neg own, if_neg (mt (powerRefused_iff s n v).1 h), if_pos three, if_pos three, ha]
  · refine ⟨setR (setR s a (setBit (getR s a) 4 (bit v 4))) a
      (setFld (getR (setR s a (setBit (getR s a) 4 (bit v 4))) a) 0 2 (fld v 0 2)), ⟨second.rest, fun b hb => second.but b (by simpa using hb)⟩, ?_, congrArg settle ?_⟩
    · rw [getR_setR, if_pos rfl, getR_setR, if_pos rfl, pwrWord, if_neg three]
    · unfold writeBnkPwr
      dsimp only
      rw [if_neg own, if_neg (mt (powerRefused_iff s n v).1 h), if_neg three, if_neg three, ha, poweredBy, if_neg three]
      split
      · rfl
      · rfl

theorem pwrWord_fields (w v : Word) : bit (pwrWord w v) 4 = bit v 4 ∧
    fld (pwrWord w v) 0 2 = if fld v 0 2 = 3 then fld w 0 2 else fld v 0 2 := by
  have kept : fld (setBit w 4 (bit v 4)) 0 2 = fld w 0 2 := fld_setBit_of_outside w _ (by decide) (by decide)
  have set : bit (setBit w 4 (bit v 4)) 4 = bit v 4 := by rw [bit_setBit _ _ (by decide), if_pos rfl]
  unfold pwrWord
  split
  · exact ⟨set, kept⟩
  · refine ⟨(bit_setFld_of_outside _ _ (by decide)).trans set, ?_⟩
    rw [fld_setFld _ _ (by decide)]
    exact Nat.mod_eq_of_lt (fld_two_bits v)

/-- The transition that a request begins (R290). -/
theorem startPwr_pwr {b : Bank} {req : Nat} (small : req < 3) : (b.pwr = 0 → (startPwr b req).pwr = if req = 1 then 1 else if req = 2 then 4 else 0) ∧
    (b.pwr = 2 → (startPwr b req).pwr = if req = 0 then 3 else if req = 2 then 4 else 2) ∧
    (b.pwr = 5 → (startPwr b req).pwr = if req = 2 then 5 else 3) := by
  have cases_ : req = 0 ∨ req = 1 ∨ req = 2 := by omega
  refine ⟨fun h => ?_, fun h => ?_, fun h => ?_⟩
  · rcases cases_ with rfl | rfl | rfl <;> simp [startPwr, h]
  · rcases cases_ with rfl | rfl | rfl <;> simp [startPwr, h]
  · rcases cases_ with rfl | rfl | rfl <;> simp [startPwr, h]

theorem poweredBy_cases {b : Bank} {req : Nat} (small : req < 4) : (req = 3 → poweredBy b req = b) ∧
    (req ≠ 3 → (b.pwr = 0 → (poweredBy b req).pwr = if req = 1 then 1 else if req = 2 then 4 else 0) ∧
      (b.pwr = 2 → (poweredBy b req).pwr = if req = 0 then 3 else if req = 2 then 4 else 2) ∧
      (b.pwr = 5 → (poweredBy b req).pwr = if req = 2 then 5 else 3) ∧
      (b.pwr ∈ [1, 3, 4] → poweredBy b req = { b with latched := if req = pwrTarget b then none else some req })) := by
  refine ⟨fun three => if_pos three, fun other => ?_⟩
  obtain ⟨on, held, off⟩ := startPwr_pwr (b := b) (show req < 3 by omega)
  have rests : ¬ (b.pwr = 1 ∨ b.pwr = 3 ∨ b.pwr = 4) → poweredBy b req = startPwr b req := fun h => by
    rw [poweredBy, if_neg other, if_neg h]
  refine ⟨fun h => ?_, fun h => ?_, fun h => ?_, fun h => ?_⟩
  · rw [rests (by omega)]
    exact on h
  · rw [rests (by omega)]
    exact held h
  · rw [rests (by omega)]
    exact off h
  · simp only [List.mem_cons, List.not_mem_nil, or_false] at h
    rw [poweredBy, if_neg other, if_pos h]

theorem power_admitted {n : Fin 33} (may : MayAccess s c 1) (acked : Acked s c 7) (own : ¬ (n.val = 32 ∧ spareUsed s = true))
    (h : ¬ PowerRefused s n.val v) : ∃ t, exec (.bnkPwrWrite c n v) s = .next t ∧ SameProgram s t ∧
      SameRegistersBut [aBnkPwr + 4 * n.val] s t ∧ OneBank n.val (poweredBy (bankN s n.val) (fld v 0 2)) s t ∧
      bit (getR t (aBnkPwr + 4 * n.val)) 4 = bit v 4 ∧
      fld (getR t (aBnkPwr + 4 * n.val)) 0 2 = if fld v 0 2 = 3 then fld (getR s (aBnkPwr + 4 * n.val)) 0 2 else fld v 0 2 := by
  obtain ⟨u, only, word, wrote⟩ := writeBnkPwr_admitted own h
  obtain ⟨set, req⟩ := pwrWord_fields (getR s (aBnkPwr + 4 * n.val)) v
  have ran := (exec_bnkPwrWrite (n := n) (v := v) may acked).trans (congrArg Host.Outcome.next wrote)
  by_cases three : fld v 0 2 = 3
  · rw [if_pos three] at ran
    have banks : ∀ k, bankN (settle u) k = bankN s k := fun k => by
      obtain ⟨m, rfl⟩ := only.rest
      exact bankN_settle _ k
    refine ⟨_, ran, only.settle_program, only.settle_registers, ⟨fun k _ => banks k, ?_⟩, ?_, ?_⟩
    · rw [banks, (poweredBy_cases (fld_two_bits v)).1 three]
    · rw [getR_settle, word, set]
    · rw [getR_settle, word, req]
  · rw [if_neg three] at ran
    obtain ⟨program, regs, one⟩ := only.setBank n.val (poweredBy (bankN s n.val) (fld v 0 2))
    refine ⟨_, ran, program, regs, one, ?_, ?_⟩
    · rw [getR_settle, getR_setBank, word, set]
    · rw [getR_settle, getR_setBank, word, req]

end

end Sys2Proof.Machine
end

section
/-! SUPPORT. The ends of power transitions, write-back and scrub (spec/11 R283, R284, R290 to R292). -/

namespace Sys2Proof.Machine

/-- The array of a bank, or of the spare as number 32. -/
theorem arrayOf_eq (n : Nat) : arrayOf n = if n = 32 then spareBase else 0x10000000 + n * 0x10000 := rfl

section
variable {s : State} {n : Fin 33}

theorem exec_bankPowerTransitionEnd (up : s.up = true) : exec (.bankPowerTransitionEnd n) s = .next (settle (powerEnd s n.val)) :=
  exec_whenUp (f := fun s => powerEnd s n.val) up rfl

/-- A transition towards RETAIN or OFF waits for the accesses accepted before it. -/
theorem transition_waits (up : s.up = true) (moves : (bankN s n.val).pwr = 1 ∨ (bankN s n.val).pwr = 4)
    (busy : acceptedAt s n.val (·.live) = true) : exec (.bankPowerTransitionEnd n) s = .next (settle s) := by
  rw [exec_bankPowerTransitionEnd up, powerEnd]
  split
  · rfl
  · rw [if_pos ⟨moves, busy⟩]

/-- The transition is not held back: its array is its own, and what it waits for has been performed. -/
structure MayEnd (s : State) (n : Nat) : Prop where
  own : ¬ (n = 32 ∧ spareUsed s = true)
  idle : (bankN s n).pwr = 3 ∨ acceptedAt s n (·.live) = false

theorem MayEnd.free {n : Nat} (h : MayEnd s n) : ¬ (((bankN s n).pwr = 1 ∨ (bankN s n).pwr = 4) ∧ acceptedAt s n (·.live) = true) := by
  rintro ⟨moves, busy⟩
  rcases h.idle with three | idle
  · omega
  · rw [idle] at busy
    cases busy

theorem retention_ends {n : Nat} (h : MayEnd s n) (pwr : (bankN s n).pwr = 1) :
    powerEnd s n = rewake (setBank s n (applyLatched { bankN s n with pwr := 2 })) n := by
  unfold powerEnd
  dsimp only
  rw [if_neg h.own, if_neg h.free, if_pos pwr]

theorem switchOff_ends {n : Nat} (h : MayEnd s n) (pwr : (bankN s n).pwr = 4) : powerEnd s n =
    setBank (clrRange s (arrayOf n) (arrayOf n + 0x10000)) n (applyLatched { bankN s n with pwr := 5 }) := by
  unfold powerEnd
  dsimp only
  rw [if_neg h.own, if_neg h.free, if_neg (by omega), if_pos pwr]

theorem waking_ends {n : Nat} (h : MayEnd s n) (pwr : (bankN s n).pwr = 3) : powerEnd s n =
    if ((bankN s n).fromOff && (bankN s n).thenRetain) = true then
      setBank s n { bankN s n with pwr := 1, fromOff := false, thenRetain := false }
    else rewake (setBank s n (applyLatched { bankN s n with pwr := 0, fromOff := false })) n := by
  unfold powerEnd
  dsimp only
  rw [if_neg h.own, if_neg h.free, if_neg (by omega), if_neg (by omega), if_pos pwr]

theorem applyLatched_none {b : Bank} (h : b.latched = none) : applyLatched b = b := by
  unfold applyLatched
  rw [h]

theorem rewake_uncalled {n : Nat} (x : Bank) (h : ¬ (autowake s n = true ∧ awaited s n = true)) :
    rewake (setBank s n x) n = setBank s n x :=
  if_neg (by rw [Bool.and_eq_true]; exact h)

theorem rewake_called {n : Nat} (x : Bank) (h : autowake s n = true ∧ awaited s n = true) :
    rewake (setBank s n x) n = wakeBank (setBank s n x) n :=
  if_pos (by rw [Bool.and_eq_true]; exact h)

theorem wakeBank_other {n : Nat} (h : (bankN s n).pwr ≠ 1 ∧ (bankN s n).pwr ≠ 2) : wakeBank s n = s :=
  if_neg (fun either => either.elim h.1 h.2)

/-- A bank that is not retained is not woken. -/
theorem rewake_settled {n : Nat} (h : (bankN s n).pwr ≠ 1 ∧ (bankN s n).pwr ≠ 2) : rewake s n = s := by
  unfold rewake
  split
  · exact wakeBank_other h
  · rfl

/-- What a transition's end leaves, where it does not clear the array. -/
def Ends (s : State) (n : Fin 33) (x : Bank) : Prop := ∃ t, exec (.bankPowerTransitionEnd n) s = .next t ∧
  SameProgram s t ∧ SameRegisters s t ∧ OneBank n.val x s t

theorem ends_of {x : Bank} (up : s.up = true) (h : powerEnd s n.val = setBank s n.val x) : Ends s n x :=
  ⟨_, (exec_bankPowerTransitionEnd up).trans (by rw [h]), setBank_same s n.val x⟩

section
variable {b : Bank} (up : s.up = true) (may : MayEnd s n.val) (hb : bankN s n.val = b)
include up may hb

theorem retention_settles (latched : b.latched = none) (pwr : b.pwr = 1)
    (uncalled : ¬ (autowake s n.val = true ∧ awaited s n.val = true)) : Ends s n { b with pwr := 2 } :=
  ends_of up (by rw [retention_ends may (by rw [hb]; exact pwr), hb, applyLatched_none (by exact latched), rewake_uncalled _ uncalled])

/-- A retained bank that an access awaits is woken at once (R291). -/
theorem retention_called (latched : b.latched = none) (pwr : b.pwr = 1)
    (called : autowake s n.val = true ∧ awaited s n.val = true) : ∃ t, exec (.bankPowerTransitionEnd n) s = .next t ∧ SameProgram s t ∧
      SameRegistersBut [aBnkPwr + 4 * n.val] s t ∧ fld (getR t (aBnkPwr + 4 * n.val)) 0 2 = 0 ∧
      OneBank n.val { b with pwr := 3, fromOff := false } s t := by
  have held : bankN (setBank s n.val { b with pwr := 2 }) n.val = { b with pwr := 2 } := (bankN_setBank _ _ _ _).trans (if_pos rfl)
  have ran := exec_bankPowerTransitionEnd (n := n) up
  rw [retention_ends may (by rw [hb]; exact pwr), hb, applyLatched_none (by exact latched), rewake_called _ called,
    wakeBank_retained (by rw [held]), held, getR_setBank, show ({ b with pwr := 3, fromOff := false, latched := none } : Bank) =
      { b with pwr := 3, fromOff := false } by rw [← latched]] at ran
  generalize hv : setFld (getR s (aBnkPwr + 4 * n.val)) 0 2 0 = v at ran
  refine ⟨_, ran, ⟨fun a => (rdB_settle _ a).trans rfl, fun w => (seen_settle _ w).trans (by cases w <;> rfl)⟩, fun a ha => ?_, ?_,
    OneBank.settle ⟨fun k hk => ?_, ?_⟩⟩
  · rw [getR_settle, getR_setBank, getR_setR, if_neg (fun e => ha (List.mem_singleton.2 e)), getR_setBank]
  · rw [getR_settle, getR_setBank, getR_setR, if_pos rfl, ← hv, fld_setFld _ _ (by decide)]
    rfl
  · rw [bankN_setBank, if_neg hk]
    exact (bankN_setBank s n.val k _).trans (if_neg hk)
  · rw [bankN_setBank, if_pos rfl]

/-- An array that is switched off loses its content (R290). -/
theorem switchOff_clears (latched : b.latched = none) (pwr : b.pwr = 4) : ∃ t, exec (.bankPowerTransitionEnd n) s = .next t ∧
    SameContexts s t ∧ SameRegisters s t ∧ OneBank n.val { b with pwr := 5 } s t ∧
    ∀ a, rdB t a = if arrayOf n.val ≤ a ∧ a < arrayOf n.val + 0x10000 then unlisted a else rdB s a := by
  have ran := exec_bankPowerTransitionEnd (n := n) up
  rw [switchOff_ends may (by rw [hb]; exact pwr), hb, applyLatched_none (by exact latched)] at ran
  obtain ⟨contexts, regs, one, bytes, -⟩ := cleared_array s n.val { b with pwr := 5 } (arrayOf n.val)
  exact ⟨_, ran, contexts, regs, one, bytes⟩

theorem waking_settles (latched : b.latched = none) (pwr : b.pwr = 3) (direct : b.fromOff = false ∨ b.thenRetain = false) :
    Ends s n { b with pwr := 0, fromOff := false } := by
  refine ends_of up ?_
  rw [waking_ends may (by rw [hb]; exact pwr), hb, if_neg (by rcases direct with h | h <;> simp [h]),
    applyLatched_none (by exact latched)]
  exact rewake_settled (by rw [bankN_setBank, if_pos rfl]; simp)

theorem waking_retains (pwr : b.pwr = 3) (off : b.fromOff = true) (retain : b.thenRetain = true) :
    Ends s n { b with pwr := 1, fromOff := false, thenRetain := false } := by
  refine ends_of up ?_
  rw [waking_ends may (by rw [hb]; exact pwr), hb, if_pos (by rw [off, retain]; rfl)]

/-- A request latched for ACTIVE wakes the bank as it reaches RETAIN (R292). -/
theorem retention_latched (pwr : b.pwr = 1) (latched : b.latched = some 0) :
    Ends s n { b with pwr := 3, fromOff := false, latched := none } := by
  refine ends_of up ?_
  have applied : applyLatched { b with pwr := 2 } = { b with pwr := 3, fromOff := false, latched := none } := by
    unfold applyLatched
    rw [latched]
    rfl
  rw [retention_ends may (by rw [hb]; exact pwr), hb, applied]
  exact rewake_settled (by rw [bankN_setBank, if_pos rfl]; simp)

end

/-! ### Write-back and scrub -/

/-- The array is in use and powered. -/
def ArrayActive (s : State) (n : Nat) : Prop := s.up = true ∧ (bankN s n).pwr = 0 ∧ ¬ (n = 32 ∧ spareUsed s = true)

theorem arrayActive_iff (s : State) (n : Nat) : arrayActive s n = true ↔ ArrayActive s n := by
  rw [arrayActive, Bool.and_eq_true, Bool.and_eq_true, Bool.not_eq_true', ← Bool.not_eq_true, Bool.and_eq_true, beq_iff_eq, beq_iff_eq,
    ArrayActive, and_assoc]

theorem exec_eccWriteback (w : BitVec 13) : exec (.eccWriteback n w) s = .next (settle (writeBack s n.val w.toNat)) := rfl

theorem writeBack_mends {w : BitVec 13} (active : ArrayActive s n.val) (single : eccAt s (arrayOf n.val + 8 * w.toNat) = 1) :
    ∃ t, exec (.eccWriteback n w) s = .next t ∧ SameProgram s t ∧ SameRegisters s t ∧
      ∀ x, eccAt t x = if x = arrayOf n.val + 8 * w.toNat then 0 else eccAt s x := by
  have mends : writeBack s n.val w.toNat = setEcc s (arrayOf n.val + 8 * w.toNat) 0 :=
    if_pos (by rw [(arrayActive_iff s n.val).2 active, single]; rfl)
  refine ⟨settle (setEcc s (arrayOf n.val + 8 * w.toNat) 0), (exec_eccWriteback w).trans (by rw [mends]), ⟨fun a => rdB_settle _ a, fun x => (seen_settle _ x).trans (by cases x <;> rfl)⟩,
    fun a => getR_settle _ a, fun x => ?_⟩
  rw [eccAt_settle, eccAt_setEcc]

theorem writeBack_idle {w : BitVec 13} (h : ¬ (ArrayActive s n.val ∧ eccAt s (arrayOf n.val + 8 * w.toNat) = 1)) :
    exec (.eccWriteback n w) s = .next (settle s) := by
  have idle : writeBack s n.val w.toNat = s := by
    refine if_neg fun both => h ?_
    rw [Bool.and_eq_true] at both
    obtain ⟨active, single⟩ := both
    exact ⟨(arrayActive_iff s n.val).1 active, beq_iff_eq.1 single⟩
  rw [exec_eccWriteback, idle]

theorem exec_scrubRead (u : Upset) : exec (.scrubRead n u) s = .next (settle (scrubRead s n.val u)) := rfl

/-- A scrub read of an active array reads the next word. -/
theorem scrubRead_active {u : Upset} (active : ArrayActive s n.val) (on : bit (getR s aBnkScrub) 31 = true) :
    scrubRead s n.val u = modBank (checkWord (upsetEcc s (arrayOf n.val + 8 * (bankN s n.val).scrub) u)
      (arrayOf n.val + 8 * (bankN s n.val).scrub) true).1 n.val (fun b => { b with scrub := ((bankN s n.val).scrub + 1) % 8192 }) :=
  if_pos (by rw [on, (arrayActive_iff s n.val).2 active]; rfl)

/-- Where the bank registers place word `w` of an array. -/
theorem eccPlace_array {w : Nat} (hw : w < 8192) : eccPlace (arrayOf n.val + 8 * w) = (n.val, w) := by
  have hn := n.isLt
  unfold eccPlace
  rw [arrayOf_eq]
  by_cases spare : n.val = 32
  · rw [if_pos spare, if_pos (by omega), spare, Prod.mk.injEq]
    exact ⟨rfl, by omega⟩
  · rw [if_neg spare, if_neg (by rw [spareBase]; omega), bankOf, Prod.mk.injEq]
    omega

/-- A finding of the scrub: its count and its place (R283). -/
theorem eccFinding_records (u : State) {w : Nat} (hw : w < 8192) (unc : Bool) :
    let t := eccFinding u (arrayOf n.val + 8 * w) unc true
    let lo := if unc then 16 else 0
    fld (getR t aBnkEcc) lo 16 = satAdd 65535 (fld (getR u aBnkEcc) lo 16) 1 ∧
      getR t aBnkEccaddr = u32 (b2n unc * 2 ^ 31 + b2n true * 2 ^ 30 + n.val * 2 ^ 16 + w) := by
  intro t lo
  have found : t = trigger (setR (bumpR u aBnkEcc lo 16 1) aBnkEccaddr
      (u32 (b2n unc * 2 ^ 31 + b2n true * 2 ^ 30 + n.val * 2 ^ 16 + w))) (if unc then 5 else 4) := by
    change eccFinding u (arrayOf n.val + 8 * w) unc true = _
    unfold eccFinding
    rw [eccPlace_array hw]
  have kept : ∀ a, a ∉ eventRegs (if unc then 5 else 4) → getR t a = getR (setR (bumpR u aBnkEcc lo 16 1) aBnkEccaddr
      (u32 (b2n unc * 2 ^ 31 + b2n true * 2 ^ 30 + n.val * 2 ^ 16 + w))) a := fun a ha => by
    rw [found]
    exact (signals_trigger _ _).csr a ha
  refine ⟨?_, ?_⟩
  · rw [kept _ (by cases unc <;> decide), getR_setR, if_neg (by decide)]
    cases unc
    · exact fld_bumpR u aBnkEcc 1 (by decide)
    · exact fld_bumpR u aBnkEcc 1 (by decide)
  · rw [kept _ (by cases unc <;> decide), getR_setR, if_pos rfl]

/-- The scrub's place moves on after a finding. -/
theorem scrub_moves {l ns : List Nat} {v u : State} (q : Nat) (same : ∃ e, v = { s with ecc := e }) (h : Signals l ns v u) :
    let t := settle (modBank u n.val (fun b => { b with scrub := q }))
    SameProgram s t ∧ OneBank n.val { bankN s n.val with scrub := q } s t ∧
      (∀ a, getR t a = getR u a) ∧ ∀ a, eccAt t a = eccAt v a := by
  intro t
  obtain ⟨e, rfl⟩ := same
  have bank : bankN u n.val = bankN s n.val := by
    rw [bankN, h.bank]
    rfl
  have moved : t = settle (setBank u n.val { bankN s n.val with scrub := q }) := by
    change settle (setBank u n.val { bankN u n.val with scrub := q }) = _
    rw [bank]
  rw [moved]
  obtain ⟨⟨bytes, contexts⟩, -, one⟩ := h.setBank n.val { bankN s n.val with scrub := q }
  refine ⟨⟨bytes, contexts⟩, one, fun a => (getR_settle _ a).trans (getR_setBank _ _ _ a), fun a => (eccAt_settle _ a).trans ?_⟩
  exact congrArg (fun m => SMap.get 0 m a) h.ecc

section
variable (active : ArrayActive s n.val) (on : bit (getR s aBnkScrub) 31 = true)
include active on

theorem scrub_clean (clean : eccAt s (arrayOf n.val + 8 * (bankN s n.val).scrub) = 0) :
    ∃ t, exec (.scrubRead n .none) s = .next t ∧ (SameProgram s t ∧
      OneBank n.val { bankN s n.val with scrub := ((bankN s n.val).scrub + 1) % 8192 } s t) ∧ SameRegisters s t := by
  have ran := exec_scrubRead (s := s) (n := n) .none
  rw [scrubRead_active active on, upsetEcc, checkWord, clean] at ran
  generalize ((bankN s n.val).scrub + 1) % 8192 = q at ran ⊢
  obtain ⟨program, one, regs, -⟩ := scrub_moves (s := s) (n := n) q ⟨s.ecc, rfl⟩ (Signals.refl [] [] s)
  exact ⟨_, ran, ⟨program, one⟩, regs⟩

/-- A scrub read that finds an error counts it, records its place and goes on. -/
theorem scrub_finds {u : Upset} {a k : Nat} (unc : Bool) (hw : (bankN s n.val).scrub < 8192)
    (ha : arrayOf n.val + 8 * (bankN s n.val).scrub = a) (upset : upsetEcc s a u = setEcc s a k)
    (kind : k = if unc then 2 else 1) : let lo := if unc then 16 else 0
    ∃ t, exec (.scrubRead n u) s = .next t ∧ ((SameProgram s t ∧
      OneBank n.val { bankN s n.val with scrub := ((bankN s n.val).scrub + 1) % 8192 } s t) ∧
      fld (getR t aBnkEcc) lo 16 = satAdd 65535 (fld (getR s aBnkEcc) lo 16) 1 ∧
      getR t aBnkEccaddr = u32 (b2n unc * 2 ^ 31 + b2n true * 2 ^ 30 + n.val * 2 ^ 16 + (bankN s n.val).scrub)) ∧
      eccAt t a = k := by
  intro lo
  have mark : eccAt (setEcc s a k) a = k := (eccAt_setEcc s a a k).trans (if_pos rfl)
  have checked : (checkWord (setEcc s a k) a true).1 = eccFinding (setEcc s a k) a unc true := by
    unfold checkWord
    rw [mark, kind]
    cases unc
    · rfl
    · rfl
  have ran := exec_scrubRead (s := s) (n := n) u
  rw [scrubRead_active active on, ha, upset, checked] at ran
  obtain ⟨program, one, regs, ecc⟩ := scrub_moves (s := s) (n := n) (((bankN s n.val).scrub + 1) % 8192) ⟨_, rfl⟩ (signals_eccFinding (setEcc s a k) a unc true)
  obtain ⟨count, place⟩ := eccFinding_records (n := n) (setEcc s a k) hw unc
  rw [ha] at count place
  exact ⟨_, ran, ⟨⟨program, one⟩, (congrArg (fun x => fld x lo 16) (regs aBnkEcc)).trans count, (regs aBnkEccaddr).trans place⟩,
    (ecc a).trans mark⟩

end

end

end Sys2Proof.Machine
end

section
/-! SUPPORT. Replacing a bank with the spare (spec/11 R294). -/

namespace Sys2Proof.Machine

theorem spare_place : (regOf aBnkSpare).any (fun x => decide (0 ≤ x.ring)) = true ∧ csrUnit aBnkSpare = 7 ∧
    csrSwitch aBnkSpare = none ∧ aBnkSpare ≠ aSvoCmd ∧ aBnkSpare ≠ aRngGcommit := by decide +kernel

theorem writeBnk_spare (s : State) (v : Word) : writeBnk s aBnkSpare v = writeSpare s v := rfl

section
variable {s : State} {c : BitVec 10}

theorem writeAs_spare (v : Word) (may : MayAccess s c 0) (acked : Acked s c 7) : writeAs s c aBnkSpare v = writeSpare s v := by
  obtain ⟨ring, unit, switch, other⟩ := spare_place
  exact (writeAs_bnk v may acked ring unit switch other).trans (writeBnk_spare s v)

/-! ### GO and ABORT -/

/-- A copy of bank `b` is refused. -/
def GoRefused (s : State) (b : Nat) : Prop := bit (getR s aBnkMap) 31 = true ∨ fld (getR s aBnkSpare) 24 2 = 1 ∨
  (bankN s 32).pwr ≠ 0 ∨ (bankN s b).pwr ≠ 0 ∨ (bankN s b).own ≠ .owned

theorem goRefused_iff (s : State) (b : Nat) : (spareUsed s || copyRuns s || (bankN s 32).pwr != 0 || (bankN s b).pwr != 0 ||
    (bankN s b).own != .owned) = true ↔ GoRefused s b := by
  rw [Bool.or_eq_true, Bool.or_eq_true, Bool.or_eq_true, Bool.or_eq_true, bne_iff_ne, bne_iff_ne, bne_iff_ne, copyRuns, beq_iff_eq,
    GoRefused, or_assoc, or_assoc, or_assoc, spareUsed]

theorem go_word : ∀ b : Fin 32, bit (u32 (2 ^ 31 + b.val * 2 ^ 16)) 30 = false ∧ bit (u32 (2 ^ 31 + b.val * 2 ^ 16)) 31 = true ∧
    fld (u32 (2 ^ 31 + b.val * 2 ^ 16)) 16 5 = b.val := by decide +kernel

theorem exec_spareGo {b : Fin 32} (may : MayAccess s c 0) (acked : Acked s c 7) :
    exec (.spareGo c b) s = .next (settle (spareGo s b.val)) := by
  obtain ⟨abort, go, target⟩ := go_word b
  refine congrArg occurs ((writeAs_spare _ may acked).trans ?_)
  unfold writeSpare
  dsimp only
  rw [abort, go, if_pos rfl, if_neg (by decide), target]

theorem go_refused {b : Fin 32} (may : MayAccess s c 0) (acked : Acked s c 7) (h : GoRefused s b.val) :
    ∃ t, exec (.spareGo c b) s = .next t ∧ SameProgram s t ∧ SameRegistersBut [aBnkSpare] s t ∧
      getR t aBnkSpare = setBit (getR s aBnkSpare) 29 true ∧ bankN t 32 = bankN s 32 := by
  have set := onlyRegisters_setR s aBnkSpare (setBit (getR s aBnkSpare) 29 true)
  have ran := exec_spareGo (b := b) may acked
  rw [show spareGo s b.val = setR s aBnkSpare (setBit (getR s aBnkSpare) 29 true) from if_pos ((goRefused_iff s b.val).2 h)] at ran
  exact ⟨_, ran, set.settle_program, set.settle_registers, by rw [getR_settle, getR_setR, if_pos rfl], bankN_settle _ 32⟩

theorem go_starts {b : Fin 32} {v : Word} (may : MayAccess s c 0) (acked : Acked s c 7) (h : ¬ GoRefused s b.val)
    (hv : u32 (2 ^ 24 + b.val * 2 ^ 16) = v) :
    ∃ t, exec (.spareGo c b) s = .next t ∧ SameProgram s t ∧ SameRegistersBut [aBnkSpare] s t ∧
      getR t aBnkSpare = v ∧ (bankN t 32).copyOf = b.val := by
  have starts : spareGo s b.val = setBank (setR s aBnkSpare v) 32 { bankN s 32 with copyOf := b.val } :=
    (if_neg (mt (goRefused_iff s b.val).1 h)).trans (by rw [hv]; rfl)
  have ran := exec_spareGo (b := b) may acked
  rw [starts] at ran
  obtain ⟨program, regs, one⟩ := (onlyRegisters_setR s aBnkSpare v).setBank 32 { bankN s 32 with copyOf := b.val }
  refine ⟨_, ran, program, regs, ?_, ?_⟩
  · rw [getR_settle, getR_setBank, getR_setR, if_pos rfl]
  · rw [one.2]

/-- The word that ABORT writes (R294). -/
theorem abort_word (w : Word) : bit ((w &&& 0x1F0000#32) ||| 0x40000000#32) 30 = true ∧
    bit ((w &&& 0x1F0000#32) ||| 0x40000000#32) 31 = false ∧ fld ((w &&& 0x1F0000#32) ||| 0x40000000#32) 16 5 = fld w 16 5 := by
  have inside : ∀ i < 21, 16 ≤ i → bit 0x1F0000#32 i = true ∧ bit 0x40000000#32 i = false := by decide
  refine ⟨?_, ?_, fld_congr fun i h1 h2 => ?_⟩
  · rw [bit_or, show bit 0x40000000#32 30 = true from rfl, Bool.or_true]
  · rw [bit_or, bit_and, show bit 0x1F0000#32 31 = false from rfl, show bit 0x40000000#32 31 = false from rfl, Bool.and_false,
      Bool.or_false]
  · obtain ⟨kept, clear⟩ := inside i (by omega) h1
    rw [bit_or, bit_and, kept, clear, Bool.and_true, Bool.or_false]

theorem abort_discards (may : MayAccess s c 0) (acked : Acked s c 7) (runs : fld (getR s aBnkSpare) 24 2 = 1) :
    ∃ t, exec (.spareAbort c) s = .next t ∧ SameContexts s t ∧ SameRegistersBut [aBnkSpare] s t ∧
      fld (getR t aBnkSpare) 24 2 = 0 ∧ fld (getR t aBnkSpare) 0 14 = 0 ∧ fld (getR t aBnkSpare) 16 5 = fld (getR s aBnkSpare) 16 5 ∧
      ∀ b, rdB t b = if spareBase ≤ b ∧ b < spareBase + 0x10000 then 0 else rdB s b := by
  generalize hw : getR s aBnkSpare = w at runs ⊢
  obtain ⟨abort, go, target⟩ := abort_word w
  generalize hq : setFld (setFld w 24 2 0) 0 14 0 = q
  generalize hx : setFld q 16 5 (fld w 16 5) = x
  generalize hm : setR s aBnkSpare q = m
  have wrote : writeAs s c aBnkSpare ((w &&& 0x1F0000#32) ||| 0x40000000#32) =
      setR (clrRange m spareBase (spareBase + 0x10000)) aBnkSpare x := by
    have discards : spareAbort s = clrRange m spareBase (spareBase + 0x10000) := by
      unfold spareAbort
      dsimp only
      rw [hw, if_pos runs, hq, hm]
    have left : getR (clrRange m spareBase (spareBase + 0x10000)) aBnkSpare = q := by
      change getR m aBnkSpare = q
      rw [← hm, getR_setR, if_pos rfl]
    rw [writeAs_spare _ may acked]
    unfold writeSpare
    dsimp only
    rw [abort, go, if_pos rfl, if_neg (by decide), discards, left, target, hx]
  have ran : exec (.spareAbort c) s = occurs (writeAs s c aBnkSpare ((getR s aBnkSpare &&& 0x1F0000#32) ||| 0x40000000#32)) := rfl
  rw [hw, wrote] at ran
  have word : getR (settle (setR (clrRange m spareBase (spareBase + 0x10000)) aBnkSpare x)) aBnkSpare = x := by
    rw [getR_settle, getR_setR, if_pos rfl]
  refine ⟨_, ran, fun v => (seen_settle _ v).trans (by rw [← hm]; cases v <;> rfl), fun a ha => ?_, ?_, ?_, ?_, fun b => ?_⟩
  · have other : a ≠ aBnkSpare := fun e => ha (List.mem_singleton.2 e)
    rw [getR_settle, getR_setR, if_neg other]
    change getR m a = _
    rw [← hm, getR_setR, if_neg other]
  · rw [word, ← hx, ← hq, fld_setFld_of_disjoint _ _ (by decide) (by decide), fld_setFld_of_disjoint _ _ (by decide) (by decide),
      fld_setFld _ _ (by decide), Nat.zero_mod]
  · rw [word, ← hx, ← hq, fld_setFld_of_disjoint _ _ (by decide) (by decide), fld_setFld _ _ (by decide), Nat.zero_mod]
  · rw [word, ← hx, fld_setFld _ _ (by decide)]
    exact Nat.mod_eq_of_lt (Nat.mod_lt _ (by decide))
  · rw [rdB_settle]
    refine (rdB_clrRange m _ _ b).trans ?_
    rw [← hm]
    by_cases inside : spareBase ≤ b ∧ b < spareBase + 0x10000
    · rw [if_pos inside, if_pos inside, unlisted_bank (.inr inside.1)]
    · rw [if_neg inside, if_neg inside]
      rfl

/-! ### One word of the copy -/

/-- Registers of a read check. -/
def checkRegs : List Nat := [aBnkEcc, aBnkEccaddr] ++ eventRegs 4 ++ eventRegs 5

theorem signals_checkWord (v : State) (a : Nat) (maint : Bool) : Signals checkRegs [4, 5, 7, 27] v (checkWord v a maint).1 ∧
    (checkWord v a maint).2 = decide (eccAt v a ≤ 1) := by
  unfold checkWord
  split
  · rename_i h
    exact ⟨Signals.refl _ _ v, by rw [h]; rfl⟩
  · rename_i h
    exact ⟨(signals_eccFinding v a false maint).mono (by decide) (by decide), by rw [h]; rfl⟩
  · rename_i h0 h1
    refine ⟨(signals_eccFinding v a true maint).mono (by decide) (by decide), (decide_eq_false ?_).symm⟩
    intro low
    rcases Nat.le_one_iff_eq_zero_or_eq_one.1 low with e | e
    · exact h0 e
    · exact h1 e

theorem rd64_eq {u v : State} {a b : Nat} (h : rdN u a 8 = rdN v b 8) : rd64 u a = rd64 v b := by
  rw [rd64, rd64, h]

/-- The copy of one word: its place, the word read and whether it is good. -/
theorem spareCopyWord_eq {u : Upset} {a d k : Nat} {w : Word} (hw : getR s aBnkSpare = w) (runs : fld w 24 2 = 1) (hk : fld w 0 14 = k)
    (more : k < 8192) (ha : arrayOf (bankN s 32).copyOf + 8 * k = a) (hd : spareBase + 8 * k = d) (pwr : (bankN s 32).pwr = 0) :
    ∃ v, Signals checkRegs [4, 5, 7, 27] (upsetEcc s a u) v ∧
      spareCopyWord s u = setR (if eccAt (upsetEcc s a u) a ≤ 1 then setEcc (wrN v d 8 (rdN v a 8)) d 0
        else bumpR (setEcc (wrN v d 8 (rdN v a 8)) d 2) aBnkMap 0 14 1) aBnkSpare (setFld w 0 14 (k + 1)) := by
  obtain ⟨checked, good⟩ := signals_checkWord (upsetEcc s a u) a true
  generalize hq : checkWord (upsetEcc s a u) a true = q at checked good
  have upset : (upsetEcc s a u).bank = s.bank ∧ ∀ r, getR (upsetEcc s a u) r = getR s r := by
    cases u
    · exact ⟨rfl, fun _ => rfl⟩
    · exact ⟨rfl, fun _ => rfl⟩
    · exact ⟨rfl, fun _ => rfl⟩
  have powered : (bankN q.1 32).pwr = 0 := by
    rw [bankN, checked.bank, upset.1]
    exact pwr
  have place : spareBase + d % 0x10000 = d := by
    rw [← hd, spareBase]
    omega
  have wrote : spareWrite q.1 d 8 (rdN q.1 a 8) = wrN q.1 d 8 (rdN q.1 a 8) := by
    unfold spareWrite
    rw [if_pos powered, place]
  have word : ∀ e, getR (setEcc (wrN q.1 d 8 (rdN q.1 a 8)) d e) aBnkSpare = w := fun e => by
    obtain ⟨m, hm⟩ := wrN_rest q.1 d 8 (rdN q.1 a 8)
    rw [hm]
    change getR q.1 aBnkSpare = w
    rw [checked.csr aBnkSpare (by decide), upset.2, hw]
  have counted : getR (bumpR (setEcc (wrN q.1 d 8 (rdN q.1 a 8)) d 2) aBnkMap 0 14 1) aBnkSpare = w :=
    (getR_bumpR_other _ 0 14 1 (by decide)).trans (word 2)
  refine ⟨q.1, checked, ?_⟩
  unfold spareCopyWord
  dsimp only
  rw [hw, hk, if_pos ⟨beq_iff_eq.2 (hw ▸ runs), more⟩, ha, hd, hq, wrote, good]
  by_cases low : eccAt (upsetEcc s a u) a ≤ 1
  · rw [decide_eq_true low, if_pos low, if_pos rfl, if_pos rfl, word]
  · rw [decide_eq_false low, if_neg low, if_neg Bool.false_ne_true, if_neg Bool.false_ne_true, counted]

/-- What the copy of one word leaves. -/
structure WordCopied (s t : State) (w : Word) (a d k : Nat) : Prop where
  contexts : SameContexts s t
  word : rd64 t d = rd64 s a
  count : fld (getR t aBnkSpare) 0 14 = k + 1
  target : fld (getR t aBnkSpare) 16 5 = fld w 16 5
  runs : fld (getR t aBnkSpare) 24 2 = 1
  rest : ∀ b, b < d ∨ d + 8 ≤ b → rdB t b = rdB s b

/-- A word placed at `d`, with its mark. -/
structure WordPlaced (v y : State) (a d e : Nat) : Prop where
  rest : ∃ m k, y = { v with mem := m, ecc := k }
  word : rdN y d 8 = rdN v a 8
  others : ∀ b, b < d ∨ d + 8 ≤ b → rdB y b = rdB v b
  mark : eccAt y d = e

theorem wordPlaced {v : State} {a x : Nat} (d e : Nat) (hx : rdN v a 8 = x) : WordPlaced v (setEcc (wrN v d 8 x) d e) a d e := by
  have small : x < 256 ^ 8 := hx ▸ rdN_lt v a 8
  obtain ⟨m, rest⟩ := wrN_rest v d 8 x
  have word := rdN_wrN v d 8 x
  have others := rdB_wrN_other v d 8 x
  generalize wrN v d 8 x = y at rest word others
  subst rest
  refine ⟨⟨_, _, rfl⟩, ?_, others, (eccAt_setEcc _ d d e).trans (if_pos rfl)⟩
  rw [hx]
  exact (rdN_of_mem (s := { v with mem := m }) (fun _ => rfl) d 8).trans (word.trans (Nat.mod_eq_of_lt small))

theorem WordPlaced.copied {u v y x : State} {l ns : List Nat} {w : Word} {a d k e : Nat} (placed : WordPlaced v y a d e)
    (checked : Signals l ns u v) (start : u.mem = s.mem ∧ ∀ c, seen (getC u c) = seen (getC s c))
    (only : OnlyRegisters [aBnkMap] y x) (runs : fld w 24 2 = 1) (more : k < 8192) :
    WordCopied s (settle (setR x aBnkSpare (setFld w 0 14 (k + 1)))) w a d k ∧
      eccAt (settle (setR x aBnkSpare (setFld w 0 14 (k + 1)))) d = e := by
  have word : getR (settle (setR x aBnkSpare (setFld w 0 14 (k + 1)))) aBnkSpare = setFld w 0 14 (k + 1) := by
    rw [getR_settle, getR_setR, if_pos rfl]
  have same : SameMemory s v := fun b => (checked.sameMemory b).trans (congrArg (fun m => SMap.get (unlisted b) m b) start.1)
  obtain ⟨m, rfl⟩ := only.rest
  have bytes : SameMemory y (settle (setR { y with csr := m } aBnkSpare (setFld w 0 14 (k + 1)))) := fun b => rdB_settle _ b
  refine ⟨⟨fun c => ?_, ?_, ?_, ?_, ?_, fun b hb => ?_⟩, ?_⟩
  · rw [seen_settle]
    obtain ⟨m1, m2, rfl⟩ := placed.rest
    refine Eq.trans ?_ ((checked.seen c).trans (start.2 c))
    cases c <;> rfl
  · exact rd64_eq ((rdN_of_mem bytes d 8).trans (placed.word.trans (rdN_of_mem same a 8)))
  · rw [word, fld_setFld _ _ (by decide)]
    exact Nat.mod_eq_of_lt (by omega)
  · rw [word, fld_setFld_of_disjoint _ _ (by decide) (by decide)]
  · rw [word, fld_setFld_of_disjoint _ _ (by decide) (by decide), runs]
  · rw [bytes, placed.others b hb, same]
  · rw [eccAt_settle]
    exact placed.mark

section
variable {a d k : Nat} {w : Word} (up : s.up = true) (hw : getR s aBnkSpare = w) (runs : fld w 24 2 = 1) (hk : fld w 0 14 = k)
  (more : k < 8192) (ha : arrayOf (bankN s 32).copyOf + 8 * k = a) (hd : spareBase + 8 * k = d) (pwr : (bankN s 32).pwr = 0)
include up hw runs hk more ha hd pwr

theorem copy_good (good : eccAt s a ≤ 1) : ∃ t, exec (.spareCopyWord .none) s = .next t ∧ WordCopied s t w a d k ∧
    eccAt t d = 0 ∧ getR t aBnkMap = getR s aBnkMap := by
  obtain ⟨v, checked, copied⟩ := spareCopyWord_eq (u := .none) hw runs hk more ha hd pwr
  rw [if_pos (show eccAt (upsetEcc s a .none) a ≤ 1 from good)] at copied
  have placed := wordPlaced (v := v) (a := a) d 0 rfl
  generalize setEcc (wrN v d 8 (rdN v a 8)) d 0 = y at copied placed
  have ran := exec_whenUp (c := .spareCopyWord .none) (f := fun s => spareCopyWord s .none) up rfl
  rw [copied] at ran
  obtain ⟨word, mark⟩ := placed.copied checked ⟨rfl, fun _ => rfl⟩ ⟨⟨y.csr, rfl⟩, fun _ _ => rfl⟩ runs more
  refine ⟨_, ran, word, mark, ?_⟩
  rw [getR_settle, getR_setR, if_neg (by decide)]
  obtain ⟨m1, m2, rfl⟩ := placed.rest
  exact checked.csr aBnkMap (by decide)

/-- A word that cannot be corrected stays so in the spare, and is counted. -/
theorem copy_bad : ∃ t, exec (.spareCopyWord .double) s = .next t ∧ WordCopied s t w a d k ∧ eccAt t d = 2 ∧
    fld (getR t aBnkMap) 0 14 = satAdd 16383 (fld (getR s aBnkMap) 0 14) 1 := by
  obtain ⟨v, checked, copied⟩ := spareCopyWord_eq (u := .double) hw runs hk more ha hd pwr
  rw [if_neg (by rw [eccAt_upset]; decide)] at copied
  have placed := wordPlaced (v := v) (a := a) d 2 rfl
  generalize setEcc (wrN v d 8 (rdN v a 8)) d 2 = y at copied placed
  have ran := exec_whenUp (c := .spareCopyWord .double) (f := fun s => spareCopyWord s .double) up rfl
  rw [copied] at ran
  obtain ⟨word, mark⟩ := placed.copied checked (s := s) ⟨rfl, fun x => by cases x <;> rfl⟩ (onlyRegisters_bumpR y aBnkMap 0 14 1) runs more
  refine ⟨_, ran, word, mark, ?_⟩
  have kept : getR y aBnkMap = getR s aBnkMap := by
    obtain ⟨m1, m2, rfl⟩ := placed.rest
    exact checked.csr aBnkMap (by decide)
  rw [getR_settle, getR_setR, if_neg (by decide), fld_bumpR _ _ _ (by decide), kept]
  rfl

end

end

end Sys2Proof.Machine
end

section
/-! SUPPORT. The spare takes the place of a bank (spec/11 R294). -/

namespace Sys2Proof.Machine

theorem SMap.le_of_wfFrom {α : Type} [DecidableEq α] {d : Nat → α} {m : SMap α} {lo : Nat} (h : SMap.wfFrom d lo m = true) :
    ∀ e ∈ m, lo ≤ e.1 := by
  induction m generalizing lo with
  | nil => exact fun e he => absurd he List.not_mem_nil
  | cons x r ih =>
    obtain ⟨k, v⟩ := x
    simp only [SMap.wfFrom, Bool.and_eq_true, decide_eq_true_eq] at h
    intro e he
    rcases List.mem_cons.1 he with rfl | he
    · exact h.1.1
    · exact Nat.le_trans (Nat.le_succ_of_le h.1.1) (ih h.2 e he)

theorem SMap.get_of_not_mem {α : Type} {d : α} {m : SMap α} {k : Nat} (h : ∀ e ∈ m, e.1 ≠ k) : SMap.get d m k = d := by
  induction m with
  | nil => rfl
  | cons x r ih =>
    obtain ⟨j, v⟩ := x
    exact (if_neg (h _ List.mem_cons_self)).trans (ih fun e he => h e (List.mem_cons_of_mem _ he))

/-- Cells written at another base: each byte there is the one it had, and the others are as before. -/
theorem rdB_placed {m : SMap Byte} {src dst lo : Nat} (wf : SMap.wfFrom unlisted lo m = true) (low : src ≤ lo) (t : State) (x : Nat) :
    rdB (m.foldl (fun t e => wrB t (e.1 - src + dst) e.2) t) x =
      if dst ≤ x then SMap.get (rdB t x) m (x - dst + src) else rdB t x := by
  induction m generalizing lo t with
  | nil => exact (ite_self _).symm
  | cons e r ih =>
    obtain ⟨k, v⟩ := e
    simp only [SMap.wfFrom, Bool.and_eq_true, decide_eq_true_eq] at wf
    obtain ⟨⟨above, -⟩, rest⟩ := wf
    rw [List.foldl_cons, ih rest (by omega) (wrB t (k - src + dst) v), rdB_wrB]
    by_cases inside : dst ≤ x
    · rw [if_pos inside, if_pos inside]
      by_cases here : k = x - dst + src
      · rw [if_pos (by omega), SMap.get, if_pos here]
        exact SMap.get_of_not_mem fun e he => by have := SMap.le_of_wfFrom rest e he; omega
      · rw [if_neg (by omega), SMap.get, if_neg here]
    · rw [if_neg inside, if_neg inside, if_neg (by omega)]

theorem rdB_marks (m : List (Nat × Nat)) (src dst : Nat) (t : State) (x : Nat) :
    rdB (m.foldl (fun t e => setEcc t (e.1 - src + dst) e.2) t) x = rdB t x := by
  induction m generalizing t with
  | nil => rfl
  | cons e r ih => exact (ih _).trans rfl

/-- The moves of one array leave everything but the bytes and the check bits. -/
theorem moveArray_rest (s : State) (src dst : Nat) : ∃ m e, moveArray s src dst = { s with mem := m, ecc := e } := by
  have cells : ∀ (l : List Host.Cell) (t : State), ∃ m, l.foldl (fun t e => wrB t (e.1 - src + dst) e.2) t = { t with mem := m } := by
    intro l
    induction l with
    | nil => exact fun t => ⟨t.mem, rfl⟩
    | cons e r ih =>
      intro t
      obtain ⟨m, h⟩ := ih (wrB t (e.1 - src + dst) e.2)
      exact ⟨m, h⟩
  have marks : ∀ (l : List (Nat × Nat)) (t : State), ∃ m, l.foldl (fun t e => setEcc t (e.1 - src + dst) e.2) t = { t with ecc := m } := by
    intro l
    induction l with
    | nil => exact fun t => ⟨t.ecc, rfl⟩
    | cons e r ih =>
      intro t
      obtain ⟨m, h⟩ := ih (setEcc t (e.1 - src + dst) e.2)
      exact ⟨m, h⟩
  unfold moveArray
  obtain ⟨m, hm⟩ := cells (s.mem.filter (fun e => decide (src ≤ e.1) && decide (e.1 < src + 0x10000)))
    (clrRange (clrRange s dst (dst + 0x10000)) src (src + 0x10000))
  obtain ⟨k, hk⟩ := marks (s.ecc.filter (fun e => decide (src ≤ e.1) && decide (e.1 < src + 0x10000)))
    { clrRange (clrRange s dst (dst + 0x10000)) src (src + 0x10000) with mem := m }
  refine ⟨m, k, ?_⟩
  dsimp only
  rw [hm, hk]
  rfl

/-- The array at `src` is moved to `dst`. -/
theorem rdB_moveArray {s : State} {src dst x : Nat} (canonical : Canonical s) (below : x < src) :
    rdB (moveArray s src dst) x = if dst ≤ x ∧ x < dst + 0x10000 then SMap.get (unlisted x) s.mem (x - dst + src) else rdB s x := by
  have kept : SMap.wfFrom unlisted 0 (SMap.keep (fun k => decide (src ≤ k) && decide (k < src + 0x10000)) s.mem) = true :=
    SMap.wfFrom_keep unlisted _ s.mem canonical
  have low : SMap.wfFrom unlisted src (SMap.keep (fun k => decide (src ≤ k) && decide (k < src + 0x10000)) s.mem) = true := by
    generalize hm : SMap.keep (fun k => decide (src ≤ k) && decide (k < src + 0x10000)) s.mem = m at kept
    have keys : ∀ e ∈ m, src ≤ e.1 := fun e he => by
      rw [← hm] at he
      have := (List.mem_filter.1 he).2
      rw [Bool.and_eq_true, decide_eq_true_iff] at this
      exact this.1
    cases m with
    | nil => rfl
    | cons e r =>
      obtain ⟨k, v⟩ := e
      simp only [SMap.wfFrom, Bool.and_eq_true, decide_eq_true_eq] at kept ⊢
      exact ⟨⟨keys _ List.mem_cons_self, kept.1.2⟩, kept.2⟩
  have cleared : rdB (clrRange (clrRange s dst (dst + 0x10000)) src (src + 0x10000)) x =
      if dst ≤ x ∧ x < dst + 0x10000 then unlisted x else rdB s x := by
    rw [rdB_clrRange, if_neg (by omega), rdB_clrRange]
  unfold moveArray
  dsimp only
  rw [rdB_marks]
  refine (rdB_placed low (Nat.le_refl _) _ x).trans ?_
  rw [cleared, SMap.get_keep]
  by_cases inside : dst ≤ x ∧ x < dst + 0x10000
  · rw [if_pos inside.1, if_pos inside, if_pos inside, if_pos]
    rw [Bool.and_eq_true, decide_eq_true_iff, decide_eq_true_iff]
    omega
  · rw [if_neg inside, if_neg inside]
    by_cases above : dst ≤ x
    · rw [if_pos above, if_neg]
      rw [Bool.and_eq_true, decide_eq_true_iff, decide_eq_true_iff]
      omega
    · rw [if_neg above]

/-- The complete copy takes the place of its bank (R294). -/
theorem spare_switches {s : State} {w : Word} {n : Nat} (up : s.up = true) (canonical : Canonical s) (hw : getR s aBnkSpare = w)
    (hn : (bankN s 32).copyOf = n) (runs : fld w 24 2 = 1) (full : fld w 0 14 = 8192) (small : n < 32) {v : Word}
    (hv : u32 (2 ^ 31 + n * 2 ^ 16 + fld (getR s aBnkMap) 0 14) = v) : let base := 0x10000000 + n * 0x10000
    ∃ t, exec .spareSwitch s = .next t ∧ SameContexts s t ∧ SameRegistersBut [aBnkSpare, aBnkMap] s t ∧
      getR t aBnkSpare = setFld w 24 2 2 ∧ getR t aBnkMap = v ∧
      (∀ i, i < 0x10000 → rdB t (base + i) = rdB s (spareBase + i)) ∧
      ∀ b, b < spareBase → b < base ∨ base + 0x10000 ≤ b → rdB t b = rdB s b := by
  intro base
  have array : arrayOf n = base := if_neg (by omega)
  have apart : base + 0x10000 ≤ spareBase := by
    change 0x10000000 + n * 0x10000 + 0x10000 ≤ 0x100000000
    omega
  obtain ⟨m, e, rest⟩ := moveArray_rest s spareBase base
  have bytes := fun {x} => rdB_moveArray (src := spareBase) (dst := base) (x := x) canonical
  have switched : spareSwitch s = setR (setR (moveArray s spareBase base) aBnkSpare (setFld w 24 2 2)) aBnkMap v := by
    unfold spareSwitch
    dsimp only
    rw [hw, hn, if_pos ⟨beq_iff_eq.2 (hw ▸ runs), full⟩, array, hv]
  have ran := exec_whenUp (c := .spareSwitch) (f := spareSwitch) up rfl
  rw [switched] at ran
  generalize moveArray s spareBase base = u at ran rest bytes
  refine ⟨_, ran, fun c => (seen_settle _ c).trans ?_, fun a ha => ?_, ?_, ?_, fun i hi => ?_, fun b hb out => ?_⟩
  · rw [rest]
    cases c <;> rfl
  · rw [getR_settle, getR_setR, if_neg (fun h => ha (by rw [h]; decide)), getR_setR, if_neg (fun h => ha (by rw [h]; decide)), rest]
    rfl
  · rw [getR_settle, getR_setR, if_neg (by decide), getR_setR, if_pos rfl]
  · rw [getR_settle, getR_setR, if_pos rfl]
  · rw [rdB_settle]
    refine (bytes (x := base + i) (by omega)).trans ?_
    rw [if_pos (by omega), unlisted_bank (.inl (by omega)), show base + i - base + spareBase = spareBase + i by omega, rdB,
      unlisted_bank (.inr (Nat.le_add_right _ _))]
  · rw [rdB_settle]
    refine (bytes (x := b) hb).trans (if_neg (by omega))

end Sys2Proof.Machine
end

section
/-! SUPPORT. The service of the banks as a whole (O50). -/

namespace Sys2Proof.Machine

theorem ownerRefused_fin (s : State) (n : Fin 32) (v : Word) : OwnerRefused s n.val v ↔ ((bankN s n.val).own ≠ .owned ∨
    (bit v 31 = true ∧ (bankN s n.val).pwr ≠ 0) ∨ (n = 0 ∧ vtlock s = true) ∨ copying s n.val = true) :=
  or_congr Iff.rfl (or_congr Iff.rfl (or_congr (and_congr ⟨fun h => Fin.ext h, fun h => congrArg Fin.val h⟩ Iff.rfl) Iff.rfl))

/-- The words that record what a scrub finds. -/
theorem scrub_words (p q : Nat) : u32 (b2n false * 2 ^ 31 + b2n true * 2 ^ 30 + p + q) = u32 (2 ^ 30 + p + q) ∧
    u32 (b2n true * 2 ^ 31 + b2n true * 2 ^ 30 + p + q) = u32 (2 ^ 31 + 2 ^ 30 + p + q) := by
  rw [show b2n false = 0 from rfl, show b2n true = 1 from rfl, Nat.zero_mul, Nat.zero_add, Nat.one_mul, Nat.one_mul]
  exact ⟨rfl, rfl⟩

/-- Settles O50, clause by clause: ports, hand-over, power, write-back and scrub, and the spare. -/
theorem bankService : Obligations.BankService := by
  unfold Obligations.BankService
  refine ⟨fun s c v => ⟨fun n => ⟨fun up w wr r => ⟨?_, ?_, ?_⟩, fun may acked => ⟨?_, ?_⟩, ?_, ?_, ?_⟩,
    fun n => ⟨fun may acked own => ⟨?_, ?_⟩, ?_, ?_, ?_, fun w => ⟨?_, ?_⟩, ?_⟩⟩,
    fun s c => ⟨fun may acked => ⟨?_, ?_⟩, ?_, ?_⟩⟩
  · intro foreign u
    obtain ⟨t, ran, program, regs, ⟨others, own⟩, rest⟩ := engine_refused (w := w) (wr := wr) (r := r) (u := u) up foreign
    exact ⟨t, ran, program, regs, others, own, rest⟩
  · intro mine pwr lost u
    obtain ⟨t, ran, program, regs, ⟨others, own⟩, rest⟩ := engine_loses (u := u) up mine pwr lost
    exact ⟨t, ran, program, regs, others, own, rest⟩
  · intro mine pwr wins clean
    refine ⟨?_, ?_, ?_⟩
    · rintro rfl
      obtain ⟨t, ran, program, regs, one⟩ := engine_reads up mine pwr wins clean
      exact ⟨t, ran, program, regs, one⟩
    · rintro rfl
      exact engine_reads_bad up mine pwr wins
    · rintro be d rfl
      obtain ⟨t, ran, contexts, regs, ⟨others, own⟩, bytes⟩ := engine_writes up mine pwr wins clean
      exact ⟨t, ran, contexts, regs, others, own, bytes⟩
  · intro refused
    exact owner_refused may acked ((ownerRefused_fin s n v).2 refused)
  · intro admitted
    obtain ⟨t, ran, program, regs, ⟨others, own⟩, word⟩ := owner_hands may acked (mt (ownerRefused_fin s n v).1 admitted) rfl
    refine ⟨t, ran, program, others, regs, word, ?_, ?_, ?_⟩
    · rw [own]; rfl
    · rw [own]; rfl
    · rw [own]; rfl
  · intro own idle
    exact handing_ends own idle
  · intro _ busy
    exact handing_waits busy
  · intro own
    obtain ⟨t, ran, contexts, regs, ⟨others, mine⟩, bytes⟩ := wipe_ends own
    exact ⟨t, ran, contexts, regs, others, mine, bytes⟩
  · intro refused
    exact power_refused may acked own refused
  · intro admitted
    obtain ⟨t, ran, program, regs, ⟨others, mine⟩, auto, req⟩ := power_admitted may acked own admitted
    refine ⟨t, ran, program, regs, others, auto, req, ?_⟩
    rw [mine]
    exact poweredBy_cases (fld_two_bits v)
  · intro up _ moves busy
    exact transition_waits up moves busy
  · intro up own latched idle
    have may : MayEnd s n.val := ⟨own, idle⟩
    have settled : ∀ {x : Bank}, (bankN s n.val).pwr ≠ 4 → Ends s n x → ∃ t, exec (.bankPowerTransitionEnd n) s = .next t ∧
        SameContexts s t ∧ SameRegisters s t ∧ (∀ k, k ≠ n.val → bankN t k = bankN s k) ∧ bankN t n.val = x ∧
        ∀ a, rdB t a = if (bankN s n.val).pwr = 4 ∧ (if n.val = 32 then spareBase else 0x10000000 + n.val * 0x10000) ≤ a ∧
          a < (if n.val = 32 then spareBase else 0x10000000 + n.val * 0x10000) + 0x10000 then unlisted a else rdB s a := by
      rintro x lit ⟨t, ran, ⟨bytes, contexts⟩, regs, others, mine⟩
      exact ⟨t, ran, contexts, regs, others, mine, fun a => (bytes a).trans (if_neg (fun h => lit h.1)).symm⟩
    refine ⟨?_, ?_, ?_, ?_, ?_⟩
    · intro pwr uncalled
      exact settled (by omega) (retention_settles up may rfl latched pwr uncalled)
    · intro pwr called
      obtain ⟨t, ran, program, regs, word, others, mine⟩ := retention_called up may rfl latched pwr called
      exact ⟨t, ran, program, others, regs, word, mine⟩
    · intro pwr
      obtain ⟨t, ran, contexts, regs, ⟨others, mine⟩, bytes⟩ := switchOff_clears up may rfl latched pwr
      refine ⟨t, ran, contexts, regs, others, mine, fun a => (bytes a).trans ?_⟩
      rw [arrayOf_eq]
      exact if_congr (and_iff_right pwr).symm rfl rfl
    · intro pwr direct
      exact settled (by omega) (waking_settles up may rfl latched pwr direct)
    · intro pwr off retain
      exact settled (by omega) (waking_retains up may rfl pwr off retain)
  · intro up own pwr latched idle
    obtain ⟨t, ran, program, -, -, mine⟩ := retention_latched up ⟨own, .inr idle⟩ rfl pwr latched
    exact ⟨t, ran, program, mine⟩
  · intro active single
    exact writeBack_mends active single
  · intro idle
    exact writeBack_idle idle
  · intro active on small
    refine ⟨?_, ?_, ?_⟩
    · intro clean
      obtain ⟨t, ran, moved, regs⟩ := scrub_clean active on clean
      exact ⟨t, ran, moved, regs⟩
    · intro clean
      obtain ⟨t, ran, ⟨moved, counted, place⟩, mark⟩ := scrub_finds (u := .single) (k := 1) active on false small rfl
        (congrArg (setEcc s _) (if_pos clean)) rfl
      exact ⟨t, ran, ⟨moved, counted, place.trans (scrub_words _ _).1⟩, mark⟩
    · obtain ⟨t, ran, ⟨moved, counted, place⟩, mark⟩ := scrub_finds (u := .double) (k := 2) active on true small rfl rfl rfl
      exact ⟨t, ran, ⟨moved, counted, place.trans (scrub_words _ _).2⟩, mark⟩
  · intro b
    by_cases refused : GoRefused s b.val
    · obtain ⟨t, ran, program, regs, word, spare⟩ := go_refused may acked refused
      exact ⟨t, ran, program, regs, word.trans (if_pos refused).symm, (congrArg Bank.copyOf spare).trans (if_pos refused).symm⟩
    · obtain ⟨t, ran, program, regs, word, copy⟩ := go_starts may acked refused rfl
      exact ⟨t, ran, program, regs, word.trans (if_neg refused).symm, copy.trans (if_neg refused).symm⟩
  · intro runs
    exact abort_discards may acked runs
  · intro up runs more small pwr
    have array : arrayOf (bankN s 32).copyOf = 0x10000000 + (bankN s 32).copyOf * 0x10000 := if_neg (by omega)
    refine ⟨fun good => ?_, ?_⟩
    · obtain ⟨t, ran, copied, mark, map⟩ := copy_good up rfl runs rfl more (by rw [array]) rfl pwr good
      exact ⟨t, ran, ⟨copied.contexts, copied.word, copied.count, copied.target, copied.runs, copied.rest⟩, mark, map⟩
    · obtain ⟨t, ran, copied, mark, map⟩ := copy_bad up rfl runs rfl more (by rw [array]) rfl pwr
      exact ⟨t, ran, ⟨copied.contexts, copied.word, copied.count, copied.target, copied.runs, copied.rest⟩, mark, map⟩
  · intro up canonical runs full small
    exact spare_switches up canonical rfl rfl runs full small rfl

end Sys2Proof.Machine
end

section
/-! SUPPORT. Staging in the microstore (spec/10 R262, R263). -/

namespace Sys2Proof.Machine

/-- State `t` is `s` but for the microstore and the registers `l`. -/
structure McsStep (l : List Nat) (s t : State) : Prop where
  rest : ∃ m k, t = { s with csr := m, mcs := k }
  but : SameRegistersBut l s t

theorem McsStep.trans {l k : List Nat} {s t u : State} (h : McsStep l s t) (g : McsStep k t u) : McsStep (l ++ k) s u where
  rest := by
    obtain ⟨_, _, rfl⟩ := h.rest
    obtain ⟨_, _, rfl⟩ := g.rest
    exact ⟨_, _, rfl⟩
  but a ha := (g.but a fun e => ha (List.mem_append_right _ e)).trans (h.but a fun e => ha (List.mem_append_left _ e))

theorem McsStep.mono {l k : List Nat} {s t : State} (h : McsStep l s t) (sub : l ⊆ k) : McsStep k s t :=
  ⟨h.rest, fun a ha => h.but a fun e => ha (sub e)⟩

theorem mcsStep_setR (s : State) (a : Nat) (v : Word) : McsStep [a] s (setR s a v) := ⟨⟨_, _, rfl⟩, (onlyRegisters_setR s a v).but⟩

theorem mcsStep_modMcs (s : State) (f : Mcs → Mcs) : McsStep [] s (modMcs s f) := ⟨⟨_, _, rfl⟩, fun _ _ => rfl⟩

/-- The program and the lanes are as before. -/
def SameCore (s t : State) : Prop := SameProgram s t ∧ t.lnc = s.lnc

theorem McsStep.same {l : List Nat} {s t : State} (h : McsStep l s t) : SameCore s (settle t) := by
  obtain ⟨_, _, rfl⟩ := h.rest
  exact ⟨⟨fun a => rdB_settle _ a, fun w => (seen_settle _ w).trans (by cases w <;> rfl)⟩, settle_lnc _⟩

theorem McsStep.settle_registers {l : List Nat} {s t : State} (h : McsStep l s t) : SameRegistersBut l s (settle t) :=
  fun a ha => (getR_settle t a).trans (h.but a ha)

/-! ### Registers of a region -/

/-- Place of the region's staging state in MCS_STATUS. -/
def stagedLo (r : Bool) : Nat := if r then 2 else 0

theorem staged_place (r : Bool) : aStagedId r ≠ aMcsCtl ∧ aStagedId r ≠ aMcsStatus ∧ aStagedId r ≠ aMcsSaddr ∧ stagedLo r + 2 ≤ 4 := by
  cases r <;> decide

theorem getR_mcsErr (s : State) (e : Bool) (a : Nat) :
    getR (mcsErr s e) a = if a = aMcsCtl then setBit (getR s aMcsCtl) 31 e else getR s a := getR_setR _ _ _ _

theorem getR_setStagedState (s : State) (r : Bool) (v a : Nat) : getR (setStagedState s r v) a =
    if a = aMcsStatus then setFld (getR s aMcsStatus) (stagedLo r) 2 v else getR s a := getR_setR _ _ _ _

theorem getR_modMcs (s : State) (f : Mcs → Mcs) (a : Nat) : getR (modMcs s f) a = getR s a := rfl

theorem staged_setStaged (m : Mcs) (r : Bool) (b : SMap Nat) : stagedOf (setStaged m r b) r = b ∧ activeOf (setStaged m r b) r = activeOf m r := by
  cases r <;> exact ⟨rfl, rfl⟩

theorem bit_setBit_self (w : Word) {i : Nat} (b : Bool) (h : i < 32) : bit (setBit w i b) i = b := by rw [bit_setBit _ _ h, if_pos rfl]

/-! ### Writes of the microstore's registers -/

theorem writeReg_mcs {s : State} {w : Who} {a : Nat} {v : Word} (h : csrUnit a = 6) : writeReg s w a v = writeMcs s a v := by
  unfold writeReg touchPower
  rw [h]
  rfl

theorem mcs_place : ∀ a ∈ [aMcsCtl, aMcsStaged, aMcsCstaged, aMcsSaddr], (regOf a).any (fun x => decide (0 ≤ x.ring)) = true ∧
    csrUnit a = 6 ∧ csrSwitch a = none ∧ a ≠ aSvoCmd ∧ a ≠ aRngGcommit := by decide +kernel

section
variable {s : State} {c : BitVec 10} {r : Bool} {i : BitVec 11}

theorem writeAs_mcs (may : MayAccess s c 0) {a : Nat} (v : Word) (ha : a ∈ [aMcsCtl, aMcsStaged, aMcsCstaged, aMcsSaddr]) :
    writeAs s c a v = writeMcs s a v := by
  obtain ⟨ring, unit, switch, svo, commit⟩ := mcs_place a ha
  obtain ⟨known, low⟩ := (Option.any_eq_true_iff_get _ _).1 ring
  have reg : regOf a = some ((regOf a).get known) := (Option.some_get known).symm
  rw [writeAs_of_mayAccess may (csrDenied_of_ring_le s v reg (may.2.1.trans (of_decide_eq_true low)) svo) switch
    (acked_of_no_stores s c (by rw [unit]; decide)) commit, writeReg_mcs unit]

theorem saddr_word (r : Bool) (i : BitVec 11) : bit (u32 (b2n r * 2 ^ 16 + i.toNat)) 31 = false ∧
    bit (u32 (b2n r * 2 ^ 16 + i.toNat)) 16 = r ∧ fld (u32 (b2n r * 2 ^ 16 + i.toNat)) 0 11 = i.toNat ∧
    bit (u32 (2 ^ 31 + b2n r * 2 ^ 16 + i.toNat)) 31 = true ∧ bit (u32 (2 ^ 31 + b2n r * 2 ^ 16 + i.toNat)) 16 = r ∧
    fld (u32 (2 ^ 31 + b2n r * 2 ^ 16 + i.toNat)) 0 11 = i.toNat := by
  have hi := i.isLt
  have hr : b2n r ≤ 1 ∧ (b2n r = 1 ↔ r = true) := by cases r <;> decide
  have bits : ∀ n j, n < 2 ^ 32 → j < 32 → bit (u32 n) j = decide (n / 2 ^ j % 2 = 1) := fun n j hn hj => by
    rw [bit, u32, BitVec.getLsbD_ofNat, decide_eq_true hj, Bool.true_and, Nat.testBit_eq_decide_div_mod_eq]
  have region : ∀ n, n % 2 = b2n r → decide (n % 2 = 1) = r := fun n h => by
    rw [h]
    cases r <;> rfl
  have field : ∀ n, n < 2 ^ 32 → fld (u32 n) 0 11 = n % 2048 := fun n hn => by
    rw [fld, u32, BitVec.toNat_ofNat, Nat.mod_eq_of_lt hn, Nat.pow_zero, Nat.div_one]
    rfl
  refine ⟨?_, ?_, ?_, ?_, ?_, ?_⟩
  · rw [bits _ _ (by omega) (by decide)]
    exact decide_eq_false (by omega)
  · rw [bits _ _ (by omega) (by decide)]
    exact region _ (by omega)
  · rw [field _ (by omega)]
    omega
  · rw [bits _ _ (by omega) (by decide)]
    exact decide_eq_true (by omega)
  · rw [bits _ _ (by omega) (by decide)]
    exact region _ (by omega)
  · rw [field _ (by omega)]
    omega

theorem exec_mcsStageWrite (may : MayAccess s c 0) : exec (.mcsStageWrite c r i) s = .next (settle (stageWrite s r i.toNat)) := by
  obtain ⟨rd, region, index, -⟩ := saddr_word r i
  refine congrArg occurs ((writeAs_mcs may _ (by decide)).trans ?_)
  change writeMcsSaddr s _ = _
  rw [writeMcsSaddr, rd, if_neg (by decide), region, index]

theorem exec_mcsStageRead (may : MayAccess s c 0) : exec (.mcsStageRead c r i) s = .next (settle (stageRead s r i.toNat)) := by
  obtain ⟨-, -, -, rd, region, index⟩ := saddr_word r i
  refine congrArg occurs ((writeAs_mcs may _ (by decide)).trans ?_)
  change writeMcsSaddr s _ = _
  rw [writeMcsSaddr, rd, if_pos rfl, region, index]

theorem exec_mcsClear (may : MayAccess s c 0) : exec (.mcsClear c r) s = .next (settle (stageClear s r)) := by
  refine congrArg occurs ((writeAs_mcs may _ (by decide)).trans ?_)
  cases r <;> rfl

theorem exec_mcsStagedDigest (may : MayAccess s c 0) : exec (.mcsStagedDigest c r) s = .next (settle (stagedDigest s r)) := by
  refine congrArg occurs ((writeAs_mcs may _ (by decide)).trans ?_)
  cases r <;> rfl

/-- One request alone is written to MCS_CTL. -/
theorem writeMcsCtl_switch (s : State) (r : Bool) : writeMcsCtl s (if r then 2 else 1) = requestSwitch s r := by
  cases r
  · simp only [writeMcsCtl, Bool.false_eq_true, if_false, show bit (1 : Word) 0 = true from rfl, show bit (1 : Word) 1 = false from rfl,
      show bit (1 : Word) 2 = false from rfl, show bit (1 : Word) 3 = false from rfl, show bit (1 : Word) 4 = false from rfl,
      show bit (1 : Word) 5 = false from rfl, if_true]
  · simp only [writeMcsCtl, Bool.false_eq_true, if_false, show bit (2 : Word) 0 = false from rfl, show bit (2 : Word) 1 = true from rfl,
      show bit (2 : Word) 2 = false from rfl, show bit (2 : Word) 3 = false from rfl, show bit (2 : Word) 4 = false from rfl,
      show bit (2 : Word) 5 = false from rfl, if_true]

theorem exec_mcsSwitch (may : MayAccess s c 0) : exec (.mcsSwitch c r) s = .next (settle (requestSwitch s r)) := by
  refine congrArg occurs ((writeAs_mcs may _ (by decide)).trans ?_)
  exact (rfl : writeMcs s aMcsCtl _ = writeMcsCtl s _).trans (writeMcsCtl_switch s r)

theorem exec_mcsStagedWrite (may : MayAccess s c 0) (v : Word) : exec (.mcsStagedWrite c r v) s = .next (settle (stageIdent s r v)) := by
  refine congrArg occurs ((writeAs_mcs may _ (by cases r <;> decide)).trans ?_)
  cases r
  · rw [writeMcs, if_neg (by decide), if_pos (by decide)]
  · rw [writeMcs, if_neg (by decide), if_neg (by decide), if_pos (by decide)]

/-! ### Staging writes and reads -/

/-- Staging of a region is refused while a switch or its digest runs (R262). -/
def Frozen (s : State) (r : Bool) : Prop := s.mcs.sw.isSome = true ∨ (if r then 3 else 2) ∈ s.mcs.dig

theorem stageRefused_iff (s : State) (r : Bool) (i : Nat) : (!slotOk r i || swBusy s || stagedDigesting s r) = true ↔
    ¬ i < (if r then 1040 else 1088) ∨ Frozen s r := by
  rw [Bool.or_eq_true, Bool.or_eq_true, Bool.not_eq_true', slotOk, decide_eq_false_iff_not, swBusy, stagedDigesting,
    List.contains_iff_mem, Frozen, or_assoc]

theorem stageWrite_refused {i : Nat} (h : ¬ i < (if r then 1040 else 1088) ∨ Frozen s r) :
    let t := settle (stageWrite s r i)
    SameCore s t ∧ t.mcs = s.mcs ∧ bit (getR t aMcsCtl) 31 = true ∧ SameRegistersBut [aMcsSaddr, aMcsCtl] s t := by
  intro t
  generalize hx : u32 (b2n r * 2 ^ 16 + i) = x
  have wrote : stageWrite s r i = mcsErr (setR s aMcsSaddr x) true := by
    unfold stageWrite
    dsimp only
    rw [if_pos ((stageRefused_iff s r i).2 h), hx]
  have step := (mcsStep_setR s aMcsSaddr x).trans (mcsStep_setR (setR s aMcsSaddr x) aMcsCtl (setBit (getR (setR s aMcsSaddr x) aMcsCtl) 31 true))
  have refused : t = settle (mcsErr (setR s aMcsSaddr x) true) := congrArg settle wrote
  rw [refused]
  refine ⟨step.same, settle_mcs _, ?_, step.settle_registers⟩
  rw [getR_settle, getR_mcsErr, if_pos rfl, bit_setBit_self _ _ (by decide)]

theorem stageWrite_writes {i : Nat} (h : i < if r then 1040 else 1088) (free : ¬ Frozen s r) :
    let t := settle (stageWrite s r i)
    SameCore s t ∧ bit (getR t aMcsCtl) 31 = false ∧ SameRegistersBut [aMcsSaddr, aMcsCtl, aMcsStatus, aStagedId r] s t ∧
      fld (getR t aMcsStatus) (stagedLo r) 2 = 1 ∧ getR t (aStagedId r) = 0 ∧
      t.mcs = setStaged s.mcs r ((stagedOf s.mcs r).set 0 i (stagingWord s i)) := by
  intro t
  obtain ⟨ctl, status, saddr, low⟩ := staged_place r
  generalize hx : u32 (b2n r * 2 ^ 16 + i) = x
  generalize hy : setR s aMcsSaddr x = y
  have same : y.mcs = s.mcs := by rw [← hy]; rfl
  generalize hf : (fun m => setStaged m r ((stagedOf m r).set 0 i (stagingWord s i))) = f
  have wrote : stageWrite s r i = setR (setStagedState (modMcs (mcsErr y false) f) r 1) (aStagedId r) 0 := by
    unfold stageWrite
    dsimp only
    rw [if_neg (mt (stageRefused_iff s r i).1 (fun either => either.elim (fun out => out h) free)), hx, hy, hf]
  have step := (((hy ▸ mcsStep_setR s aMcsSaddr x).trans (mcsStep_setR y aMcsCtl _)).trans (mcsStep_modMcs (mcsErr y false) f)).trans
    ((mcsStep_setR (modMcs (mcsErr y false) f) aMcsStatus _).trans
      (mcsStep_setR (setStagedState (modMcs (mcsErr y false) f) r 1) (aStagedId r) 0))
  have written : t = settle (setR (setStagedState (modMcs (mcsErr y false) f) r 1) (aStagedId r) 0) := congrArg settle wrote
  rw [written]
  refine ⟨step.same, ?_, (step.mono (by simp)).settle_registers, ?_, ?_, ?_⟩
  · rw [getR_settle, getR_setR, if_neg (Ne.symm ctl), getR_setStagedState, if_neg (by decide), getR_modMcs, getR_mcsErr, if_pos rfl,
      bit_setBit_self _ _ (by decide)]
  · rw [getR_settle, getR_setR, if_neg (Ne.symm status), getR_setStagedState, if_pos rfl, fld_setFld _ _ (by omega)]
    rfl
  · rw [getR_settle, getR_setR, if_pos rfl]
  · rw [settle_mcs, ← same, ← hf]
    rfl

end

end Sys2Proof.Machine
end

section
/-! SUPPORT. Reads, clears and identifiers of the staged buffers, and the request of a switch (spec/10 R262 to R264). -/

namespace Sys2Proof.Machine

/-- Words placed in registers four bytes apart. -/
def placeWords (base n : Nat) (f : Nat → Word) (s : State) : State := (List.range n).foldl (fun t k => setR t (base + 4 * k) (f k)) s

theorem getR_placeWords (base n : Nat) (f : Nat → Word) (s : State) {j : Nat} (hj : j < n) :
    getR (placeWords base n f s) (base + 4 * j) = f j :=
  (foldl_view (V := fun t => getR t (base + 4 * j)) (g := fun _ => f j) (j := j) (fun t k _ => by
    rw [getR_setR]
    by_cases e : k = j
    · rw [if_pos (by rw [e]), if_pos e, e]
    · rw [if_neg (by omega), if_neg e]) List.nodup_range s).trans (if_pos (List.mem_range.2 hj))

theorem getR_placeWords_other (base n : Nat) (f : Nat → Word) (s : State) {a : Nat} (ha : a < base ∨ base + 4 * n ≤ a) :
    getR (placeWords base n f s) a = getR s a := by
  have kept : ∀ (l : List Nat) (t : State), (∀ k ∈ l, k < n) → getR (l.foldl (fun t k => setR t (base + 4 * k) (f k)) t) a = getR t a := by
    intro l
    induction l with
    | nil => exact fun _ _ => rfl
    | cons k r ih =>
      intro t h
      have hk := h k List.mem_cons_self
      rw [List.foldl_cons, ih _ (fun m hm => h m (List.mem_cons_of_mem _ hm)), getR_setR, if_neg (by omega)]
  exact kept _ s fun k hk => List.mem_range.1 hk

theorem placeWords_rest (base n : Nat) (f : Nat → Word) (s : State) : ∃ m, placeWords base n f s = { s with csr := m } := by
  have kept : ∀ (l : List Nat) (t : State), ∃ m, l.foldl (fun t k => setR t (base + 4 * k) (f k)) t = { t with csr := m } := by
    intro l
    induction l with
    | nil => exact fun t => ⟨t.csr, rfl⟩
    | cons k r ih =>
      intro t
      obtain ⟨m, e⟩ := ih (setR t (base + 4 * k) (f k))
      exact ⟨m, e⟩
  exact kept _ s

/-- The registers of `n` words at `base`. -/
def wordRegs (base n : Nat) : List Nat := (List.range n).map (fun k => base + 4 * k)

theorem mcsStep_placeWords (base n : Nat) (f : Nat → Word) (s : State) : McsStep (wordRegs base n) s (placeWords base n f s) where
  rest := by
    obtain ⟨m, e⟩ := placeWords_rest base n f s
    exact ⟨m, s.mcs, e⟩
  but a ha := by
    have kept : ∀ (l : List Nat) (t : State), (∀ k ∈ l, base + 4 * k ≠ a) →
        getR (l.foldl (fun t k => setR t (base + 4 * k) (f k)) t) a = getR t a := by
      intro l
      induction l with
      | nil => exact fun _ _ => rfl
      | cons k r ih =>
        intro t h
        rw [List.foldl_cons, ih _ (fun m hm => h m (List.mem_cons_of_mem _ hm)), getR_setR, if_neg (Ne.symm (h k List.mem_cons_self))]
    exact kept _ s fun k hk e => ha (List.mem_map.2 ⟨k, hk, e⟩)

section
variable {s : State} {r : Bool} {i : Nat}

theorem stageRead_reads (h : i < if r then 1040 else 1088) :
    let t := settle (stageRead s r i)
    SameCore s t ∧ t.mcs = s.mcs ∧
      (∀ k, k < 4 → getR t (aMcsSdata + 4 * k) = u32 ((stagedOf s.mcs r).get 0 i / 2 ^ (32 * k))) ∧
      ∀ a, a ≠ aMcsSaddr → (a < aMcsSdata ∨ aMcsSdata + 16 ≤ a) → getR t a = getR s a := by
  intro t
  generalize hx : u32 (2 ^ 31 + b2n r * 2 ^ 16 + i) = x
  have step := mcsStep_setR s aMcsSaddr x
  generalize hy : setR s aMcsSaddr x = y at step
  generalize hf : (fun k => u32 ((stagedOf s.mcs r).get 0 i / 2 ^ (32 * k))) = f
  have placed : t = settle (placeWords aMcsSdata 4 f y) := by
    refine congrArg settle ?_
    unfold stageRead
    dsimp only
    rw [hx, hy, if_pos (show slotOk r i = true from decide_eq_true h), ← hf, ← hy]
    rfl
  have whole := step.trans (mcsStep_placeWords aMcsSdata 4 f y)
  rw [placed]
  refine ⟨whole.same, ?_, fun k hk => ?_, fun a ha out => ?_⟩
  · obtain ⟨m, e⟩ := placeWords_rest aMcsSdata 4 f y
    rw [settle_mcs, e, ← hy]
    rfl
  · rw [getR_settle, getR_placeWords _ _ _ _ hk, ← hf]
  · rw [getR_settle, getR_placeWords_other _ _ _ _ out]
    exact step.but a (fun e => ha (List.mem_singleton.1 e))

theorem stageRead_refused (h : ¬ i < if r then 1040 else 1088) :
    let t := settle (stageRead s r i)
    SameCore s t ∧ t.mcs = s.mcs ∧ bit (getR t aMcsCtl) 31 = true ∧ SameRegistersBut [aMcsSaddr, aMcsCtl] s t := by
  intro t
  generalize hx : u32 (2 ^ 31 + b2n r * 2 ^ 16 + i) = x
  have step := (mcsStep_setR s aMcsSaddr x).trans (mcsStep_setR (setR s aMcsSaddr x) aMcsCtl
    (setBit (getR (setR s aMcsSaddr x) aMcsCtl) 31 true))
  have refused : t = settle (mcsErr (setR s aMcsSaddr x) true) := by
    refine congrArg settle ?_
    unfold stageRead
    dsimp only
    rw [hx, if_neg (by rw [slotOk, decide_eq_true_iff]; exact h)]
  rw [refused]
  refine ⟨step.same, settle_mcs _, ?_, step.settle_registers⟩
  rw [getR_settle, getR_mcsErr, if_pos rfl, bit_setBit_self _ _ (by decide)]

/-! ### Requests in MCS_CTL -/

/-- The control word with a request accepted. -/
theorem accepted_ctl (w m : Word) (h : bit m 31 = false) {j : Nat} (hj : bit m j = true) :
    bit (setBit w 31 false ||| m) 31 = false ∧ bit (setBit w 31 false ||| m) j = true := by
  rw [bit_or, bit_or, h, hj, bit_setBit_self _ _ (by decide), Bool.or_true]
  exact ⟨rfl, rfl⟩

/-- A request bit is set, and the refusal cleared. -/
def accept_ (s : State) (m : Word) : State := orR (mcsErr s false) aMcsCtl m

theorem accept_step (s : State) (m : Word) : McsStep [aMcsCtl] s (accept_ s m) ∧ (accept_ s m).mcs = s.mcs ∧
    getR (accept_ s m) aMcsCtl = setBit (getR s aMcsCtl) 31 false ||| m := by
  refine ⟨((mcsStep_setR s aMcsCtl (setBit (getR s aMcsCtl) 31 false)).trans (mcsStep_setR (mcsErr s false) aMcsCtl
    (getR (mcsErr s false) aMcsCtl ||| m))).mono (by simp), rfl, ?_⟩
  rw [accept_, getR_orR, if_pos rfl, getR_mcsErr, if_pos rfl]

theorem stageClear_starts : let t := settle (stageClear s r)
    SameCore s t ∧ t.mcs = s.mcs ∧ SameRegistersBut [aMcsCtl] s t ∧ bit (getR t aMcsCtl) (if r then 3 else 2) = true ∧
      bit (getR t aMcsCtl) 31 = false := by
  intro t
  obtain ⟨step, mcs, word⟩ := accept_step s (if r then 8 else 4)
  obtain ⟨clear, set⟩ := accepted_ctl (getR s aMcsCtl) (if r then 8 else 4) (j := if r then 3 else 2) (by cases r <;> rfl) (by cases r <;> rfl)
  have started : getR t aMcsCtl = setBit (getR s aMcsCtl) 31 false ||| if r then 8 else 4 := (getR_settle _ _).trans word
  exact ⟨step.same, (settle_mcs _).trans mcs, step.settle_registers, by rw [started]; exact set, by rw [started]; exact clear⟩

/-- A clear ends: the buffer is empty, and has no identifier (R263). -/
theorem stageClearDone_empties (h : bit (getR s aMcsCtl) (if r then 3 else 2) = true) :
    let t := settle (stageClearDone s r)
    SameCore s t ∧ t.mcs = setStaged s.mcs r [] ∧ fld (getR t aMcsStatus) (stagedLo r) 2 = 0 ∧ getR t (aStagedId r) = 0 ∧
      bit (getR t aMcsCtl) (if r then 3 else 2) = false ∧ SameRegistersBut [aMcsCtl, aMcsStatus, aStagedId r] s t := by
  intro t
  obtain ⟨ctl, status, -, low⟩ := staged_place r
  have mask : bit (if r then 8 else 4 : Word) (if r then 3 else 2) = true := by cases r <;> rfl
  have small : (if r then 3 else 2) < 32 := by cases r <;> decide
  generalize hm : (if r then 8 else 4 : Word) = m at mask
  have first := (mcsStep_modMcs s (fun m => setStaged m r [])).trans (mcsStep_setR (modMcs s (fun m => setStaged m r [])) aMcsCtl
    (getR (modMcs s (fun m => setStaged m r [])) aMcsCtl &&& ~~~m))
  have cleared : getR (clrR (modMcs s (fun m => setStaged m r [])) aMcsCtl m) aMcsCtl = getR s aMcsCtl &&& ~~~m := by
    rw [getR_clrR, if_pos rfl, getR_modMcs]
  have emptied : (clrR (modMcs s (fun m => setStaged m r [])) aMcsCtl m).mcs = setStaged s.mcs r [] := rfl
  have ended : t = settle (setR (setStagedState (clrR (modMcs s (fun m => setStaged m r [])) aMcsCtl m) r 0) (aStagedId r) 0) := by
    refine congrArg settle ?_
    unfold stageClearDone clearing
    rw [if_pos h, hm]
  change McsStep _ s (clrR (modMcs s (fun m => setStaged m r [])) aMcsCtl m) at first
  generalize clrR (modMcs s (fun m => setStaged m r [])) aMcsCtl m = y at first cleared emptied ended
  have step := (first.trans (mcsStep_setR y aMcsStatus (setFld (getR y aMcsStatus) (stagedLo r) 2 0))).trans
    (mcsStep_setR (setStagedState y r 0) (aStagedId r) 0)
  rw [ended]
  refine ⟨step.same, (settle_mcs _).trans emptied, ?_, ?_, ?_, (step.mono (by simp)).settle_registers⟩
  · rw [getR_settle, getR_setR, if_neg (Ne.symm status), getR_setStagedState, if_pos rfl, fld_setFld _ _ (by omega), Nat.zero_mod]
  · rw [getR_settle, getR_setR, if_pos rfl]
  · rw [getR_settle, getR_setR, if_neg (Ne.symm ctl), getR_setStagedState, if_neg (by decide), cleared, bit_and, bit_not _ small, mask]
    exact Bool.and_false _

/-- An identifier is written (R263). -/
theorem stageIdent_sets (v : Word) : let t := settle (stageIdent s r v)
    SameCore s t ∧ t.mcs = s.mcs ∧ SameRegistersBut [aStagedId r, aMcsStatus] s t ∧ getR t (aStagedId r) = v ∧
      fld (getR t aMcsStatus) (stagedLo r) 2 = if v ≠ 0 then 2 else if fld (getR s aMcsStatus) (stagedLo r) 2 = 0 then 0 else 1 := by
  intro t
  obtain ⟨-, status, -, low⟩ := staged_place r
  have kept : getR (setR s (aStagedId r) v) aMcsStatus = getR s aMcsStatus := by rw [getR_setR, if_neg (Ne.symm status)]
  have first := mcsStep_setR s (aStagedId r) v
  have named : getR (setR s (aStagedId r) v) (aStagedId r) = v := by rw [getR_setR, if_pos rfl]
  have same : (setR s (aStagedId r) v).mcs = s.mcs := rfl
  have marked : ∀ k, k < 4 → let u := settle (setStagedState (setR s (aStagedId r) v) r k)
      SameCore s u ∧ u.mcs = s.mcs ∧ SameRegistersBut [aStagedId r, aMcsStatus] s u ∧ getR u (aStagedId r) = v ∧
        fld (getR u aMcsStatus) (stagedLo r) 2 = k := fun k hk => by
    have step := first.trans (mcsStep_setR (setR s (aStagedId r) v) aMcsStatus
      (setFld (getR (setR s (aStagedId r) v) aMcsStatus) (stagedLo r) 2 k))
    refine ⟨step.same, settle_mcs _, step.settle_registers, ?_, ?_⟩
    · rw [getR_settle, getR_setStagedState, if_neg status, named]
    · rw [getR_settle, getR_setStagedState, if_pos rfl, fld_setFld _ _ (by omega)]
      exact Nat.mod_eq_of_lt hk
  by_cases some_ : v ≠ 0
  · have sealed_ : t = settle (setStagedState (setR s (aStagedId r) v) r 2) := congrArg settle (if_pos some_)
    rw [sealed_, if_pos some_]
    exact marked 2 (by decide)
  · rw [if_neg some_]
    by_cases empty : fld (getR s aMcsStatus) (stagedLo r) 2 = 0
    · have stays : t = settle (setR s (aStagedId r) v) := congrArg settle ((if_neg some_).trans (if_pos empty))
      rw [stays, if_pos empty]
      refine ⟨first.same, settle_mcs _, (first.mono (by simp)).settle_registers, ?_, ?_⟩
      · rw [getR_settle, named]
      · rw [getR_settle, kept, empty]
    · have loading : t = settle (setStagedState (setR s (aStagedId r) v) r 1) := congrArg settle ((if_neg some_).trans (if_neg empty))
      rw [loading, if_neg empty]
      exact marked 1 (by decide)

/-! ### The request of a switch -/

/-- The first reason that refuses a switch (R264). -/
theorem switchRefusal_eq : switchRefusal s r = if fld (getR s aMcsStatus) (stagedLo r) 2 = 1 then 1
    else if s.lnc.set ≠ .triplex ∧ s.lnc.set ≠ .duplex then 2 else if s.mcs.sw ≠ none then 3 else if s.lnc.busy = true then 4
    else if bit (getR s aMcsCtl) (if r then 3 else 2) = true then 5 else 0 := by
  have busy : swBusy s = true ↔ s.mcs.sw ≠ none := Option.isSome_iff_ne_none
  rw [← if_congr busy rfl rfl]
  rfl

theorem requestSwitch_cases {k : Nat} (hk : switchRefusal s r = k) (small : k < 16) : let t := settle (requestSwitch s r)
    SameCore s t ∧ SameRegistersBut [aMcsCtl, aMcsStatus] s t ∧
      (k = 0 → t.mcs = { s.mcs with sw := some r } ∧ bit (getR t aMcsStatus) 31 = true ∧ bit (getR t aMcsCtl) 31 = false) ∧
      (k ≠ 0 → t.mcs = s.mcs ∧ bit (getR t aMcsCtl) 31 = true ∧ fld (getR t aMcsStatus) 8 4 = k) := by
  intro t
  have ctl : ∀ e, McsStep [aMcsCtl] s (mcsErr s e) := fun e => mcsStep_setR s aMcsCtl _
  by_cases accepts : k = 0
  · have starts : t = settle (modMcs (orR (mcsErr s false) aMcsStatus 0x80000000#32) (fun m => { m with sw := some r })) :=
      congrArg settle (if_pos (hk.trans accepts))
    have step := ((ctl false).trans (mcsStep_setR (mcsErr s false) aMcsStatus (getR (mcsErr s false) aMcsStatus ||| 0x80000000#32))).trans
      (mcsStep_modMcs (orR (mcsErr s false) aMcsStatus 0x80000000#32) (fun m => { m with sw := some r }))
    rw [starts]
    refine ⟨step.same, (step.mono (by simp)).settle_registers, fun _ => ⟨settle_mcs _, ?_, ?_⟩, fun refused => absurd accepts refused⟩
    · rw [getR_settle, getR_modMcs, getR_orR, if_pos rfl, bit_or, show bit 0x80000000#32 31 = true from rfl, Bool.or_true]
    · rw [getR_settle, getR_modMcs, getR_orR, if_neg (by decide), getR_mcsErr, if_pos rfl, bit_setBit_self _ _ (by decide)]
  · have refused : t = settle (setR (mcsErr s true) aMcsStatus (setFld (getR (mcsErr s true) aMcsStatus) 8 4 k)) :=
      congrArg settle ((if_neg (by rw [hk]; exact accepts)).trans (by rw [hk]))
    have step := (ctl true).trans (mcsStep_setR (mcsErr s true) aMcsStatus (setFld (getR (mcsErr s true) aMcsStatus) 8 4 k))
    rw [refused]
    refine ⟨step.same, step.settle_registers, fun zero => absurd zero accepts, fun _ => ⟨settle_mcs _, ?_, ?_⟩⟩
    · rw [getR_settle, getR_setR, if_neg (by decide), getR_mcsErr, if_pos rfl, bit_setBit_self _ _ (by decide)]
    · rw [getR_settle, getR_setR, if_pos rfl, fld_setFld _ _ (by decide)]
      exact Nat.mod_eq_of_lt small

end

end Sys2Proof.Machine
end

section
/-! SUPPORT. Digests and the exchange of the microstore's buffers (spec/10 R265, R268). -/

namespace Sys2Proof.Machine

/-- The digest registers are no other register of the microstore. -/
theorem digest_place : ∀ d : Fin 4, ∀ a ∈ [aMcsCtl, aMcsStatus, aMcsStaged, aMcsCstaged, aMcsVersion, aMcsCversion],
    a < digestBase d.val ∨ digestBase d.val + 4 * 8 ≤ a := by decide

section
variable {s : State} {r : Bool}

/-- A digest computation starts: its registers read 0 (R268). -/
structure DigestStarted (s t : State) (d : Nat) : Prop where
  step : McsStep (aMcsStatus :: wordRegs (digestBase d) 8) s t
  mcs : t.mcs = { s.mcs with dig := s.mcs.dig.filter (· ≠ d) ++ [d] }
  zero : ∀ k, k < 8 → getR t (digestBase d + 4 * k) = 0
  status : getR t aMcsStatus = getR s aMcsStatus ||| 0x40000000#32
  other : ∀ a, a ≠ aMcsStatus → (a < digestBase d ∨ digestBase d + 4 * 8 ≤ a) → getR t a = getR s a

theorem startDigest_starts (s : State) (d : Fin 4) : DigestStarted s (startDigest s d.val) d.val := by
  have apart := digest_place d
  have status := apart aMcsStatus (by decide)
  have first := mcsStep_setR s aMcsStatus (getR s aMcsStatus ||| 0x40000000#32)
  have word : getR (orR s aMcsStatus 0x40000000#32) aMcsStatus = getR s aMcsStatus ||| 0x40000000#32 := by rw [getR_orR, if_pos rfl]
  have same : (orR s aMcsStatus 0x40000000#32).mcs = s.mcs := rfl
  have started : startDigest s d.val = modMcs (placeWords (digestBase d.val) 8 (fun _ => 0) (orR s aMcsStatus 0x40000000#32))
      (fun m => { m with dig := m.dig.filter (· ≠ d.val) ++ [d.val] }) := rfl
  rw [started]
  change McsStep _ s (orR s aMcsStatus 0x40000000#32) at first
  generalize orR s aMcsStatus 0x40000000#32 = y at first word same
  have second := mcsStep_placeWords (digestBase d.val) 8 (fun _ => 0) y
  refine ⟨((first.trans second).trans (mcsStep_modMcs _ _)).mono (by simp), ?_, fun k hk => ?_, ?_, fun a ha out => ?_⟩
  · obtain ⟨m, e⟩ := placeWords_rest (digestBase d.val) 8 (fun _ => 0) y
    rw [e, ← same]
    rfl
  · rw [getR_modMcs, getR_placeWords _ _ _ _ hk]
  · rw [getR_modMcs, getR_placeWords_other _ _ _ _ status, word]
  · rw [getR_modMcs, getR_placeWords_other _ _ _ _ out]
    exact first.but a (fun e => ha (List.mem_singleton.1 e))

/-- The number of the staged digest of a region. -/
def stagedCode (r : Bool) : Fin 4 := if r then 3 else 2

theorem stagedCode_val (r : Bool) : (stagedCode r).val = if r then 3 else 2 := by cases r <;> rfl

theorem stagedCode_base (r : Bool) : digestBase (stagedCode r).val = aMcsSdigest := by cases r <;> rfl

theorem stagedDigesting_iff (s : State) (r : Bool) : stagedDigesting s r = true ↔ (if r then 3 else 2) ∈ s.mcs.dig :=
  List.contains_iff_mem

/-- The staged digest of region `r` has begun. -/
theorem beginStaged_begins (s : State) (r : Bool) : let t := beginStaged s r
    McsStep (aMcsStatus :: wordRegs aMcsSdigest 8) s t ∧
      t.mcs = { s.mcs with dig := s.mcs.dig.filter (· ≠ if r then 3 else 2) ++ [if r then 3 else 2] } ∧
      bit (getR t aMcsStatus) 30 = true ∧ bit (getR t aMcsStatus) 29 = r ∧ (∀ k, k < 8 → getR t (aMcsSdigest + 4 * k) = 0) ∧
      getR t aMcsCtl = getR s aMcsCtl := by
  intro t
  generalize hy : setR s aMcsStatus (setBit (getR s aMcsStatus) 29 r) = y
  have first : McsStep [aMcsStatus] s y := hy ▸ mcsStep_setR s aMcsStatus _
  have same : y.mcs = s.mcs := by rw [← hy]; rfl
  have word : getR y aMcsStatus = setBit (getR s aMcsStatus) 29 r := by rw [← hy, getR_setR, if_pos rfl]
  have ctl : getR y aMcsCtl = getR s aMcsCtl := first.but aMcsCtl (by decide)
  obtain ⟨step, mcs, zero, status, other⟩ := startDigest_starts y (stagedCode r)
  have begun : t = startDigest y (stagedCode r).val := by
    rw [stagedCode_val, ← hy]
    rfl
  rw [stagedCode_base] at step zero other
  rw [stagedCode_val] at mcs
  rw [begun, stagedCode_val]
  rw [stagedCode_val] at step zero status other
  refine ⟨(first.trans step).mono (by simp), by rw [mcs, same], ?_, ?_, zero, ?_⟩
  · rw [status, bit_or, show bit 0x40000000#32 30 = true from rfl, Bool.or_true]
  · rw [status, bit_or, word, bit_setBit_self _ _ (by decide), show bit 0x40000000#32 29 = false from rfl, Bool.or_false]
  · rw [other aMcsCtl (by decide) (by decide), ctl]

/-! ### Requests of a staged digest -/

/-- The bit of MCS_CTL that asks for the staged digest of a region. -/
def digestBit (r : Bool) : Nat := if r then 5 else 4

theorem digestBit_mask (r : Bool) : bit (if r then 0x20 else 0x10) (digestBit r) = true ∧ bit (if r then 0x20 else 0x10) 31 = false ∧
    digestBit r < 32 := by
  cases r <;> exact ⟨rfl, rfl, by decide⟩

theorem stagedDigest_running (h : (if r then 3 else 2) ∈ s.mcs.dig) : stagedDigest s r = s :=
  if_pos ((stagedDigesting_iff s r).2 h)

theorem stagedDigest_waits (idle : (if r then 3 else 2) ∉ s.mcs.dig) (other : (if !r then 3 else 2) ∈ s.mcs.dig) :
    let t := settle (stagedDigest s r)
    SameCore s t ∧ SameRegistersBut [aMcsCtl] s t ∧ t.mcs = { s.mcs with dig := s.mcs.dig ++ [if r then 3 else 2] } ∧
      bit (getR t aMcsCtl) (digestBit r) = true ∧ bit (getR t aMcsCtl) 31 = false := by
  intro t
  obtain ⟨mask, high, -⟩ := digestBit_mask r
  obtain ⟨step, mcs, word⟩ := accept_step s (if r then 0x20 else 0x10)
  obtain ⟨clear, set⟩ := accepted_ctl (getR s aMcsCtl) (if r then 0x20 else 0x10) high mask
  have waits : t = settle (modMcs (accept_ s (if r then 0x20 else 0x10)) (fun m => { m with dig := m.dig ++ [if r then 3 else 2] })) :=
    congrArg settle ((if_neg (mt (stagedDigesting_iff s r).1 idle)).trans (if_pos ((stagedDigesting_iff s (!r)).2 other)))
  generalize accept_ s (if r then 0x20 else 0x10) = y at step mcs word waits
  have whole := step.trans (mcsStep_modMcs y (fun m => { m with dig := m.dig ++ [if r then 3 else 2] }))
  have ctl : getR t aMcsCtl = setBit (getR s aMcsCtl) 31 false ||| if r then 0x20 else 0x10 := by
    rw [waits, getR_settle, getR_modMcs, word]
  refine ⟨waits ▸ whole.same, waits ▸ (whole.mono (by simp)).settle_registers, ?_, by rw [ctl]; exact set, by rw [ctl]; exact clear⟩
  rw [waits, settle_mcs, ← mcs]
  rfl

theorem stagedDigest_begins (idle : (if r then 3 else 2) ∉ s.mcs.dig) (other : (if !r then 3 else 2) ∉ s.mcs.dig) :
    let t := settle (stagedDigest s r)
    SameCore s t ∧ t.mcs = { s.mcs with dig := s.mcs.dig ++ [if r then 3 else 2] } ∧ bit (getR t aMcsStatus) 30 = true ∧
      bit (getR t aMcsStatus) 29 = r ∧ bit (getR t aMcsCtl) (digestBit r) = true ∧
      ∀ k, k < 8 → getR t (aMcsSdigest + 4 * k) = 0 := by
  intro t
  obtain ⟨mask, high, -⟩ := digestBit_mask r
  obtain ⟨step, mcs, word⟩ := accept_step s (if r then 0x20 else 0x10)
  obtain ⟨-, set⟩ := accepted_ctl (getR s aMcsCtl) (if r then 0x20 else 0x10) high mask
  have begins : t = settle (beginStaged (accept_ s (if r then 0x20 else 0x10)) r) :=
    congrArg settle ((if_neg (mt (stagedDigesting_iff s r).1 idle)).trans (if_neg (mt (stagedDigesting_iff s (!r)).1 other)))
  generalize accept_ s (if r then 0x20 else 0x10) = y at step mcs word begins
  obtain ⟨more, dig, on, region, zero, ctl⟩ := beginStaged_begins y r
  have kept : s.mcs.dig.filter (· ≠ if r then 3 else 2) = s.mcs.dig :=
    List.filter_eq_self.2 fun d hd => decide_eq_true (fun e => idle (e ▸ hd))
  rw [begins]
  refine ⟨(step.trans more).same, ?_, ?_, ?_, ?_, fun k hk => ?_⟩
  · rw [settle_mcs, dig, mcs, kept]
  · rw [getR_settle, on]
  · rw [getR_settle, region]
  · rw [getR_settle, ctl, word, set]
  · rw [getR_settle, zero k hk]

/-! ### The end of a digest -/

/-- The words of a digest. -/
def digestWords (s : State) (d : Nat) (r : Bool) (k : Nat) : Word :=
  u32 (leNat (((bufferDigest r (if 2 ≤ d then stagedOf s.mcs r else activeOf s.mcs r)
    (getR s (if 2 ≤ d then aStagedId r else aActiveId r))).drop (4 * k)).take 4))

/-- The digest words are in place, and the computation is no longer listed. -/
def digestPlaced (s : State) (d : Nat) (r : Bool) (rest : List Nat) : State :=
  let s2 := modMcs (placeWords (digestBase d) 8 (digestWords s d r) s) (fun m => { m with dig := rest })
  if 2 ≤ d then clrR s2 aMcsCtl (if r then 0x20 else 0x10) else s2

theorem digestDone_eq {d : Nat} {rest : List Nat} (h : s.mcs.dig = d :: rest) (hr : r = (d == 1 || d == 3)) : digestDone s =
    if rest = [] then clrR (digestPlaced s d r rest) aMcsStatus 0x40000000#32
    else if 2 ≤ d ∧ stagedDigesting (digestPlaced s d r rest) (!r) = true then beginStaged (digestPlaced s d r rest) !r
    else digestPlaced s d r rest := by
  unfold digestDone
  rw [h, hr]
  rfl

theorem digestPlaced_places (d : Fin 4) (rest : List Nat) : let t := digestPlaced s d.val r rest
    McsStep (aMcsCtl :: wordRegs (digestBase d.val) 8) s t ∧ t.mcs = { s.mcs with dig := rest } ∧
      (∀ k, k < 8 → getR t (digestBase d.val + 4 * k) = digestWords s d.val r k) ∧
      (2 ≤ d.val → bit (getR t aMcsCtl) (digestBit r) = false) := by
  intro t
  obtain ⟨mask, -, small⟩ := digestBit_mask r
  have ctl : ∀ k, k < 8 → digestBase d.val + 4 * k ≠ aMcsCtl := fun k hk => by
    have := digest_place d aMcsCtl (by decide)
    omega
  have first := mcsStep_placeWords (digestBase d.val) 8 (digestWords s d.val r) s
  have placed := fun {k} hk => getR_placeWords (digestBase d.val) 8 (digestWords s d.val r) s (j := k) hk
  obtain ⟨m, e⟩ := placeWords_rest (digestBase d.val) 8 (digestWords s d.val r) s
  have listed : t = if 2 ≤ d.val then clrR (modMcs (placeWords (digestBase d.val) 8 (digestWords s d.val r) s)
      (fun m => { m with dig := rest })) aMcsCtl (if r then 0x20 else 0x10)
    else modMcs (placeWords (digestBase d.val) 8 (digestWords s d.val r) s) (fun m => { m with dig := rest }) := rfl
  generalize placeWords (digestBase d.val) 8 (digestWords s d.val r) s = y at first placed e listed
  have second := first.trans (mcsStep_modMcs y (fun m => { m with dig := rest }))
  have words : ∀ k, k < 8 → getR (modMcs y (fun m => { m with dig := rest })) (digestBase d.val + 4 * k) = digestWords s d.val r k :=
    fun k hk => placed hk
  have mcs : (modMcs y (fun m => { m with dig := rest })).mcs = { s.mcs with dig := rest } := by rw [e]; rfl
  rw [listed]
  generalize modMcs y (fun m => { m with dig := rest }) = z at second words mcs
  by_cases staged : 2 ≤ d.val
  · rw [if_pos staged]
    refine ⟨(second.trans (mcsStep_setR z aMcsCtl _)).mono (by simp), mcs, fun k hk => ?_, fun _ => ?_⟩
    · rw [getR_clrR, if_neg (ctl k hk), words k hk]
    · rw [getR_clrR, if_pos rfl, bit_and, bit_not _ small, mask]
      exact Bool.and_false _
  · rw [if_neg staged]
    exact ⟨second.mono (by simp), mcs, words, fun h => absurd h staged⟩

end

end Sys2Proof.Machine
end

section
/-! SUPPORT. The end of a digest and the exchange of the buffers (spec/10 R265, R268), and the microstore as a whole (O49). -/

namespace Sys2Proof.Machine

section
variable {s : State} {r : Bool}

/-- What the end of digest `d` leaves, the digests `rest` still waiting. -/
structure DigestEnded (s t : State) (d : Nat) (r : Bool) (rest : List Nat) : Prop where
  same : SameCore s t
  request : 2 ≤ d → bit (getR t aMcsCtl) (digestBit r) = false
  next : 2 ≤ d → (if !r then 3 else 2) ∈ rest → t.mcs.dig = rest.filter (· ≠ if !r then 3 else 2) ++ [if !r then 3 else 2] ∧
    bit (getR t aMcsStatus) 29 = !r ∧ ∀ k, k < 8 → getR t (digestBase d + 4 * k) = 0
  ended : d < 2 ∨ (if !r then 3 else 2) ∉ rest → t.mcs = { s.mcs with dig := rest } ∧ (rest = [] → bit (getR t aMcsStatus) 30 = false) ∧
    ∀ k, k < 8 → getR t (digestBase d + 4 * k) = digestWords s d r k

theorem digestDone_ends {d : Fin 4} {rest : List Nat} (h : s.mcs.dig = d.val :: rest) (hr : r = (d.val == 1 || d.val == 3)) :
    DigestEnded s (settle (digestDone s)) d.val r rest := by
  obtain ⟨step, mcs, words, request⟩ := digestPlaced_places (s := s) (r := r) d rest
  have apart := digest_place d
  rw [digestDone_eq h hr]
  generalize digestPlaced s d.val r rest = y at step mcs words request
  have status := apart aMcsStatus (by decide)
  by_cases last : rest = []
  · rw [if_pos last]
    have whole := step.trans (mcsStep_setR y aMcsStatus (getR y aMcsStatus &&& ~~~0x40000000#32))
    refine ⟨whole.same, fun h2 => ?_, fun _ mem => absurd mem (by rw [last]; exact List.not_mem_nil), fun _ => ⟨?_, fun _ => ?_, fun k hk => ?_⟩⟩
    · rw [getR_settle, getR_clrR, if_neg (by decide), request h2]
    · rw [settle_mcs]
      exact mcs
    · rw [getR_settle, getR_clrR, if_pos rfl, bit_and, bit_not _ (by decide), show bit 0x40000000#32 30 = true from rfl]
      exact Bool.and_false _
    · rw [getR_settle, getR_clrR, if_neg (by omega), words k hk]
  · rw [if_neg last]
    by_cases next : 2 ≤ d.val ∧ stagedDigesting y (!r) = true
    · rw [if_pos next]
      obtain ⟨staged, waiting⟩ := next
      rw [stagedDigesting_iff, mcs] at waiting
      obtain ⟨more, dig, -, region, zero, ctl⟩ := beginStaged_begins y (!r)
      have base : digestBase d.val = aMcsSdigest := by
        unfold digestBase
        rw [if_neg (by omega), if_neg (by omega)]
      refine ⟨(step.trans more).same, fun h2 => ?_, fun _ _ => ⟨?_, ?_, fun k hk => ?_⟩, fun either => ?_⟩
      · rw [getR_settle, ctl, request h2]
      · rw [settle_mcs, dig, mcs]
      · rw [getR_settle, region]
      · rw [getR_settle, base, zero k hk]
      · exact either.elim (fun low => absurd staged (Nat.not_le.2 low)) (fun out => absurd waiting out)
    · rw [if_neg next]
      rw [stagedDigesting_iff, mcs] at next
      refine ⟨step.same, fun h2 => ?_, fun staged mem => absurd ⟨staged, mem⟩ next, fun _ => ⟨?_, fun empty => absurd empty last,
        fun k hk => ?_⟩⟩
      · rw [getR_settle, request h2]
      · rw [settle_mcs, mcs]
      · rw [getR_settle, words k hk]

/-! ### The exchange -/

/-- A routine is rewound: no register and no head of a context changes. -/
structure Rewound (s t : State) : Prop where
  rest : ∃ c k f, t = { s with cons := c, coach := k, fast := f }
  seen : SameContexts s t

theorem Rewound.trans {s t u : State} (h : Rewound s t) (g : Rewound t u) : Rewound s u where
  rest := by
    obtain ⟨_, _, _, rfl⟩ := h.rest
    obtain ⟨_, _, _, rfl⟩ := g.rest
    exact ⟨_, _, _, rfl⟩
  seen v := (g.seen v).trans (h.seen v)

theorem rewound_refl (s : State) : Rewound s s := ⟨⟨s.cons, s.coach, s.fast, rfl⟩, fun _ => rfl⟩

theorem rewound_modC (s : State) (w : Who) (f : Coach → Coach) (h : ∀ c, Machine.seen (f c) = Machine.seen c) : Rewound s (modC s w f) where
  rest := by cases w <;> exact ⟨_, _, _, rfl⟩
  seen v := by
    by_cases e : v = w
    · rw [e, getC_modC_self, h]
    · rw [getC_modC_other _ _ _ _ e]

theorem rewound_abandonLoads (s : State) (w : Who) : Rewound s (abandonLoads s w) := by
  unfold abandonLoads
  dsimp only
  split
  · exact rewound_refl s
  · exact Rewound.trans ⟨⟨_, _, _, rfl⟩, fun v => by cases v <;> rfl⟩ (rewound_modC _ w _ fun _ => rfl)

theorem rewound_rewind (r : Bool) (s : State) (w : Who) : Rewound s (rewind r s w) := by
  unfold rewind
  split
  · exact (rewound_abandonLoads s w).trans (rewound_modC _ w _ fun _ => rfl)
  · exact rewound_refl s

theorem rewound_all (r : Bool) (l : List Who) (s : State) : Rewound s (l.foldl (rewind r) s) := by
  induction l generalizing s with
  | nil => exact rewound_refl s
  | cons w l ih => exact (rewound_rewind r s w).trans (ih _)

theorem active_place (r : Bool) : aActiveId r ≠ aMcsCtl ∧ aActiveId r ≠ aMcsStatus ∧ aActiveId r ≠ aStagedId r ∧
    aActiveId r ∈ [aMcsCtl, aMcsStatus, aMcsStaged, aMcsCstaged, aMcsVersion, aMcsCversion] ∧
    aStagedId r ∈ [aMcsCtl, aMcsStatus, aMcsStaged, aMcsCstaged, aMcsVersion, aMcsCversion] ∧
    aActiveId r ∉ eventRegs 38 ∧ aStagedId r ∉ eventRegs 38 := by
  cases r <;> decide

/-- The buffers of a region have changed places, with their identifiers (R265). -/
theorem swapBuffers_swaps (s : State) (r : Bool) : let t := swapBuffers s r
    McsStep [aActiveId r, aStagedId r, aMcsStatus] s t ∧ activeOf t.mcs r = stagedOf s.mcs r ∧ stagedOf t.mcs r = activeOf s.mcs r ∧
      getR t (aActiveId r) = getR s (aStagedId r) ∧ getR t (aStagedId r) = getR s (aActiveId r) ∧
      fld (getR t aMcsStatus) (stagedLo r) 2 = if getR s (aActiveId r) ≠ 0 then 2 else 0 := by
  intro t
  obtain ⟨-, status, -, low⟩ := staged_place r
  obtain ⟨-, status', apart, -⟩ := active_place r
  generalize hn : getR s (aStagedId r) = new
  generalize ho : getR s (aActiveId r) = old
  have swapped : t = setStagedState (modMcs (setR (setR s (aActiveId r) new) (aStagedId r) old)
      (fun m => setStaged (setActive m r (stagedOf m r)) r (activeOf m r))) r (if old ≠ 0 then 2 else 0) := by
    rw [← hn, ← ho]
    rfl
  have first := (mcsStep_setR s (aActiveId r) new).trans (mcsStep_setR (setR s (aActiveId r) new) (aStagedId r) old)
  have active : getR (setR (setR s (aActiveId r) new) (aStagedId r) old) (aActiveId r) = new := by
    rw [getR_setR, if_neg apart, getR_setR, if_pos rfl]
  have staged : getR (setR (setR s (aActiveId r) new) (aStagedId r) old) (aStagedId r) = old := by rw [getR_setR, if_pos rfl]
  have same : (setR (setR s (aActiveId r) new) (aStagedId r) old).mcs = s.mcs := rfl
  generalize setR (setR s (aActiveId r) new) (aStagedId r) old = y at swapped first active staged same
  have step := (first.trans (mcsStep_modMcs y (fun m => setStaged (setActive m r (stagedOf m r)) r (activeOf m r)))).trans
    (mcsStep_setR (modMcs y (fun m => setStaged (setActive m r (stagedOf m r)) r (activeOf m r))) aMcsStatus
      (setFld (getR y aMcsStatus) (stagedLo r) 2 (if old ≠ 0 then 2 else 0)))
  rw [swapped, ← same]
  refine ⟨step.mono (by simp), ?_, ?_, ?_, ?_, ?_⟩
  · cases r <;> rfl
  · cases r <;> rfl
  · rw [getR_setStagedState, if_neg status', getR_modMcs, active]
  · rw [getR_setStagedState, if_neg status, getR_modMcs, staged]
  · rw [getR_setStagedState, if_pos rfl, fld_setFld _ _ (by omega)]
    split
    · rfl
    · rfl

/-- The number of the active digest of a region. -/
def activeCode (r : Bool) : Fin 4 := if r then 1 else 0

theorem activeCode_val (r : Bool) : (activeCode r).val = (if r then 1 else 0) ∧
    digestBase (activeCode r).val = if r then aMcsCdigest else aMcsDigest := by
  cases r <;> exact ⟨rfl, rfl⟩

theorem McsStep.core {l : List Nat} {s t : State} (h : McsStep l s t) : t.mem = s.mem ∧ (∀ w, seen (getC t w) = seen (getC s w)) ∧
    t.lnc = s.lnc := by
  obtain ⟨_, _, rfl⟩ := h.rest
  exact ⟨rfl, fun w => by cases w <;> rfl, rfl⟩

/-- No context is inside a routine of the region that is not resumable. -/
def OutOfRoutines (s : State) (r : Bool) : Prop := insideRoutine r false s.fast = false ∧ ∀ e ∈ s.coach, insideRoutine r false e.2 = false

theorem exchange_waits (sw : s.mcs.sw = some r) (h : insideRoutine r false s.fast = true ∨ ∃ e ∈ s.coach, insideRoutine r false e.2 = true) :
    exchange s = s := by
  unfold exchange
  rw [sw]
  refine if_pos ?_
  rw [Bool.or_eq_true, List.any_eq_true]
  exact h

theorem exchange_eq (sw : s.mcs.sw = some r) (h : OutOfRoutines s r) : exchange s =
    startDigest (trigger (modMcs (clrR (swapBuffers (rewind r ((s.coach.map (fun e => Who.coach e.1)).foldl (rewind r) s) .fast) r) aMcsStatus
      0x80000000#32) (fun m => { m with sw := none })) 38) (if r then 1 else 0) := by
  unfold exchange
  rw [sw]
  refine if_neg ?_
  rw [Bool.or_eq_true, List.any_eq_true]
  rintro (inside | ⟨e, he, inside⟩)
  · exact absurd (h.1.symm.trans inside) Bool.false_ne_true
  · exact absurd ((h.2 e he).symm.trans inside) Bool.false_ne_true

/-- The exchange of the buffers, and the digest of what is now active (R265 steps 3 to 6). -/
theorem exchange_exchanges (sw : s.mcs.sw = some r) (h : OutOfRoutines s r) : let t := settle (exchange s)
    SameCore s t ∧ activeOf t.mcs r = stagedOf s.mcs r ∧ stagedOf t.mcs r = activeOf s.mcs r ∧
      getR t (aActiveId r) = getR s (aStagedId r) ∧ getR t (aStagedId r) = getR s (aActiveId r) ∧ t.mcs.sw = none ∧
      bit (getR t aMcsStatus) 31 = false ∧
      fld (getR t aMcsStatus) (stagedLo r) 2 = (if getR s (aActiveId r) ≠ 0 then 2 else 0) ∧ bit (getR t aMcsStatus) 30 = true ∧
      ∀ k, k < 8 → getR t ((if r then aMcsCdigest else aMcsDigest) + 4 * k) = 0 := by
  rw [exchange_eq sw h]
  have rewound := (rewound_all r (s.coach.map (fun e => Who.coach e.1)) s).trans (rewound_rewind r _ .fast)
  generalize rewind r ((s.coach.map (fun e => Who.coach e.1)).foldl (rewind r) s) .fast = y at rewound
  obtain ⟨ctl, status, apart, mem, mem', event, event'⟩ := active_place r
  obtain ⟨-, status', -, low⟩ := staged_place r
  have regs : ∀ a, getR y a = getR s a := fun a => by
    obtain ⟨_, _, _, rfl⟩ := rewound.rest
    rfl
  have buffers : y.mcs = s.mcs ∧ y.lnc = s.lnc ∧ y.mem = s.mem := by
    obtain ⟨_, _, _, rfl⟩ := rewound.rest
    exact ⟨rfl, rfl, rfl⟩
  obtain ⟨swap, toActive, toStaged, active, staged, mark⟩ := swapBuffers_swaps y r
  rw [buffers.1] at toActive toStaged
  rw [regs] at active staged
  rw [regs] at mark
  generalize swapBuffers y r = z at swap toActive toStaged active staged mark
  have cleared : getR (modMcs (clrR z aMcsStatus 0x80000000#32) (fun m => { m with sw := none })) aMcsStatus =
      getR z aMcsStatus &&& ~~~0x80000000#32 := by rw [getR_modMcs, getR_clrR, if_pos rfl]
  have others : ∀ a, a ≠ aMcsStatus → getR (modMcs (clrR z aMcsStatus 0x80000000#32) (fun m => { m with sw := none })) a = getR z a :=
    fun a ha => by rw [getR_modMcs, getR_clrR, if_neg ha]
  have freed := (swap.trans (mcsStep_setR z aMcsStatus (getR z aMcsStatus &&& ~~~0x80000000#32))).trans
    (mcsStep_modMcs (clrR z aMcsStatus 0x80000000#32) (fun m => { m with sw := none }))
  have mcs : (modMcs (clrR z aMcsStatus 0x80000000#32) (fun m => { m with sw := none })).mcs = { z.mcs with sw := none } := rfl
  change McsStep _ y (modMcs (clrR z aMcsStatus 0x80000000#32) (fun m => { m with sw := none })) at freed
  generalize modMcs (clrR z aMcsStatus 0x80000000#32) (fun m => { m with sw := none }) = v at cleared others freed mcs
  have event38 := signals_trigger v 38
  generalize trigger v 38 = q at event38
  obtain ⟨value, base⟩ := activeCode_val r
  obtain ⟨step, dig, zero, stat, kept⟩ := startDigest_starts q (activeCode r)
  have place := digest_place (activeCode r)
  have above : getR q aMcsStatus = getR z aMcsStatus &&& ~~~0x80000000#32 := (event38.csr _ (by decide)).trans cleared
  rw [above] at stat
  rw [← value, ← base]
  generalize startDigest q (activeCode r).val = u at step dig zero stat kept
  have buffers' : activeOf u.mcs r = activeOf z.mcs r ∧ stagedOf u.mcs r = stagedOf z.mcs r ∧ u.mcs.sw = none := by
    rw [dig, event38.mcs, mcs]
    cases r <;> exact ⟨rfl, rfl, rfl⟩
  obtain ⟨mem1, seen1, lnc1⟩ := step.core
  obtain ⟨mem2, seen2, lnc2⟩ := freed.core
  have word : ∀ a, a ∉ eventRegs 38 → a ≠ aMcsStatus → (a < digestBase (activeCode r).val ∨ digestBase (activeCode r).val + 4 * 8 ≤ a) →
      getR (settle u) a = getR z a := fun a ha hs out => by rw [getR_settle, kept a hs out, event38.csr a ha, others a hs]
  refine ⟨⟨⟨fun a => ?_, fun w => ?_⟩, ?_⟩, ?_, ?_, ?_, ?_, ?_, ?_, ?_, ?_, fun k hk => ?_⟩
  · rw [rdB_settle, rdB, rdB, mem1, event38.mem, mem2, buffers.2.2]
  · rw [seen_settle, seen1, event38.seen, seen2, rewound.seen]
  · rw [settle_lnc, lnc1, event38.lnc, lnc2, buffers.2.1]
  · rw [settle_mcs, buffers'.1, toActive]
  · rw [settle_mcs, buffers'.2.1, toStaged]
  · rw [word _ event status (place _ mem), active]
  · rw [word _ event' status' (place _ mem'), staged]
  · rw [settle_mcs, buffers'.2.2]
  · rw [getR_settle, stat, bit_or, bit_and, bit_not _ (by decide), show bit 0x80000000#32 31 = true from rfl,
      show bit 0x40000000#32 31 = false from rfl, Bool.or_false]
    exact Bool.and_false _
  · rw [getR_settle, stat, ← mark]
    refine fld_congr fun i h1 h2 => ?_
    have masks : ∀ j < 4, bit 0x80000000#32 j = false ∧ bit 0x40000000#32 j = false := by decide
    obtain ⟨m1, m2⟩ := masks i (by omega)
    rw [bit_or, bit_and, bit_not _ (by omega), m1, m2, Bool.or_false]
    exact Bool.and_true _
  · rw [getR_settle, stat, bit_or, show bit 0x40000000#32 30 = true from rfl, Bool.or_true]
  · rw [getR_settle, zero k hk]

end

/-! ### The microstore as a whole -/

/-- Settles O49, operation by operation. -/
theorem microstore : Obligations.Microstore := by
  unfold Obligations.Microstore
  intro s c r
  refine ⟨fun may i v => ⟨fun slot free => ?_, fun refused => ?_, fun slot => ?_, fun out => ?_, ?_, ?_, fun running => ?_,
    fun idle other => ?_, fun idle other => ?_, ?_⟩, fun clearing => ?_, fun up d rest dig small region => ?_, fun sw inside => ?_,
    fun sw fast coaches => ?_⟩
  · obtain ⟨same, ctl, regs, status, ident, mcs⟩ := stageWrite_writes (r := r) slot free
    obtain ⟨staged, active⟩ := staged_setStaged s.mcs r ((stagedOf s.mcs r).set 0 i.toNat (stagingWord s i.toNat))
    rw [← mcs] at staged active
    refine ⟨_, exec_mcsStageWrite may, same, ctl, regs, status, ident, ?_, fun j hj => ?_, active⟩
    · exact (congrArg (fun b => SMap.get 0 b i.toNat) staged).trans ((SMap.get_set _ _ _ _ _).trans (if_pos rfl))
    · exact (congrArg (fun b => SMap.get 0 b j) staged).trans ((SMap.get_set _ _ _ _ _).trans (if_neg hj))
  · obtain ⟨same, mcs, ctl, regs⟩ := stageWrite_refused refused
    exact ⟨_, exec_mcsStageWrite may, same, mcs, ctl, regs⟩
  · exact ⟨_, exec_mcsStageRead may, stageRead_reads slot⟩
  · exact ⟨_, exec_mcsStageRead may, stageRead_refused out⟩
  · exact ⟨_, exec_mcsClear may, stageClear_starts⟩
  · exact ⟨_, exec_mcsStagedWrite may v, stageIdent_sets v⟩
  · exact (exec_mcsStagedDigest may).trans (by rw [stagedDigest_running running])
  · exact ⟨_, exec_mcsStagedDigest may, stagedDigest_waits idle other⟩
  · exact ⟨_, exec_mcsStagedDigest may, stagedDigest_begins idle other⟩
  · have reason := switchRefusal_eq (s := s) (r := r)
    obtain ⟨same, regs, starts, refused⟩ := requestSwitch_cases reason (by split_ifs <;> decide)
    exact ⟨_, exec_mcsSwitch may, same, regs, starts, refused⟩
  · obtain ⟨same, mcs, status, ident, ctl, regs⟩ := stageClearDone_empties clearing
    obtain ⟨staged, active⟩ := staged_setStaged s.mcs r []
    rw [← mcs] at staged active
    exact ⟨_, rfl, same, staged, active, status, ident, ctl, regs⟩
  · obtain ⟨same, request, next, ended⟩ := digestDone_ends (d := ⟨d, small⟩) dig region
    exact ⟨_, exec_whenUp (f := digestDone) up rfl, same, request, next, ended⟩
  · have ran : exec .microcodeExchange s = .next (settle (exchange s)) := rfl
    rw [ran, exchange_waits sw inside]
  · have ran : exec .microcodeExchange s = .next (settle (exchange s)) := rfl
    exact ⟨_, ran, exchange_exchanges sw ⟨fast, coaches⟩⟩

end Sys2Proof.Machine
end

section
/-! SUPPORT. Lanes, their positions and roles (spec/09 R234, R239, R244). -/

namespace Sys2Proof.Machine

theorem laneOf_modLane (s : State) (n k : Nat) (f : Lane → Lane) :
    laneOf (modLane s n f) k = if k = n then f (laneOf s n) else laneOf s k := laneOf_setLane _ _ _ _

theorem laneOf_modLnc (s : State) (f : Lnc → Lnc) (h : ∀ l, (f l).lanes = l.lanes) (k : Nat) : laneOf (modLnc s f) k = laneOf s k := by
  change SMap.get {} (f s.lnc).lanes k = _
  rw [h]
  rfl

/-- State `t` is `s` but for the lanes. -/
def LncOnly (s t : State) : Prop := ∃ l, t = { s with lnc := l }

theorem LncOnly.trans {s t u : State} (h : LncOnly s t) (g : LncOnly t u) : LncOnly s u := by
  obtain ⟨_, rfl⟩ := h
  obtain ⟨_, rfl⟩ := g
  exact ⟨_, rfl⟩

theorem lncOnly_refl (s : State) : LncOnly s s := ⟨s.lnc, rfl⟩
theorem lncOnly_modLane (s : State) (n : Nat) (f : Lane → Lane) : LncOnly s (modLane s n f) := ⟨_, rfl⟩
theorem lncOnly_modLnc (s : State) (f : Lnc → Lnc) : LncOnly s (modLnc s f) := ⟨_, rfl⟩

theorem LncOnly.same {s t : State} (h : LncOnly s t) : SameProgram s (settle t) ∧ SameRegisters s (settle t) := by
  obtain ⟨_, rfl⟩ := h
  exact ⟨⟨fun a => rdB_settle _ a, fun w => (seen_settle _ w).trans (by cases w <;> rfl)⟩, fun a => getR_settle _ a⟩

/-! ### Seats -/

/-- Lane `n` votes or compares at position `p`. -/
def seatedAt (s : State) (p n : Nat) : Bool :=
  ((laneOf s n).role == .voter || (laneOf s n).role == .pair) && (laneOf s n).pos == p

/-- A lane votes or compares. -/
def Seated (x : Lane) : Prop := x.role = .voter ∨ x.role = .pair

theorem laneAt_congr {s t : State} {p : Nat} (h : ∀ n, seatedAt t p n = seatedAt s p n) : laneAt t p = laneAt s p := by
  have : seatedAt t p = seatedAt s p := funext h
  exact congrArg (List.find? · [0, 1, 2, 3]) this

theorem seated_of_laneAt {s : State} {p n : Nat} (h : laneAt s p = some n) : Seated (laneOf s n) ∧ (laneOf s n).pos = p := by
  have seat := List.find?_some h
  rw [Bool.and_eq_true, Bool.or_eq_true, beq_iff_eq, beq_iff_eq, beq_iff_eq] at seat
  exact seat

theorem laneIn_congr {s t : State} {r : Role} (h : ∀ n, ((laneOf t n).role == r) = ((laneOf s n).role == r)) : laneIn t r = laneIn s r :=
  congrArg (List.find? · allLanes) (funext h)

theorem role_of_laneIn {s : State} {r : Role} {n : Nat} (h : laneIn s r = some n) : (laneOf s n).role = r ∧ n < 4 := by
  have seat : ((laneOf s n).role == r) = true := List.find?_some (p := fun n => (laneOf s n).role == r) h
  refine ⟨beq_iff_eq.1 seat, ?_⟩
  have mem := List.mem_of_find?_eq_some h
  simp only [allLanes, List.mem_cons, List.not_mem_nil, or_false] at mem
  omega

theorem laneIn_none {s : State} {r : Role} (h : laneIn s r = none) {n : Nat} (hn : n < 4) : (laneOf s n).role ≠ r := by
  have := List.find?_eq_none.1 h n (by simp only [allLanes, List.mem_cons, List.not_mem_nil, or_false]; omega)
  rwa [beq_iff_eq] at this

theorem laneIn_none_of {s : State} {r : Role} (h : ∀ n, n < 4 → (laneOf s n).role ≠ r) : laneIn s r = none := by
  refine List.find?_eq_none.2 fun n hn => ?_
  rw [beq_iff_eq]
  refine h n ?_
  simp only [allLanes, List.mem_cons, List.not_mem_nil, or_false] at hn
  omega

/-! ### Relabelling -/

/-- State `t` is `s` but for the positions of the lanes that have a seat, and the one kept under resynchronisation. -/
structure Relabelled (s t : State) : Prop where
  lnc : ∃ m r, t = { s with lnc := { s.lnc with lanes := m, resync := r } }
  pos : ∀ n, ∃ q, laneOf t n = { laneOf s n with pos := q }
  aside : ∀ n, ¬ Seated (laneOf s n) → laneOf t n = laneOf s n

theorem relabelled_refl (s : State) : Relabelled s s := ⟨⟨s.lnc.lanes, s.lnc.resync, rfl⟩, fun _ => ⟨_, rfl⟩, fun _ _ => rfl⟩

/-- The lane at position `p` of `s` takes the position before it. -/
def moveDown (s t : State) (p : Nat) : State :=
  match laneAt s p with
  | some n => modLane t n (fun x => { x with pos := p - 1 })
  | none => t

theorem relabelled_moveDown {s t : State} (h : Relabelled s t) (p : Nat) : Relabelled s (moveDown s t p) := by
  unfold moveDown
  cases found : laneAt s p with
  | none => exact h
  | some m =>
    refine ⟨?_, fun n => ?_, fun n free => ?_⟩
    · obtain ⟨_, _, rfl⟩ := h.lnc
      exact ⟨_, _, rfl⟩
    · rw [laneOf_modLane]
      split
      · rename_i e
        obtain ⟨_, moved⟩ := h.pos m
        rw [e, moved]
        exact ⟨_, rfl⟩
      · exact h.pos n
    · have other : n ≠ m := fun e => free (e ▸ (seated_of_laneAt found).1)
      rw [laneOf_modLane, if_neg other, h.aside n free]

theorem relabelled_resync {s t : State} (h : Relabelled s t) (g : Option (Nat × Nat) → Option (Nat × Nat)) :
    Relabelled s (modLnc t (fun l => { l with resync := g l.resync })) := by
  refine ⟨?_, h.pos, h.aside⟩
  obtain ⟨_, _, rfl⟩ := h.lnc
  exact ⟨_, _, rfl⟩

theorem relabelled_relabel (s : State) : Relabelled s (relabel s) :=
  relabelled_resync (relabelled_moveDown (relabelled_moveDown (relabelled_refl s) 1) 2) (Option.map (fun r => (r.1, r.2 - 1)))

theorem relabelled_makeRoom (s : State) : Relabelled s (makeRoom s).1 := by
  unfold makeRoom
  dsimp only
  split
  · exact relabelled_refl s
  · exact relabelled_relabel s

theorem Relabelled.lncOnly {s t : State} (h : Relabelled s t) : LncOnly s t := by
  obtain ⟨_, _, rfl⟩ := h.lnc
  exact ⟨_, rfl⟩

theorem Relabelled.role {s t : State} (h : Relabelled s t) (n : Nat) : (laneOf t n).role = (laneOf s n).role := by
  obtain ⟨_, e⟩ := h.pos n
  rw [e]

/-- A lane starts to join at a vacant position (R244). -/
theorem startJoin_joins (s : State) (n : Nat) : LncOnly s (startJoin s n) ∧ (laneOf (startJoin s n) n).role = .joining ∧
    (∃ src, (startJoin s n).lnc.join = some ⟨n, (makeRoom s).2, none, src⟩) ∧
    (∀ k, k ≠ n → ∃ q, laneOf (startJoin s n) k = { laneOf s k with pos := q }) ∧
    (∀ k, k ≠ n → ¬ Seated (laneOf s k) → laneOf (startJoin s n) k = laneOf s k) := by
  have room := relabelled_makeRoom s
  unfold startJoin
  generalize makeRoom s = q at room
  obtain ⟨u, p⟩ := q
  dsimp only at room ⊢
  have lanes : ∀ k, laneOf (modLnc (modLane u n (fun x => { x with role := .joining, aborted := x.aborted || x.role == .test }))
      (fun l => { l with join := some ⟨n, p, none, sourceOf u none⟩ })) k = if k = n then
        { laneOf u n with role := .joining, aborted := (laneOf u n).aborted || (laneOf u n).role == .test } else laneOf u k := fun k =>
    (laneOf_modLnc (modLane u n (fun x => { x with role := .joining, aborted := x.aborted || x.role == .test }))
      (fun l => { l with join := some ⟨n, p, none, sourceOf u none⟩ }) (fun _ => rfl) k).trans (laneOf_modLane u n k _)
  refine ⟨(room.lncOnly.trans (lncOnly_modLane _ _ _)).trans (lncOnly_modLnc _ _), ?_, ⟨_, rfl⟩, fun k hk => ?_, fun k hk free => ?_⟩
  · rw [lanes, if_pos rfl]
  · rw [lanes, if_neg hk]
    exact room.pos k
  · rw [lanes, if_neg hk]
    exact room.aside k free

end Sys2Proof.Machine
end

section
/-! SUPPORT. Joins, self-tests, retirement and rotation (spec/09 R239, R244 to R248). -/

namespace Sys2Proof.Machine

/-! ### The join -/

/-- The lane roles that a join's drop-out of voter `v` leaves. -/
theorem dropOut_drops (s : State) (v : Nat) : LncOnly s (dropOut s v) ∧ (laneOf (dropOut s v) v).role = .test ∧
    (laneOf (dropOut s v) v).pos = 3 ∧ (∀ k, k ≠ v → (laneOf (dropOut s v) k).role = (laneOf s k).role) ∧
    (dropOut s v).lnc.busy = s.lnc.busy ∧ (dropOut s v).lnc.join = s.lnc.join := by
  generalize hu : modLnc (modLane s v (fun x => { x with role := .test, pos := 3, suspect := false })) (fun l => { l with
    resync := l.resync.filter (fun r => r.1 != v), marks := l.marks.filter (·.1 ≠ v), due := l.due.filter (· ≠ v) }) = u
  have lanes : ∀ k, laneOf u k = if k = v then { laneOf s v with role := .test, pos := 3, suspect := false } else laneOf s k := fun k => by
    rw [← hu]
    exact (laneOf_modLnc _ (fun l => { l with
      resync := l.resync.filter (fun r => r.1 != v), marks := l.marks.filter (·.1 ≠ v), due := l.due.filter (· ≠ v) }) (fun _ => rfl) k).trans
        (laneOf_modLane s v k _)
  have only : LncOnly s u := hu ▸ (lncOnly_modLane s v _).trans (lncOnly_modLnc _ _)
  have kept : u.lnc.busy = s.lnc.busy ∧ u.lnc.join = s.lnc.join := by
    rw [← hu]
    exact ⟨rfl, rfl⟩
  have moved : dropOut s v = u ∨ dropOut s v = relabel u := by
    unfold dropOut
    dsimp only
    rw [hu]
    exact (ite_eq_or_eq _ _ _).symm
  have test : (laneOf u v).role = .test ∧ (laneOf u v).pos = 3 := by rw [lanes, if_pos rfl]; exact ⟨rfl, rfl⟩
  have others : ∀ k, k ≠ v → (laneOf u k).role = (laneOf s k).role := fun k hk => by rw [lanes, if_neg hk]
  rcases moved with e | e
  · rw [e]
    exact ⟨only, test.1, test.2, others, kept⟩
  · rw [e]
    have again := relabelled_relabel u
    have aside : laneOf (relabel u) v = laneOf u v := again.aside v (by rw [Seated, test.1]; simp)
    obtain ⟨_, _, lnc⟩ := again.lnc
    refine ⟨only.trans again.lncOnly, by rw [aside, test.1], by rw [aside, test.2], fun k hk => (again.role k).trans (others k hk), ?_, ?_⟩
    · rw [lnc, ← kept.1]
    · rw [lnc, ← kept.2]

/-- The state before the set is formed anew: the joining lane has its seat. -/
def joinSeats (s : State) (j : Join) : State :=
  let s1 := match j.leaves with | some v => dropOut s v | none => s
  let s2 := modLane s1 j.lane (fun x => { x with
    role := .voter, pos := j.pos, enable := match j.source with | some n => (laneOf s n).enable | none => x.enable })
  modLnc s2 (fun l => { l with
    join := none, marks := l.marks.filter (·.1 ≠ j.lane), due := l.due.filter (· ≠ j.lane)
    rotReq := l.rotReq && j.leaves.isNone
    sweep := if j.leaves.isSome then 0 else l.sweep
    sweeping := l.sweeping || j.leaves.isSome })

theorem joinDone_eq {s : State} {j : Join} (h : s.lnc.join = some j) : joinDone s = trigger (formSet (joinSeats s j)) 1 := by
  unfold joinDone
  rw [h]
  rfl

/-- What a join leaves of the lanes. -/
structure JoinSeated (s t : State) (j : Join) : Prop where
  only : LncOnly s t
  join : t.lnc.join = none
  busy : t.lnc.busy = s.lnc.busy
  role : (laneOf t j.lane).role = .voter
  pos : (laneOf t j.lane).pos = j.pos
  enable : ∀ n, j.source = some n → (laneOf t j.lane).enable = (laneOf s n).enable
  left : ∀ v, j.leaves = some v → v ≠ j.lane → (laneOf t v).role = .test ∧ (laneOf t v).pos = 3 ∧ t.lnc.sweeping = true ∧
    t.lnc.sweep = 0 ∧ t.lnc.rotReq = false
  others : ∀ k, (laneOf t k).role = .voter ∨ (laneOf t k).role = .test ∨ (laneOf t k).role = (laneOf s k).role

theorem joinSeats_seats (s : State) (j : Join) : JoinSeated s (joinSeats s j) j := by
  generalize hu : (match j.leaves with | some v => dropOut s v | none => s) = u
  have lanes : ∀ k, laneOf (joinSeats s j) k = if k = j.lane then { laneOf u j.lane with
      role := .voter, pos := j.pos, enable := match j.source with | some n => (laneOf s n).enable | none => (laneOf u j.lane).enable }
      else laneOf u k := fun k => by
    rw [← hu]
    exact (laneOf_modLnc _ (fun l => { l with
      join := none, marks := l.marks.filter (·.1 ≠ j.lane), due := l.due.filter (· ≠ j.lane)
      rotReq := l.rotReq && j.leaves.isNone
      sweep := if j.leaves.isSome then 0 else l.sweep
      sweeping := l.sweeping || j.leaves.isSome }) (fun _ => rfl) k).trans (laneOf_modLane _ j.lane k _)
  have fields : (joinSeats s j).lnc.busy = u.lnc.busy ∧ (joinSeats s j).lnc.rotReq = (u.lnc.rotReq && j.leaves.isNone) ∧
      (joinSeats s j).lnc.sweep = (if j.leaves.isSome then 0 else u.lnc.sweep) ∧
      (joinSeats s j).lnc.sweeping = (u.lnc.sweeping || j.leaves.isSome) := by
    rw [← hu]
    exact ⟨rfl, rfl, rfl, rfl⟩
  have start : LncOnly s u ∧ u.lnc.busy = s.lnc.busy ∧ (∀ k, (laneOf u k).role = .test ∨ (laneOf u k).role = (laneOf s k).role) ∧
      ∀ v, j.leaves = some v → (laneOf u v).role = .test ∧ (laneOf u v).pos = 3 := by
    cases hv : j.leaves with
    | none =>
      rw [hv] at hu
      subst hu
      exact ⟨lncOnly_refl s, rfl, fun k => .inr rfl, fun v h => by cases h⟩
    | some v =>
      rw [hv] at hu
      subst hu
      obtain ⟨only, test, place, others, busy, -⟩ := dropOut_drops s v
      refine ⟨only, busy, fun k => ?_, fun w h => by cases h; exact ⟨test, place⟩⟩
      by_cases hk : k = v
      · exact .inl (hk ▸ test)
      · exact .inr (others k hk)
  obtain ⟨only, busy, roles, left⟩ := start
  obtain ⟨busy', rot, sweep, sweeping⟩ := fields
  have all : LncOnly s (joinSeats s j) := by
    have := (only.trans (lncOnly_modLane u j.lane (fun x => { x with
      role := .voter, pos := j.pos, enable := match j.source with | some n => (laneOf s n).enable | none => x.enable }))).trans
      (lncOnly_modLnc _ (fun l => { l with
        join := none, marks := l.marks.filter (·.1 ≠ j.lane), due := l.due.filter (· ≠ j.lane)
        rotReq := l.rotReq && j.leaves.isNone
        sweep := if j.leaves.isSome then 0 else l.sweep
        sweeping := l.sweeping || j.leaves.isSome }))
    rw [← hu] at this
    exact this
  refine ⟨all, rfl, busy'.trans busy, ?_, ?_, fun n h => ?_, fun v h hv => ?_, fun k => ?_⟩
  · rw [lanes, if_pos rfl]
  · rw [lanes, if_pos rfl]
  · rw [lanes, if_pos rfl, h]
  · obtain ⟨test, place⟩ := left v h
    rw [lanes, if_neg hv]
    refine ⟨test, place, ?_, ?_, ?_⟩
    · rw [sweeping, h]; exact Bool.or_true _
    · rw [sweep, h]; rfl
    · rw [rot, h]; exact Bool.and_false _
  · rw [lanes]
    split
    · exact .inl rfl
    · exact .inr (roles k)

/-- No lane waits to take a seat. -/
theorem spareReady_none {s : State} (h : laneIn s .spare = none) : spareReady s = s := by
  unfold spareReady
  split
  · rw [h]
  · unfold tryRotate
    split
    · rw [h]
    · rfl

theorem laneJoin_joins {s : State} {j : Join} (h : s.lnc.join = some j) (busy : s.lnc.busy = false) (none_ : laneIn s .spare = none) :
    ∃ t, exec .laneJoin s = .next t ∧ SameProgram s t ∧ t.lnc.join = none ∧ (laneOf t j.lane).role = .voter ∧
      (laneOf t j.lane).pos = j.pos ∧ (∀ n, j.source = some n → (laneOf t j.lane).enable = (laneOf s n).enable) ∧
      ∀ v, j.leaves = some v → v ≠ j.lane → (laneOf t v).role = .test ∧ (laneOf t v).pos = 3 ∧ t.lnc.sweeping = true ∧
        t.lnc.sweep = 0 ∧ t.lnc.rotReq = false := by
  have seated := joinSeats_seats s j
  have done := joinDone_eq h
  generalize joinSeats s j = u at seated done
  have event := signals_trigger (formSet u) 1
  rw [← done] at event
  have ran : exec .laneJoin s = .next (settle (laneJoin s)) := rfl
  have same : (joinDone s).lnc = (formSet u).lnc := event.lnc
  have formed : (formSet u).lnc.join = none ∧ (formSet u).lnc.busy = false ∧ (∀ k, laneOf (formSet u) k = laneOf u k) ∧
      (formSet u).lnc.sweeping = u.lnc.sweeping ∧ (formSet u).lnc.sweep = u.lnc.sweep ∧ (formSet u).lnc.rotReq = u.lnc.rotReq :=
    ⟨seated.join, seated.busy.trans busy, fun _ => rfl, rfl, rfl, rfl⟩
  have lanes : ∀ k, laneOf (joinDone s) k = laneOf u k := fun k => by
    rw [laneOf, same]
    exact formed.2.2.1 k
  have pending : pendingMode (joinDone s) = joinDone s := by
    unfold pendingMode
    rw [same, formed.2.1]
    rfl
  have joined : laneJoin s = joinDone s := by
    unfold laneJoin
    dsimp only
    rw [pending, h, if_pos (by rfl)]
    refine spareReady_none (laneIn_none_of fun n hn => ?_)
    rw [lanes]
    rcases seated.others n with e | e | e
    · rw [e]; decide
    · rw [e]; decide
    · rw [e]; exact laneIn_none none_ hn
  rw [joined] at ran
  refine ⟨_, ran, ⟨fun a => ?_, fun w => ?_⟩, ?_, ?_, ?_, fun n e => ?_, fun v e hv => ?_⟩
  · obtain ⟨_, rfl⟩ := seated.only
    exact (rdB_settle _ a).trans (event.sameMemory a)
  · obtain ⟨_, rfl⟩ := seated.only
    exact (seen_settle _ w).trans ((event.seen w).trans (by cases w <;> rfl))
  · rw [settle_lnc, same, formed.1]
  · rw [laneOf_settle, lanes, seated.role]
  · rw [laneOf_settle, lanes, seated.pos]
  · rw [laneOf_settle, lanes, seated.enable n e]
  · obtain ⟨role, pos, sweeping, sweep, rot⟩ := seated.left v e hv
    rw [laneOf_settle, lanes, settle_lnc, same, formed.2.2.2.1, formed.2.2.2.2.1, formed.2.2.2.2.2]
    exact ⟨role, pos, sweeping, sweep, rot⟩

end Sys2Proof.Machine
end

section
/-! SUPPORT. Lane self-tests, retirement and rotation (spec/09 R245 to R248). -/

namespace Sys2Proof.Machine

/-! ### Lanes without a seat -/

theorem unseated {x : Lane} {r : Role} (h : x.role = r) (hr : ¬ (r = .voter ∨ r = .pair)) : ¬ Seated x := by rwa [Seated, h]

theorem LncOnly.program {s t : State} (h : LncOnly s t) : SameProgram s t := by
  obtain ⟨_, rfl⟩ := h
  exact ⟨fun _ => rfl, fun w => by cases w <;> rfl⟩

/-- Every lane keeps its role, and a lane without a seat everything. -/
def Aside (s t : State) : Prop := ∀ n, (laneOf t n).role = (laneOf s n).role ∧ (¬ Seated (laneOf s n) → laneOf t n = laneOf s n)

theorem aside_refl (s : State) : Aside s s := fun _ => ⟨rfl, fun _ => rfl⟩

theorem aside_of_lnc {s t : State} (h : t.lnc = s.lnc) : Aside s t := fun n => by
  rw [laneOf, h]
  exact ⟨rfl, fun _ => rfl⟩

theorem Aside.trans {s t u : State} (h : Aside s t) (g : Aside t u) : Aside s u := fun n =>
  ⟨(g n).1.trans (h n).1, fun free => ((g n).2 (fun seat => free (by rwa [Seated, (h n).1] at seat))).trans ((h n).2 free)⟩

theorem aside_foldl {α : Type} {f : State → α → State} (hf : ∀ x t, Aside t (f t x)) (es : List α) (s : State) :
    Aside s (es.foldl f s) := by
  induction es generalizing s with
  | nil => exact aside_refl s
  | cons x r ih => exact (hf x s).trans (ih _)

theorem aside_ite {s t : State} {b : Bool} (h : Aside s t) : Aside s (if b then t else s) := by
  split
  · exact h
  · exact aside_refl s

theorem aside_enableAll (s : State) (n : Nat) (on : Bool) : Aside s (enableAll s n on) := by
  refine aside_foldl (fun l t k => ?_) _ s
  split
  · rename_i seat
    rw [Bool.or_eq_true, beq_iff_eq, beq_iff_eq] at seat
    rw [laneOf_modLane]
    split
    · rename_i e
      rw [e]
      exact ⟨rfl, fun free => absurd seat free⟩
    · exact ⟨rfl, fun _ => rfl⟩
  · exact ⟨rfl, fun _ => rfl⟩

theorem aside_setLatch (s : State) (n : Nat) (on : Bool) (cause coach : Nat) : Aside s (setLatch s n on cause coach) := by
  have dark : Aside s (if !on && s.mls.dark == some n then modMls s (fun m => { m with dark := none }) else s) :=
    aside_ite (aside_of_lnc rfl)
  have copies := dark.trans (aside_enableAll _ n on)
  unfold setLatch
  generalize enableAll _ n on = u at copies ⊢
  dsimp only
  split
  · exact copies
  · exact copies.trans (aside_of_lnc (signals_queueStamp _ _).lnc)

theorem aside_holdOutputs (s : State) : Aside s (holdOutputs s) := by
  refine Aside.trans (aside_foldl (fun k t => ?_) _ s) (aside_of_lnc rfl)
  split
  · exact aside_refl t
  · exact aside_setLatch t k false 1 0

theorem aside_zeroise (s : State) : Aside s (zeroise s) := by
  unfold zeroise
  split
  · exact aside_refl s
  · obtain ⟨_, e⟩ := onlyOps_abortWhere (·.key) s
    refine aside_of_lnc ?_
    rw [e]
    rfl

theorem aside_setR (s : State) (a : Nat) (v : Word) : Aside s (setR s a v) := aside_of_lnc rfl

theorem aside_attack (s : State) : Aside s (attack s) :=
  ((((aside_setR s aKeyAttack _).trans (aside_ite (aside_zeroise _))).trans (aside_ite (aside_holdOutputs _))).trans
    (aside_ite (aside_of_lnc (signals_trigger _ 2).lnc))).trans (aside_ite (aside_setR _ aZwLifecycle _))

theorem aside_attackDue (s : State) : Aside s (attackDue s) := by
  unfold attackDue
  dsimp only
  split
  · exact aside_attack s
  · exact aside_refl s

theorem aside_policy (s : State) (k : Nat) : Aside s (policy s k) :=
  ((aside_setR s aKeyPcount _).trans (aside_setR _ aKeyPclass _)).trans (aside_attackDue _)

/-! ### Retirement -/

theorem unretired_congr {s t : State} (h : ∀ n, (laneOf t n).role = (laneOf s n).role) : unretired t = unretired s := by
  unfold unretired
  refine congrArg (List.filter · allLanes) (funext fun n => ?_)
  rw [h]

theorem mem_unretired {s : State} {n : Nat} : n ∈ unretired s → (laneOf s n).role ≠ .retired := fun h => by
  have := (List.mem_filter.1 h).2
  intro e
  rw [e] at this
  exact absurd this (by decide)

/-- The lanes `ls` stop in TEST. -/
theorem stopped_lanes (ls : List Nat) (s : State) :
    let t := ls.foldl (fun t n => modLane t n (fun x => { x with role := .test, pos := 3 })) s
    (∃ m, t = { s with lnc := { s.lnc with lanes := m } }) ∧
      ∀ k, laneOf t k = if k ∈ ls then { laneOf s k with role := .test, pos := 3 } else laneOf s k := by
  induction ls generalizing s with
  | nil => exact ⟨⟨_, rfl⟩, fun k => (if_neg (List.not_mem_nil)).symm⟩
  | cons n r ih =>
    obtain ⟨⟨m, e⟩, lanes⟩ := ih (modLane s n (fun x => { x with role := .test, pos := 3 }))
    refine ⟨⟨m, e⟩, fun k => ?_⟩
    rw [List.foldl_cons, lanes k, laneOf_modLane]
    by_cases here : k = n
    · subst here
      rw [if_pos rfl, if_pos List.mem_cons_self, ite_self]
    · rw [if_neg here]
      exact if_congr (by rw [List.mem_cons, or_iff_right here]) rfl rfl

theorem failstop_stops {s : State} (n : Nat) (gone : (laneOf s n).role = .retired) :
    SameProgram s (failstop s) ∧ laneOf (failstop s) n = laneOf s n ∧ (failstop s).up = s.up ∧
      ((unretired (failstop s)).length < 2 → (failstop s).lnc.set = .failstop) := by
  unfold failstop
  split
  · rename_i few
    obtain ⟨few, -⟩ := few
    have safe := measures_holdOutputs s
    have kept := aside_holdOutputs s
    generalize holdOutputs s = u at safe kept ⊢
    have same : ∀ k, laneOf (modLnc u (fun l => { l with set := .failstop, join := none, resync := none, marks := [], due := [] })) k =
        laneOf u k := laneOf_modLnc u (fun l => { l with set := .failstop, join := none, resync := none, marks := [], due := [] }) (fun _ => rfl)
    have set : (modLnc u (fun l => { l with set := .failstop, join := none, resync := none, marks := [], due := [] })).lnc.set = .failstop := rfl
    have program : SameProgram s (modLnc u (fun l => { l with set := .failstop, join := none, resync := none, marks := [], due := [] })) :=
      ⟨safe.sameMemory, fun w => (LncOnly.program ⟨_, rfl⟩).2 w |>.trans (safe.sameContexts w)⟩
    have up : (modLnc u (fun l => { l with set := .failstop, join := none, resync := none, marks := [], due := [] })).up = s.up := safe.up
    generalize modLnc u _ = v at same set program up ⊢
    obtain ⟨⟨m, e⟩, lanes⟩ := stopped_lanes (unretired v) v
    dsimp only at e lanes ⊢
    have out : n ∉ unretired v := fun mem => mem_unretired mem (by rw [same, (kept n).1, gone])
    refine ⟨⟨fun a => ?_, fun w => ?_⟩, ?_, ?_, fun _ => ?_⟩
    · exact ((LncOnly.program ⟨_, e⟩).1 a).trans (program.1 a)
    · exact ((LncOnly.program ⟨_, e⟩).2 w).trans (program.2 w)
    · rw [lanes, if_neg out, same]
      exact (kept n).2 (unseated gone (by decide))
    · rw [e, ← up]
    · rw [e]
      exact set
  · rename_i enough
    refine ⟨⟨fun _ => rfl, fun _ => rfl⟩, rfl, rfl, fun few => ?_⟩
    by_contra going
    exact enough ⟨few, going⟩

/-- A lane that fails its self-test is retired (R245, R246). -/
theorem selfTest_fails {s : State} {n : Fin 4} (up : s.up = true) (test : (laneOf s n.val).role = .test) :
    let x := laneOf s n.val
    ∃ t, exec (.laneSelfTestEnd n false) s = .next t ∧ SameProgram s t ∧ laneOf t n.val = { x with
      role := .retired, pos := 3, lastfail := true, aborted := false, tested := some s.cycles, retcnt := satAdd 3 x.retcnt 1
      perm := x.perm || decide (1 ≤ x.retcnt) } ∧ ((unretired t).length < 2 → t.lnc.set = .failstop) := by
  intro x
  generalize hu : modLane s n.val (fun x => { x with lastfail := true, aborted := false, tested := some s.cycles }) = u
  have first : laneOf u n.val = { x with lastfail := true, aborted := false, tested := some s.cycles } := by
    rw [← hu, laneOf_modLane, if_pos rfl]
  generalize hv : modLane u n.val (fun x => { x with
    role := .retired, pos := 3, retcnt := satAdd 3 x.retcnt 1, perm := x.perm || decide (1 ≤ x.retcnt) }) = v
  have second : laneOf v n.val = { x with
      role := .retired, pos := 3, lastfail := true, aborted := false, tested := some s.cycles, retcnt := satAdd 3 x.retcnt 1
      perm := x.perm || decide (1 ≤ x.retcnt) } := by
    rw [← hv, laneOf_modLane, if_pos rfl, first]
  have program : SameProgram s v := by
    rw [← hv, ← hu]
    exact LncOnly.program ⟨_, rfl⟩
  have event := (measures_policy v pcLANE).sameProgram
  have kept := (aside_policy v pcLANE).trans (aside_of_lnc (signals_trigger (policy v pcLANE) 1).lnc)
  have noted := signals_trigger (policy v pcLANE) 1
  generalize hw : trigger (policy v pcLANE) 1 = w at kept noted
  have retired : laneOf w n.val = laneOf v n.val := (kept n.val).2 (unseated (r := .retired) (by rw [second]) (by decide))
  obtain ⟨stops, lane, -, few⟩ := failstop_stops (s := w) n.val (by rw [retired, second])
  have out : exec (.laneSelfTestEnd n false) s = .next (settle (failstop w)) := by
    rw [← hw, ← hv, ← hu]
    refine exec_whenUp (f := fun s => selfTestEnd s n.val false) up rfl |>.trans ?_
    simp only [selfTestEnd, if_pos test]
    rfl
  refine ⟨_, out, ⟨fun a => ?_, fun x => ?_⟩, ?_, ?_⟩
  · exact (rdB_settle _ a).trans ((stops.1 a).trans ((noted.sameMemory a).trans ((event.1 a).trans (program.1 a))))
  · exact (seen_settle _ x).trans ((stops.2 x).trans ((noted.seen x).trans ((event.2 x).trans (program.2 x))))
  · rw [laneOf_settle, lane, retired, second]
  · rw [unretired_congr (s := failstop w) (fun k => congrArg Lane.role (laneOf_settle (failstop w) k)), settle_lnc]
    exact few

/-! ### Self-tests that pass -/

/-- The lane becomes SPARE. -/
theorem becomes_spare (s : State) (n : Nat) {u : State} (hu : modLane s n (fun x => { x with
    role := .spare, lastfail := false, aborted := false, passed := some s.cycles, tested := some s.cycles }) = u) :
    LncOnly s u ∧ u.lnc.set = s.lnc.set ∧ u.lnc.join = s.lnc.join ∧ u.lnc.resync = s.lnc.resync ∧ u.lnc.rotDue = s.lnc.rotDue ∧
      u.lnc.rotReq = s.lnc.rotReq ∧ ∀ k, laneOf u k = if k = n then { laneOf s n with
        role := .spare, lastfail := false, aborted := false, passed := some s.cycles, tested := some s.cycles } else laneOf s k := by
  subst hu
  exact ⟨lncOnly_modLane _ _ _, rfl, rfl, rfl, rfl, rfl, fun k => laneOf_modLane s n k _⟩

theorem laneAt_of_unseated {s u : State} {n : Nat} (test : ¬ Seated (laneOf s n)) (now : ¬ Seated (laneOf u n))
    (others : ∀ k, k ≠ n → laneOf u k = laneOf s k) (p : Nat) : laneAt u p = laneAt s p := by
  have seat : ∀ x : Lane, ¬ Seated x → ((x.role == .voter || x.role == .pair) && x.pos == p) = false := fun x free => by
    rw [Seated, not_or] at free
    rw [beq_eq_false_iff_ne.2 free.1, beq_eq_false_iff_ne.2 free.2]
    rfl
  refine laneAt_congr fun k => ?_
  by_cases hk : k = n
  · rw [hk, seatedAt, seatedAt, seat _ test, seat _ now]
  · rw [seatedAt, others k hk]
    rfl

theorem selfTest_passes {s : State} {n : Fin 4} (up : s.up = true) (test : (laneOf s n.val).role = .test) :
    exec (.laneSelfTestEnd n true) s = .next (settle (spareReady (modLane s n.val (fun x => { x with
      role := .spare, lastfail := false, aborted := false, passed := some s.cycles, tested := some s.cycles })))) := by
  refine exec_whenUp (f := fun s => selfTestEnd s n.val true) up rfl |>.trans ?_
  simp only [selfTestEnd, if_pos test]
  rfl

theorem selfTest_waits {s : State} {n : Fin 4} (up : s.up = true) (test : (laneOf s n.val).role = .test) (due : s.lnc.rotDue = false)
    (req : s.lnc.rotReq = false) (set : s.lnc.set ≠ .duplex) :
    let x := laneOf s n.val
    ∃ t, exec (.laneSelfTestEnd n true) s = .next t ∧ SameProgram s t ∧ SameRegisters s t ∧
      laneOf t n.val = { x with role := .spare, lastfail := false, aborted := false, passed := some s.cycles, tested := some s.cycles } ∧
      ∀ k, k ≠ n.val → laneOf t k = laneOf s k := by
  have ran := selfTest_passes up test
  obtain ⟨only, set', -, -, due', req', lanes⟩ := becomes_spare s n.val rfl
  generalize modLane s n.val _ = u at ran only set' due' req' lanes
  have idle : spareReady u = u := by
    unfold spareReady vacant tryRotate
    rw [set', beq_eq_false_iff_ne.2 set, due', req', due, req]
    rfl
  rw [idle] at ran
  obtain ⟨program, registers⟩ := only.same
  refine ⟨_, ran, program, registers, ?_, fun k hk => ?_⟩
  · rw [laneOf_settle, lanes, if_pos rfl]
  · rw [laneOf_settle, lanes, if_neg hk]

theorem selfTest_joins {s : State} {n : Fin 4} (up : s.up = true) (test : (laneOf s n.val).role = .test) (set : s.lnc.set = .duplex)
    (join : s.lnc.join = none) (resync : s.lnc.resync = none) (spare : laneIn s .spare = none) (free : ∃ p, p < 3 ∧ laneAt s p = none) :
    ∃ t, exec (.laneSelfTestEnd n true) s = .next t ∧ SameProgram s t ∧ SameRegisters s t ∧
      (laneOf t n.val).role = .joining ∧ ∃ p src, t.lnc.join = some ⟨n.val, p, none, src⟩ := by
  have ran := selfTest_passes up test
  obtain ⟨only, set', join', resync', -, -, lanes⟩ := becomes_spare s n.val rfl
  generalize modLane s n.val _ = u at ran only set' join' resync' lanes
  have self : (laneOf u n.val).role = .spare := by rw [lanes, if_pos rfl]
  obtain ⟨p, hp, empty⟩ := free
  have empty' : taken u p = false := by
    rw [taken, resync', resync, laneAt_of_unseated (unseated test (by decide)) (unseated self (by decide))
      (fun k hk => by rw [lanes, if_neg hk]) p, empty]
    rfl
  have gap : vacant u = true := by
    unfold vacant
    rw [set', set, join', join]
    rw [Bool.and_eq_true, Bool.not_eq_true']
    refine ⟨rfl, List.all_eq_false.2 ⟨p, ?_, by rw [empty']; decide⟩⟩
    simp only [List.mem_cons, List.not_mem_nil, or_false]
    omega
  obtain ⟨k, found⟩ : ∃ k, laneIn u .spare = some k := by
    cases h : laneIn u .spare with
    | none => exact absurd self (laneIn_none h n.isLt)
    | some k => exact ⟨k, rfl⟩
  have k_eq : k = n.val := by
    by_contra other
    obtain ⟨role, low⟩ := role_of_laneIn found
    rw [lanes, if_neg other] at role
    exact laneIn_none spare low role
  subst k_eq
  have begins : spareReady u = startJoin u n.val := by
    unfold spareReady
    rw [if_pos gap, found]
  rw [begins] at ran
  obtain ⟨joined, role, ⟨src, record⟩, -, -⟩ := startJoin_joins u n.val
  obtain ⟨program, registers⟩ := (only.trans joined).same
  exact ⟨_, ran, program, registers, by rw [laneOf_settle, role], _, _, by rw [settle_lnc, record]⟩

end Sys2Proof.Machine
end

section
/-! SUPPORT. Rotation, comparator tests and the clock voter (spec/09 R247 to R251). -/

namespace Sys2Proof.Machine

/-! ### Writes of the lanes' registers -/

theorem writeReg_key {s : State} {w : Who} {a : Nat} {v : Word} (h : csrUnit a = 5) : writeReg s w a v = writeKey s a v := by
  unfold writeReg touchPower
  rw [h]
  rfl

theorem lnc_place : ∀ a ∈ [aLncMode, aLncRetest, aLncRotreq], (regOf a).any (fun x => decide (0 ≤ x.ring)) = true ∧
    csrUnit a = 5 ∧ csrSwitch a = none ∧ a ≠ aSvoCmd ∧ a ≠ aRngGcommit := by decide +kernel

theorem writeAs_lnc {s : State} {c : BitVec 10} (may : MayAccess s c 0) {a : Nat} (v : Word)
    (ha : a ∈ [aLncMode, aLncRetest, aLncRotreq]) : writeAs s c a v = writeKey s a v := by
  obtain ⟨ring, unit, switch, svo, commit⟩ := lnc_place a ha
  obtain ⟨known, low⟩ := (Option.any_eq_true_iff_get _ _).1 ring
  have reg : regOf a = some ((regOf a).get known) := (Option.some_get known).symm
  rw [writeAs_of_mayAccess may (csrDenied_of_ring_le s v reg (may.2.1.trans (of_decide_eq_true low)) svo) switch
    (acked_of_no_stores s c (by rw [unit]; decide)) commit, writeReg_key unit]

theorem writeKey_mode (s : State) (v : Word) : writeKey s aLncMode v = if bit v 0 then requestPaired s else requestVoted s := by
  unfold writeKey
  rw [if_neg (by decide), if_neg (by decide), if_neg (by decide), if_neg (by decide), if_pos rfl]

theorem writeKey_retest (s : State) (v : Word) : writeKey s aLncRetest v = retest s (fld v 0 2) := by
  unfold writeKey
  rw [if_neg (by decide), if_neg (by decide), if_neg (by decide), if_neg (by decide), if_neg (by decide), if_pos rfl]

theorem writeKey_rotreq (s : State) : writeKey s aLncRotreq 1 = tryRotate (modLnc s (fun l => { l with rotReq := true })) := by
  unfold writeKey
  rw [if_neg (by decide), if_neg (by decide), if_neg (by decide), if_neg (by decide), if_neg (by decide), if_neg (by decide),
    if_pos rfl, if_pos (by decide)]

/-! ### Rotation -/

/-- A rotation may begin (R247, R248). -/
def MayRotate (s : State) : Prop := bit (getR s aKeyCtl) 0 = true ∧ svc s = true ∧
  s.lnc.set = .triplex ∧ s.lnc.join = none ∧ s.lnc.resync = none

/-- What a rotation that is due or requested does, once it may begin. -/
theorem tryRotate_rotates (s : State) {u : State} {d q : Bool} (hu : u = modLnc s (fun l => { l with rotDue := d, rotReq := q }))
    (due : (d || q) = true) : LncOnly s (tryRotate u) ∧ (tryRotate u).lnc.rotReq = q ∧
      (¬ MayRotate s → tryRotate u = u) ∧ ∀ k v, MayRotate s → laneIn s .spare = some k → outgoing s = some v →
        (laneOf (tryRotate u) k).role = .joining ∧ (tryRotate u).lnc.rotDue = false ∧
        (tryRotate u).lnc.join = some ⟨k, if (laneOf s v).pos = 0 then 2 else (laneOf s v).pos, some v, sourceOf s (some v)⟩ := by
  have due' : (u.lnc.rotDue || u.lnc.rotReq) = true := by rw [hu]; exact due
  have same : bit (getR u aKeyCtl) 0 = bit (getR s aKeyCtl) 0 ∧ svc u = svc s ∧ u.lnc.set = s.lnc.set ∧ u.lnc.join = s.lnc.join ∧
      u.lnc.resync = s.lnc.resync ∧ laneIn u .spare = laneIn s .spare ∧ outgoing u = outgoing s ∧
      (∀ v, sourceOf u v = sourceOf s v) ∧ ∀ k, laneOf u k = laneOf s k := by
    rw [hu]
    exact ⟨rfl, rfl, rfl, rfl, rfl, rfl, rfl, fun _ => rfl, fun _ => rfl⟩
  have only : LncOnly s u := hu ▸ lncOnly_modLnc s _
  have req : u.lnc.rotReq = q := by rw [hu]; rfl
  obtain ⟨ctl, service, set, join, resync, spare, leaves, source, lanes⟩ := same
  have guard : ((u.lnc.rotDue || u.lnc.rotReq) && bit (getR u aKeyCtl) 0 && svc u && u.lnc.set == .triplex
      && u.lnc.join.isNone && u.lnc.resync.isNone) = true ↔ MayRotate s := by
    rw [due', ctl, service, set, join, resync, MayRotate]
    simp only [Bool.and_eq_true, beq_iff_eq, Option.isNone_iff_eq_none, true_and, and_assoc]
  unfold tryRotate
  by_cases may : MayRotate s
  · rw [if_pos (guard.2 may), spare, leaves]
    cases hk : laneIn s .spare with
    | none => exact ⟨only, req, fun no => absurd may no, fun k v _ h => by cases h⟩
    | some n =>
      cases hv : outgoing s with
      | none => exact ⟨only, req, fun no => absurd may no, fun k v _ _ h => by cases h⟩
      | some o =>
        refine ⟨(only.trans (lncOnly_modLane u n _)).trans (lncOnly_modLnc _ _), req, fun no => absurd may no, fun k v _ ek ev => ?_⟩
        cases ek
        cases ev
        refine ⟨?_, rfl, ?_⟩
        · refine congrArg Lane.role ((laneOf_modLane u n n (fun x => { x with role := .joining })).trans (if_pos rfl))
        · dsimp only [modLnc]
          rw [lanes, source]
  · rw [if_neg (fun h => may (guard.1 h))]
    exact ⟨only, req, fun _ => rfl, fun _ _ h => absurd h may⟩

theorem rotation_comes {s : State} (up : s.up = true) : ∃ t, exec .rotationDue s = .next t ∧ SameProgram s t ∧ SameRegisters s t ∧
    (∀ k v, MayRotate s → laneIn s .spare = some k → outgoing s = some v → (laneOf t k).role = .joining ∧ t.lnc.rotDue = false ∧
      t.lnc.join = some ⟨k, if (laneOf s v).pos = 0 then 2 else (laneOf s v).pos, some v, sourceOf s (some v)⟩) ∧
    (¬ MayRotate s → t.lnc = { s.lnc with rotDue := true }) := by
  generalize hu : modLnc s (fun l => { l with rotDue := true }) = u
  have noted : u.lnc = { s.lnc with rotDue := true } := by rw [← hu]; rfl
  obtain ⟨only, -, waits, rotates⟩ := tryRotate_rotates s (d := true) (q := s.lnc.rotReq) hu.symm (Bool.true_or _)
  have out : exec .rotationDue s = .next (settle (tryRotate u)) := by
    rw [← hu]
    exact exec_whenUp (f := fun s => tryRotate (modLnc s (fun l => { l with rotDue := true }))) up rfl
  obtain ⟨program, registers⟩ := only.same
  refine ⟨_, out, program, registers, fun k v may hk hv => ?_, fun no => ?_⟩
  · rw [laneOf_settle, settle_lnc]
    exact rotates k v may hk hv
  · rw [settle_lnc, waits no, noted]

theorem rotation_requested {s : State} {c : BitVec 10} (may : MayAccess s c 0) :
    ∃ t, exec (.lncRotreq c) s = .next t ∧ SameProgram s t ∧ SameRegisters s t ∧
    (∀ k v, MayRotate s → laneIn s .spare = some k → outgoing s = some v → (laneOf t k).role = .joining ∧ t.lnc.rotDue = false ∧
      t.lnc.join = some ⟨k, if (laneOf s v).pos = 0 then 2 else (laneOf s v).pos, some v, sourceOf s (some v)⟩) ∧
    t.lnc.rotReq = true ∧ (¬ MayRotate s → t.lnc = { s.lnc with rotReq := true }) := by
  generalize hu : modLnc s (fun l => { l with rotReq := true }) = u
  have noted : u.lnc = { s.lnc with rotReq := true } := by rw [← hu]; rfl
  obtain ⟨only, kept, waits, rotates⟩ := tryRotate_rotates s (d := s.lnc.rotDue) (q := true) hu.symm (Bool.or_true _)
  have out : exec (.lncRotreq c) s = .next (settle (tryRotate u)) := by
    rw [← hu, ← writeKey_rotreq, ← writeAs_lnc may 1 (by decide)]
    rfl
  obtain ⟨program, registers⟩ := only.same
  refine ⟨_, out, program, registers, fun k v may hk hv => ?_, ?_, fun no => ?_⟩
  · rw [laneOf_settle, settle_lnc]
    exact rotates k v may hk hv
  · rw [settle_lnc, kept]
  · rw [settle_lnc, waits no, noted]

/-! ### Comparator tests -/

/-- A comparator failure is recorded in KEY_STAT (R249), and by CMPHOLD the outputs are held. -/
theorem cmpFailure_records (s : State) (pos place : Nat) : let t := cmpFailure s pos place true
    SameProgram s t ∧ t.lnc.sweep = s.lnc.sweep ∧ t.lnc.sweeping = s.lnc.sweeping ∧ bit (getR t aKeyStat) 13 = true ∧
      fld (getR t aKeyStat) 14 2 = pos % 4 ∧ fld (getR t aKeyStat) 16 8 = place % 256 ∧
      (bit (getR s aKeyCtl) 2 = true → bit (getR t aSvoCtl) 0 = true) := by
  have first := measures_setR s aKeyStat (setBit (setFld (setFld (getR s aKeyStat) 16 8 place) 14 2 pos) 13 true)
  have word : getR (setR s aKeyStat (setBit (setFld (setFld (getR s aKeyStat) 16 8 place) 14 2 pos) 13 true)) aKeyStat =
      setBit (setFld (setFld (getR s aKeyStat) 16 8 place) 14 2 pos) 13 true := by rw [getR_setR, if_pos rfl]
  have unfolded : cmpFailure s pos place true = if bit (getR (trigger (policy (setR s aKeyStat
      (setBit (setFld (setFld (getR s aKeyStat) 16 8 place) 14 2 pos) 13 true)) pcLANE) 3) aKeyCtl) 2 then
      holdOutputs (trigger (policy (setR s aKeyStat (setBit (setFld (setFld (getR s aKeyStat) 16 8 place) 14 2 pos) 13 true)) pcLANE) 3)
      else trigger (policy (setR s aKeyStat (setBit (setFld (setFld (getR s aKeyStat) 16 8 place) 14 2 pos) 13 true)) pcLANE) 3 := rfl
  dsimp only
  rw [unfolded]
  generalize setR s aKeyStat _ = u at first word
  have second := measures_policy u pcLANE
  have third := signals_trigger (policy u pcLANE) 3
  generalize trigger (policy u pcLANE) 3 = v at third
  have noted : Measures (aKeyStat :: policyRegs ++ eventRegs 3) [2, 7, 27, 3] s v := ((first.mono (by decide) (by decide)).trans
    (second.mono (by decide) (by decide))).trans (third.measures.mono (by decide) (by decide))
  have stat : getR v aKeyStat = setBit (setFld (setFld (getR s aKeyStat) 16 8 place) 14 2 pos) 13 true := by
    rw [third.csr _ (by decide), second.csr _ (by decide), word]
  have ctl : getR v aKeyCtl = getR s aKeyCtl := noted.csr _ (by decide)
  have record : bit (getR v aKeyStat) 13 = true ∧ fld (getR v aKeyStat) 14 2 = pos % 4 ∧ fld (getR v aKeyStat) 16 8 = place % 256 := by
    rw [stat]
    refine ⟨bit_setBit_self _ _ (by decide), ?_, ?_⟩
    · rw [fld_setBit_of_outside _ _ (by decide) (by decide), fld_setFld _ _ (by decide)]
      rfl
    · rw [fld_setBit_of_outside _ _ (by decide) (by decide), fld_setFld_of_disjoint _ (lo := 14) (n := 2) (lo' := 16) (n' := 8) _ (by decide) (by decide),
        fld_setFld _ _ (by decide)]
      rfl
  obtain ⟨_, lnc⟩ := noted.lnc
  rw [ctl]
  split
  · have safe := measures_holdOutputs v
    have on : bit (getR (holdOutputs v) aSvoCtl) 0 = true := by
      unfold holdOutputs
      dsimp only
      rw [getR_orR, if_pos rfl, bit_or]
      exact Bool.or_eq_true_iff.2 (.inr (by decide))
    obtain ⟨_, lnc'⟩ := safe.lnc
    obtain ⟨h1, h2, h3⟩ := record
    rw [safe.csr aKeyStat (by decide), lnc', lnc]
    exact ⟨⟨fun a => (safe.sameMemory a).trans (noted.sameMemory a), fun w => (safe.sameContexts w).trans (noted.sameContexts w)⟩,
      rfl, rfl, h1, h2, h3, fun _ => on⟩
  · rename_i off
    obtain ⟨h1, h2, h3⟩ := record
    rw [lnc]
    exact ⟨noted.sameProgram, rfl, rfl, h1, h2, h3, fun on => absurd on off⟩

theorem injection_sweeps {s : State} (going : s.lnc.sweeping = true) (pass : Bool) :
    ∃ t, exec (.comparatorInjection pass) s = .next t ∧ SameProgram s t ∧
      t.lnc.sweep = s.lnc.sweep + 1 ∧ t.lnc.sweeping = decide (s.lnc.sweep + 1 < 732) ∧
      (pass = true → SameRegisters s t ∧ ∀ k, laneOf t k = laneOf s k) ∧
      (pass = false → let q := sweepPlace s.lnc.sweep
        bit (getR t aKeyStat) 13 = true ∧ fld (getR t aKeyStat) 14 2 = q.1 % 4 ∧ fld (getR t aKeyStat) 16 8 = q.2 % 256 ∧
        (bit (getR s aKeyCtl) 2 = true → bit (getR t aSvoCtl) 0 = true)) := by
  generalize hu : modLnc s (fun l => { l with sweep := s.lnc.sweep + 1, sweeping := decide (s.lnc.sweep + 1 < 732) }) = u
  have only : LncOnly s u := ⟨_, hu.symm⟩
  have lanes : ∀ k, laneOf u k = laneOf s k := fun k => by rw [← hu]; rfl
  have place : u.lnc.sweep = s.lnc.sweep + 1 ∧ u.lnc.sweeping = decide (s.lnc.sweep + 1 < 732) := by rw [← hu]; exact ⟨rfl, rfl⟩
  have registers : ∀ a, getR u a = getR s a := fun a => by rw [← hu]; rfl
  have out : exec (.comparatorInjection pass) s = occurs (if pass then u else
      cmpFailure u (sweepPlace s.lnc.sweep).1 (sweepPlace s.lnc.sweep).2 true) := by
    rw [← hu]
    refine Eq.trans (b := occurs (injection s pass)) rfl ?_
    rw [injection, if_pos going]
  cases pass with
  | true =>
    obtain ⟨program, regs⟩ := only.same
    refine ⟨_, out, program, ?_, ?_, fun _ => ⟨regs, fun k => ?_⟩, fun h => by cases h⟩
    · exact (congrArg Lnc.sweep (settle_lnc u)).trans place.1
    · exact (congrArg Lnc.sweeping (settle_lnc u)).trans place.2
    · exact (laneOf_settle u k).trans (lanes k)
  | false =>
    obtain ⟨program, sweep, sweeping, failed, pos, row, hold⟩ := cmpFailure_records u (sweepPlace s.lnc.sweep).1 (sweepPlace s.lnc.sweep).2
    generalize cmpFailure u (sweepPlace s.lnc.sweep).1 (sweepPlace s.lnc.sweep).2 true = v at *
    refine ⟨settle v, out, ⟨fun a => ?_, fun w => ?_⟩, ?_, ?_, fun h => (by cases h), fun _ => ⟨?_, ?_, ?_, fun on => ?_⟩⟩
    · exact (rdB_settle v a).trans ((program.1 a).trans (only.program.1 a))
    · exact (seen_settle v w).trans ((program.2 w).trans (only.program.2 w))
    · rw [settle_lnc, sweep, place.1]
    · rw [settle_lnc, sweeping, place.2]
    · rw [getR_settle, failed]
    · rw [getR_settle, pos]
    · rw [getR_settle, row]
    · rw [getR_settle, hold (by rw [registers, on])]

/-! ### The clock voter -/

theorem oscillator_disabled {s : State} (up : s.up = true) (n : Fin 3) (first : fld (getR s aKeyStat) 0 3 = 0 ∨ bit (getR s aKeyStat) n.val = true) :
    ∃ t, exec (.oscillatorFault n) s = .next t ∧ SameProgram s t ∧ SameRegistersBut (aKeyStat :: policyRegs ++ eventRegs 36) s t ∧
      getR t aKeyStat = setBit (setBit (getR s aKeyStat) n.val true) (9 + n.val) true := by
  have out : exec (.oscillatorFault n) s = .next (settle (oscFault s n.val)) := by
    refine (exec_whenUp (f := fun s => if oscOff s ≠ 0 ∧ bit (getR s aKeyStat) n.val = false then secondFault s else oscFault s n.val) up rfl).trans ?_
    refine congrArg occurs (if_neg ?_)
    rintro ⟨some_, this⟩
    rcases first with h | h
    · exact some_ h
    · rw [h] at this
      cases this
  have noted := measures_setR s aKeyStat (setBit (setBit (getR s aKeyStat) n.val true) (9 + n.val) true)
  have word : getR (setR s aKeyStat (setBit (setBit (getR s aKeyStat) n.val true) (9 + n.val) true)) aKeyStat =
      setBit (setBit (getR s aKeyStat) n.val true) (9 + n.val) true := by rw [getR_setR, if_pos rfl]
  have unfolded : oscFault s n.val = trigger (policy (setR s aKeyStat (setBit (setBit (getR s aKeyStat) n.val true) (9 + n.val) true)) pcLANE) 36 := rfl
  rw [unfolded] at out
  generalize setR s aKeyStat _ = u at noted word out
  have second := measures_policy u pcLANE
  have third := signals_trigger (policy u pcLANE) 36
  have all : Measures (aKeyStat :: policyRegs ++ eventRegs 36) [2, 7, 27, 36] s (trigger (policy u pcLANE) 36) :=
    ((noted.mono (by decide) (by decide)).trans (second.mono (by decide) (by decide))).trans (third.measures.mono (by decide) (by decide))
  refine ⟨_, out, all.settle_program, all.settle_registers, ?_⟩
  rw [getR_settle, third.csr _ (by decide), second.csr _ (by decide), word]

theorem oscillator_second {s : State} (up : s.up = true) (n : Fin 3) (off : fld (getR s aKeyStat) 0 3 ≠ 0)
    (other : bit (getR s aKeyStat) n.val = false) : ∃ t, exec (.oscillatorFault n) s = .next t ∧ t.up = false ∧
      t.pwr.cause = 4 ∧ bit (getR t aClkStatus) 11 = true := by
  have out : exec (.oscillatorFault n) s = .next (settle (secondFault s)) := by
    refine (exec_whenUp (f := fun s => if oscOff s ≠ 0 ∧ bit (getR s aKeyStat) n.val = false then secondFault s else oscFault s n.val) up rfl).trans ?_
    exact congrArg occurs (if_pos ⟨off, other⟩)
  have same : exec .secondOscillatorFault s = .next (settle (secondFault s)) := by
    refine Eq.trans (b := occurs (if oscOff s = 0 then s else secondFault s)) rfl ?_
    rw [if_neg (show ¬ oscOff s = 0 from off)]
    rfl
  obtain ⟨t, ran, down, cause, fail, -⟩ := secondFault_resets up off
  exact ⟨t, (out.trans same.symm).trans ran, down, cause, fail⟩

theorem oscillator_enabled {s : State} (up : s.up = true) (n : Fin 3) :
    ∃ t, exec (.oscillatorReenable n) s = .next t ∧ SameProgram s t ∧ SameRegistersBut [aKeyStat] s t ∧
      getR t aKeyStat = setBit (getR s aKeyStat) n.val false := by
  have only := measures_setR s aKeyStat (setBit (getR s aKeyStat) n.val false)
  refine ⟨_, exec_whenUp (f := fun s => oscReturn s n.val) up rfl, only.settle_program, only.settle_registers, ?_⟩
  rw [getR_settle, oscReturn, getR_setR, if_pos rfl]

end Sys2Proof.Machine
end

section
/-! SUPPORT. The lane modes (spec/09 R253 to R255), and the settlement of O48. -/

namespace Sys2Proof.Machine

/-! ### Queues rebuilt, lines shared -/

/-- A coach queued under its present class. -/
def requeued (c : Coach) : Coach := { c with qclass := classOf c, qattr := attrOf c }

theorem coachOf_rebuildQueues (s : State) (n : Nat) : coachOf (rebuildQueues s) n = requeued (coachOf s n) :=
  SMap.get_map ({} : Coach) (fun _ c => requeued c) s.coach n (by rfl)

theorem sameProgram_rebuildQueues (s : State) : SameProgram s (rebuildQueues s) :=
  ⟨fun _ => rfl, fun w => by
    cases w with
    | coach n =>
      have same : seen (coachOf (rebuildQueues s) n) = seen (coachOf s n) := by
        rw [coachOf_rebuildQueues]
        rfl
      exact same
    | fast => rfl⟩

theorem SameProgram.trans {s t u : State} (h : SameProgram s t) (g : SameProgram t u) : SameProgram s u :=
  ⟨fun a => (g.1 a).trans (h.1 a), fun w => (g.2 w).trans (h.2 w)⟩

theorem sameProgram_settle (s : State) : SameProgram s (settle s) := ⟨rdB_settle s, seen_settle s⟩

/-! ### Roles that change -/

/-- The lane `n?`, if any, changes by `f`. -/
def changeLane (f : Lane → Lane) (s : State) (n? : Option Nat) : State :=
  match n? with | some n => modLane s n f | none => s

theorem lncOnly_changeLane (f : Lane → Lane) (s : State) (n? : Option Nat) : LncOnly s (changeLane f s n?) := by
  cases n? with
  | none => exact lncOnly_refl s
  | some n => exact lncOnly_modLane s n f

theorem laneOf_changeLane (f : Lane → Lane) (s : State) (n k : Nat) :
    laneOf (changeLane f s (some n)) k = if k = n then f (laneOf s n) else laneOf s k := laneOf_modLane s n k f

/-! ### PAIRED mode -/

/-- The lane modes' hand-over may begin (R254). -/
def MayPair (s : State) : Prop := svc s = true ∧ s.lnc.set = .triplex ∧ (unretired s).length = 4

theorem pair_guard (s : State) : (!svc s || s.lnc.set != .triplex || (unretired s).length != 4) = false ↔ MayPair s := by
  rw [MayPair, Bool.or_eq_false_iff, Bool.or_eq_false_iff, Bool.not_eq_false', bne_eq_false_iff_eq, bne_eq_false_iff_eq, and_assoc]

theorem pairing_refused {s : State} {c : BitVec 10} (may : MayAccess s c 0) (voted : s.lnc.paired = false) (no : ¬ MayPair s) :
    ∃ t, exec (.handoverToPaired c) s = .next t ∧ SameProgram s t ∧ SameRegisters s t ∧ t.lnc = { s.lnc with err := true } := by
  have out : exec (.handoverToPaired c) s = .next (settle (modLnc s (fun l => { l with err := true }))) := by
    refine Eq.trans (b := occurs (writeAs s c aLncMode 1)) rfl ?_
    rw [writeAs_lnc may 1 (by decide), writeKey_mode, if_pos (by decide), requestPaired, if_neg (by rw [voted]; decide),
      if_pos (by rw [← Bool.not_eq_false, pair_guard]; exact no)]
    rfl
  obtain ⟨program, registers⟩ := (lncOnly_modLnc s (fun l => { l with err := true })).same
  exact ⟨_, out, program, registers, by rw [settle_lnc]; rfl⟩

/-- The lane becomes free. -/
def freed (x : Lane) : Lane := { x with role := .free, pos := 3, aborted := x.aborted || x.role == .test }

/-- The lane compares in a pair. -/
def paired (x : Lane) : Lane := { x with role := .pair }

theorem toPaired_eq {s : State} {o b : Option Nat} (ho : outrider s = o) (hb : laneAt s 1 = b) : toPaired s =
    trigger (rebuildQueues (modLnc (changeLane paired (changeLane paired (shareLines (changeLane freed (changeLane freed s o) b)) (laneAt s 0))
      (laneAt s 2)) (fun l => { l with
        set := .paired, busy := false, part0 := getR s aCshFreepart0, part1 := getR s aCshFreepart1 }))) 1 := by
  unfold toPaired
  rw [ho, hb]
  rfl

theorem role_of_outrider {s : State} {o : Nat} (h : outrider s = some o) : ¬ Seated (laneOf s o) := by
  unfold outrider at h
  split at h
  · cases h
    exact unseated (role_of_laneIn ‹_›).1 (by decide)
  · split at h
    · cases h
      exact unseated (role_of_laneIn ‹_›).1 (by decide)
    · exact unseated (role_of_laneIn h).1 (by decide)

theorem laneAt_ne {s : State} {p q m n : Nat} (hm : laneAt s p = some m) (hn : laneAt s q = some n) (h : p ≠ q) : m ≠ n := by
  rintro rfl
  exact h ((seated_of_laneAt hm).2.symm.trans (seated_of_laneAt hn).2)

theorem toPaired_pairs {s : State} {a b d o : Nat} (ha : laneAt s 0 = some a) (hb : laneAt s 1 = some b) (hd : laneAt s 2 = some d)
    (ho : outrider s = some o) : let t := toPaired s
    SameProgram s t ∧ t.lnc.set = .paired ∧ t.lnc.paired = s.lnc.paired ∧ t.lnc.busy = false ∧ t.lnc.err = s.lnc.err ∧
      t.lnc.part0 = getR s aCshFreepart0 ∧ t.lnc.part1 = getR s aCshFreepart1 ∧
      (laneOf t a).role = .pair ∧ (laneOf t d).role = .pair ∧ (laneOf t b).role = .free ∧ (laneOf t o).role = .free := by
  have unfolded := toPaired_eq ho hb
  rw [ha, hd] at unfolded
  have free := role_of_outrider ho
  have apart : ∀ {p n}, laneAt s p = some n → n ≠ o := fun h e => free (e ▸ (seated_of_laneAt h).1)
  have two : LncOnly s (changeLane freed (changeLane freed s (some o)) (some b)) := (lncOnly_changeLane _ _ _).trans (lncOnly_changeLane _ _ _)
  have lanes2 : ∀ k, laneOf (shareLines (changeLane freed (changeLane freed s (some o)) (some b))) k =
      if k = b then freed (if b = o then freed (laneOf s o) else laneOf s b) else if k = o then freed (laneOf s o) else laneOf s k := fun k => by
    refine (laneOf_changeLane freed (changeLane freed s (some o)) b k).trans ?_
    rw [laneOf_changeLane, laneOf_changeLane]
  have kept2 : (shareLines (changeLane freed (changeLane freed s (some o)) (some b))).lnc.paired = s.lnc.paired ∧
      (shareLines (changeLane freed (changeLane freed s (some o)) (some b))).lnc.err = s.lnc.err := ⟨rfl, rfl⟩
  have program2 : SameProgram s (shareLines (changeLane freed (changeLane freed s (some o)) (some b))) := by
    refine two.program.trans ⟨fun _ => rfl, fun w => ?_⟩
    cases w <;> rfl
  generalize shareLines _ = u at unfolded lanes2 kept2 program2
  generalize hv : modLnc (changeLane paired (changeLane paired u (some a)) (some d)) (fun l => { l with
    set := .paired, busy := false, part0 := getR s aCshFreepart0, part1 := getR s aCshFreepart1 }) = v at unfolded
  have lanes : ∀ k, laneOf v k = if k = d then paired (if d = a then paired (laneOf u a) else laneOf u d)
      else if k = a then paired (laneOf u a) else laneOf u k := fun k => by
    rw [← hv]
    refine (laneOf_changeLane paired (changeLane paired u (some a)) d k).trans ?_
    rw [laneOf_changeLane, laneOf_changeLane]
  have only : LncOnly u v := by
    rw [← hv]
    exact ((lncOnly_changeLane _ _ _).trans (lncOnly_changeLane _ _ _)).trans (lncOnly_modLnc _ _)
  have fields : v.lnc.set = .paired ∧ v.lnc.paired = u.lnc.paired ∧ v.lnc.busy = false ∧ v.lnc.err = u.lnc.err ∧
      v.lnc.part0 = getR s aCshFreepart0 ∧ v.lnc.part1 = getR s aCshFreepart1 := by
    rw [← hv]
    exact ⟨rfl, rfl, rfl, rfl, rfl, rfl⟩
  have event := signals_trigger (rebuildQueues v) 1
  rw [← unfolded] at event
  have same : (toPaired s).lnc = v.lnc := event.lnc
  have place : ∀ k, laneOf (toPaired s) k = laneOf v k := fun k => by rw [laneOf, same]; rfl
  obtain ⟨set, pairedF, busy, err, part0, part1⟩ := fields
  dsimp only
  rw [same]
  refine ⟨((program2.trans only.program).trans (sameProgram_rebuildQueues v)).trans ⟨event.sameMemory, event.seen⟩,
    set, pairedF.trans kept2.1, busy, err.trans kept2.2, part0, part1, ?_, ?_, ?_, ?_⟩
  · rw [place, lanes, if_neg (laneAt_ne ha hd (by decide)), if_pos rfl]
    rfl
  · rw [place, lanes, if_pos rfl]
    rfl
  · rw [place, lanes, if_neg (laneAt_ne hb hd (by decide)), if_neg (laneAt_ne hb ha (by decide)), lanes2, if_pos rfl]
    rfl
  · rw [place, lanes, if_neg (apart hd).symm, if_neg (apart ha).symm, lanes2, if_neg (apart hb).symm, if_pos rfl]
    rfl

theorem pairing_done {s : State} {c : BitVec 10} (may : MayAccess s c 0) (voted : s.lnc.paired = false) (pair : MayPair s)
    (join : s.lnc.join = none) {a b d o : Nat} (ha : laneAt s 0 = some a) (hb : laneAt s 1 = some b) (hd : laneAt s 2 = some d)
    (ho : outrider s = some o) : ∃ t, exec (.handoverToPaired c) s = .next t ∧ SameProgram s t ∧ t.lnc.set = .paired ∧ t.lnc.paired = true ∧
      t.lnc.busy = false ∧ t.lnc.err = false ∧ t.lnc.part0 = getR s aCshFreepart0 ∧ t.lnc.part1 = getR s aCshFreepart1 ∧
      (laneOf t a).role = .pair ∧ (laneOf t d).role = .pair ∧ (laneOf t b).role = .free ∧ (laneOf t o).role = .free := by
  generalize hu : modLnc s (fun l => { l with paired := true, err := false, busy := true }) = u
  have out : exec (.handoverToPaired c) s = .next (settle (toPaired u)) := by
    refine Eq.trans (b := occurs (writeAs s c aLncMode 1)) rfl ?_
    rw [writeAs_lnc may 1 (by decide), writeKey_mode, if_pos (by decide), requestPaired, if_neg (by rw [voted]; decide),
      if_neg (by rw [(pair_guard s).2 pair]; decide)]
    dsimp only
    rw [hu, if_neg (by rw [← hu]; change ¬ s.lnc.join.isSome = true; rw [join]; decide)]
    rfl
  have only : LncOnly s u := ⟨_, hu.symm⟩
  have fields : u.lnc.paired = true ∧ u.lnc.err = false ∧ laneAt u 0 = some a ∧ laneAt u 1 = some b ∧ laneAt u 2 = some d ∧
      outrider u = some o ∧ getR u aCshFreepart0 = getR s aCshFreepart0 ∧ getR u aCshFreepart1 = getR s aCshFreepart1 := by
    rw [← hu]
    exact ⟨rfl, rfl, ha, hb, hd, ho, rfl, rfl⟩
  obtain ⟨on, clean, ha', hb', hd', ho', r0, r1⟩ := fields
  obtain ⟨program, set, pairedF, busy, err, part0, part1, roleA, roleD, roleB, roleO⟩ := toPaired_pairs ha' hb' hd' ho'
  refine ⟨_, out, (only.program.trans program).trans (sameProgram_settle _), ?_⟩
  rw [settle_lnc, laneOf_settle, laneOf_settle, laneOf_settle, laneOf_settle]
  exact ⟨set, pairedF.trans on, busy, err.trans clean, part0.trans r0, part1.trans r1, roleA, roleD, roleB, roleO⟩

/-! ### VOTED mode -/

/-- The lane votes. -/
def voting (x : Lane) : Lane := { x with role := .voter }

theorem voting_seated (s : State) {u : State} {n : Option Nat} (h : ∀ m, n = some m → Seated (laneOf s m))
    (hu : u = changeLane voting s n) : (∀ p, laneAt u p = laneAt s p) ∧ ∀ k, Seated (laneOf s k) → Seated (laneOf u k) := by
  subst hu
  cases n with
  | none => exact ⟨fun _ => rfl, fun _ h => h⟩
  | some m =>
    have seat : ((laneOf s m).role == .voter || (laneOf s m).role == .pair) = true := by
      rw [Bool.or_eq_true, beq_iff_eq, beq_iff_eq]
      exact h m rfl
    refine ⟨fun p => laneAt_congr fun k => ?_, fun k seat => ?_⟩
    · rw [seatedAt, seatedAt, laneOf_changeLane]
      split
      · rename_i e
        rw [e, seat]
        rfl
      · rfl
    · rw [laneOf_changeLane]
      split
      · exact .inl rfl
      · exact seat

theorem freeLanes_two {s : State} {x y : Nat} (h : freeLanes s = [x, y]) : x ≠ y ∧ (laneOf s x).role = .free ∧ (laneOf s y).role = .free := by
  have nodup : (freeLanes s).Nodup := List.Nodup.filter _ (by decide)
  have role : ∀ n ∈ freeLanes s, (laneOf s n).role = .free := fun n hn => beq_iff_eq.1 (List.mem_filter.1 hn).2
  rw [h] at nodup role
  refine ⟨fun e => ?_, role x List.mem_cons_self, role y (List.mem_cons_of_mem _ List.mem_cons_self)⟩
  rw [e] at nodup
  exact (List.nodup_cons.1 nodup).1 List.mem_cons_self

theorem requestVoted_eq {s : State} {x y : Nat} (set : s.lnc.set = .paired) (free : freeLanes s = [x, y]) : requestVoted s =
    rebuildQueues (startJoin (changeLane (fun l => { l with role := .test }) (modLnc (changeLane voting (changeLane voting s (laneAt s 0)) (laneAt s 2))
      (fun l => { l with set := .duplex, paired := false, err := false })) (some y)) x) := by
  unfold requestVoted
  rw [if_pos set, free]
  rfl

theorem startJoin_at {s : State} {n p : Nat} (room : makeRoom s = (s, p)) : (startJoin s n).lnc.join = some ⟨n, p, none, sourceOf s none⟩ ∧
    (startJoin s n).lnc.set = s.lnc.set ∧ (startJoin s n).lnc.paired = s.lnc.paired ∧
    ∀ k, laneOf (startJoin s n) k = if k = n then { laneOf s n with role := .joining, aborted := (laneOf s n).aborted || (laneOf s n).role == .test }
      else laneOf s k := by
  unfold startJoin
  rw [room]
  exact ⟨rfl, rfl, rfl, fun k => (laneOf_modLnc _ (fun l => { l with join := some ⟨n, p, none, sourceOf s none⟩ }) (fun _ => rfl) k).trans
    (laneOf_modLane s n k _)⟩

theorem voting_resumes {s : State} {c : BitVec 10} (may : MayAccess s c 0) (set : s.lnc.set = .paired) {a d x y : Nat}
    (ha : laneAt s 0 = some a) (hd : laneAt s 2 = some d) (hb : laneAt s 1 = none) (resync : s.lnc.resync = none)
    (free : freeLanes s = [x, y]) : ∃ t, exec (.handoverToVoted c) s = .next t ∧ SameProgram s t ∧ SameRegisters s t ∧
      t.lnc.set = .duplex ∧ t.lnc.paired = false ∧ (laneOf t a).role = .voter ∧ (laneOf t d).role = .voter ∧
      (laneOf t x).role = .joining ∧ (laneOf t y).role = .test ∧ t.lnc.join = some ⟨x, 1, none, some a⟩ := by
  have out : exec (.handoverToVoted c) s = .next (settle (requestVoted s)) := by
    refine Eq.trans (b := occurs (writeAs s c aLncMode 0)) rfl ?_
    rw [writeAs_lnc may 0 (by decide), writeKey_mode, if_neg (by decide)]
    rfl
  obtain ⟨xy, roleX, roleY⟩ := freeLanes_two free
  have freeOf : ∀ {n}, (laneOf s n).role = .free → ¬ Seated (laneOf s n) := fun h => unseated h (by decide)
  have seatA := (seated_of_laneAt ha).1
  have seatD := (seated_of_laneAt hd).1
  rw [requestVoted_eq set free, ha, hd] at out
  generalize hu1 : changeLane voting s (some a) = u1 at out
  obtain ⟨at1, seats1⟩ := voting_seated s (fun m h => by cases h; exact seatA) hu1.symm
  have lanes1 : ∀ k, laneOf u1 k = if k = a then voting (laneOf s a) else laneOf s k := fun k => by rw [← hu1, laneOf_changeLane]
  have only1 : LncOnly s u1 := hu1 ▸ lncOnly_changeLane _ _ _
  have resync1 : u1.lnc.resync = none := by rw [← hu1]; exact resync
  generalize hu2 : changeLane voting u1 (some d) = u2 at out
  obtain ⟨at2, -⟩ := voting_seated u1 (fun m h => by cases h; exact seats1 d seatD) hu2.symm
  have lanes2 : ∀ k, laneOf u2 k = if k = d then voting (laneOf u1 d) else laneOf u1 k := fun k => by rw [← hu2, laneOf_changeLane]
  have only2 : LncOnly u1 u2 := hu2 ▸ lncOnly_changeLane _ _ _
  have resync2 : u2.lnc.resync = none := by rw [← hu2]; exact resync1
  generalize hu3 : modLnc u2 (fun l => { l with set := .duplex, paired := false, err := false }) = u3 at out
  have lanes3 : ∀ k, laneOf u3 k = laneOf u2 k := fun k => by rw [← hu3]; rfl
  have at3 : ∀ p, laneAt u3 p = laneAt u2 p := fun p => laneAt_congr fun k => by rw [seatedAt, seatedAt, lanes3]
  have only3 : LncOnly u2 u3 := hu3 ▸ lncOnly_modLnc _ _
  have fields3 : u3.lnc.set = .duplex ∧ u3.lnc.paired = false ∧ u3.lnc.resync = none := by
    rw [← hu3]
    exact ⟨rfl, rfl, resync2⟩
  generalize hu4 : changeLane (fun l => { l with role := .test }) u3 (some y) = u4 at out
  have lanes4 : ∀ k, laneOf u4 k = if k = y then { laneOf u3 y with role := .test } else laneOf u3 k := fun k => by rw [← hu4, laneOf_changeLane]
  have apart : ∀ {p n m}, laneAt s p = some n → (laneOf s m).role = .free → m ≠ n := fun h role e => freeOf role (e ▸ (seated_of_laneAt h).1)
  have keeps : laneOf u3 y = laneOf s y := by
    rw [lanes3, lanes2, if_neg (apart hd roleY), lanes1, if_neg (apart ha roleY)]
  have at4 : ∀ p, laneAt u4 p = laneAt s p := fun p => by
    rw [laneAt_of_unseated (s := u3) (n := y) (by rw [keeps]; exact freeOf roleY) (by rw [lanes4, if_pos rfl]; exact unseated (r := .test) rfl (by decide))
      (fun k hk => by rw [lanes4, if_neg hk]), at3, at2, at1]
  have only4 : LncOnly u3 u4 := hu4 ▸ lncOnly_changeLane _ _ _
  have fields4 : u4.lnc.set = .duplex ∧ u4.lnc.paired = false ∧ u4.lnc.resync = none := by
    rw [← hu4]
    exact fields3
  obtain ⟨set4, paired4, resync4⟩ := fields4
  have room : makeRoom u4 = (u4, 1) := by
    unfold makeRoom taken
    rw [at4, ha, resync4]
    dsimp only
    rw [if_pos (by rfl), at4, hb, resync4]
    rfl
  have source : sourceOf u4 none = some a := by
    unfold sourceOf
    rw [show ([0, 1, 2] : List Nat).filterMap (laneAt u4) = [a, d] by
      simp only [List.filterMap_cons, List.filterMap_nil, at4, ha, hb, hd]]
    rfl
  obtain ⟨join5, set5, paired5, lanes5⟩ := startJoin_at (n := x) room
  rw [source] at join5
  have only5 := (startJoin_joins u4 x).1
  generalize startJoin u4 x = u5 at out join5 set5 paired5 lanes5 only5
  have only := (((only1.trans only2).trans only3).trans only4).trans only5
  refine ⟨_, out, (only.program.trans (sameProgram_rebuildQueues u5)).trans (sameProgram_settle _), fun r => ?_, ?_⟩
  · obtain ⟨_, rfl⟩ := only
    exact getR_settle _ r
  · have same : ∀ k, laneOf (rebuildQueues u5) k = laneOf u5 k := fun _ => rfl
    have roleOf : ∀ k, k ≠ x → k ≠ y → laneOf u5 k = laneOf u2 k := fun k kx ky => by
      rw [lanes5, if_neg kx, lanes4, if_neg ky, lanes3]
    rw [settle_lnc, laneOf_settle, laneOf_settle, laneOf_settle, laneOf_settle, same, same, same, same,
      roleOf a (apart ha roleX).symm (apart ha roleY).symm, roleOf d (apart hd roleX).symm (apart hd roleY).symm]
    refine ⟨set5.trans set4, paired5.trans paired4, ?_, ?_, ?_, ?_, join5⟩
    · rw [lanes2, if_neg (laneAt_ne ha hd (by decide)), lanes1, if_pos rfl]
      rfl
    · rw [lanes2, if_pos rfl]
      rfl
    · rw [lanes5, if_pos rfl]
    · rw [lanes5, if_neg xy.symm, lanes4, if_pos rfl]

theorem voting_unchanged {s : State} {c : BitVec 10} (may : MayAccess s c 0) (set : s.lnc.set ≠ .paired) :
    exec (.handoverToVoted c) s = .next (settle s) := by
  refine Eq.trans (b := occurs (writeAs s c aLncMode 0)) rfl ?_
  rw [writeAs_lnc may 0 (by decide), writeKey_mode, if_neg (by decide), requestVoted, if_neg set]
  rfl

/-! ### LNC_RETEST -/

theorem retest_tests {s : State} {c : BitVec 10} (may : MayAccess s c 0) (v : Word) : let n := fld v 0 2
    ∃ t, exec (.lncRetest c v) s = .next t ∧ SameProgram s t ∧ SameRegisters s t ∧
      laneOf t n = (if (laneOf s n).role = .retired ∧ (laneOf s n).perm = false then { laneOf s n with role := .test } else laneOf s n) ∧
      ∀ k, k ≠ n → laneOf t k = laneOf s k := by
  intro n
  have out : exec (.lncRetest c v) s = .next (settle (retest s n)) := by
    refine Eq.trans (b := occurs (writeAs s c aLncRetest v)) rfl ?_
    rw [writeAs_lnc may v (by decide), writeKey_retest]
    rfl
  by_cases retired : (laneOf s n).role = .retired ∧ (laneOf s n).perm = false
  · have ran : retest s n = modLane s n (fun x => { x with role := .test }) := if_pos retired
    obtain ⟨program, registers⟩ := (lncOnly_modLane s n (fun x => { x with role := .test })).same
    rw [← ran] at program registers
    refine ⟨_, out, program, registers, ?_, fun k hk => ?_⟩
    · rw [if_pos retired, laneOf_settle, ran, laneOf_modLane, if_pos rfl]
    · rw [laneOf_settle, ran, laneOf_modLane, if_neg hk]
  · have ran : retest s n = s := if_neg retired
    obtain ⟨program, registers⟩ := (lncOnly_refl s).same
    rw [ran] at out
    refine ⟨_, out, program, registers, ?_, fun k _ => laneOf_settle s k⟩
    rw [if_neg retired, laneOf_settle]

/-! ### Settling the statement -/

/-- Settles O48: the lanes' roles and positions through each step of their service, the attack policy through what it leaves of a
lane without a seat. -/
theorem laneService : Obligations.LaneService := by
  unfold Obligations.LaneService
  intro s c
  refine ⟨fun j h busy spare => laneJoin_joins h busy spare, fun n up test => ⟨fun due req set => selfTest_waits up test due req set,
      fun set join resync spare free => selfTest_joins up test set join resync spare free, selfTest_fails up test⟩,
    rotation_comes, rotation_requested, fun going pass => injection_sweeps going pass,
    fun up n => ⟨oscillator_disabled up n, oscillator_second up n, oscillator_enabled up n⟩, rfl, fun may => ⟨pairing_refused may,
      fun voted pair join a b d o ha hb hd ho => pairing_done may voted pair join ha hb hd ho,
      fun set a d x y ha hd hb resync free => voting_resumes may set ha hd hb resync free, voting_unchanged may, retest_tests may⟩⟩

end Sys2Proof.Machine
end

section
/-! SUPPORT. Remapping of weak rows and the scan of the configuration copies (spec/12 R303 to R309). -/

namespace Sys2Proof.Machine

theorem OnlyRegisters.mono {l k : List Nat} {s t : State} (h : OnlyRegisters l s t) (sub : l ⊆ k) : OnlyRegisters k s t :=
  ⟨h.rest, fun a ha => h.but a fun m => ha (sub m)⟩

/-! ### The copy of a weak row -/

/-- The word at `w` is listed as bad. -/
def listed (u : State) (w : Nat) : State := { u with stl := { u.stl with bad := u.stl.bad ++ [w] } }

/-- The word at `w` is copied: an uncorrectable one stays so and is counted (R304 step 3). -/
def copyWord (t : State) (w : Nat) : State := if 2 ≤ eccAt t w then listed (steleFinding t w true true) w else t

/-- What copying the words `ws` leaves of the registers and of the list of bad words. -/
structure Copied (ws : List Nat) (s t : State) : Prop where
  rest : ∃ m, t = { s with csr := m, stl := { s.stl with bad := s.stl.bad ++ ws.filter (fun w => decide (2 ≤ eccAt s w)) } }
  csr : SameRegistersBut [aStlEcc, aStlEccaddr] s t
  clean : (∀ w ∈ ws, eccAt s w < 2) → SameRegisters s t

theorem onlyRegisters_steleFinding (s : State) (w : Nat) (unc copy : Bool) :
    OnlyRegisters [aStlEcc, aStlEccaddr] s (steleFinding s w unc copy) :=
  (onlyRegisters_bumpR _ _ _ _ _).trans (onlyRegisters_setR _ _ _)

theorem copied_listed {s u : State} {w : Nat} (bad : 2 ≤ eccAt s w) (finds : OnlyRegisters [aStlEcc, aStlEccaddr] s u) :
    Copied [w] s (listed u w) := by
  obtain ⟨m, e⟩ := finds.rest
  have picked : [w].filter (fun w => decide (2 ≤ eccAt s w)) = [w] :=
    List.filter_eq_self.2 fun v hv => decide_eq_true (List.mem_singleton.1 hv ▸ bad)
  refine ⟨⟨m, ?_⟩, finds.but, fun h => absurd (h w List.mem_cons_self) (by omega)⟩
  rw [picked, e]
  rfl

theorem copied_copyWord (s : State) (w : Nat) : Copied [w] s (copyWord s w) := by
  unfold copyWord
  split
  · exact copied_listed ‹_› (onlyRegisters_steleFinding s w true true)
  · rename_i good
    refine ⟨⟨s.csr, ?_⟩, fun _ _ => rfl, fun _ _ => rfl⟩
    have none : [w].filter (fun w => decide (2 ≤ eccAt s w)) = [] :=
      List.filter_eq_nil_iff.2 fun v hv h => good (List.mem_singleton.1 hv ▸ of_decide_eq_true h)
    rw [none, List.append_nil]

theorem copied_row (ws : List Nat) (s : State) : Copied ws s (ws.foldl copyWord s) := by
  induction ws generalizing s with
  | nil => exact ⟨⟨s.csr, by rw [List.filter_nil, List.append_nil]; rfl⟩, fun _ _ => rfl, fun _ _ => rfl⟩
  | cons w r ih =>
    have first := copied_copyWord s w
    have rest := ih (copyWord s w)
    obtain ⟨m, e⟩ := first.rest
    have same : ∀ v, eccAt (copyWord s w) v = eccAt s v := fun v => by rw [e]; rfl
    refine ⟨?_, fun a ha => (rest.csr a ha).trans (first.csr a ha), fun h => ?_⟩
    · obtain ⟨n, e'⟩ := rest.rest
      refine ⟨n, ?_⟩
      rw [List.foldl_cons, e']
      simp only [same]
      rw [e]
      dsimp only
      rw [List.append_assoc, ← List.filter_append]
      rfl
    · have here := first.clean (fun v hv => h v (by rw [List.mem_singleton.1 hv]; exact List.mem_cons_self))
      have there := rest.clean (fun v hv => by rw [same]; exact h v (List.mem_cons_of_mem _ hv))
      exact fun a => (there a).trans (here a)

/-- The words of row `r`. -/
def rowWords (r : Nat) : List Nat := (List.range 32).map (fun i => 0x20000000 + 256 * r + 8 * i)

theorem nextWeak_none {s : State} (h : ∀ q, q < 1024 → bit (getR s (aStlRow + 4 * q)) 31 = false) : nextWeak s = none :=
  List.find?_eq_none.2 fun q hq => by
    rw [h q (List.mem_range.1 hq)]
    decide

theorem nextWeak_some {s : State} {r : Nat} (low : r < 1024) (weak : bit (getR s (aStlRow + 4 * r)) 31 = true)
    (first : ∀ q, q < r → bit (getR s (aStlRow + 4 * q)) 31 = false) : nextWeak s = some r := by
  rw [nextWeak, List.find?_range_eq_some]
  exact ⟨weak, List.mem_range.2 low, fun q hq => by rw [first q hq]; rfl⟩

theorem rowRemap_idle {s : State} (up : s.up = true) (h : bit (getR s aStlStatus) 30 = true ∨ fld (getR s aStlStatus) 0 7 = 0 ∨
    mayCopy s = false ∨ (∀ q, q < 1024 → bit (getR s (aStlRow + 4 * q)) 31 = false)) : exec .rowRemap s = .next (settle s) := by
  have idle : remapCopy s = s := by
    unfold remapCopy
    rcases h with h | h | h | h
    · rw [if_pos (by rw [remapping, h]; rfl)]
    · rw [if_pos (by rw [spareRows, h]; simp)]
    · rw [if_pos (by rw [h]; simp)]
    · rw [nextWeak_none h]
      exact ite_self _
  refine (exec_whenUp (f := remapCopy) up rfl).trans ?_
  rw [idle]

theorem rowRemap_copies {s : State} (up : s.up = true) {r : Nat} (free : bit (getR s aStlStatus) 30 = false)
    (spare : fld (getR s aStlStatus) 0 7 ≠ 0) (turn : mayCopy s = true) (low : r < 1024) (weak : bit (getR s (aStlRow + 4 * r)) 31 = true)
    (first : ∀ q, q < r → bit (getR s (aStlRow + 4 * q)) 31 = false) :
    ∃ t, exec .rowRemap s = .next t ∧ SameProgram s t ∧ SameRegistersBut [aStlStatus, aStlEcc, aStlEccaddr] s t ∧
      getR t aStlStatus = setFld (setBit (getR s aStlStatus) 30 true) 16 10 r ∧
      t.stl.bad = (rowWords r).filter (fun w => decide (2 ≤ eccAt s w)) ∧
      ((∀ w ∈ rowWords r, eccAt s w < 2) → SameRegistersBut [aStlStatus] s t) := by
  generalize hu : setR s aStlStatus (setFld (setBit (getR s aStlStatus) 30 true) 16 10 r) = u
  have noted : OnlyRegisters [aStlStatus] s u := hu ▸ onlyRegisters_setR _ _ _
  have word : getR u aStlStatus = setFld (setBit (getR s aStlStatus) 30 true) 16 10 r := by rw [← hu, getR_setR, if_pos rfl]
  have ran : remapCopy s = (rowWords r).foldl copyWord { u with stl := { u.stl with bad := [] } } := by
    unfold remapCopy
    rw [if_neg (by rw [remapping, spareRows, free, turn, beq_eq_false_iff_ne.2 spare]; decide), nextWeak_some low weak first]
    dsimp only
    rw [hu, rowWords, List.foldl_map]
    rfl
  have copied := copied_row (rowWords r) { u with stl := { u.stl with bad := [] } }
  generalize (rowWords r).foldl copyWord { u with stl := { u.stl with bad := [] } } = t at ran copied
  obtain ⟨m, e⟩ := copied.rest
  obtain ⟨n, e'⟩ := noted.rest
  have same : ∀ w, eccAt { u with stl := { u.stl with bad := [] } } w = eccAt s w := fun w => by rw [e']; rfl
  have out : exec .rowRemap s = .next (settle t) := (exec_whenUp (f := remapCopy) up rfl).trans (by rw [ran])
  refine ⟨_, out, ⟨fun a => (rdB_settle t a).trans ?_, fun w => (seen_settle t w).trans ?_⟩, fun a ha => (getR_settle t a).trans ?_, ?_, ?_,
    fun good a ha => (getR_settle t a).trans ?_⟩
  · rw [e, e']
    rfl
  · rw [e, e']
    cases w <;> rfl
  · simp only [List.mem_cons, List.not_mem_nil, or_false, not_or] at ha
    refine (copied.csr a (by simp only [List.mem_cons, List.not_mem_nil, or_false, not_or]; exact ha.2)).trans (noted.but a ?_)
    rw [List.mem_singleton]
    exact ha.1
  · rw [getR_settle, copied.csr _ (by decide)]
    exact word
  · rw [settle_stl, e]
    simp only [same]
    rfl
  · exact (copied.clean (fun w hw => by rw [same]; exact good w hw) a).trans (noted.but a ha)

/-! ### The commit of a remap -/

/-- The word at `w` holds what the spare does (R304 step 4). -/
def commitWord (bad : List Nat) (t : State) (w : Nat) : State := if bad.contains w then t else setEcc t w 0

theorem commit_row (bad ws : List Nat) (s : State) : let t := ws.foldl (commitWord bad) s
    (∃ e, t = { s with ecc := e }) ∧ ∀ a, eccAt t a = if a ∈ ws ∧ a ∉ bad then 0 else eccAt s a := by
  induction ws generalizing s with
  | nil => exact ⟨⟨s.ecc, rfl⟩, fun a => (if_neg fun h => absurd h.1 List.not_mem_nil).symm⟩
  | cons w r ih =>
    obtain ⟨⟨e, rest⟩, ecc⟩ := ih (commitWord bad s w)
    dsimp only at rest ecc ⊢
    rw [List.foldl_cons]
    have here : (∃ e, commitWord bad s w = { s with ecc := e }) ∧
        ∀ a, eccAt (commitWord bad s w) a = if a = w ∧ a ∉ bad then 0 else eccAt s a := by
      unfold commitWord
      split
      · rename_i mem
        rw [List.contains_iff_mem] at mem
        exact ⟨⟨s.ecc, rfl⟩, fun a => (if_neg (by rintro ⟨rfl, out⟩; exact out mem)).symm⟩
      · rename_i out
        rw [List.contains_iff_mem] at out
        refine ⟨⟨_, rfl⟩, fun a => ?_⟩
        rw [eccAt_setEcc]
        exact if_congr ⟨fun h => ⟨h, h ▸ out⟩, fun h => h.1⟩ rfl rfl
    obtain ⟨⟨e1, first⟩, ecc1⟩ := here
    refine ⟨⟨e, by rw [rest, first]⟩, fun a => ?_⟩
    rw [ecc, ecc1]
    by_cases out : a ∈ bad
    · rw [if_neg (fun h => h.2 out), if_neg (fun h => h.2 out), if_neg (fun h => h.2 out)]
    · by_cases mem : a ∈ r
      · rw [if_pos ⟨mem, out⟩, if_pos ⟨List.mem_cons_of_mem _ mem, out⟩]
      · rw [if_neg (fun h => mem h.1)]
        exact if_congr ⟨fun h => ⟨List.mem_cons.2 (.inl h.1), out⟩, fun h => ⟨(List.mem_cons.1 h.1).resolve_right mem, out⟩⟩ rfl rfl

/-- Registers that the commit of a remap may write besides the row's and STL_STATUS. -/
def commitRegs : List Nat := aStlRowlast :: eventRegs 11 ++ eventRegs 12

theorem remapCommit_commits {s : State} (up : s.up = true) (going : bit (getR s aStlStatus) 30 = true) (turn : mayCopy s = true) :
    let st := getR s aStlStatus
    let r := fld st 16 10
    ∃ t, exec .remapCommit s = .next t ∧ SameProgram s t ∧ getR t (aStlRow + 4 * r) = u32 (2 ^ 30 + (64 - fld st 0 7) % 64 * 2 ^ 24) ∧
      getR t aStlStatus = setFld (setFld (setBit st 30 false) 16 10 0) 0 7 (fld st 0 7 - 1) ∧ getR t aStlRowlast = u32 (2 ^ 31 + r) ∧
      ∀ i, i < 32 → let a := 0x20000000 + 256 * r + 8 * i
        eccAt t a = if a ∈ s.stl.bad then eccAt s a else 0 := by
  intro st r
  have hr : r < 1024 := Nat.mod_lt _ (by decide)
  generalize ha : u32 (2 ^ 30 + (64 - fld st 0 7) % 64 * 2 ^ 24) = rowWord
  generalize hb : setFld (setFld (setBit st 30 false) 16 10 0) 0 7 (fld st 0 7 - 1) = status
  generalize hc : u32 (2 ^ 31 + r) = last
  generalize hu : setR (setR s (aStlRow + 4 * r) rowWord) aStlStatus status = u
  have noted : OnlyRegisters ([aStlRow + 4 * r] ++ [aStlStatus]) s u := hu ▸ (onlyRegisters_setR _ _ _).trans (onlyRegisters_setR _ _ _)
  have words : getR u (aStlRow + 4 * r) = rowWord ∧ getR u aStlStatus = status := by
    rw [← hu, getR_setR, getR_setR, getR_setR, if_neg (by simp only [aStlRow, aStlStatus]; omega), if_pos rfl, if_pos rfl]
    exact ⟨rfl, rfl⟩
  obtain ⟨m, base⟩ := noted.rest
  have bad : u.stl.bad = s.stl.bad := by rw [base]
  obtain ⟨⟨e, clean⟩, ecc⟩ := commit_row u.stl.bad (rowWords r) u
  generalize hv : (rowWords r).foldl (commitWord u.stl.bad) u = v at clean ecc
  have logged := onlyRegisters_setR v aStlRowlast last
  have word : getR (setR v aStlRowlast last) aStlRowlast = last := by rw [getR_setR, if_pos rfl]
  have event := signals_trigger (setR v aStlRowlast last) 11
  generalize hw : trigger (setR v aStlRowlast last) 11 = w at event
  have ran : remapCommit s = if fld st 0 7 - 1 ≤ fld (getR w aStlCfg) 16 6 then trigger w 12 else w := by
    rw [← hw, ← hv, ← hu, ← ha, ← hb, ← hc, rowWords, List.foldl_map]
    unfold remapCommit
    rw [if_pos (by rw [remapping, going, turn]; rfl)]
    rfl
  have also : Signals (eventRegs 12) [12, 7, 27] w (remapCommit s) := by
    rw [ran]
    split
    · exact signals_trigger w 12
    · exact .refl _ _ _
  have out : exec .remapCommit s = .next (settle (remapCommit s)) := exec_whenUp (f := remapCommit) up rfl
  generalize remapCommit s = t at also out
  generalize setR v aStlRowlast last = x at logged word event
  obtain ⟨n, log⟩ := logged.rest
  have kept : ∀ a, a ∉ commitRegs → getR t a = getR v a := fun a h => by
    have h1 : a ∉ [aStlRowlast] := fun m => h (List.mem_append_left _ (List.mem_singleton.1 m ▸ List.mem_cons_self))
    have h2 : a ∉ eventRegs 11 := fun m => h (List.mem_append_left _ (List.mem_cons_of_mem _ m))
    have h3 : a ∉ eventRegs 12 := fun m => h (List.mem_append_right _ m)
    rw [also.csr a h3, event.csr a h2, logged.but a h1]
  have base' : ∀ a, getR v a = getR u a := fun a => getR_congr (by rw [clean]) a
  refine ⟨_, out, ⟨fun a => (rdB_settle t a).trans ?_, fun y => (seen_settle t y).trans ?_⟩, ?_, ?_, ?_, fun i hi => ?_⟩
  · refine (also.sameMemory a).trans ((event.sameMemory a).trans ?_)
    rw [log, clean, base]
    rfl
  · refine (also.seen y).trans ((event.seen y).trans ?_)
    rw [log, clean, base]
    cases y <;> rfl
  · have row : aStlRow + 4 * r ∉ commitRegs := fun h => by
      simp only [commitRegs, eventRegs, aStlRow, aStlRowlast, aMlsSqLost, aEvcScfg, List.cons_append, List.nil_append,
        List.mem_cons, List.not_mem_nil, or_false] at h
      omega
    rw [getR_settle, kept _ row, base', words.1]
  · rw [getR_settle, kept _ (by decide), base', words.2]
  · rw [getR_settle, also.csr _ (by decide), event.csr _ (by decide), word]
  · have same : ∀ a, eccAt t a = eccAt v a := fun a => by
      rw [eccAt, also.ecc, event.ecc, log]
      rfl
    have start : ∀ a, eccAt u a = eccAt s a := fun a => by rw [base]; rfl
    have here : 0x20000000 + 256 * r + 8 * i ∈ rowWords r := List.mem_map.2 ⟨i, List.mem_range.2 hi, rfl⟩
    dsimp only
    rw [eccAt_settle, same, ecc, start, bad]
    by_cases mem : 0x20000000 + 256 * r + 8 * i ∈ s.stl.bad
    · rw [if_neg (fun h => h.2 mem), if_pos mem]
    · rw [if_pos ⟨here, mem⟩, if_neg mem]

/-! ### The scan of the configuration copies -/

theorem onlyRegisters_readRecord (s : State) (a magic lo hi commit : Nat) :
    OnlyRegisters [aStlEcc, aStlEccaddr] s (readRecord s a magic lo hi commit) := by
  have twice : ∀ {u v w : State}, OnlyRegisters [aStlEcc, aStlEccaddr] u v → OnlyRegisters [aStlEcc, aStlEccaddr] v w →
      OnlyRegisters [aStlEcc, aStlEccaddr] u w := fun h g => (h.trans g).mono (by decide)
  unfold readRecord
  dsimp only
  split
  · exact twice (twice (onlyRegisters_readWords _ _ _) (onlyRegisters_readWords _ _ _)) (onlyRegisters_readWords _ _ _)
  · exact onlyRegisters_readWords _ _ _

/-- The checks of a record look at the stele's words and their check bits alone. -/
theorem recordOk_congr {s t : State} (mem : t.mem = s.mem) (ecc : t.ecc = s.ecc) (a magic lo hi commit : Nat) :
    recordOk t a magic lo hi commit = recordOk s a magic lo hi commit := by
  have words : ∀ b n, rdN t b n = rdN s b n := rdN_of_mem (rdB_congr mem)
  have bytes : ∀ n b, bytesAt t b n = bytesAt s b n := fun n => by
    induction n with
    | zero => exact fun _ => rfl
    | succ n ih => exact fun b => by rw [bytesAt, bytesAt, rdB_congr mem, ih]
  unfold recordOk steleClean eccAt
  rw [words, words, ecc]
  dsimp only
  rw [bytes]

theorem cfgValid_congr {s t : State} (mem : t.mem = s.mem) (ecc : t.ecc = s.ecc) (b : Bool) : cfgValid t b = cfgValid s b := by
  have words : ∀ b n, rdN t b n = rdN s b n := rdN_of_mem (rdB_congr mem)
  unfold cfgValid
  rw [words, recordOk_congr mem ecc]

theorem scan_ends {s : State} (up : s.up = true) (going : bit (getR s aCfgCtl) 0 = true) :
    ∃ t, exec .scanDone s = .next t ∧ SameProgram s t ∧
      SameRegistersBut [aCfgCtl, aCfgStatus, aStlEcc, aStlEccaddr] s t ∧ bit (getR t aCfgCtl) 0 = false ∧
      bit (getR t aCfgStatus) 29 = cfgValid s false ∧ bit (getR t aCfgStatus) 30 = cfgValid s true ∧
      bit (getR t aCfgStatus) 27 = (cfgValid s true && (!cfgValid s false || newerSeq (rdN s 0x20003000 4) (rdN s 0x20002000 4))) := by
  have read : OnlyRegisters [aStlEcc, aStlEccaddr] s (readCfg s) :=
    ((onlyRegisters_readRecord s _ _ _ _ _).trans (onlyRegisters_readRecord _ _ _ _ _ _)).mono (by decide)
  obtain ⟨_, e⟩ := read.rest
  have words : ∀ b n, rdN (readCfg s) b n = rdN s b n := rdN_of_mem (rdB_congr (by rw [e]))
  have valid : ∀ b, cfgValid (readCfg s) b = cfgValid s b := cfgValid_congr (by rw [e]) (by rw [e])
  have scanned : scanConfig s = setR (readCfg s) aCfgStatus (setBit (setBit (setBit (getR (readCfg s) aCfgStatus) 30 (cfgValid s true)) 29
      (cfgValid s false)) 27 (chooseB (cfgValid s false) (cfgValid s true) (rdN s 0x20002000 4) (rdN s 0x20003000 4))) := by
    unfold scanConfig recordSeq
    dsimp only
    rw [valid, valid, words, words]
    rfl
  have out : exec .scanDone s = .next (settle (clrR (scanConfig s) aCfgCtl 1)) := by
    refine (exec_whenUp (f := scanDone) up rfl).trans ?_
    rw [scanDone, if_pos going]
  generalize readCfg s = u at read scanned
  have only : OnlyRegisters [aCfgCtl, aCfgStatus, aStlEcc, aStlEccaddr] s (clrR (scanConfig s) aCfgCtl 1) := by
    rw [scanned]
    exact ((read.trans (onlyRegisters_setR _ _ _)).trans (onlyRegisters_clrR _ _ _)).mono (by decide)
  refine ⟨_, out, only.settle_program, only.settle_registers, ?_, ?_⟩
  · rw [getR_settle, getR_clrR, if_pos rfl, bit_and, bit_not _ (by decide)]
    exact Bool.and_false _
  · have place : ∀ i, i < 32 → bit (getR (settle (clrR (scanConfig s) aCfgCtl 1)) aCfgStatus) i = if i = 27 then
        chooseB (cfgValid s false) (cfgValid s true) (rdN s 0x20002000 4) (rdN s 0x20003000 4) else
        if i = 29 then cfgValid s false else if i = 30 then cfgValid s true else bit (getR u aCfgStatus) i := fun i hi => by
      rw [getR_settle, getR_clrR, if_neg (by decide), scanned, getR_setR, if_pos rfl, bit_setBit _ _ hi, bit_setBit _ _ hi, bit_setBit _ _ hi]
    exact ⟨place 29 (by decide), place 30 (by decide), place 27 (by decide)⟩

end Sys2Proof.Machine
end

section
/-! SUPPORT. Trim words and the apply of a calibration record (spec/12 R310 to R312). -/

namespace Sys2Proof.Machine

/-! ### Trim words -/

theorem mkD_split (x : DWord) : mkD (hiW x) (loW x) = x := by
  refine BitVec.eq_of_getLsbD_eq fun i hi => ?_
  simp only [mkD, hiW, loW, BitVec.getLsbD_or, BitVec.getLsbD_shiftLeft, BitVec.getLsbD_setWidth, BitVec.truncate_eq_setWidth,
    BitVec.getLsbD_ushiftRight]
  by_cases low : i < 32
  · simp [low, hi]
  · have : 32 + (i - 32) = i := by omega
    have high : i - 32 < 32 ∧ i - 32 < 64 := by omega
    simp [low, hi, high, this]

/-- The registers of trim word `k`. -/
def trimRegs (k : Nat) : List Nat := [aCalTrimLo + 8 * k, aCalTrimHi + 8 * k]

theorem onlyRegisters_setTrim (s : State) (k : Nat) (w : DWord) : OnlyRegisters (trimRegs k) s (setTrim s k w) :=
  (onlyRegisters_setR _ _ _).trans (onlyRegisters_setR _ _ _)

theorem trimNow_setTrim (s : State) (k j : Nat) (w : DWord) : trimNow (setTrim s k w) j = if k = j then w else trimNow s j := by
  by_cases h : k = j
  · subst h
    rw [if_pos rfl, trimNow, setTrim, getR_setR, if_pos rfl, getR_setR, if_neg (by simp only [aCalTrimLo, aCalTrimHi]; omega), getR_setR,
      if_pos rfl, mkD_split]
  · have apart : ∀ a ∈ trimRegs j, a ∉ trimRegs k := fun a ha hk => by
      simp only [trimRegs, List.mem_cons, List.not_mem_nil, or_false, aCalTrimLo, aCalTrimHi] at ha hk
      omega
    have kept := (onlyRegisters_setTrim s k w).but
    rw [if_neg h, trimNow, trimNow, kept _ (apart _ (List.mem_cons_of_mem _ List.mem_cons_self)), kept _ (apart _ List.mem_cons_self)]

/-- Trim word `k` moves one step towards `to_`. -/
def moveTrim (to_ : Nat → DWord) (t : State) (k : Nat) : State := setTrim t k (stepWord k (trimNow t k) (to_ k))

theorem onlyRegisters_refl (s : State) : OnlyRegisters [] s s := ⟨⟨s.csr, rfl⟩, fun _ _ => rfl⟩

theorem onlyRegisters_foldl {α : Type} {l : List Nat} {f : State → α → State} (h : ∀ t x, OnlyRegisters l t (f t x)) (es : List α)
    (s : State) : OnlyRegisters l s (es.foldl f s) := by
  induction es generalizing s with
  | nil => exact (onlyRegisters_refl s).mono (List.nil_subset _)
  | cons x r ih => exact ((h s x).trans (ih _)).mono (List.append_subset.2 ⟨List.Subset.refl _, List.Subset.refl _⟩)

/-- No register but those of the trim words changes. -/
def allTrimRegs : List Nat := trimIdx.flatMap trimRegs

theorem onlyRegisters_moves (to_ : Nat → DWord) (ks : List Nat) (sub : ks ⊆ trimIdx) (s : State) :
    OnlyRegisters allTrimRegs s (ks.foldl (moveTrim to_) s) := by
  induction ks generalizing s with
  | nil => exact (onlyRegisters_refl s).mono (List.nil_subset _)
  | cons k r ih =>
    have first : OnlyRegisters allTrimRegs s (moveTrim to_ s k) := (onlyRegisters_setTrim s k _).mono fun a ha =>
      List.mem_flatMap.2 ⟨k, sub List.mem_cons_self, ha⟩
    exact (first.trans (ih (List.subset_of_cons_subset sub) _)).mono (List.append_subset.2 ⟨List.Subset.refl _, List.Subset.refl _⟩)

theorem trimNow_moves (to_ : Nat → DWord) (s : State) {k : Nat} (hk : k ∈ trimIdx) :
    trimNow (trimIdx.foldl (moveTrim to_) s) k = stepWord k (trimNow s k) (to_ k) := by
  refine (foldl_view (V := fun t => trimNow t k) (g := fun w => stepWord k w (to_ k)) (j := k) (fun t i _ => ?_) (by decide) s).trans (if_pos hk)
  rw [moveTrim, trimNow_setTrim]
  by_cases h : i = k
  · rw [if_pos h, if_pos h, h]
  · rw [if_neg h, if_neg h]

theorem mem_trimIdx {k : Nat} : k ∈ trimIdx ↔ 1 ≤ k ∧ k ≤ 8 := by
  simp only [trimIdx, List.mem_cons, List.not_mem_nil, or_false]
  omega

/-- The eight trim words, by their index. -/
theorem zip_trimIdx {ws : List DWord} (h : ws.length = 8) : trimIdx.zip ws = trimIdx.map (fun k => (k, ws.getD (k - 1) 0)) := by
  match ws, h with
  | [_, _, _, _, _, _, _, _], _ => rfl

theorem arrived_iff {s : State} {ws : List DWord} (h : ws.length = 8) : ((trimIdx.zip ws).all fun e => trimNow s e.1 == e.2) = true ↔
    ∀ k, 1 ≤ k → k ≤ 8 → trimNow s k = ws.getD (k - 1) 0 := by
  rw [zip_trimIdx h, List.all_map, List.all_eq_true]
  refine ⟨fun all k h1 h8 => beq_iff_eq.1 (all k (mem_trimIdx.2 ⟨h1, h8⟩)), fun all k mem => ?_⟩
  exact beq_iff_eq.2 (all k (mem_trimIdx.1 mem).1 (mem_trimIdx.1 mem).2)

/-! ### The apply -/

/-- State `t` is `s` but for control registers and the record being applied. -/
def Applies (s t : State) : Prop := ∃ m a, t = { s with csr := m, stl := { s.stl with apply := a } }

theorem Applies.trans {s t u : State} (h : Applies s t) (g : Applies t u) : Applies s u := by
  obtain ⟨_, _, rfl⟩ := h
  obtain ⟨_, _, rfl⟩ := g
  exact ⟨_, _, rfl⟩

theorem OnlyRegisters.applies {l : List Nat} {s t : State} (h : OnlyRegisters l s t) : Applies s t := by
  obtain ⟨_, rfl⟩ := h.rest
  exact ⟨_, _, rfl⟩

theorem Applies.program {s t : State} (h : Applies s t) : SameProgram s (settle t) := by
  obtain ⟨_, _, rfl⟩ := h
  exact ⟨fun a => rdB_settle _ a, fun w => (seen_settle _ w).trans (by cases w <;> rfl)⟩

/-- State `s` with no record being applied. -/
def unapplied (s : State) : State := { s with stl := { s.stl with apply := none } }

/-- CAL_STATUS and CAL_SEQ as an apply ends. -/
def appliedEnd (s : State) (src seq : Nat) : State := nameCal (setR (unapplied s) aCalStatus (setBit (getR (unapplied s) aCalStatus) 31 false)) src seq

theorem applyEnd_cases {s : State} {src seq : Nat} {ws : List DWord} (h : s.stl.apply = some (src, seq, ws)) (len : ws.length = 8) :
    ((∀ k, 1 ≤ k → k ≤ 8 → trimNow s k = ws.getD (k - 1) 0) → applyEnd s = appliedEnd s src seq) ∧
    ((∃ k, 1 ≤ k ∧ k ≤ 8 ∧ trimNow s k ≠ ws.getD (k - 1) 0) → applyEnd s = s) := by
  unfold applyEnd
  rw [h]
  refine ⟨fun all => if_pos ((arrived_iff len).2 all), fun ⟨k, h1, h8, ne⟩ => if_neg fun all => ne ((arrived_iff len).1 all k h1 h8)⟩

/-- The registers of a named record. -/
theorem nameCal_names (s : State) (src seq : Nat) : OnlyRegisters [aCalStatus, aCalSeq] s (nameCal s src seq) ∧
    getR (nameCal s src seq) aCalStatus = setFld (getR s aCalStatus) 27 2 src ∧
    getR (nameCal s src seq) aCalSeq = u32 (if src = 0 then 0 else seq) := by
  refine ⟨(onlyRegisters_setR _ _ _).trans (onlyRegisters_setR _ _ _), ?_, ?_⟩
  · rw [nameCal, getR_setR, if_neg (by decide), getR_setR, if_pos rfl]
  · rw [nameCal, getR_setR, if_pos rfl]

theorem appliedEnd_ends (s : State) (src seq : Nat) : let t := appliedEnd s src seq
    Applies s t ∧ t.stl.apply = none ∧ SameRegistersBut [aCalStatus, aCalSeq] s t ∧ bit (getR t aCalStatus) 31 = false ∧
      fld (getR t aCalStatus) 27 2 = src % 4 ∧ getR t aCalSeq = u32 (if src = 0 then 0 else seq) := by
  have cleared := onlyRegisters_setR (unapplied s) aCalStatus (setBit (getR (unapplied s) aCalStatus) 31 false)
  have word : getR (setR (unapplied s) aCalStatus (setBit (getR (unapplied s) aCalStatus) 31 false)) aCalStatus =
      setBit (getR (unapplied s) aCalStatus) 31 false := by rw [getR_setR, if_pos rfl]
  unfold appliedEnd
  generalize setR (unapplied s) aCalStatus _ = u at cleared word
  obtain ⟨named, status, seq_⟩ := nameCal_names u src seq
  generalize nameCal u src seq = t at named status seq_
  have same : ∀ a, getR (unapplied s) a = getR s a := fun a => getR_congr rfl a
  refine ⟨?_, ?_, fun a ha => ?_, ?_, ?_, seq_⟩
  · obtain ⟨_, e⟩ := cleared.rest
    obtain ⟨_, e'⟩ := named.rest
    rw [e', e]
    exact ⟨_, none, rfl⟩
  · obtain ⟨_, e⟩ := cleared.rest
    obtain ⟨_, e'⟩ := named.rest
    rw [e', e]
    rfl
  · rw [named.but a ha, cleared.but a (fun m => ha (by rw [List.mem_singleton.1 m]; decide)), same]
  · rw [status, word, bit_setFld_of_outside _ _ (by decide), bit_setBit_self _ _ (by decide)]
  · rw [status, fld_setFld _ _ (by decide)]
    rfl

theorem trimStep_moves {s : State} (up : s.up = true) {src seq : Nat} {ws : List DWord} (idle : s.stl.restore = none)
    (apply : s.stl.apply = some (src, seq, ws)) (len : ws.length = 8) :
    ∃ t, exec .trimStep s = .next t ∧ SameProgram s t ∧
      (∀ k, 1 ≤ k → k ≤ 8 → trimNow t k = stepWord k (trimNow s k) (ws.getD (k - 1) 0)) ∧
      ((∀ k, 1 ≤ k → k ≤ 8 → trimNow t k = ws.getD (k - 1) 0) → t.stl.apply = none ∧ bit (getR t aCalStatus) 31 = false ∧
        fld (getR t aCalStatus) 27 2 = src % 4 ∧ getR t aCalSeq = if src = 0 then 0 else u32 seq) ∧
      ((∃ k, 1 ≤ k ∧ k ≤ 8 ∧ trimNow t k ≠ ws.getD (k - 1) 0) → t.stl = s.stl ∧ getR t aCalStatus = getR s aCalStatus) := by
  generalize hu : trimIdx.foldl (moveTrim (fun k => ws.getD (k - 1) 0)) s = u
  have only : OnlyRegisters allTrimRegs s u := hu ▸ onlyRegisters_moves _ _ (List.Subset.refl _) s
  have moved : ∀ k, 1 ≤ k → k ≤ 8 → trimNow u k = stepWord k (trimNow s k) (ws.getD (k - 1) 0) := fun k h1 h8 => by
    rw [← hu]
    exact trimNow_moves _ s (mem_trimIdx.2 ⟨h1, h8⟩)
  have ran : exec .trimStep s = .next (settle (applyEnd u)) := by
    refine (exec_whenUp (f := trimStep) up rfl).trans ?_
    unfold trimStep
    rw [idle, apply]
    dsimp only
    rw [zip_trimIdx len, List.foldl_map, ← hu]
    rfl
  obtain ⟨m, e⟩ := only.rest
  obtain ⟨ends, goes⟩ := applyEnd_cases (s := u) (by rw [e]; exact apply) len
  have trims : ∀ t : State, ∀ k, trimNow (settle t) k = trimNow t k := fun t k => by rw [trimNow, getR_settle, getR_settle, trimNow]
  by_cases all : ∀ k, 1 ≤ k → k ≤ 8 → trimNow u k = ws.getD (k - 1) 0
  · rw [ends all] at ran
    obtain ⟨applies, none_, regs, busy, source, number⟩ := appliedEnd_ends u src seq
    generalize appliedEnd u src seq = t at ran applies none_ regs busy source number
    have same : ∀ k, 1 ≤ k → k ≤ 8 → trimNow (settle t) k = trimNow u k := fun k h1 h8 => by
      have out : ∀ a ∈ trimRegs k, a ∉ [aCalStatus, aCalSeq] := fun a ha hm => by
        simp only [trimRegs, List.mem_cons, List.not_mem_nil, or_false, aCalTrimLo, aCalTrimHi, aCalStatus, aCalSeq] at ha hm
        omega
      rw [trims, trimNow, trimNow, regs _ (out _ (List.mem_cons_of_mem _ List.mem_cons_self)), regs _ (out _ List.mem_cons_self)]
    refine ⟨_, ran, (only.applies.trans applies).program, fun k h1 h8 => (same k h1 h8).trans (moved k h1 h8), fun _ => ⟨?_, ?_, ?_, ?_⟩, ?_⟩
    · rw [settle_stl, none_]
    · rw [getR_settle, busy]
    · rw [getR_settle, source]
    · rw [getR_settle, number]
      split <;> rfl
    · rintro ⟨k, h1, h8, ne⟩
      exact absurd ((same k h1 h8).trans (all k h1 h8)) ne
  · have open_ : ∃ k, 1 ≤ k ∧ k ≤ 8 ∧ trimNow u k ≠ ws.getD (k - 1) 0 := by
      by_contra no
      exact all fun k h1 h8 => by_contra fun ne => no ⟨k, h1, h8, ne⟩
    rw [goes open_] at ran
    refine ⟨_, ran, only.settle_program, fun k h1 h8 => (trims u k).trans (moved k h1 h8), fun h => ?_, fun _ => ⟨?_, ?_⟩⟩
    · exact absurd (fun k h1 h8 => (trims u k).symm.trans (h k h1 h8)) all
    · rw [settle_stl, e]
    · rw [getR_settle, only.but _ (by decide)]

end Sys2Proof.Machine
end

section
/-! SUPPORT. Requests of CAL_CTL, the turns of a restore, and the statement on the stele (spec/12 R303 to R314). -/

namespace Sys2Proof.Machine

/-! ### Validity of the records -/

theorem userOk_congr {s t : State} (mem : t.mem = s.mem) (ecc : t.ecc = s.ecc) (lost : t.stl.lost = s.stl.lost) (src : Nat) :
    userOk t src = userOk s src := by
  have words : ∀ a, rd64 t a = rd64 s a := fun a => congrArg (BitVec.ofNat 64) (rdN_of_mem (rdB_congr mem) a 8)
  unfold userOk factoryOk nearFactory
  rw [recordOk_congr mem ecc, recordOk_congr mem ecc, lost]
  simp only [words]

theorem onlyRegisters_twice {l : List Nat} {s t u : State} (h : OnlyRegisters l s t) (g : OnlyRegisters l t u) : OnlyRegisters l s u :=
  (h.trans g).mono (List.append_subset.2 ⟨List.Subset.refl _, List.Subset.refl _⟩)

theorem onlyRegisters_readCal (s : State) (src : Nat) : OnlyRegisters [aStlEcc, aStlEccaddr] s (readCal s src) := onlyRegisters_readRecord _ _ _ _ _ _

/-! ### A record is applied -/

/-- CAL_STATUS as an apply begins. -/
def applying (s : State) : State := setR s aCalStatus (setBit (setBit (getR s aCalStatus) 30 false) 31 true)

theorem applying_word (s : State) : getR (applying s) aCalStatus = setBit (setBit (getR s aCalStatus) 30 false) 31 true := by
  rw [applying, getR_setR, if_pos rfl]

theorem onlyRegisters_applying (s : State) : OnlyRegisters [aCalStatus] s (applying s) := onlyRegisters_setR _ _ _

theorem calWords_length (s : State) (src : Nat) : (calWords s src).length = 8 := rfl

/-- State `s` with the record `src` being applied. -/
def appliedFrom (s : State) (src : Nat) : State := { s with stl := { s.stl with apply := some (src, recordSeq s (calAddr src), calWords s src) } }

theorem calApply_eq (s : State) (src : Nat) : calApply s src =
    applyEnd { applying s with stl := { (applying s).stl with apply := some (src, recordSeq s (calAddr src), calWords s src) } } := rfl

theorem applies_calApply (s : State) (src : Nat) : Applies s (calApply s src) := by
  rw [calApply_eq]
  have first := (onlyRegisters_applying s).applies
  generalize applying s = u at first ⊢
  have named : Applies s { u with stl := { u.stl with apply := some (src, recordSeq s (calAddr src), calWords s src) } } :=
    first.trans ⟨_, _, rfl⟩
  obtain ⟨ends, goes⟩ := applyEnd_cases (s := { u with stl := { u.stl with apply := some (src, recordSeq s (calAddr src), calWords s src) } })
    rfl (calWords_length s src)
  generalize { u with stl := { u.stl with apply := some (src, recordSeq s (calAddr src), calWords s src) } } = v at named ends goes ⊢
  by_cases all : ∀ k, 1 ≤ k → k ≤ 8 → trimNow v k = (calWords s src).getD (k - 1) 0
  · rw [ends all]
    exact named.trans (appliedEnd_ends v src _).1
  · rw [goes (by by_contra no; exact all fun k h1 h8 => by_contra fun ne => no ⟨k, h1, h8, ne⟩)]
    exact named

/-! ### Requests -/

theorem writeReg_store {s : State} {w : Who} {a : Nat} {v : Word} (h : csrUnit a = 8) : writeReg s w a v = writeStore s a v := by
  unfold writeReg touchPower
  rw [h]
  rfl

theorem cal_place : ∀ a ∈ [aCfgCtl, aCalCtl], (regOf a).any (fun x => decide (0 ≤ x.ring)) = true ∧
    csrUnit a = 8 ∧ csrSwitch a = none ∧ a ≠ aSvoCmd ∧ a ≠ aRngGcommit := by decide +kernel

theorem writeAs_store {s : State} {c : BitVec 10} (may : MayAccess s c 0) {a : Nat} (v : Word) (ha : a ∈ [aCfgCtl, aCalCtl]) :
    writeAs s c a v = writeStore s a v := by
  obtain ⟨ring, unit, switch, svo, commit⟩ := cal_place a ha
  obtain ⟨known, low⟩ := (Option.any_eq_true_iff_get _ _).1 ring
  have reg : regOf a = some ((regOf a).get known) := (Option.some_get known).symm
  rw [writeAs_of_mayAccess may (csrDenied_of_ring_le s v reg (may.2.1.trans (of_decide_eq_true low)) svo) switch
    (acked_of_no_stores s c (by rw [unit]; decide)) commit, writeReg_store unit]

theorem scan_requested {s : State} {c : BitVec 10} (may : MayAccess s c 0) : ∃ t, exec (.scanCfg c) s = .next t ∧ SameProgram s t ∧
    SameRegistersBut [aCfgCtl] s t ∧ getR t aCfgCtl = getR s aCfgCtl ||| 1 := by
  have only := onlyRegisters_orR s aCfgCtl 1
  have out : exec (.scanCfg c) s = .next (settle (orR s aCfgCtl 1)) := by
    refine Eq.trans (b := occurs (writeAs s c aCfgCtl 1)) rfl ?_
    rw [writeAs_store may 1 (by decide), writeStore, if_neg (by decide), if_pos rfl, if_pos (by decide)]
    rfl
  refine ⟨_, out, only.settle_program, only.settle_registers, ?_⟩
  rw [getR_settle, getR_orR, if_pos rfl]

theorem writeStore_cal (s : State) (v : Word) : writeStore s aCalCtl v = writeCalCtl s v := by
  rw [writeStore, if_neg (by decide), if_neg (by decide), if_pos rfl]

theorem calErr_sets (s : State) : OnlyRegisters [aCalStatus] s (calErr s) ∧ getR (calErr s) aCalStatus = getR s aCalStatus ||| 0x40000000#32 :=
  ⟨onlyRegisters_orR _ _ _, by rw [calErr, getR_orR, if_pos rfl]⟩

theorem bit_calErr (w : Word) {i : Nat} (h : i < 32) : bit (w ||| 0x40000000#32) i = (bit w i || decide (i = 30)) := by
  rw [bit_or]
  congr 1
  have : ∀ i : Fin 32, bit 0x40000000#32 i.val = decide (i.val = 30) := by decide +kernel
  exact this ⟨i, h⟩

/-- The registers that a calibration request may write. -/
def calRegs : List Nat := [aCalStatus, aStlEcc, aStlEccaddr]

/-- What APPLYA and APPLYB do (R312, R314). -/
theorem applyRequest_cases (s : State) (src : Nat) : let t := applyRequest s src
    (bit (getR s aCalStatus) 31 = true → t = calErr s) ∧
    (bit (getR s aCalStatus) 31 = false → ∃ u, OnlyRegisters calRegs s u ∧
      getR u aCalStatus = setBit (getR s aCalStatus) (if src = 1 then 26 else 25) (userOk s src) ∧
      (userOk s src = false → t = calErr u) ∧ (userOk s src = true → t = calApply u src)) := by
  have busy : calBusy s = bit (getR s aCalStatus) 31 := rfl
  refine ⟨fun h => if_pos (busy.trans h), fun h => ?_⟩
  have ran : applyRequest s src = if userOk s src then calApply (noteOne (readCal (readCal s 0) src) src) src
      else calErr (noteOne (readCal (readCal s 0) src) src) := if_neg (by rw [busy, h]; decide)
  have read := onlyRegisters_twice (onlyRegisters_readCal s 0) (onlyRegisters_readCal (readCal s 0) src)
  generalize readCal (readCal s 0) src = u at ran read
  have status : getR u aCalStatus = getR s aCalStatus := read.but _ (by decide)
  obtain ⟨_, e⟩ := read.rest
  have ok : userOk u src = userOk s src := userOk_congr (by rw [e]) (by rw [e]) (by rw [e]) src
  have noted : OnlyRegisters [aCalStatus] u (noteOne u src) := onlyRegisters_setR _ _ _
  have word : getR (noteOne u src) aCalStatus = setBit (getR s aCalStatus) (if src = 1 then 26 else 25) (userOk s src) := by
    rw [noteOne, getR_setR, if_pos rfl, status, ok]
  refine ⟨noteOne u src, (read.trans noted).mono (by decide), word, fun no => ?_, fun yes => ?_⟩
  · rw [ran, no]
    rfl
  · rw [ran, yes]
    rfl

theorem writeCalCtl_requests (s : State) : writeCalCtl s 1 = applyRequest s 1 ∧ writeCalCtl s 2 = applyRequest s 2 ∧
    writeCalCtl s 4 = restoreRequest s := by
  by_cases busy : calBusy s = true
  · have refused : ∀ v, writeCalCtl s v = calErr s := fun v => if_pos busy
    exact ⟨(refused 1).trans (if_pos busy).symm, (refused 2).trans (if_pos busy).symm, (refused 4).trans (if_pos busy).symm⟩
  · exact ⟨if_neg busy, if_neg busy, if_neg busy⟩

theorem applyCal_runs {s : State} {c : BitVec 10} (may : MayAccess s c 0) (b : Bool) :
    exec (.applyCal c b) s = .next (settle (applyRequest s (if b then 2 else 1))) := by
  refine Eq.trans (b := occurs (writeAs s c aCalCtl (if b then 2 else 1))) rfl ?_
  rw [writeAs_store may _ (by decide), writeStore_cal]
  cases b
  · exact congrArg occurs (writeCalCtl_requests s).1
  · exact congrArg occurs (writeCalCtl_requests s).2.1

/-- A request that is refused sets ERR (R314). -/
theorem refused_request {s u : State} (only : OnlyRegisters calRegs s u) (busy : bit (getR u aCalStatus) 31 = bit (getR s aCalStatus) 31) :
    let t := settle (calErr u)
    SameProgram s t ∧ SameRegistersBut calRegs s t ∧ t.stl = s.stl ∧ bit (getR t aCalStatus) 30 = true ∧
      bit (getR t aCalStatus) 31 = bit (getR s aCalStatus) 31 := by
  obtain ⟨err, word⟩ := calErr_sets u
  have all := (only.trans err).mono (k := calRegs) (by decide)
  generalize calErr u = t at err word all
  obtain ⟨_, e⟩ := all.rest
  refine ⟨all.settle_program, all.settle_registers, by rw [settle_stl, e], ?_, ?_⟩
  · rw [getR_settle, word, bit_calErr _ (by decide)]
    exact Bool.or_true _
  · rw [getR_settle, word, bit_calErr _ (by decide), busy]
    exact Bool.or_false _

theorem applyCal_busy {s : State} {c : BitVec 10} (may : MayAccess s c 0) (b : Bool) (busy : bit (getR s aCalStatus) 31 = true) :
    ∃ t, exec (.applyCal c b) s = .next t ∧ SameProgram s t ∧ SameRegistersBut calRegs s t ∧ t.stl = s.stl ∧
      bit (getR t aCalStatus) 30 = true ∧ bit (getR t aCalStatus) 31 = bit (getR s aCalStatus) 31 := by
  have ran := applyCal_runs may b
  rw [(applyRequest_cases s _).1 busy] at ran
  exact ⟨_, ran, refused_request ((onlyRegisters_refl s).mono (List.nil_subset _)) rfl⟩

theorem applyCal_invalid {s : State} {c : BitVec 10} (may : MayAccess s c 0) (b : Bool) (free : bit (getR s aCalStatus) 31 = false)
    (bad : userOk s (if b then 2 else 1) = false) :
    ∃ t, exec (.applyCal c b) s = .next t ∧ (SameProgram s t ∧ SameRegistersBut calRegs s t ∧ t.stl = s.stl ∧
      bit (getR t aCalStatus) 30 = true ∧ bit (getR t aCalStatus) 31 = bit (getR s aCalStatus) 31) ∧
      bit (getR t aCalStatus) (if b then 25 else 26) = false ∧
      bit (getR t aCalStatus) (if b then 26 else 25) = bit (getR s aCalStatus) (if b then 26 else 25) := by
  have ran := applyCal_runs may b
  obtain ⟨u, only, status, no, -⟩ := (applyRequest_cases s (if b then 2 else 1)).2 free
  rw [no bad] at ran
  rw [bad] at status
  have place : ∀ i, i < 32 → bit (getR u aCalStatus) i = if i = (if b then 25 else 26) then false else bit (getR s aCalStatus) i := fun i hi => by
    rw [status, bit_setBit _ _ hi]
    cases b <;> rfl
  have word : ∀ i, i < 32 → bit (getR (settle (calErr u)) aCalStatus) i = (bit (getR u aCalStatus) i || decide (i = 30)) := fun i hi => by
    rw [getR_settle, (calErr_sets u).2, bit_calErr _ hi]
  refine ⟨_, ran, refused_request only ?_, ?_, ?_⟩
  · rw [place 31 (by decide), if_neg (by cases b <;> decide)]
  · rw [word _ (by cases b <;> decide), place _ (by cases b <;> decide), if_pos rfl]
    cases b <;> rfl
  · rw [word _ (by cases b <;> decide), place _ (by cases b <;> decide), if_neg (by cases b <;> decide)]
    rw [decide_eq_false (by cases b <;> decide), Bool.or_false]

theorem applyCal_begins {s : State} {c : BitVec 10} (may : MayAccess s c 0) (b : Bool) (free : bit (getR s aCalStatus) 31 = false)
    (good : userOk s (if b then 2 else 1) = true)
    (away : ∃ k, 1 ≤ k ∧ k ≤ 8 ∧ trimNow s k ≠ (calWords s (if b then 2 else 1)).getD (k - 1) 0) : let src := if b then 2 else 1
    ∃ t, exec (.applyCal c b) s = .next t ∧ SameProgram s t ∧ SameRegistersBut calRegs s t ∧
      t.stl.apply = some (src, recordSeq s (calAddr src), calWords s src) ∧ bit (getR t aCalStatus) 30 = false ∧
      bit (getR t aCalStatus) 31 = true := by
  have ran := applyCal_runs may b
  obtain ⟨u, only, -, -, yes⟩ := (applyRequest_cases s (if b then 2 else 1)).2 free
  rw [yes good, calApply_eq] at ran
  generalize (if b then 2 else 1) = src at ran good away ⊢
  obtain ⟨_, e⟩ := only.rest
  have words : ∀ a n, rdN u a n = rdN s a n := rdN_of_mem (rdB_congr (by rw [e]))
  have same : recordSeq u (calAddr src) = recordSeq s (calAddr src) ∧ calWords u src = calWords s src :=
    ⟨words _ _, List.map_congr_left fun k _ => by rw [rd64, words, rd64]⟩
  rw [same.1, same.2] at ran
  have all := (only.trans (onlyRegisters_applying u)).mono (k := calRegs) (by decide)
  have word := applying_word u
  generalize applying u = v at ran all word
  obtain ⟨_, e'⟩ := all.rest
  have trims : ∀ k, 1 ≤ k → k ≤ 8 → trimNow v k = trimNow s k := fun k h1 h8 => by
    have out : ∀ a ∈ trimRegs k, a ∉ calRegs := fun a ha hm => by
      simp only [trimRegs, calRegs, List.mem_cons, List.not_mem_nil, or_false, aCalTrimLo, aCalTrimHi, aCalStatus, aStlEcc, aStlEccaddr] at ha hm
      omega
    rw [trimNow, trimNow, all.but _ (out _ (List.mem_cons_of_mem _ List.mem_cons_self)), all.but _ (out _ List.mem_cons_self)]
  have goes := (applyEnd_cases (s := { v with stl := { v.stl with apply := some (src, recordSeq s (calAddr src), calWords s src) } })
    rfl (calWords_length s src)).2
  rw [goes (by
    obtain ⟨k, h1, h8, ne⟩ := away
    exact ⟨k, h1, h8, fun h => ne ((trims k h1 h8).symm.trans h)⟩)] at ran
  refine ⟨_, ran, ?_, fun a ha => (getR_settle _ a).trans (all.but a ha), ?_, ?_, ?_⟩
  · exact (all.applies.trans ⟨v.csr, _, rfl⟩).program
  · rw [settle_stl]
  · rw [getR_settle]
    refine (congrArg (bit · 30) word).trans ?_
    rw [bit_setBit _ _ (by decide), if_neg (by decide), bit_setBit_self _ _ (by decide)]
  · rw [getR_settle]
    refine (congrArg (bit · 31) word).trans ?_
    rw [bit_setBit_self _ _ (by decide)]

end Sys2Proof.Machine
end

section
/-! SUPPORT. The restore of a user record, and the settlement of O51 (spec/12 R299, R313). -/

namespace Sys2Proof.Machine

/-! ### The request -/

/-- What a restore writes depends on the stele's words, the copies found invalid, and SRC alone. -/
theorem restore_congr {l : List Nat} {s t : State} (h : OnlyRegisters l s t) (status : getR t aCalStatus = getR s aCalStatus) :
    restoreTarget t = restoreTarget s ∧ restoreWrites t = restoreWrites s := by
  obtain ⟨_, e⟩ := h.rest
  have words : ∀ a n, rdN t a n = rdN s a n := rdN_of_mem (rdB_congr (by rw [e]))
  have ok : ∀ src, userOk t src = userOk s src := userOk_congr (by rw [e]) (by rw [e]) (by rw [e])
  have target : restoreTarget t = restoreTarget s := by
    unfold restoreTarget recordSeq
    rw [status, ok, ok, words, words]
  have seq : restoreSeq t = restoreSeq s := by
    unfold restoreSeq recordSeq
    rw [ok, ok, words, words]
    dsimp only
    rw [words]
  refine ⟨target, ?_⟩
  unfold restoreWrites rd64
  rw [target, seq]
  simp only [words]

theorem factoryOk_congr {l : List Nat} {s t : State} (h : OnlyRegisters l s t) : factoryOk t = factoryOk s := by
  obtain ⟨_, e⟩ := h.rest
  exact recordOk_congr (by rw [e]) (by rw [e]) _ _ _ _ _

/-- State `u` with a restore to write. -/
def restoring (s u : State) : State := { u with stl := { u.stl with restore := some (restoreTarget s, restoreWrites s) } }

theorem restoreRequest_cases (s : State) : ∃ u, OnlyRegisters [aStlEcc, aStlEccaddr] s u ∧
    (bit (getR s aCalStatus) 31 = true → restoreRequest s = calErr s) ∧
    (bit (getR s aCalStatus) 31 = false → factoryOk s = false → restoreRequest s = calErr u) ∧
    (bit (getR s aCalStatus) 31 = false → factoryOk s = true → restoreRequest s = restoring s (applying u)) := by
  have read := onlyRegisters_twice (onlyRegisters_twice (onlyRegisters_readCal s 0) (onlyRegisters_readCal _ 1)) (onlyRegisters_readCal _ 2)
  have ran : restoreRequest s = if calBusy s then calErr s else if !factoryOk (readCal (readCal (readCal s 0) 1) 2) then
      calErr (readCal (readCal (readCal s 0) 1) 2) else
      restoring (readCal (readCal (readCal s 0) 1) 2) (applying (readCal (readCal (readCal s 0) 1) 2)) := rfl
  have busy : calBusy s = bit (getR s aCalStatus) 31 := rfl
  generalize readCal (readCal (readCal s 0) 1) 2 = u at read ran
  obtain ⟨target, writes⟩ := restore_congr read (read.but _ (by decide))
  rw [factoryOk_congr read, restoring, target, writes, busy] at ran
  refine ⟨u, read, fun h => ran.trans (if_pos h), fun h no => ?_, fun h yes => ?_⟩
  · rw [ran, h, no]
    rfl
  · rw [ran, h, yes]
    rfl

theorem restoreCal_runs {s : State} {c : BitVec 10} (may : MayAccess s c 0) (tries : Vector (Fin 6) 11) :
    exec (.restoreCal c tries) s = occurs (if s.stl.restore.isNone && (restoreRequest s).stl.restore.isSome then
      { restoreRequest s with stl := { (restoreRequest s).stl with tries := tries.toList.map (·.val) } } else restoreRequest s) := by
  have same : writeAs s c aCalCtl 4 = restoreRequest s := by
    rw [writeAs_store may _ (by decide), writeStore_cal, (writeCalCtl_requests s).2.2]
  rw [← same]
  rfl

theorem restore_refused {s : State} {c : BitVec 10} (may : MayAccess s c 0)
    (no : bit (getR s aCalStatus) 31 = true ∨ factoryOk s = false) (tries : Vector (Fin 6) 11) :
    ∃ t, exec (.restoreCal c tries) s = .next t ∧ (SameProgram s t ∧ SameRegistersBut calRegs s t) ∧ t.stl = s.stl ∧
      getR t aCalStatus = getR s aCalStatus ||| 0x40000000 := by
  obtain ⟨u, read, busy, bad, -⟩ := restoreRequest_cases s
  have refused : ∃ v, OnlyRegisters [aStlEcc, aStlEccaddr] s v ∧ restoreRequest s = calErr v := by
    by_cases h : bit (getR s aCalStatus) 31 = true
    · exact ⟨s, (onlyRegisters_refl s).mono (List.nil_subset _), busy h⟩
    · rw [Bool.not_eq_true] at h
      exact ⟨u, read, bad h (no.resolve_left (by rw [h]; decide))⟩
  obtain ⟨v, only, ran⟩ := refused
  obtain ⟨err, word⟩ := calErr_sets v
  have all := (only.trans err).mono (k := calRegs) (by decide)
  rw [only.but _ (by decide)] at word
  have out := restoreCal_runs may tries
  rw [ran] at out
  generalize calErr v = t at all word out
  obtain ⟨_, e⟩ := all.rest
  have stl : t.stl = s.stl := by rw [e]
  rw [stl, if_neg (by rw [Bool.and_eq_true, Option.isNone_iff_eq_none, Option.isSome_iff_ne_none]; exact fun h => h.2 h.1)] at out
  exact ⟨_, out, ⟨all.settle_program, all.settle_registers⟩, by rw [settle_stl, stl], by rw [getR_settle, word]; rfl⟩

theorem restore_begins {s : State} {c : BitVec 10} (may : MayAccess s c 0) (free : bit (getR s aCalStatus) 31 = false)
    (good : factoryOk s = true) (tries : Vector (Fin 6) 11) :
    ∃ t, exec (.restoreCal c tries) s = .next t ∧ (SameProgram s t ∧ SameRegistersBut calRegs s t) ∧
      bit (getR t aCalStatus) 31 = true ∧ bit (getR t aCalStatus) 30 = false ∧ t.stl.restore = some (restoreTarget s, restoreWrites s) ∧
      (s.stl.restore = none → t.stl = { s.stl with
        restore := some (restoreTarget s, restoreWrites s), tries := tries.toList.map (·.val) }) := by
  obtain ⟨u, read, -, -, ran⟩ := restoreRequest_cases s
  have out := restoreCal_runs may tries
  rw [ran free good] at out
  have all := (read.trans (onlyRegisters_applying u)).mono (k := calRegs) (by decide)
  have word := applying_word u
  generalize applying u = v at out all word
  obtain ⟨m, e⟩ := all.rest
  have bits : bit (getR v aCalStatus) 31 = true ∧ bit (getR v aCalStatus) 30 = false := by
    rw [word, bit_setBit_self _ _ (by decide), bit_setBit _ _ (by decide), if_neg (by decide), bit_setBit_self _ _ (by decide)]
    exact ⟨rfl, rfl⟩
  have ends : ∀ x : Stl, ∃ t, occurs { v with stl := x } = .next t ∧ (SameProgram s t ∧ SameRegistersBut calRegs s t) ∧
      bit (getR t aCalStatus) 31 = true ∧ bit (getR t aCalStatus) 30 = false ∧ t.stl = x := fun x => by
    refine ⟨_, rfl, ⟨⟨fun a => (rdB_settle _ a).trans ?_, fun w => (seen_settle _ w).trans ?_⟩, fun a ha => (getR_settle _ a).trans (all.but a ha)⟩, ?_, ?_, settle_stl _⟩
    · rw [e]
      rfl
    · rw [e]
      cases w <;> rfl
    · rw [getR_settle]
      exact bits.1
    · rw [getR_settle]
      exact bits.2
  cases idle : s.stl.restore with
  | none =>
    obtain ⟨t, ran', frame, b31, b30, stl⟩ := ends { s.stl with restore := some (restoreTarget s, restoreWrites s), tries := tries.toList.map (·.val) }
    refine ⟨t, ?_, frame, b31, b30, by rw [stl], fun _ => stl⟩
    rw [out, idle, ← ran', e]
    rfl
  | some q =>
    obtain ⟨t, ran', frame, b31, b30, stl⟩ := ends { s.stl with restore := some (restoreTarget s, restoreWrites s) }
    refine ⟨t, ?_, frame, b31, b30, by rw [stl], fun h => by cases h⟩
    rw [out, idle, ← ran', e]
    rfl

/-- The words of a restore (R313 step 2). -/
theorem restoreWrites_words (s : State) : let a := calAddr (restoreTarget s)
    let ws := restoreWrites s
    ws.length = 11 ∧ ws[0]? = some (a, 0) ∧ ws[9]? = some (a, 0xCA1B * 2 ^ 48 + 8 * 2 ^ 32 + restoreSeq s) ∧
      (∀ k, 1 ≤ k → k ≤ 8 → ws[k]? = some (a + 8 * k, (rd64 s (0x20001000 + 8 * k)).toNat)) ∧
      ∃ crc, crc < 2 ^ 32 ∧ ws[10]? = some (a + 0x7F8, restoreSeq s * 2 ^ 32 + crc) := by
  unfold restoreWrites
  generalize restoreSeq s = q
  generalize restoreTarget s = r
  dsimp only
  generalize calAddr r = a
  generalize hc : crc32 _ = crc
  refine ⟨rfl, rfl, rfl, fun k h1 h8 => ?_, _, crc.isLt, rfl⟩
  have each : ∀ j : Fin 8, ((a, 0) :: ((trimIdx.map (fun k => a + 8 * k)).zip (trimIdx.map (fun k => (rd64 s (calAddr 0 + 8 * k)).toNat)) ++
      [(a, 0xCA1B * 2 ^ 48 + 8 * 2 ^ 32 + q), (a + 0x7F8, q * 2 ^ 32 + crc.toNat)]))[j.val + 1]? =
      some (a + 8 * (j.val + 1), (rd64 s (0x20001000 + 8 * (j.val + 1))).toNat) := fun j => by
    match j with
    | 0 | 1 | 2 | 3 | 4 | 5 | 6 | 7 => rfl
  obtain ⟨j, rfl⟩ : ∃ j, k = j + 1 := ⟨k - 1, by omega⟩
  exact each ⟨j, by omega⟩

/-! ### The turns -/

/-- Of the stele's own state a word write ends what an earlier failure or copy had said of the word. -/
theorem stl_steleWord (s : State) (w v k : Nat) : (steleWord s w v k).1.stl = (rewritten s w).stl := by
  obtain ⟨⟨m, e, c, d, rest⟩, -⟩ := wordWritten_steleWord s w v k
  rw [rest]
  unfold rewritten
  rw [(signals_slowWrite s w k).stl]

/-- The state in which the restore's next word is written. -/
def restoreDrawn (s : State) : State := { s with draws := s.draws + 1, stl := { s.stl with tries := s.stl.tries.tail } }

/-- What a turn of the restore leaves. -/
structure Turned (s t : State) (w : Nat) : Prop where
  contexts : SameContexts s t
  bytes : ∀ b, b < w ∨ w + 8 ≤ b → rdB t b = rdB s b

theorem Turned.settle {s t : State} {w : Nat} (h : Turned s t w) : SameContexts s (settle t) ∧ ∀ b, b < w ∨ w + 8 ≤ b → rdB (settle t) b = rdB s b :=
  ⟨fun x => (seen_settle t x).trans (h.contexts x), fun b hb => (rdB_settle t b).trans (h.bytes b hb)⟩

theorem turned_word (s : State) (w v k : Nat) : Turned s (steleWord (restoreDrawn s) w v k).1 w := by
  have write := inscribes_steleWord (restoreDrawn s) w v k
  exact ⟨fun x => (write.contexts x).trans (by cases x <;> rfl), fun b hb => write.bytes b fun u hu => by rwa [List.mem_singleton.1 hu]⟩

theorem turned_applies {s t u : State} {w : Nat} (h : Turned s t w) (g : Applies t u) : Turned s u w := by
  obtain ⟨_, _, rfl⟩ := g
  exact ⟨fun x => (by cases x <;> rfl : Machine.seen (getC _ x) = Machine.seen (getC t x)).trans (h.contexts x), h.bytes⟩

theorem turned_stl {s t : State} {w : Nat} (h : Turned s t w) (x : Stl) : Turned s { t with stl := x } w :=
  ⟨fun y => (by cases y <;> rfl : Machine.seen (getC _ y) = Machine.seen (getC t y)).trans (h.contexts y), h.bytes⟩

theorem trimStep_turn {s : State} (up : s.up = true) {src w v : Nat} {r : List (Nat × Nat)} (going : s.stl.restore = some (src, (w, v) :: r)) :
    exec .trimStep s = .next (settle (restoreTurn s src w v r)) := by
  refine (exec_whenUp (f := trimStep) up rfl).trans ?_
  unfold trimStep
  rw [going]

theorem restoreTurn_eq {s : State} (turn : mayRestore s = true) (src w v : Nat) (r : List (Nat × Nat)) : restoreTurn s src w v r =
    if restoreTries s ≤ 4 then (if r.isEmpty then restoreEnd (steleWord (restoreDrawn s) w v (restoreTries s)).1 src else
      { (steleWord (restoreDrawn s) w v (restoreTries s)).1 with
        stl := { (steleWord (restoreDrawn s) w v (restoreTries s)).1.stl with restore := some (src, r) } })
    else restoreStop (steleWord (restoreDrawn s) w v (restoreTries s)).1 src := by
  have ok := steleWord_ok (restoreDrawn s) w v (restoreTries s)
  unfold restoreTurn
  rw [if_pos turn]
  dsimp only
  rw [restoreDrawn] at ok
  rw [ok]
  by_cases few : restoreTries s ≤ 4
  · rw [if_pos few, decide_eq_true few]
    rfl
  · rw [if_neg few, decide_eq_false few]
    rfl

theorem restore_waits {s : State} (up : s.up = true) {src w v : Nat} {r : List (Nat × Nat)} (going : s.stl.restore = some (src, (w, v) :: r))
    (no : mayRestore s = false) : exec .trimStep s = .next (settle s) := by
  rw [trimStep_turn up going, restoreTurn, if_neg (by rw [no]; decide)]

theorem restore_continues {s : State} (up : s.up = true) {src w v : Nat} {r : List (Nat × Nat)} (going : s.stl.restore = some (src, (w, v) :: r))
    (turn : mayRestore s = true) (few : restoreTries s ≤ 4) (more : r ≠ []) :
    ∃ t, exec .trimStep s = .next t ∧ (SameContexts s t ∧ ∀ b, b < w ∨ w + 8 ≤ b → rdB t b = rdB s b) ∧
      rdN t w 8 = v % 2 ^ 64 ∧ t.stl.restore = some (src, r) ∧ (restoreTries s = 0 → SameRegisters s t) := by
  have ran := trimStep_turn up going
  rw [restoreTurn_eq turn, if_pos few, if_neg (by rwa [List.isEmpty_iff])] at ran
  have written := turned_word s w v (restoreTries s)
  have reads := rdN_steleWord (restoreDrawn s) w v few
  have quiet : restoreTries s = 0 → SameRegisters s (steleWord (restoreDrawn s) w v (restoreTries s)).1 := fun h => by
    rw [h]
    exact fun a => (steleWord_registers w v a).trans (getR_congr rfl a)
  generalize (steleWord (restoreDrawn s) w v (restoreTries s)).1 = u at ran written reads quiet
  refine ⟨_, ran, (turned_stl written _).settle, ?_, ?_, fun h a => (getR_settle _ a).trans (quiet h a)⟩
  · exact (rdN_of_mem (fun b => rdB_settle _ b) w 8).trans reads
  · rw [settle_stl]

/-- State `s` without a restore to write. -/
def unrestoring (s : State) : State := { s with stl := { s.stl with restore := none, tries := [] } }

/-- The record as it stands has been checked (R313). -/
def recheck (s : State) (src : Nat) : State := noteOne (readCal (readCal s 0) src) src

theorem onlyRegisters_recheck (s : State) (src : Nat) : OnlyRegisters calRegs s (recheck s src) :=
  ((onlyRegisters_twice (onlyRegisters_readCal s 0) (onlyRegisters_readCal _ src)).trans (onlyRegisters_setR _ aCalStatus _)).mono (by decide)

theorem restoreEnd_eq (s : State) (src : Nat) : restoreEnd s src = if userOk (recheck (unrestoring s) src) src then
      calApply (recheck (unrestoring s) src) src else
      calErr (setR (recheck (unrestoring s) src) aCalStatus (setBit (getR (recheck (unrestoring s) src) aCalStatus) 31 false)) := rfl

theorem userOk_applies {s t : State} (h : Applies s t) (src : Nat) : userOk (settle t) src = userOk s src := by
  obtain ⟨_, _, e⟩ := h
  have mem : (settle t).mem = s.mem := (settle_mem t).trans (by rw [e])
  have ecc : (settle t).ecc = s.ecc := (settle_ecc t).trans (by rw [e])
  have lost : (settle t).stl.lost = s.stl.lost := by rw [settle_stl, e]
  exact userOk_congr mem ecc lost src

theorem restoreEnd_ends (s : State) (src : Nat) : Applies (unrestoring s) (restoreEnd s src) ∧ (userOk (settle (restoreEnd s src)) src = false →
    bit (getR (restoreEnd s src) aCalStatus) 30 = true ∧ bit (getR (restoreEnd s src) aCalStatus) 31 = false) := by
  rw [restoreEnd_eq]
  have noted := onlyRegisters_recheck (unrestoring s) src
  generalize recheck (unrestoring s) src = y at noted ⊢
  by_cases ok : userOk y src = true
  · rw [if_pos ok]
    have applied := applies_calApply y src
    refine ⟨noted.applies.trans applied, fun bad => ?_⟩
    rw [userOk_applies applied, ok] at bad
    cases bad
  · rw [if_neg ok]
    have cleared := onlyRegisters_setR y aCalStatus (setBit (getR y aCalStatus) 31 false)
    have word : getR (setR y aCalStatus (setBit (getR y aCalStatus) 31 false)) aCalStatus = setBit (getR y aCalStatus) 31 false := by
      rw [getR_setR, if_pos rfl]
    generalize setR y aCalStatus _ = q at cleared word ⊢
    obtain ⟨err, stat⟩ := calErr_sets q
    rw [word] at stat
    refine ⟨(noted.applies.trans cleared.applies).trans err.applies, fun _ => ?_⟩
    rw [stat, bit_calErr _ (by decide), bit_calErr _ (by decide), bit_setBit_self _ _ (by decide)]
    exact ⟨Bool.or_true _, rfl⟩

theorem restore_ends {s : State} (up : s.up = true) {src w v : Nat} {r : List (Nat × Nat)} (going : s.stl.restore = some (src, (w, v) :: r))
    (turn : mayRestore s = true) (few : restoreTries s ≤ 4) (last : r = []) :
    ∃ t, exec .trimStep s = .next t ∧ (SameContexts s t ∧ ∀ b, b < w ∨ w + 8 ≤ b → rdB t b = rdB s b) ∧
      rdN t w 8 = v % 2 ^ 64 ∧ t.stl.restore = none ∧
      (userOk t src = false → bit (getR t aCalStatus) 30 = true ∧ bit (getR t aCalStatus) 31 = false) := by
  have ran := trimStep_turn up going
  rw [restoreTurn_eq turn, if_pos few, if_pos (by rw [last]; rfl)] at ran
  have written := turned_word s w v (restoreTries s)
  have reads := rdN_steleWord (restoreDrawn s) w v few
  generalize (steleWord (restoreDrawn s) w v (restoreTries s)).1 = u at ran written reads
  obtain ⟨applies, invalid⟩ := restoreEnd_ends u src
  generalize restoreEnd u src = t at applies invalid ran
  have idle : t.stl.restore = none := by
    obtain ⟨_, _, rfl⟩ := applies
    rfl
  have mem : t.mem = u.mem := by
    obtain ⟨_, _, rfl⟩ := applies
    rfl
  refine ⟨_, ran, (turned_applies (turned_stl written _) applies).settle, ?_, ?_, fun bad => ?_⟩
  · exact (rdN_of_mem (fun b => (rdB_settle t b).trans (rdB_congr mem b)) w 8).trans reads
  · rw [settle_stl, idle]
  · rw [getR_settle]
    exact invalid bad

theorem restore_stops {s : State} (up : s.up = true) {src w v : Nat} {r : List (Nat × Nat)} (going : s.stl.restore = some (src, (w, v) :: r))
    (turn : mayRestore s = true) (many : 4 < restoreTries s) :
    ∃ t, exec .trimStep s = .next t ∧ (SameContexts s t ∧ ∀ b, b < w ∨ w + 8 ≤ b → rdB t b = rdB s b) ∧ t.stl.restore = none ∧
      t.stl.apply = s.stl.apply ∧ src ∈ t.stl.lost ∧ bit (getR t aCalStatus) 30 = true ∧ bit (getR t aCalStatus) 31 = false := by
  have ran := trimStep_turn up going
  rw [restoreTurn_eq turn, if_neg (by omega)] at ran
  have written := turned_word s w v (restoreTries s)
  have stl : (steleWord (restoreDrawn s) w v (restoreTries s)).1.stl.apply = s.stl.apply := by
    rw [stl_steleWord]
    rfl
  generalize (steleWord (restoreDrawn s) w v (restoreTries s)).1 = u at ran written stl
  generalize hx : ({ u with stl := { u.stl with restore := none, tries := [], lost := src :: u.stl.lost } } : State) = x
  have start : Turned s x w := hx ▸ turned_stl written _
  have fields : x.stl.restore = none ∧ x.stl.apply = s.stl.apply ∧ src ∈ x.stl.lost := by
    rw [← hx]
    exact ⟨rfl, stl, List.mem_cons_self⟩
  have unfolded : restoreStop u src = calErr (setR x aCalStatus
      (setBit (setBit (getR x aCalStatus) 31 false) (if src = 1 then 26 else 25) false)) := by
    rw [← hx]
    rfl
  rw [unfolded] at ran
  have cleared := onlyRegisters_setR x aCalStatus (setBit (setBit (getR x aCalStatus) 31 false) (if src = 1 then 26 else 25) false)
  have word : bit (getR (setR x aCalStatus (setBit (setBit (getR x aCalStatus) 31 false) (if src = 1 then 26 else 25) false)) aCalStatus) 31 = false := by
    rw [getR_setR, if_pos rfl, bit_setBit _ _ (by decide), if_neg (by split <;> decide), bit_setBit_self _ _ (by decide)]
  generalize setR x aCalStatus _ = q at cleared word ran
  obtain ⟨err, stat⟩ := calErr_sets q
  have all := cleared.trans err
  generalize calErr q = t at stat all ran
  obtain ⟨_, e⟩ := all.rest
  refine ⟨_, ran, (turned_applies start all.applies).settle, ?_, ?_, ?_, ?_, ?_⟩
  · rw [settle_stl, e]
    exact fields.1
  · rw [settle_stl, e]
    exact fields.2.1
  · rw [settle_stl, e]
    exact fields.2.2
  · rw [getR_settle, stat, bit_calErr _ (by decide)]
    exact Bool.or_true _
  · rw [getR_settle, stat, bit_calErr _ (by decide), word]
    rfl

/-! ### Settling the statement -/

/-- Settles O51: the registers that each step writes, the list of words a row copy finds bad, and the frame of the restore's word
writes. -/
theorem steleAndCalibration : Obligations.SteleAndCalibration := by
  unfold Obligations.SteleAndCalibration
  intro s c
  refine ⟨fun up => ⟨rowRemap_idle up, fun r free spare turn low weak first => rowRemap_copies up free spare turn low weak first, fun h => ?_,
    remapCommit_commits up, scan_ends up, fun src seq ws idle apply len => trimStep_moves up idle apply len, fun src w v r going =>
      ⟨restore_waits up going, restore_continues up going, restore_ends up going, restore_stops up going⟩⟩,
    fun may => ⟨scan_requested may, fun b => ⟨applyCal_busy may b, applyCal_invalid may b, applyCal_begins may b⟩,
      fun no tries => restore_refused may no tries, fun free good tries => restore_begins may free good tries, restoreWrites_words s⟩⟩
  have idle : remapCommit s = s := by
    unfold remapCommit
    rcases h with h | h
    · rw [if_neg (by rw [remapping, h]; exact Bool.false_ne_true)]
    · rw [if_neg (by rw [h, Bool.and_false]; decide)]
  refine (exec_whenUp (f := remapCommit) up rfl).trans ?_
  rw [idle]

end Sys2Proof.Machine
end

section
/-! SUPPORT. What the performance of an access at its unit can change (spec/02 R54, R55, R100; spec/11, spec/13, spec/14). -/

namespace Sys2Proof.Machine

/-- Counts of the consignment table, which no unit writes. -/
def tableRegs : List Nat := [aCshTblerr, aCshTmocnt, aCshLate]

/-- State `t` is `s` but for memory, the units, and what their triggers do; the consignment table and its counts stay. -/
structure Served (s t : State) : Prop where
  rest : ∃ m e c k q x l i r p b f d, t = { s with
    mem := m, ecc := e, csr := c, coach := k, queue := q, src := x, mls := l, mtr := i, mret := r, fastPend := p, bank := b
    fli := f, draws := d }
  coach : ∀ n, ∃ st wk, coachOf t n = { coachOf s n with st := st, wake := wk }
  regs : ∀ a ∈ tableRegs, getR t a = getR s a
  src : ∀ j ∈ [8, 9], srcOf t j = srcOf s j

theorem Served.trans {s t u : State} (h : Served s t) (g : Served t u) : Served s u where
  rest := by
    obtain ⟨_, _, _, _, _, _, _, _, _, _, _, _, _, rfl⟩ := h.rest
    obtain ⟨_, _, _, _, _, _, _, _, _, _, _, _, _, rfl⟩ := g.rest
    exact ⟨_, _, _, _, _, _, _, _, _, _, _, _, _, rfl⟩
  coach n := by
    obtain ⟨_, _, e⟩ := h.coach n
    obtain ⟨_, _, e'⟩ := g.coach n
    exact ⟨_, _, e'.trans (by rw [e])⟩
  regs a ha := (g.regs a ha).trans (h.regs a ha)
  src j hj := (g.src j hj).trans (h.src j hj)

/-- A step of the banks, of memory, of the flash interface, or a draw. -/
theorem served_of {s t : State} {m e b f d} (h : t = { s with mem := m, ecc := e, bank := b, fli := f, draws := d }) : Served s t := by
  subst h
  exact ⟨⟨_, _, _, _, _, _, _, _, _, _, _, _, _, rfl⟩, fun _ => ⟨_, _, rfl⟩, fun _ _ => rfl, fun _ _ => rfl⟩

theorem served_refl (s : State) : Served s s := served_of (m := s.mem) (e := s.ecc) (b := s.bank) (f := s.fli) (d := s.draws) rfl

theorem Signals.served {l ns : List Nat} {s t : State} (h : Signals l ns s t) (hl : ∀ a ∈ tableRegs, a ∉ l) (hn : 8 ∉ ns ∧ 9 ∉ ns) :
    Served s t where
  rest := by
    obtain ⟨_, _, _, _, _, _, _, _, e⟩ := h.rest
    exact ⟨_, _, _, _, _, _, _, _, _, _, _, _, _, e⟩
  coach := h.coach
  regs a ha := h.csr a (hl a ha)
  src j hj := by
    simp only [List.mem_cons, List.not_mem_nil, or_false] at hj
    rcases hj with rfl | rfl
    · exact h.src _ hn.1
    · exact h.src _ hn.2

theorem served_setR (s : State) {a : Nat} (v : Word) (ha : a ∉ tableRegs) : Served s (setR s a v) :=
  (signals_setR s a v).served (fun _ hb m => ha (List.mem_singleton.1 m ▸ hb)) (by decide)

theorem served_foldl {α : Type} {f : State → α → State} (h : ∀ t x, Served t (f t x)) (es : List α) (s : State) :
    Served s (es.foldl f s) := by
  induction es generalizing s with
  | nil => exact served_refl s
  | cons x r ih => exact (h s x).trans (ih _)

theorem served_ite {s t u : State} {p : Prop} [Decidable p] (h : Served s t) (g : Served s u) : Served s (if p then t else u) := by
  split
  · exact h
  · exact g

/-! ### Memory and the banks -/

theorem served_wrN (s : State) (a n v : Nat) : Served s (wrN s a n v) := by
  obtain ⟨m, e⟩ := wrN_rest s a n v
  rw [e]
  exact served_of (m := m) (e := s.ecc) (b := s.bank) (f := s.fli) (d := s.draws) rfl

theorem served_setEcc (s : State) (a k : Nat) : Served s (setEcc s a k) :=
  served_of (m := s.mem) (b := s.bank) (f := s.fli) (d := s.draws) rfl

theorem served_freeD (s : State) : Served s (freeD s).2 :=
  served_of (m := s.mem) (e := s.ecc) (b := s.bank) (f := s.fli) rfl

theorem served_spareWrite (s : State) (a n v : Nat) : Served s (spareWrite s a n v) := by
  unfold spareWrite
  split
  · exact served_wrN _ _ _ _
  · exact (served_freeD s).trans (served_wrN _ _ _ _)

theorem served_bankPut (s : State) (a n v : Nat) : Served s (bankPut s a n v) := by
  unfold bankPut
  dsimp only
  split
  · exact (served_wrN _ _ _ _).trans (served_spareWrite _ _ _ _)
  · exact served_wrN _ _ _ _

theorem served_cleanWords (s : State) (ws : List Nat) : Served s (cleanWords s ws) := by
  refine served_foldl (fun t w => ?_) ws s
  dsimp only
  split
  · exact (served_setEcc _ _ _).trans (served_setEcc _ _ _)
  · exact served_setEcc _ _ _

theorem served_recordDeny (s : State) (port a : Nat) (r : Req) (wr : Bool) (why : Nat) : Served s (recordDeny s port a r wr why) :=
  (served_setR s _ (by decide)).trans (served_setR _ _ (by decide))

theorem served_checkWords (maint : Bool) (ws : List Nat) (s : State) : Served s (checkWords maint ws s).1 := by
  induction ws generalizing s with
  | nil => exact served_refl s
  | cons w r ih =>
    have first : Served s (checkWord s w maint).1 := (signals_checkWord s w maint).1.served (by decide) (by decide)
    rw [checkWords]
    dsimp only
    split
    · exact first.trans (ih _)
    · exact first

theorem served_bankRead (s : State) (a n : Nat) : Served s (bankRead s a n).1 := by
  have checked := served_checkWords false (wordsOf a n) s
  unfold bankRead
  dsimp only
  split
  · exact checked
  · exact checked

theorem served_bankWrite (s : State) (a n v : Nat) : Served s (bankWrite s a n v).1 := by
  have checked := served_checkWords false (partialWords a n (wordsOf a n)) s
  unfold bankWrite
  dsimp only
  split
  · exact (checked.trans (served_bankPut _ _ _ _)).trans (served_cleanWords _ _)
  · exact checked

/-- Of a bank access's answers, whichever it is. -/
theorem served_failed {s t : State} (h : Served s t) {p q : Prop} [Decidable p] [Decidable q] (x y z : Ans) :
    Served s (if p then (t, x) else if q then (t, y) else (t, z)).1 := by
  split
  · exact h
  · split
    · exact h
    · exact h

theorem served_performParts (r : Req) (live : Bool) (w : Option Nat) (ps : List (Nat × Nat)) (off acc : Nat) (s : State) :
    Served s (performParts r live w ps off acc s).1 := by
  induction ps generalizing off acc s with
  | nil => exact served_refl s
  | cons p rest ih =>
    obtain ⟨a, n⟩ := p
    unfold performParts
    dsimp only
    split
    · exact served_refl s
    · exact served_failed (served_recordDeny s 0 a r w.isSome _) _ _ _
    · split
      · have read := served_bankRead s a n
        split
        · exact read.trans (ih _ _ _)
        · exact served_failed read _ _ _
      · rename_i v
        have write := served_bankWrite s a n (v / 256 ^ off)
        split
        · exact write.trans (ih _ _ _)
        · exact served_failed write _ _ _

theorem served_bankPerform (s : State) (r : Req) (live : Bool) (a n : Nat) (w : Option Nat) : Served s (bankPerform s r live a n w).1 := by
  unfold bankPerform
  dsimp only
  split
  · exact served_refl s
  · exact served_performParts _ _ _ _ _ _ _

theorem served_atomicAccess (s : State) (r : Req) (live : Bool) (a : Nat) (op : AtomicOp) (v e : Word) :
    Served s (atomicAccess s r live a op v e).1 := by
  have read := served_bankRead s a 4
  unfold atomicAccess
  dsimp only
  split
  · exact served_refl s
  · exact served_recordDeny _ _ _ _ _ _
  · split
    · exact read
    · exact (read.trans (served_bankPut _ _ _ _)).trans (served_cleanWords _ _)

/-! ### Operand memory -/

theorem served_opmemWrite (s : State) (a n v : Nat) : Served s (opmemWrite s a n v).1 := by
  unfold opmemWrite
  dsimp only
  split
  · exact served_refl s
  · exact (served_wrN _ _ _ _).trans (served_foldl (fun t w => served_setEcc t w 0) _ _)

theorem served_opmemAccess (s : State) (r : Req) (a n : Nat) (w : Option Nat) : Served s (opmemAccess s r a n w).1 := by
  unfold opmemAccess
  dsimp only
  split
  · exact served_refl s
  · have each : ∀ (ps : List (Nat × Nat)) (x : State × Ans), Served s x.1 → Served s (ps.foldl (fun acc p =>
        match acc.2 with
        | .ok d =>
          let off := p.1 - a
          match w with
          | none =>
            let (st, v) := opmemRead acc.1 p.1 p.2
            if st = 0 then (acc.1, .ok (d + v * 256 ^ off))
            else (acc.1, .fail st (if off = 0 then 0 else finfoHalf2 0 0))
          | some v =>
            let (t, st) := opmemWrite acc.1 p.1 p.2 (v / 256 ^ off)
            if st = 0 then (t, .ok d)
            else if off = 0 then (t, .fail st 0) else (t, .fail 5 (finfoHalf2 0 st))
        | _ => acc) x).1 := by
      intro ps
      induction ps with
      | nil => exact fun _ h => h
      | cons p ps ih =>
        intro x h
        refine ih _ ?_
        dsimp only
        split
        · split
          · split
            · exact h
            · exact h
          · have write := served_opmemWrite x.1 p.1 p.2
            split
            · exact h.trans (write _)
            · split
              · exact h.trans (write _)
              · exact h.trans (write _)
        · exact h
    exact each _ _ (served_refl s)

/-! ### The flash interface -/

/-- A step of the flash interface's own state. -/
theorem served_fli {s t : State} (h : ∃ f, t = { s with fli := f }) : Served s t := by
  obtain ⟨f, e⟩ := h
  exact served_of (m := s.mem) (e := s.ecc) (b := s.bank) (f := f) (d := s.draws) e

theorem served_trigger (s : State) (n : Nat) (hl : ∀ a ∈ tableRegs, a ∉ eventRegs n) (hn : 8 ∉ [n, 7, 27] ∧ 9 ∉ [n, 7, 27]) :
    Served s (trigger s n) := (signals_trigger s n).served hl hn

theorem served_fliError (s : State) (code a : Nat) : Served s (fliError s code a) :=
  ((served_setR s (a := aFliErr) _ (by decide)).trans (served_setR _ (a := aFliStatus) _ (by decide))).trans (served_trigger _ 14 (by decide) (by decide))

theorem served_flashFinding (s : State) (a : Nat) (unc : Bool) : Served s (flashFinding s a unc) := by
  have noted := fun v w => (served_setR s (a := aFliEcc) v (by decide)).trans (served_setR _ (a := aFliEccaddr) w (by decide))
  unfold flashFinding
  dsimp only
  split
  · exact (noted _ _).trans (served_trigger _ 14 (by decide) (by decide))
  · exact noted _ _

theorem served_flashCheck (ws : List Nat) (s : State) : Served s (flashCheck ws s).1 := by
  induction ws generalizing s with
  | nil => exact served_refl s
  | cons w r ih =>
    rw [flashCheck]
    split
    · exact ih s
    · exact (served_flashFinding s w false).trans (ih _)
    · exact (served_flashFinding s w true).trans (ih _)

theorem served_flashServe (s : State) (l : Nat) (target : Bool) : Served s (flashServe s l target).1 := by
  have checked := served_flashCheck (lineWords l) s
  unfold flashServe
  dsimp only
  split
  · exact served_setR _ _ (by decide)
  · split
    · exact served_fli ⟨_, rfl⟩
    · split
      · exact served_fli ⟨_, rfl⟩
      · split
        · exact served_refl s
        · split
          · exact served_fli ⟨_, rfl⟩
          · split
            · exact checked.trans (served_fli ⟨_, rfl⟩)
            · exact checked

theorem served_flashAccess (s : State) (a n : Nat) : Served s (flashAccess s a n).1 := by
  have first := served_flashServe s (lineOf a) false
  have second := first.trans (served_flashServe (flashServe s (lineOf a) false).1 (lineOf (a + n - 1)) false)
  unfold flashAccess
  dsimp only
  split
  · exact first
  · exact first
  · split
    · exact first
    · split
      · exact second
      · exact second
      · exact second

theorem served_flashRefuse (s : State) (q : FStore) (code : Nat) : Served s (flashRefuse s q code).1 := by
  unfold flashRefuse
  dsimp only
  exact (served_ite (served_fli ⟨_, rfl⟩) (served_refl s)).trans (served_fliError _ _ _)

theorem served_programFinal (s : State) (q : FStore) : Served s (programFinal s q).1 := by
  unfold programFinal
  dsimp only
  split
  · exact served_flashRefuse _ _ _
  · split
    · exact served_flashRefuse _ _ _
    · split
      · exact served_flashRefuse _ _ _
      · split
        · exact served_flashRefuse _ _ _
        · exact (served_fli ⟨_, rfl⟩).trans (served_fli ⟨_, rfl⟩)

theorem served_eraseFinal (s : State) (q : FStore) : Served s (eraseFinal s q).1 := by
  unfold eraseFinal
  dsimp only
  split
  · exact served_flashRefuse _ _ _
  · split
    · exact served_flashRefuse _ _ _
    · exact ((served_fli ⟨_, rfl⟩).trans (served_setR _ (a := aFliSuscnt) _ (by decide))).trans (served_fli ⟨_, rfl⟩)

theorem served_suspendCmd (s : State) : Served s (suspendCmd s) := (served_fli ⟨_, rfl⟩).trans (served_fli ⟨_, rfl⟩)

theorem served_resumeCmd (s : State) : Served s (resumeCmd s) :=
  (served_fli ⟨_, rfl⟩).trans (served_ite (served_fli ⟨_, rfl⟩) (served_fli ⟨_, rfl⟩))

theorem served_flashStore (s : State) (q : FStore) : Served s (flashStore s q).1 := by
  unfold flashStore
  extract_lets off byte
  split
  · exact served_refl s
  · split
    · exact served_flashRefuse _ _ _
    · split
      · split
        · exact served_flashRefuse _ _ _
        · split
          · split
            · exact served_fli ⟨_, rfl⟩
            · exact served_flashRefuse _ _ _
          · split
            · split
              · exact served_fli ⟨_, rfl⟩
              · split
                · split
                  · exact served_flashRefuse _ _ _
                  · exact served_fli ⟨_, rfl⟩
                · exact served_flashRefuse _ _ _
            · split
              · split
                · exact served_eraseFinal _ _
                · exact served_flashRefuse _ _ _
              · exact served_programFinal _ _
      · split
        · split
          · exact served_flashRefuse _ _ _
          · exact served_fli ⟨_, rfl⟩
        · split
          · split
            · exact served_suspendCmd _
            · exact served_flashRefuse _ _ _
          · split
            · split
              · exact served_resumeCmd _
              · exact served_flashRefuse _ _ _
            · exact served_flashRefuse _ _ _

/-! ### The access of an entry -/

/-- A store's status as the answer to its access. -/
def storeAnswer (x : State × BitVec 3) : State × Ans := (x.1, if x.2 = 0 then .ok 0 else .fail x.2 0)

theorem served_storeAnswer {s : State} {x : State × BitVec 3} (h : Served s x.1) : Served s (storeAnswer x).1 := h

/-- The flash window's answer to the access of an entry. -/
def flashPart (store : State → FStore → State × BitVec 3) (load : State → Nat → Nat → State × Ans) (s : State) (k : Cons) :
    Option Nat → State × Ans
  | some v => storeAnswer (store s ⟨k.coach, k.ring, k.unver, k.addr, k.size, v⟩)
  | none => load s k.addr k.size

theorem flashPart_eq (f1 : State → FStore → State × BitVec 3) (f2 : State → Nat → Nat → State × Ans) (s : State) (k : Cons)
    (w : Option Nat) : (match w with
      | some v => let (t, st) := f1 s ⟨k.coach, k.ring, k.unver, k.addr, k.size, v⟩
                  (t, if st = 0 then .ok 0 else .fail st 0)
      | none => f2 s k.addr k.size) = flashPart f1 f2 s k w := by
  cases w with
  | some v => rfl
  | none => rfl

theorem served_performAt (s : State) (k : Cons) : Served s (performAt s k).1 := by
  have stored := served_flashStore
  have flashed := served_flashAccess
  unfold performAt
  extract_lets r w
  clear_value w r
  revert stored flashed
  generalize flashStore = f1, flashAccess = f2
  intro stored flashed
  split
  · have h : Served s (flashPart f1 f2 s k w).1 := by
      cases w with
      | some v => exact served_storeAnswer (stored _ _)
      | none => exact flashed _ _ _
    exact (congrArg (fun x : State × Ans => Served s x.1) (flashPart_eq f1 f2 s k w)).mpr h
  · exact served_opmemAccess _ _ _ _ _
  · exact served_refl s
  · split
    · exact served_atomicAccess _ _ _ _ _ _ _
    · exact served_bankPerform _ _ _ _ _ _

end Sys2Proof.Machine
end

section
/-! SUPPORT. Completions that fail, and what follows the completion of an entry (spec/05 R144 to R149). -/

namespace Sys2Proof.Machine

/-! ### No submission waits -/

/-- No entry of the table is a BNOP's. -/
def Bnopless (s : State) : Prop := ∀ x ∈ s.cons, x.2.kind.isBnop = false

theorem pumpEngine_bnopless {s : State} (h : Bnopless s) : pumpEngine s = s :=
  pumpEngine_of_none fun x hx => by
    rw [heldBnop, h x hx, Bool.and_false]
    rfl

theorem SMap.get_mem {α : Type} (d : α) (m : SMap α) (k : Nat) : SMap.get d m k = d ∨ (k, SMap.get d m k) ∈ m := by
  induction m with
  | nil => exact .inl rfl
  | cons e r ih =>
    obtain ⟨j, v⟩ := e
    unfold SMap.get
    by_cases h : j = k
    · rw [if_pos h, h]
      exact .inr List.mem_cons_self
    · rw [if_neg h]
      exact ih.imp_right (List.mem_cons_of_mem _)

theorem bnopless_consOf {s : State} (h : Bnopless s) (e : Nat) : (consOf s e).kind.isBnop = false := by
  rcases SMap.get_mem ({} : Cons) s.cons e with eq | mem
  · rw [consOf, eq]
    rfl
  · exact h _ mem

theorem bnopless_setCons {s : State} (h : Bnopless s) (e : Nat) {k : Cons} (hk : k.kind.isBnop = false) : Bnopless (setCons s e k) := by
  intro x hx
  by_cases he : x.1 = e
  · rw [SMap.eq_of_mem_set (m := s.cons) (d := ({} : Cons)) hx he]
    exact hk
  · exact h x (SMap.mem_of_mem_set hx he)

theorem bnopless_setOut {s : State} (h : Bnopless s) (g : Nat) (o : Option OutReq) : Bnopless (setOut s g o) := h

theorem bnopless_retagged {s : State} (h : Bnopless s) (e : Nat) {k : Cons} (hk : k.kind.isBnop = false) (g : Option Nat) :
    Bnopless (setCons s e { k with tag := g }) := bnopless_setCons h e hk

theorem bnopless_sendOne {s : State} (h : Bnopless s) (x : Nat × Cons) : Bnopless (sendOne s x) := by
  have entry := bnopless_consOf h x.1
  unfold sendOne
  split
  · rename_i g _
    exact bnopless_retagged (bnopless_setOut h _ _) x.1 entry _
  · exact h

theorem bnopless_sends (l : List (Nat × Cons)) {s : State} (h : Bnopless s) : Bnopless (l.foldl sendOne s) := by
  induction l generalizing s with
  | nil => exact h
  | cons x r ih =>
    rw [List.foldl_cons]
    exact ih (s := sendOne s x) (bnopless_sendOne h x)

theorem bnopless_hostSend {s : State} (h : Bnopless s) : Bnopless (hostSend s) := by
  rw [hostSend_eq]
  split
  · exact bnopless_sends _ h
  · exact h

/-! ### After an entry has been dealt with -/

theorem finishStall_waits {s : State} {w : Who} {st : Stall} (h : (getC s w).stall = some st) (waits : st.waits.isSome = true) :
    finishStall s w = s := by
  unfold finishStall
  dsimp only
  rw [h]
  exact if_pos (by rw [waits]; rfl)

/-- State `t` with the stall of `w` ended when it waited for entry `e`. -/
def resumed (s t : State) (w : Who) (e : Nat) : State :=
  if (match (getC s w).stall with | some st => st.waits == some e | none => false) = true then finishStall t w else t

/-- State `t` as the host port goes on. -/
def hostGoes (s t : State) (e : Nat) : State := if region (consOf s e).addr = some .host then hostSend t else t

theorem afterCons_eq (s t : State) (e : Nat) : afterCons s t e =
    let u := hostGoes s (resumed s t (consWho (consOf s e)) e) e
    let w := consWho (consOf s e)
    pumpEngine (if (getC u w).window.isNone && !(getC u w).out.isEmpty then postOut u w else u) := rfl

theorem resumed_same {s t : State} {w : Who} {e : Nat} (stall : (getC t w).stall = (getC s w).stall) : resumed s t w e = t := by
  unfold resumed
  by_cases ended : (match (getC s w).stall with | some st => st.waits == some e | none => false) = true
  · refine (if_pos ended).trans ?_
    cases hs : (getC s w).stall with
    | none => rw [hs] at ended; cases ended
    | some st =>
      rw [hs] at ended
      replace ended : (st.waits == some e) = true := ended
      exact finishStall_waits (stall.trans hs) (by rw [beq_iff_eq.1 ended]; rfl)
  · exact if_neg ended

/-- When no store of the issuer waits and no submission does, only the host port sends. -/
theorem afterCons_sends {s t : State} {e : Nat} (stall : (getC t (consWho (consOf s e))).stall = (getC s (consWho (consOf s e))).stall)
    (out : (getC t (consWho (consOf s e))).out = []) (b : Bnopless t) :
    SameButSends t (afterCons s t e) ∧
      ∀ f, (∀ x ∈ t.cons, x.1 = f → unsent x.2 = false) → consOf (afterCons s t e) f = consOf t f := by
  rw [afterCons_eq, resumed_same stall]
  generalize consWho (consOf s e) = w at stall out
  have sent : SameButSends t (hostGoes s t e) ∧ Bnopless (hostGoes s t e) ∧
      ∀ f, (∀ x ∈ t.cons, x.1 = f → unsent x.2 = false) → consOf (hostGoes s t e) f = consOf t f := by
    unfold hostGoes
    split
    · exact ⟨hostSend_frame t, bnopless_hostSend b, fun f h => consOf_hostSend t f h⟩
    · exact ⟨⟨_, _, rfl⟩, b, fun _ _ => rfl⟩
  generalize hostGoes s t e = u at sent
  obtain ⟨frame, clear, entries⟩ := sent
  have idle : (getC u w).out = [] := by
    obtain ⟨c, h, rfl⟩ := frame
    rw [← out]
    cases w <;> rfl
  dsimp only
  rw [idle, if_neg (by rw [List.isEmpty_nil, Bool.not_true, Bool.and_false]; exact Bool.false_ne_true), pumpEngine_bnopless clear]
  exact ⟨frame, entries⟩

/-! ### What is carried over -/

/-- State `u` has the consignment table of `s`, and its contexts but for wakes. -/
structure Carries (s u : State) : Prop where
  cons : u.cons = s.cons
  ctx : ∀ w, ∃ st wk, getC u w = { getC s w with st := st, wake := wk }

theorem Carries.trans {s t u : State} (h : Carries s t) (g : Carries t u) : Carries s u where
  cons := g.cons.trans h.cons
  ctx w := by
    obtain ⟨_, _, e⟩ := h.ctx w
    obtain ⟨_, _, e'⟩ := g.ctx w
    exact ⟨_, _, e'.trans (by rw [e])⟩

theorem carries_refl (s : State) : Carries s s := ⟨rfl, fun _ => ⟨_, _, rfl⟩⟩

theorem Served.carries {s u : State} (h : Served s u) : Carries s u where
  cons := by
    obtain ⟨_, _, _, _, _, _, _, _, _, _, _, _, _, e⟩ := h.rest
    rw [e]
  ctx w := by
    cases w with
    | coach n => exact h.coach n
    | fast =>
      obtain ⟨_, _, _, _, _, _, _, _, _, _, _, _, _, e⟩ := h.rest
      exact ⟨_, _, by rw [e]; rfl⟩

theorem Measures.carries {l ns : List Nat} {s u : State} (h : Measures l ns s u) : Carries s u where
  cons := h.cons
  ctx w := by
    cases w with
    | coach n => exact h.coach n
    | fast => exact ⟨_, _, h.fast⟩

theorem Carries.get {α : Type} {s u : State} (h : Carries s u) (f : Coach → α) (hf : ∀ c st wk, f { c with st := st, wake := wk } = f c) (w : Who) :
    f (getC u w) = f (getC s w) := by
  obtain ⟨_, _, e⟩ := h.ctx w
  rw [e, hf]

theorem Carries.bnopless {s u : State} (h : Carries s u) (b : Bnopless s) : Bnopless u := fun x hx => b x (h.cons ▸ hx)

theorem Carries.consOf {s u : State} (h : Carries s u) (e : Nat) : Machine.consOf u e = Machine.consOf s e := by
  rw [Machine.consOf, h.cons, Machine.consOf]

/-- A failed store's entry is free, its exception pending; the rest is as it was when the failure was found. -/
theorem failure_delivered {s u : State} {e : Nat} {st : BitVec 3} {i : Word} (h : Carries s u) (kind : (consOf s e).kind = .store)
    (orphan : (consOf s e).orphan = false) (slow : (consOf s e).fast = false) (bad : st ≠ 0) (out : (getC s (consWho (consOf s e))).out = [])
    (b : Bnopless s) : let k := consOf s e
    ∀ t, t = settle (afterCons s (deliverCons u e st 0 i) e) → consOf t e = { gen := k.gen } ∧ t.mem = u.mem ∧ t.lateAcc = u.lateAcc ∧ (∀ a, getR t a = getR u a) ∧ (∀ j, srcOf t j = srcOf u j) ∧
      (getC t (consWho k)).imprecise = (getC s (consWho k)).imprecise ++ [consItem k st i] := by
  intro k t ht
  have entry := h.consOf e
  have delivered : deliverCons u e st 0 i = deliverItem (freeCons u e) (consWho k) (consItem k st i) := by
    rw [deliverCons_storeFails (by rw [entry]; exact kind) (by rw [entry]; exact orphan) bad (by rw [entry, slow]; rfl), entry]
  have same : ∀ w, getC (freeCons u e) w = getC u w := fun w => by cases w <;> rfl
  have self : getC (deliverItem (freeCons u e) (consWho k) (consItem k st i)) (consWho k) = syncImprc { getC u (consWho k) with
      imprecise := (getC u (consWho k)).imprecise ++ [consItem k st i]
      window := if (getC u (consWho k)).st = .run then (getC u (consWho k)).window else none } := by
    rw [deliverItem, getC_modC_self, same]
  have cons : (deliverItem (freeCons u e) (consWho k) (consItem k st i)).cons = (freeCons u e).cons := by cases consWho k <;> rfl
  have freed : ∀ x ∈ (freeCons u e).cons, x.1 = e → unsent x.2 = false := fun x hx he => by
    rw [SMap.eq_of_mem_set (m := u.cons) (d := ({} : Cons)) hx he]
    rfl
  have clear : Bnopless (deliverItem (freeCons u e) (consWho k) (consItem k st i)) := fun x hx =>
    bnopless_setCons (h.bnopless b) e (k := { gen := (consOf u e).gen }) rfl x (cons ▸ hx)
  obtain ⟨sends, kept⟩ := afterCons_sends (s := s) (e := e) (t := deliverItem (freeCons u e) (consWho k) (consItem k st i))
    (by rw [self]; exact h.get Coach.stall (fun _ _ _ => rfl) _) (by rw [self]; exact (h.get Coach.out (fun _ _ _ => rfl) _).trans out) clear
  have held := kept e (fun x hx he => freed x (cons ▸ hx) he)
  rw [← delivered] at sends held
  have entryNow : consOf (deliverCons u e st 0 i) e = { gen := k.gen } := by
    rw [delivered, consOf, cons]
    exact (consOf_setCons u e e _).trans ((if_pos rfl).trans (by rw [entry]))
  have who : getC (deliverCons u e st 0 i) (consWho k) = _ := (congrArg (getC · (consWho k)) delivered).trans self
  have rest : (deliverCons u e st 0 i).mem = u.mem ∧ (deliverCons u e st 0 i).lateAcc = u.lateAcc ∧
      (∀ a, getR (deliverCons u e st 0 i) a = getR u a) ∧ ∀ j, srcOf (deliverCons u e st 0 i) j = srcOf u j := by
    rw [delivered]
    cases consWho k <;> exact ⟨rfl, rfl, fun _ => rfl, fun _ => rfl⟩
  obtain ⟨mem, late, regs, srcs⟩ := rest
  generalize deliverCons u e st 0 i = v at sends held entryNow who mem late regs srcs ht
  subst ht
  obtain ⟨c, p, after⟩ := sends
  refine ⟨(consOf_settle _ _).trans (held.trans entryNow), (settle_mem _).trans ?_, (settle_lateAcc _).trans ?_, fun a => (getR_settle _ a).trans ?_,
    fun j => (srcOf_settle _ j).trans ?_, (settle_imprecise _ _).trans ?_⟩
  · rw [after, ← mem]
  · rw [after, ← late]
  · rw [after, ← regs]
    rfl
  · rw [after, ← srcs]
    rfl
  · have seenNow : getC (afterCons s v e) (consWho k) = getC v (consWho k) := by
      rw [after]
      cases consWho k <;> rfl
    rw [seenNow, who, ← h.get Coach.imprecise (fun _ _ _ => rfl) (consWho k)]
    rfl

end Sys2Proof.Machine
end

section
/-! Consignments that fail: refusals, differences, timeouts, late completions and retries (spec/05 R144 to R149, spec/11 R279). -/

namespace Sys2Proof.Machine

/-! ### An access that may have been performed -/

/-- Memory and the accesses still to come of `t`, when the access of entry `e` may have been performed in `s`. -/
def Undecided (s : State) (e : Nat) (t : State) : Prop :=
  let k := consOf s e
  ((k.early ≠ none ∨ region k.addr = some .host) → t.mem = s.mem ∧ t.lateAcc = s.lateAcc) ∧
  (k.early = none → region k.addr ≠ some .host → (t.mem = s.mem ∧ t.lateAcc = s.lateAcc ++ [(e, k)]) ∨
    (t.mem = (performAt (freeD s).2 k).1.mem ∧ t.lateAcc = s.lateAcc))

theorem Undecided.of_same {s u t : State} {e : Nat} (h : Undecided s e u) (mem : t.mem = u.mem) (late : t.lateAcc = u.lateAcc) :
    Undecided s e t := by
  unfold Undecided at h ⊢
  rw [mem, late]
  exact h

/-- State `u` has the table, its counts and its sources as in `s`. -/
structure TableKept (s u : State) : Prop where
  carries : Carries s u
  regs : ∀ a ∈ tableRegs, getR u a = getR s a
  src : ∀ j ∈ [8, 9], srcOf u j = srcOf s j

theorem Served.tableKept {s u : State} (h : Served s u) : TableKept s u := ⟨h.carries, h.regs, h.src⟩

theorem Served.lateAcc {s u : State} (h : Served s u) : u.lateAcc = s.lateAcc := by
  obtain ⟨_, _, _, _, _, _, _, _, _, _, _, _, _, e⟩ := h.rest
  rw [e]

theorem tableKept_queued (s : State) (l : List (Nat × Cons)) : TableKept s { (freeD s).2 with lateAcc := l } :=
  ⟨⟨rfl, fun w => ⟨(getC s w).st, (getC s w).wake, by cases w <;> rfl⟩⟩, fun _ _ => rfl, fun _ _ => rfl⟩

theorem changesUnit_store {k : Cons} (h : k.kind = .store) : changesUnit k = (k.early.isNone && region k.addr != some .host) := by
  rw [changesUnit, h]
  rfl

theorem mayPerform_unchanging {s : State} {e : Nat} (h : changesUnit (consOf s e) = false) : mayPerform s e = s :=
  if_neg (by rw [h]; exact Bool.false_ne_true)

theorem mayPerform_changing {s : State} {e : Nat} (h : changesUnit (consOf s e) = true) :
    mayPerform s e = (performAt (freeD s).2 (consOf s e)).1 ∨
      mayPerform s e = { (freeD s).2 with lateAcc := s.lateAcc ++ [(e, consOf s e)] } := by
  unfold mayPerform
  dsimp only
  rw [if_pos h]
  exact (ite_eq_or_eq _ _ _)

theorem mayPerform_keeps {s : State} {e : Nat} (kind : (consOf s e).kind = .store) :
    TableKept s (mayPerform s e) ∧ Undecided s e (mayPerform s e) := by
  have changing := changesUnit_store kind
  cases h : changesUnit (consOf s e) with
  | false =>
    rw [mayPerform_unchanging h]
    refine ⟨(served_refl s).tableKept, fun _ => ⟨rfl, rfl⟩, fun early host => ?_⟩
    rw [h, early, Option.isNone_none, Bool.true_and] at changing
    exact absurd (bne_iff_ne.2 host) (by rw [← changing]; exact Bool.false_ne_true)
  | true =>
    rw [h] at changing
    obtain ⟨early, host⟩ := Bool.and_eq_true_iff.1 changing.symm
    have now : (consOf s e).early = none := Option.isNone_iff_eq_none.1 early
    have refused : ¬ ((consOf s e).early ≠ none ∨ region (consOf s e).addr = some .host) :=
      fun r => r.elim (fun x => x now) (fun x => bne_iff_ne.1 host x)
    rcases mayPerform_changing h with eq | eq
    · have served := (served_freeD s).trans (served_performAt (freeD s).2 (consOf s e))
      rw [eq]
      exact ⟨served.tableKept, fun r => absurd r refused, fun _ _ => .inr ⟨rfl, served.lateAcc⟩⟩
    · rw [eq]
      exact ⟨tableKept_queued s _, fun r => absurd r refused, fun _ _ => .inl ⟨rfl, rfl⟩⟩

/-! ### Counts and triggers on the way -/

theorem measures_bumpR (s : State) (a lo n k : Nat) : Measures [a] [] s (bumpR s a lo n k) := (signals_setR s a _).measures

theorem measures_counted (s : State) (a lo n k j : Nat) : Measures (a :: eventRegs j) [j, 7, 27] s (trigger (bumpR s a lo n k) j) :=
  ((measures_bumpR s a lo n k).mono (by simp) (by simp)).trans ((signals_trigger _ j).measures.mono (by simp) (by simp))

theorem fld_counted (s : State) {a lo n k j : Nat} (off : a ∉ eventRegs j) (hw : lo + n ≤ 32) :
    fld (getR (trigger (bumpR s a lo n k) j) a) lo n = satAdd (2 ^ n - 1) (fld (getR s a) lo n) k := by
  rw [(signals_trigger _ j).csr a off, fld_bumpR s a k hw]

/-! ### How each failure is found -/

theorem completeCons_refused {s : State} {e g : Nat} {st : BitVec 3} (u : Upset) (used : (consOf s e).used = true) (gen : (consOf s e).gen = g)
    (done : (consOf s e).done = none) (early : (consOf s e).early = some st) :
    completeCons s e g u = deliverCons s e st 0 ((consOf s e).earlyInfo ||| finfo (consOf s e).size e) := by
  unfold completeCons
  dsimp only
  rw [used, gen, done, early, if_neg (by rw [bne_self_eq_false]; exact Bool.false_ne_true)]

theorem completeCons_late {s : State} {e g : Nat} (u : Upset) (stale : (consOf s e).used = false ∨ (consOf s e).gen ≠ g) :
    completeCons s e g u = lateCons (performLate s e g) := by
  refine if_pos ?_
  rcases stale with h | h
  · rw [h]
    rfl
  · rw [bne_iff_ne.2 h, Bool.or_true]
    rfl

theorem arrival_double {s : State} {e g : Nat} (u : Upset) (used : (consOf s e).used = true) (gen : (consOf s e).gen = g)
    (done : (consOf s e).done = none) (sealed : sealedEntry (consOf s e) = false) :
    arrival s e g u .double =
      deliverCons (trigger (policy (bumpR (mayPerform s e) aCshTblerr 16 16 1) pcTABLE) 0) e 2 0 (finfo (consOf s e).size e) := by
  unfold arrival tableDiffers
  dsimp only
  rw [used, gen, done, sealed, if_neg (by rw [bne_self_eq_false]; exact Bool.false_ne_true)]
  rfl

theorem timeoutCons_whole {s : State} {e : Nat} (used : (consOf s e).used = true) (done : (consOf s e).done = none)
    (tmo : (consOf s e).tmo = false) (early : (consOf s e).early = none) (sealed : sealedEntry (consOf s e) = false)
    (orphan : (consOf s e).orphan = false) (first : (consOf s e).first = none) (still : retrying s e = false) :
    timeoutCons s e false = deliverCons (trigger (bumpR (mayPerform s e) aCshTmocnt 0 32 1) 8) e 4 0 (finfo (consOf s e).size e) := by
  unfold timeoutCons
  dsimp only
  rw [used, done, tmo, early, sealed, orphan, first, still]
  rfl

section
variable {s : State} {e : Nat} {r : Rival} (used : (consOf s e).used = true) (done : (consOf s e).done = none) (early : (consOf s e).early = none)
  (kind : (consOf s e).kind = .store) (bank : region (consOf s e).addr = some .bank) (lost : loses .c true false r = true)
include used done early kind bank lost

theorem busyRetry_again (few : (consOf s e).tries < 8) : busyRetry s e false r =
    setCons (bumpR s aBnkBusy 0 16 1) e { consOf s e with tries := (consOf s e).tries + 1, half := false } := by
  have store : isStore (consOf s e) = true := by rw [isStore, kind]
  unfold busyRetry
  dsimp only
  rw [bank, store, lost]
  refine (if_neg ?_).trans ((if_pos ?_).trans rfl)
  · rw [used, done, early]
    exact Bool.false_ne_true
  · exact few

theorem busyRetry_over (many : 8 ≤ (consOf s e).tries) : busyRetry s e false r =
    deliverCons (trigger (bumpR s aBnkBusy 16 16 1) 6) e 1 0 (finfo (consOf s e).size e) := by
  have store : isStore (consOf s e) = true := by rw [isStore, kind]
  unfold busyRetry
  dsimp only
  rw [bank, store, lost]
  refine (if_neg ?_).trans ((if_neg ?_).trans rfl)
  · rw [used, done, early]
    exact Bool.false_ne_true
  · exact Nat.not_lt.2 many

end

theorem performLate_none {s : State} {e g : Nat} (h : ∀ x ∈ s.lateAcc, x.1 = e → x.2.gen ≠ g) : performLate s e g = s := by
  have none : s.lateAcc.find? (fun x => x.1 == e && x.2.gen == g) = none :=
    List.find?_eq_none.2 fun x hx both => h x hx (beq_iff_eq.1 (Bool.and_eq_true_iff.1 both).1) (beq_iff_eq.1 (Bool.and_eq_true_iff.1 both).2)
  unfold performLate
  rw [none]

theorem performLate_one {s : State} {e g : Nat} {q : Cons} (h : s.lateAcc = [(e, q)]) (gen : q.gen = g) (ready : unitReady s q = true) :
    performLate s e g = (performAt { s with lateAcc := [] } q).1 := by
  have found : s.lateAcc.find? (fun x => x.1 == e && x.2.gen == g) = some (e, q) := by
    rw [h, List.find?_cons_of_pos (by rw [gen, beq_self_eq_true, beq_self_eq_true]; rfl)]
  have gone : s.lateAcc.erase (e, q) = [] := by
    rw [h, List.erase_cons_head]
  unfold performLate
  rw [found]
  dsimp only
  rw [gone]
  exact if_pos ready

/-! ### The commands -/

section
variable {s : State} {e : Fin 3072}

theorem exec_completion (count : BitVec 16) (u table : Upset) (up : s.up = true) :
    exec (.consignmentCompletion e count u table) s = .next (settle (afterCons s (arrival s e.val count.toNat u table) e.val)) :=
  exec_whenUp (f := fun s => afterCons s (arrival s e.val count.toNat u table) e.val) up rfl

theorem exec_timeout (up : s.up = true) :
    exec (.consignmentTimeout (.entry e false) .none) s = .next (settle (afterCons s (timeoutCons s e.val false) e.val)) :=
  exec_whenUp (f := fun s => afterCons s (timeoutCons s e.val false) e.val) up rfl

theorem exec_retry (r : Rival) (up : s.up = true) :
    exec (.bankCRetry ⟨.entry e false, r⟩) s = .next (settle (afterCons s (busyRetry s e.val false r) e.val)) :=
  exec_whenUp (f := fun s => afterCons s (busyRetry s e.val false r) e.val) up rfl

end

/-! ### A store of a coach fails -/

theorem Measures.lateAcc {l ns : List Nat} {s t : State} (h : Measures l ns s t) : t.lateAcc = s.lateAcc := by
  obtain ⟨_, _, _, _, _, _, _, _, _, _, e⟩ := h.rest
  rw [e]

theorem consItem_store {k : Cons} (kind : k.kind = .store) (st : BitVec 3) (i : Word) : consItem k st i =
    { vec := vecOfStatus st, cstat := st, torn := st == 5, addr := u32 k.addr, info := i, write := true } := by
  rw [consItem, kind]

/-- What a state keeps as further requests are sent and its obligations settled. -/
theorem sent_settled {t u : State} (h : SameButSends t u) : (settle u).mem = t.mem ∧ (settle u).lateAcc = t.lateAcc ∧
    (∀ a, getR (settle u) a = getR t a) ∧ (∀ j, srcOf (settle u) j = srcOf t j) ∧ SameContexts t (settle u) := by
  obtain ⟨c, p, rfl⟩ := h
  refine ⟨settle_mem _, settle_lateAcc _, fun a => getR_settle _ a, fun j => srcOf_settle _ j, fun w => (seen_settle _ w).trans ?_⟩
  cases w <;> rfl

section
variable {s : State} {e : Fin 3072} (up : s.up = true) (b : Bnopless s) (out : (getC s (consWho (consOf s e.val))).out = [])
  (used : (consOf s e.val).used = true) (done : (consOf s e.val).done = none) (orphan : (consOf s e.val).orphan = false)
  (slow : (consOf s e.val).fast = false) (kind : (consOf s e.val).kind = .store)
include up b out used done orphan slow kind

theorem refused_store {count : BitVec 16} (gen : (consOf s e.val).gen = count.toNat) (u : Upset) (early : (consOf s e.val).early = some 3) :
    ∃ t, exec (.consignmentCompletion e count u .none) s = .next t ∧ consOf t e.val = { gen := (consOf s e.val).gen } ∧ SameMemory s t ∧
      (getC t (consWho (consOf s e.val))).imprecise = (getC s (consWho (consOf s e.val))).imprecise ++
        [{ vec := 3, cstat := 3, addr := u32 (consOf s e.val).addr
           info := (consOf s e.val).earlyInfo ||| finfo (consOf s e.val).size e.val, write := true }] := by
  refine ⟨_, exec_completion count u .none up, ?_⟩
  have found : arrival s e.val count.toNat u .none = _ := completeCons_refused u used gen done early
  rw [found]
  obtain ⟨entry, mem, _, _, _, raised⟩ := failure_delivered (st := 3) (carries_refl s) kind orphan slow (by decide) out b _ rfl
  exact ⟨entry, fun a => by rw [rdB, mem, rdB], by rw [raised, consItem_store kind]; rfl⟩

theorem differing_store {count : BitVec 16} (gen : (consOf s e.val).gen = count.toNat) (u : Upset) (sealed : sealedEntry (consOf s e.val) = false) :
    ∃ t, exec (.consignmentCompletion e count u .double) s = .next t ∧ Undecided s e.val t ∧
      consOf t e.val = { gen := (consOf s e.val).gen } ∧
      fld (getR t aCshTblerr) 16 16 = satAdd 65535 (fld (getR s aCshTblerr) 16 16) 1 ∧
      (getC t (consWho (consOf s e.val))).imprecise = (getC s (consWho (consOf s e.val))).imprecise ++
        [{ vec := 11, cstat := 2, addr := u32 (consOf s e.val).addr, info := finfo (consOf s e.val).size e.val, write := true }] := by
  refine ⟨_, exec_completion count u .double up, ?_⟩
  rw [arrival_double u used gen done sealed]
  obtain ⟨kept, undecided⟩ := mayPerform_keeps (e := e.val) kind
  have counted := measures_bumpR (mayPerform s e.val) aCshTblerr 16 16 1
  have recorded := measures_policy (bumpR (mayPerform s e.val) aCshTblerr 16 16 1) pcTABLE
  have triggered := (signals_trigger (policy (bumpR (mayPerform s e.val) aCshTblerr 16 16 1) pcTABLE) 0).measures
  obtain ⟨entry, mem, late, regs, _, raised⟩ := failure_delivered (st := 2)
    (((kept.carries.trans counted.carries).trans recorded.carries).trans triggered.carries) kind orphan slow (by decide) out b _ rfl
  refine ⟨undecided.of_same ?_ ?_, entry, ?_, ?_⟩
  · rw [mem, triggered.mem, recorded.mem, counted.mem]
  · rw [late, triggered.lateAcc, recorded.lateAcc, counted.lateAcc]
  · rw [regs, triggered.csr _ (by decide), recorded.csr _ (by decide), fld_bumpR _ _ _ (by decide), kept.regs _ (by decide)]
    rfl
  · rw [raised, consItem_store kind]
    rfl

theorem timed_out_store (first : (consOf s e.val).first = none) (tmo : (consOf s e.val).tmo = false) (early : (consOf s e.val).early = none)
    (sealed : sealedEntry (consOf s e.val) = false) (still : retrying s e.val = false) :
    ∃ t, exec (.consignmentTimeout (.entry e false) .none) s = .next t ∧ Undecided s e.val t ∧
      consOf t e.val = { gen := (consOf s e.val).gen } ∧
      fld (getR t aCshTmocnt) 0 32 = satAdd (2 ^ 32 - 1) (getR s aCshTmocnt).toNat 1 ∧
      (srcOf t 8).edgecnt = (srcOf s 8).edgecnt + 1 ∧
      (getC t (consWho (consOf s e.val))).imprecise = (getC s (consWho (consOf s e.val))).imprecise ++
        [{ vec := 12, cstat := 4, addr := u32 (consOf s e.val).addr, info := finfo (consOf s e.val).size e.val, write := true }] := by
  refine ⟨_, exec_timeout up, ?_⟩
  rw [timeoutCons_whole used done tmo early sealed orphan first still]
  obtain ⟨kept, undecided⟩ := mayPerform_keeps (e := e.val) kind
  have counted := measures_bumpR (mayPerform s e.val) aCshTmocnt 0 32 1
  have triggered := (signals_trigger (bumpR (mayPerform s e.val) aCshTmocnt 0 32 1) 8).measures
  obtain ⟨entry, mem, late, regs, srcs, raised⟩ := failure_delivered (st := 4)
    ((kept.carries.trans counted.carries).trans triggered.carries) kind orphan slow (by decide) out b _ rfl
  refine ⟨undecided.of_same ?_ ?_, entry, ?_, ?_, ?_⟩
  · rw [mem, triggered.mem, counted.mem]
  · rw [late, triggered.lateAcc, counted.lateAcc]
  · rw [regs, triggered.csr _ (by decide), fld_bumpR _ _ _ (by decide), kept.regs _ (by decide), fld_whole]
  · rw [srcs, edgecnt_trigger _ (by decide) (by decide) (by decide), counted.src 8 (by decide), kept.src 8 (by decide)]
  · rw [raised, consItem_store kind]
    rfl

section
variable {r : Rival} (early : (consOf s e.val).early = none) (bank : region (consOf s e.val).addr = some .bank)
  (lost : loses .c true false r = true)
include early bank lost

omit orphan slow in
theorem retried_store (few : (consOf s e.val).tries < 8) :
    ∃ t, exec (.bankCRetry ⟨.entry e false, r⟩) s = .next t ∧ SameMemory s t ∧ SameContexts s t ∧
      consOf t e.val = { consOf s e.val with tries := (consOf s e.val).tries + 1, half := false } ∧
      fld (getR t aBnkBusy) 0 16 = satAdd 65535 (fld (getR s aBnkBusy) 0 16) 1 := by
  refine ⟨_, exec_retry r up, ?_⟩
  rw [busyRetry_again used done early kind bank lost few]
  have clear : Bnopless (bumpR s aBnkBusy 0 16 1) := b
  have here : ∀ {k : Cons}, k.addr = (consOf s e.val).addr → unsent k = false := fun h => by
    rw [unsent, h, bank, show decide (some Region.bank = some Region.host) = false from rfl, Bool.and_false, Bool.false_and]
  generalize hk : ({ consOf s e.val with tries := (consOf s e.val).tries + 1, half := false } : Cons) = k
  have same : ∀ w, getC (setCons (bumpR s aBnkBusy 0 16 1) e.val k) w = getC s w := fun w => by cases w <;> rfl
  obtain ⟨sends, kept⟩ := afterCons_sends (s := s) (e := e.val) (t := setCons (bumpR s aBnkBusy 0 16 1) e.val k) (by rw [same]) (by rw [same, out])
    (bnopless_setCons clear _ (by rw [← hk]; exact bnopless_consOf b _))
  obtain ⟨mem, _, regs, _, contexts⟩ := sent_settled sends
  refine ⟨fun a => by rw [rdB, mem]; rfl, fun w => (contexts w).trans (by rw [same]), ?_, ?_⟩
  · rw [consOf_settle, kept e.val fun x hx he => by
      rw [SMap.eq_of_mem_set (m := s.cons) (d := ({} : Cons)) hx he]
      exact here (by rw [← hk]), consOf_setCons, if_pos rfl]
  · rw [regs]
    exact fld_bumpR s aBnkBusy 1 (by decide)

theorem given_up_store (many : 8 ≤ (consOf s e.val).tries) :
    ∃ t, exec (.bankCRetry ⟨.entry e false, r⟩) s = .next t ∧ SameMemory s t ∧ consOf t e.val = { gen := (consOf s e.val).gen } ∧
      fld (getR t aBnkBusy) 16 16 = satAdd 65535 (fld (getR s aBnkBusy) 16 16) 1 ∧
      (getC t (.coach (consOf s e.val).coach)).imprecise = (getC s (.coach (consOf s e.val).coach)).imprecise ++
        [{ vec := 10, cstat := 1, addr := u32 (consOf s e.val).addr, info := finfo (consOf s e.val).size e.val, write := true }] := by
  refine ⟨_, exec_retry r up, ?_⟩
  rw [busyRetry_over used done early kind bank lost many]
  have counted := measures_bumpR s aBnkBusy 16 16 1
  have triggered := (signals_trigger (bumpR s aBnkBusy 16 16 1) 6).measures
  obtain ⟨entry, mem, _, regs, _, raised⟩ := failure_delivered (st := 1)
    (counted.carries.trans triggered.carries) kind orphan slow (by decide) out b _ rfl
  have who : consWho (consOf s e.val) = .coach (consOf s e.val).coach := by
    rw [consWho, slow]
    rfl
  refine ⟨fun a => by rw [rdB, mem, triggered.mem, counted.mem, rdB], entry, ?_, ?_⟩
  · rw [regs, triggered.csr _ (by decide), fld_bumpR _ _ _ (by decide)]
    rfl
  · rw [← who, raised, consItem_store kind]
    rfl

end

end

/-! ### Late completions -/

theorem carries_freed (s : State) : Carries s { s with lateAcc := [] } :=
  ⟨rfl, fun w => ⟨(getC s w).st, (getC s w).wake, by cases w <;> rfl⟩⟩

theorem late_sends {s t : State} {e : Nat} (b : Bnopless s) (out : (getC s (consWho (consOf s e))).out = []) (h : Carries s t) :
    SameButSends t (afterCons s t e) :=
  (afterCons_sends (h.get Coach.stall (fun _ _ _ => rfl) _) ((h.get Coach.out (fun _ _ _ => rfl) _).trans out) (h.bnopless b)).1

section
variable {s : State} {e : Fin 3072} (up : s.up = true) (b : Bnopless s) (out : (getC s (consWho (consOf s e.val))).out = [])
  {count : BitVec 16} (u : Upset) (stale : (consOf s e.val).used = false ∨ (consOf s e.val).gen ≠ count.toNat)
include up b out stale

theorem late_completion (unknown : ∀ x ∈ s.lateAcc, x.1 = e.val → x.2.gen ≠ count.toNat) :
    ∃ t, exec (.consignmentCompletion e count u .none) s = .next t ∧ SameContexts s t ∧ SameMemory s t ∧
      fld (getR t aCshLate) 0 32 = satAdd (2 ^ 32 - 1) (getR s aCshLate).toNat 1 ∧ (srcOf t 9).edgecnt = (srcOf s 9).edgecnt + 1 := by
  refine ⟨_, exec_completion count u .none up, ?_⟩
  have found : arrival s e.val count.toNat u .none = trigger (bumpR s aCshLate 0 32 1) 9 :=
    (completeCons_late u stale).trans (by rw [performLate_none unknown, lateCons])
  rw [found]
  have counted := measures_bumpR s aCshLate 0 32 1
  have triggered := (signals_trigger (bumpR s aCshLate 0 32 1) 9).measures
  obtain ⟨mem, _, regs, srcs, contexts⟩ := sent_settled (late_sends b out (counted.carries.trans triggered.carries))
  refine ⟨fun w => (contexts w).trans ((triggered.sameContexts w).trans (counted.sameContexts w)), fun a => ?_, ?_, ?_⟩
  · rw [rdB, mem, triggered.mem, counted.mem, rdB]
  · rw [regs, triggered.csr _ (by decide), fld_bumpR _ _ _ (by decide), fld_whole]
  · rw [srcs, edgecnt_trigger _ (by decide) (by decide) (by decide), counted.src 9 (by decide)]

theorem late_access {q : Cons} (one : s.lateAcc = [(e.val, q)]) (gen : q.gen = count.toNat) (ready : unitReady s q = true) :
    ∃ t, exec (.consignmentCompletion e count u .none) s = .next t ∧ t.lateAcc = [] ∧
      t.mem = (performAt { s with lateAcc := [] } q).1.mem := by
  refine ⟨_, exec_completion count u .none up, ?_⟩
  have found : arrival s e.val count.toNat u .none =
      trigger (bumpR (performAt { s with lateAcc := [] } q).1 aCshLate 0 32 1) 9 :=
    (completeCons_late u stale).trans (by rw [performLate_one one gen ready, lateCons])
  rw [found]
  have served := served_performAt { s with lateAcc := [] } q
  have counted := measures_bumpR (performAt { s with lateAcc := [] } q).1 aCshLate 0 32 1
  have triggered := (signals_trigger (bumpR (performAt { s with lateAcc := [] } q).1 aCshLate 0 32 1) 9).measures
  obtain ⟨mem, late, _, _, _⟩ := sent_settled
    (late_sends b out ((((carries_freed s).trans served.carries).trans counted.carries).trans triggered.carries))
  refine ⟨?_, ?_⟩
  · rw [late, triggered.lateAcc, counted.lateAcc, served.lateAcc]
  · rw [mem, triggered.mem, counted.mem]

end

/-- Settles O21: a completion that the Keystone refused, whose copies differ, or that times out fails with its status; a late one
is counted, and performs what may still be to do; an access that keeps losing at the C port is tried eight times. -/
theorem failingConsignments : Obligations.FailingConsignments := by
  unfold Obligations.FailingConsignments
  refine ⟨?_, ?_⟩
  · intro s e count u k w undecided up idle b out
    have clear : Bnopless s := b
    refine ⟨fun used gen done orphan slow kind => ⟨?_, ?_, ?_⟩, ?_, ?_⟩
    · exact refused_store up clear out used done orphan slow kind gen u
    · exact differing_store up clear out used done orphan slow kind gen u
    · exact fun first tmo early sealed still => timed_out_store up clear out used done orphan slow kind first tmo early sealed still
    · exact late_completion up clear out u
    · exact fun q stale one gen ready => late_access up clear out u stale one gen ready
  · intro s e r k up idle b lost out used done early orphan slow kind bank
    exact ⟨retried_store up b out used done kind early bank lost, given_up_store up b out used done orphan slow kind early bank lost⟩

end Sys2Proof.Machine
end

section
/-! SUPPORT. Entry of a handler at a boundary: the stores of its frame (spec/06 R170 to R172). -/

namespace Sys2Proof.Machine

/-! ### The words of a frame -/

theorem pairUp_getD : ∀ (ws : List Word) (k : Nat), 2 * k + 1 < ws.length → (pairUp ws).getD k 0 = mkD (ws.getD (2 * k + 1) 0) (ws.getD (2 * k) 0)
  | [], _, h => absurd h (Nat.not_lt_zero _)
  | [_], k, h => absurd h (by rw [List.length_singleton]; omega)
  | _ :: _ :: _, 0, _ => rfl
  | _ :: _ :: r, k + 1, h => pairUp_getD r k (by rw [List.length_cons, List.length_cons] at h; omega)

theorem length_pairUp : ∀ ws : List Word, (pairUp ws).length = (ws.length + 1) / 2
  | [] => rfl
  | [_] => by rw [pairUp, List.length_singleton, List.length_singleton]
  | _ :: _ :: r => by
    rw [pairUp, List.length_cons, length_pairUp r, List.length_cons, List.length_cons]
    omega

/-- Double word `k` of a frame at `a`, as a store. -/
def frameStore (ring l a : Nat) (ds : List DWord) (k : Nat) : Posted := ⟨a + 8 * k, 8, ds.getD k 0, ring, l, true⟩

theorem frameStore_mem (ring l : Nat) : ∀ (ds : List DWord) (a k : Nat), k < ds.length → frameStore ring l a ds k ∈ frameStores ring l a ds
  | [], _, _, h => absurd h (Nat.not_lt_zero _)
  | _ :: _, _, 0, _ => List.mem_cons_self
  | d :: ds, a, k + 1, h => by
    have later := frameStore_mem ring l ds (a + 8) k (Nat.lt_of_succ_lt_succ h)
    rw [frameStore, show a + 8 + 8 * k = a + 8 * (k + 1) by omega] at later
    exact List.mem_cons_of_mem _ later

theorem mem_frameStores (ring l : Nat) : ∀ (ds : List DWord) (a : Nat) {p : Posted}, p ∈ frameStores ring l a ds →
    ∃ k, k < ds.length ∧ p = frameStore ring l a ds k
  | [], _, _, h => absurd h List.not_mem_nil
  | d :: ds, a, p, h => by
    rcases List.mem_cons.1 h with rfl | h
    · exact ⟨0, Nat.succ_pos _, rfl⟩
    · obtain ⟨k, hk, rfl⟩ := mem_frameStores ring l ds (a + 8) h
      exact ⟨k + 1, Nat.succ_lt_succ hk, by rw [frameStore, frameStore, show a + 8 + 8 * k = a + 8 * (k + 1) by omega]; rfl⟩

theorem length_frameBody (c : Coach) : (frameBody c).length = 28 := by
  simp only [frameBody, headWords, List.length_append, List.length_map, List.length_range, List.length_cons, List.length_nil]

/-! ### The bytes of a frame -/

theorem ownerRefusal_part {s : State} {r : Req} {a n : Nat} {k : Access} (h : ownerRefusal s r a n k = none) {p : Nat × Nat}
    (hp : p ∈ bankParts a n) : (bankN s (bankOf p.1)).own = .owned ∧ coreAdmits (bankN s (bankOf p.1)).owner r k = true := by
  have none := List.findSome?_eq_none_iff.1 h p hp
  dsimp only at none
  split_ifs at none with refused admits
  exact ⟨not_not.1 refused, admits⟩

/-- The double words of an admitted range are admitted each. -/
theorem ownerRefusal_word {s : State} {r : Req} {p n m : Nat} {k : Access} (h : ownerRefusal s r p n k = none) (aligned : p % 8 = 0)
    (low : 0x10000000 ≤ p) (few : n ≤ 0x10000) (inside : 8 * m + 8 ≤ n) : ownerRefusal s r (p + 8 * m) 8 k = none := by
  have whole : bankParts (p + 8 * m) 8 = [(p + 8 * m, 8)] := if_pos (by omega)
  obtain ⟨q, hq, same⟩ : ∃ q ∈ bankParts p n, bankOf q.1 = bankOf (p + 8 * m) := by
    unfold bankParts
    dsimp only
    split
    · exact ⟨_, List.mem_singleton_self _, show (p - 0x10000000) / 0x10000 = (p + 8 * m - 0x10000000) / 0x10000 by omega⟩
    · by_cases first : p + 8 * m < (p / 0x10000 + 1) * 0x10000
      · exact ⟨_, List.mem_cons_self, show (p - 0x10000000) / 0x10000 = (p + 8 * m - 0x10000000) / 0x10000 by omega⟩
      · exact ⟨_, List.mem_cons_of_mem _ (List.mem_singleton_self _),
          show ((p / 0x10000 + 1) * 0x10000 - 0x10000000) / 0x10000 = (p + 8 * m - 0x10000000) / 0x10000 by omega⟩
  obtain ⟨owned, admits⟩ := ownerRefusal_part h hq
  rw [same] at owned admits
  unfold ownerRefusal
  rw [whole, List.findSome?_cons]
  dsimp only
  rw [if_neg (not_not.2 owned), if_pos admits]
  rfl

/-- A range of memory that a frame or image may take. -/
theorem phys_word {a n m : Nat} (range : bankRange a n = true) (inside : 8 * m + 8 ≤ n) : phys (a + 8 * m) = phys a + 8 * m ∧
    0x10000000 ≤ phys a ∧ phys a % 8 = a % 8 := by
  simp only [bankRange, inBanks, Bool.or_eq_true, Bool.and_eq_true, decide_eq_true_eq] at range
  unfold phys
  rcases range with ⟨low, high⟩ | ⟨low, high⟩
  · rw [if_neg (by omega), if_neg (by omega)]
    exact ⟨rfl, low, rfl⟩
  · rw [if_pos (by omega), if_pos (by omega)]
    omega

/-! ### A frame is written at a boundary -/

theorem consOf_countWait (s : State) (w : Who) (e : Nat) : consOf (countWait s w) e = consOf s e := by
  unfold countWait
  split
  · rfl
  · rw [consOf_modC]
    rfl

theorem getC_countWait (s : State) (w : Who) : ∃ wt, getC (countWait s w) w = { getC s w with waited := wt } := by
  unfold countWait
  split
  · exact ⟨_, rfl⟩
  · rw [getC_modC_self]
    cases w <;> exact ⟨_, rfl⟩

/-- The double words of the first part of a frame, and those of its causes. -/
def bodyWords (c : Coach) : List DWord := pairUp (frameBody c)

def causeWords (cause : Word) (x : XItem) (a : Nat) : List DWord := pairUp [cause, x.addr, x.info, linkWord a]

/-- The context of `n` in the handler of item `x`, with the causes of its frame still to post. -/
def inHandler (s : State) (n : Nat) (x : XItem) (c0 d : Coach) : Coach :=
  let cause := causeWord x.vec x.vec x.reason x false 0
  { enterCoach s { d with wbp := d.wbp + 128 } x.vec (entryMask s x.vec x) (x.vec == 13) d.dsp d.rsp with
    xcause := cause, xaddr := x.addr, xinfo := x.info
    out := d.out ++ frameStores (handlerRing s x.vec (ringOf c0)) (laneOfCoach s n) (c0.wbp.toNat + 0x70) (causeWords cause x c0.wbp.toNat)
    window := some ⟨c0.wbp.toNat, x, itemPri s x, ringOf c0⟩ }

/-- State `s` with the first part of the frame on its way. -/
def bodyPosted (s : State) (n : Nat) (x : XItem) (c0 : Coach) : State :=
  postOut (modC s (.coach n) (fun c => { c with
    out := c.out ++ frameStores (handlerRing s x.vec (ringOf c0)) (laneOfCoach s n) c0.wbp.toNat (bodyWords c0) })) (.coach n)

theorem waybillFrame_eq (s : State) (n : Nat) (x : XItem) (c0 : Coach) : waybillFrame s n x.vec x false c0 =
    let t := bodyPosted s n x c0
    let t1 := modC t (.coach n) (inHandler s n x c0)
    if (getC t (.coach n)).out.isEmpty then t1 else countWait t1 (.coach n) := rfl

section
variable {s : State} {n : Nat} {x : XItem} {c0 : Coach} (out : (coachOf s n).out = []) (range : bankRange c0.wbp.toNat 128 = true)
  (aligned : c0.wbp.toNat % 8 = 0)
  (admitted : ownerRefusal s ⟨n, handlerRing s x.vec (ringOf c0), decide (laneOfCoach s n ≠ 0)⟩ (phys c0.wbp.toNat) 128 .store = none)
include out range aligned admitted

theorem bodyPosted_posts : Posts poolRegs s (bodyPosted s n x c0) (.coach n) ∧
    ∀ k, k < 14 → Lands s (bodyPosted s n x c0) (.coach n)
      (frameStore (handlerRing s x.vec (ringOf c0)) (laneOfCoach s n) c0.wbp.toNat (bodyWords c0) k) := by
  have length : (bodyWords c0).length = 14 := by rw [bodyWords, length_pairUp, length_frameBody]
  generalize hstores : frameStores (handlerRing s x.vec (ringOf c0)) (laneOfCoach s n) c0.wbp.toNat (bodyWords c0) = stores
  have queued := posts_modC poolRegs s (.coach n) (f := fun c => { c with out := c.out ++ stores }) ⟨stores, _, _, _, rfl⟩
  have admits : ∀ p ∈ (getC (modC s (.coach n) (fun c => { c with out := c.out ++ stores })) (.coach n)).out,
      Admitted (modC s (.coach n) (fun c => { c with out := c.out ++ stores })) (.coach n) p := fun p hp => by
    rw [getC_modC_self] at hp
    replace hp : p ∈ (coachOf s n).out ++ stores := hp
    rw [out, List.nil_append, ← hstores] at hp
    obtain ⟨k, hk, rfl⟩ := mem_frameStores _ _ _ _ hp
    obtain ⟨word, low, same⟩ := phys_word (m := k) range (by omega)
    refine .inr ?_
    rw [ownerRefusal_modC, frameStore]
    dsimp only
    rw [word]
    have inside := ownerRefusal_word admitted (m := k) (by omega) low (by decide) (by omega)
    rw [show decide (laneOfCoach s n ≠ 0) = (laneOfCoach s n != 0) by rw [Bool.eq_iff_iff, decide_eq_true_iff, bne_iff_ne]] at inside
    exact inside
  have posted := posts_postOut (l := poolRegs) (List.Subset.refl _) poolRegs_lock poolRegs_fast (.inl admits)
  refine ⟨?_, fun k hk => ?_⟩
  · rw [bodyPosted, hstores]
    exact queued.trans posted
  · have waits := posted.pend (frameStore (handlerRing s x.vec (ringOf c0)) (laneOfCoach s n) c0.wbp.toNat (bodyWords c0) k)
      (by
        rw [getC_modC_self]
        exact List.mem_append_right _ (hstores ▸ frameStore_mem _ _ _ _ _ (by omega)))
    rw [bodyPosted, hstores]
    exact waits.earlier queued

/-- The handler is entered, every double word of its frame is stored or waits, and nothing else changes. -/
theorem waybillFrame_enters : let t := settle (waybillFrame s n x.vec x false c0)
    let cause := causeWord x.vec x.vec x.reason x false 0
    SameMemory s t ∧ SameRegistersBut poolRegs s t ∧ SameOthers s t (.coach n) ∧
      (∀ k, k < 14 → NewStore s t (.coach n) (c0.wbp.toNat + 8 * k) 8 ((bodyWords c0).getD k 0)) ∧
      (∀ k, k < 2 → NewStore s t (.coach n) (c0.wbp.toNat + 0x70 + 8 * k) 8 ((causeWords cause x c0.wbp.toNat).getD k 0)) ∧
      seen (coachOf t n) = seen (inHandler s n x c0 (coachOf s n)) := by
  intro t cause
  obtain ⟨posts, lands⟩ := bodyPosted_posts out range aligned admitted
  obtain ⟨u, hu⟩ : ∃ u, u = bodyPosted s n x c0 := ⟨_, rfl⟩
  rw [← hu] at posts lands
  obtain ⟨v, hv⟩ : ∃ v, v = waybillFrame s n x.vec x false c0 := ⟨_, rfl⟩
  have eq := hv.trans (waybillFrame_eq s n x c0)
  rw [← hu] at eq
  dsimp only at eq
  have cons : ∀ e, consOf v e = consOf u e := fun e => by
    rw [eq]
    split
    · exact consOf_modC ..
    · rw [consOf_countWait, consOf_modC]
  have own : ∃ wt, getC v (.coach n) = { inHandler s n x c0 (getC u (.coach n)) with waited := wt } := by
    rw [eq]
    split
    · exact ⟨_, getC_modC_self ..⟩
    · obtain ⟨wt, e⟩ := getC_countWait (modC u (.coach n) (inHandler s n x c0)) (.coach n)
      exact ⟨wt, e.trans (by rw [getC_modC_self])⟩
  have frame : SameMemory u v ∧ SameRegistersBut poolRegs u v ∧ ∀ w, w ≠ .coach n → getC v w = getC u w := by
    have entered : SameMemory u (modC u (.coach n) (inHandler s n x c0)) ∧ SameRegistersBut poolRegs u (modC u (.coach n) (inHandler s n x c0)) ∧
        ∀ w, w ≠ .coach n → getC (modC u (.coach n) (inHandler s n x c0)) w = getC u w :=
      ⟨fun _ => rfl, fun _ _ => rfl, fun w hw => getC_modC_other _ _ _ _ hw⟩
    rw [eq]
    split
    · exact entered
    · have waits := posts_countWait (l := poolRegs) (List.Subset.refl _) (modC u (.coach n) (inHandler s n x c0)) (.coach n)
      obtain ⟨mem, regs, others⟩ := entered
      exact ⟨fun a => (waits.sameMemory a).trans (mem a), fun a ha => (waits.csr a ha).trans (regs a ha),
        fun w hw => (waits.others w hw).trans (others w hw)⟩
  obtain ⟨mem, regs, others⟩ := frame
  obtain ⟨wt, own⟩ := own
  have settled := settled_settle v
  have ht : t = settle v := by rw [hv]
  have sent : (getC t (.coach n)).out = (getC v (.coach n)).out := by
    rw [ht]
    exact (settled.getC (.coach n)).out
  have waits : (getC v (.coach n)).out = (getC u (.coach n)).out ++
      frameStores (handlerRing s x.vec (ringOf c0)) (laneOfCoach s n) (c0.wbp.toNat + 0x70) (causeWords cause x c0.wbp.toNat) := by
    rw [own]
    rfl
  have landed : ∀ p, Lands s u (.coach n) p → Lands s v (.coach n) p := fun p h => h.elim
    (fun h => .inl (by rw [waits]; exact List.mem_append_left _ h)) (fun ⟨e, he, hk⟩ => .inr ⟨e, he, by rw [cons]; exact hk⟩)
  have store : ∀ p, Lands s v (.coach n) p → NewStore s t (.coach n) p.addr p.size p.data := fun p h =>
    newStore_of_lands h (by rw [ht, settled.cons]) sent
  obtain ⟨o, h, st, wt', same⟩ := posts.own
  refine ⟨fun a => ?_, fun a ha => ?_, fun w hw => ?_, fun k hk => ?_, fun k hk => ?_, ?_⟩
  · rw [ht, rdB_settle, mem, posts.sameMemory]
  · rw [ht, getR_settle, regs a ha, posts.csr a ha]
  · rw [ht, seen_settle, others w hw, posts.others w hw]
  · exact store _ (landed _ (lands k hk))
  · refine store (frameStore (handlerRing s x.vec (ringOf c0)) (laneOfCoach s n) (c0.wbp.toNat + 0x70) (causeWords cause x c0.wbp.toNat) k) (.inl ?_)
    rw [waits]
    exact List.mem_append_right _ (frameStore_mem _ _ _ _ _ hk)
  · rw [ht]
    refine (seen_settle v (.coach n)).trans ?_
    rw [own, same]
    rfl

end

end Sys2Proof.Machine
end

section
/-! Entries at a boundary, the end of a quantum, and wake timers (spec/05 R136, R139, R151; spec/06 R169 to R171, R181, R182). -/

namespace Sys2Proof.Machine

/-! ### The item of a boundary -/

section
variable {s : State} {n : Nat} {x : XItem}

theorem atBoundary_takes (calm : (n == 0 && !svc s && (coachOf s n).l3Req) = false) (pexc : (coachOf s n).pexc = none)
    (window : (coachOf s n).window = none) (item : boundaryItem s n (coachOf s n) = some x) :
    atBoundary s (.coach n) = some (takeBoundary s n x) := by
  unfold atBoundary
  dsimp only
  rw [pexc]
  dsimp only
  rw [calm, if_neg Bool.false_ne_true, window]
  dsimp only
  rw [item]
  rfl

theorem entryAt_takes {l : Nat} (runs : lsRuns s l = true) (slow : (l == 0 && fastReady s) = false) (issues : issuer s l = some (.coach n))
    (held : (coachOf s n).held = none) (stall : (coachOf s n).stall = none) (drain : (coachOf s n).drain = false)
    (step : (coachOf s n).step = false) {t : State} (takes : atBoundary s (.coach n) = some t) : entryAt s l = t := by
  unfold entryAt
  rw [runs, slow, if_neg (by decide), issues]
  dsimp only [getC]
  rw [step, held, stall, drain]
  simp only [Bool.false_eq_true, if_false, Option.isSome_none, Bool.false_and, Bool.or_false, takes, Option.getD_some]

end

/-! ### WAYBILL_ENTRY -/

/-- Coach `c` once item `x` has been taken out of its list; an event is in none. -/
def unlisting (c : Coach) (x : XItem) : Coach := if x.vec = 32 then c else takeItem c x

/-- State `s` once item `x` of coach `n` has been taken. -/
def itemTaken (s : State) (n : Nat) (x : XItem) : State := if x.vec = 32 then s else setCoach s n (takeItem (coachOf s n) x)

theorem itemTaken_cases (s : State) (n : Nat) (x : XItem) : itemTaken s n x = s ∨ ∃ c, itemTaken s n x = setCoach s n c := by
  unfold itemTaken
  split
  · exact .inl rfl
  · exact .inr ⟨_, rfl⟩

theorem coachOf_itemTaken (s : State) (n : Nat) (x : XItem) : coachOf (itemTaken s n x) n = unlisting (coachOf s n) x := by
  unfold itemTaken unlisting
  split
  · rfl
  · rw [coachOf_setCoach, if_pos rfl]

theorem unlisting_keeps (c : Coach) (x : XItem) : (unlisting c x).wbp = c.wbp ∧ (unlisting c x).out = c.out ∧ ringOf (unlisting c x) = ringOf c := by
  unfold unlisting
  split
  · exact ⟨rfl, rfl, rfl⟩
  · exact ⟨rfl, rfl, fld_setBit_of_outside _ _ (by decide) (by decide)⟩

theorem takeBoundary_service {s : State} {n : Nat} {x : XItem} (service : svc s = true) (room : waybillRoom (coachOf s n) = true)
    (arrived : pendingEntries (coachOf s n) = []) :
    takeBoundary s n x = waybillFrame (itemTaken s n x) n x.vec x false (coachOf s n) := by
  unfold takeBoundary
  rw [service, if_pos rfl]
  unfold waybillEntry itemTaken
  dsimp only
  rw [room, arrived]
  by_cases event : x.vec = 32
  · rw [if_pos event, event]
    rfl
  · have other : (false || x.vec == vEVENT) = false := beq_eq_false_iff_ne.2 event
    rw [if_neg event, other]
    rfl

/-- The 32 words of a frame, two by two. -/
theorem frame_words (c : Coach) (cause : Word) (x : XItem) (a : Nat) {k : Nat} (hk : k < 16) :
    let word := fun j => (frameBody c ++ [cause, x.addr, x.info, linkWord a]).getD j 0
    (k < 14 → (bodyWords c).getD k 0 = mkD (word (2 * k + 1)) (word (2 * k))) ∧
      (14 ≤ k → (causeWords cause x a).getD (k - 14) 0 = mkD (word (2 * k + 1)) (word (2 * k))) := by
  intro word
  have length := length_frameBody c
  refine ⟨fun few => ?_, fun last => ?_⟩
  · rw [bodyWords, pairUp_getD _ _ (by omega)]
    show _ = mkD ((frameBody c ++ [cause, x.addr, x.info, linkWord a]).getD _ 0) ((frameBody c ++ [cause, x.addr, x.info, linkWord a]).getD _ 0)
    rw [List.getD_append _ _ _ _ (by omega), List.getD_append _ _ _ _ (by omega)]
  · show _ = mkD ((frameBody c ++ [cause, x.addr, x.info, linkWord a]).getD _ 0) ((frameBody c ++ [cause, x.addr, x.info, linkWord a]).getD _ 0)
    rw [List.getD_append_right _ _ _ _ (by omega), List.getD_append_right _ _ _ _ (by omega), length]
    obtain rfl | rfl : k = 14 ∨ k = 15 := by omega
    · rfl
    · rfl

/-- What a program finds in the handler. -/
theorem seen_inHandler {s : State} {n : Nat} {x : XItem} (c0 c : Coach) (single : x.vec ≠ 13) :
    let cause := causeWord x.vec x.vec x.reason x false 0
    let mask := if x.vec = 32 then itemPri s x else vpri s x.vec
    let st := setFld (setFld (setBit (setBit c.status 17 true) 19 false) 0 2 (handlerRing s x.vec (ringOf c))) 8 8 mask
    seen (inHandler s n x c0 c) = ([u32 (0x10000 + 16 * x.vec), setBit (setBit st 18 (!c.imprecise.isEmpty)) 16 (holdOf c),
      if onXAt s .d c c.dsp then c.dsp else c.xdsp, if onXAt s .r c c.rsp then c.rsp else c.xrsp, 0, 0, c.dlim, c.rlim,
      c.xdsp, c.xrsp, c.a, c.b, c.lstart, c.lend, c.lcount, c.wbp + 128, c.wblim, c.keeper, c.ccfg, cause, x.addr, x.info], [], []) := by
  intro cause mask st
  have masked : entryMask s x.vec x = mask := if_neg single
  have calm : (x.vec == 13) = false := beq_eq_false_iff_ne.2 single
  unfold inHandler
  dsimp only
  rw [masked, calm]
  unfold enterCoach
  rw [Bool.or_false]
  rfl

theorem waybill_taken {s : State} {l : Fin 3} {n : Nat} {x : XItem} (service : svc s = true) (takes : entryAt s l.val = takeBoundary s n x)
    (out : (coachOf s n).out = []) (single : x.vec ≠ 13) (room : waybillRoom (coachOf s n) = true) (arrived : pendingEntries (coachOf s n) = [])
    (admitted : ownerRefusal s ⟨n, handlerRing s x.vec (ringOf (unlisting (coachOf s n) x)), decide (laneOfCoach s n ≠ 0)⟩
      (phys (unlisting (coachOf s n) x).wbp.toNat) 128 .store = none) :
    let c := unlisting (coachOf s n) x
    let a := c.wbp.toNat
    let cause := causeWord x.vec x.vec x.reason x false 0
    let mask := if x.vec = 32 then itemPri s x else vpri s x.vec
    let st := setFld (setFld (setBit (setBit c.status 17 true) 19 false) 0 2 (handlerRing s x.vec (ringOf c))) 8 8 mask
    ∃ t, exec (.waybillEntry l) s = .next t ∧ SameMemory s t ∧ SameRegistersBut [aCshPool, aCshPoolwait] s t ∧
      SameOthers s t (.coach n) ∧
      (∀ k, k < 16 →
        let word := fun j => (frameBody (coachOf s n) ++ [cause, x.addr, x.info, u32 (0x57A7 * 65536 + a % 65536)]).getD j 0
        NewStore s t (.coach n) (a + 8 * k) 8 (mkD (word (2 * k + 1)) (word (2 * k)))) ∧
      seen (coachOf t n) = ([u32 (0x10000 + 16 * x.vec), setBit (setBit st 18 (!c.imprecise.isEmpty)) 16 (holdOf c),
        if onXAt s .d c c.dsp then c.dsp else c.xdsp, if onXAt s .r c c.rsp then c.rsp else c.xrsp, 0, 0, c.dlim, c.rlim,
        c.xdsp, c.xrsp, c.a, c.b, c.lstart, c.lend, c.lcount, c.wbp + 128, c.wblim, c.keeper, c.ccfg, cause, x.addr,
        x.info], [], []) := by
  intro c a cause mask st
  obtain ⟨wbp, sends, ring⟩ := unlisting_keeps (coachOf s n) x
  have run : exec (.waybillEntry l) s = .next (settle (waybillFrame (itemTaken s n x) n x.vec x false (coachOf s n))) := by
    rw [← takeBoundary_service service room arrived, ← takes]
    show occurs (if svc s then entryAt s l.val else s) = _
    rw [if_pos service]
    rfl
  refine ⟨_, run, ?_⟩
  have own := coachOf_itemTaken s n x
  have same : ∀ {u : State}, (u = s ∨ ∃ c, u = setCoach s n c) → handlerRing u x.vec = handlerRing s x.vec ∧ laneOfCoach u n = laneOfCoach s n ∧
      (∀ r p k, ownerRefusal u r p 128 k = ownerRefusal s r p 128 k) ∧ SameMemory s u ∧ SameRegisters s u ∧ SameOthers s u (.coach n) ∧
      (∀ e, consOf u e = consOf s e) ∧ itemPri u x = itemPri s x ∧ vpri u x.vec = vpri s x.vec ∧ onXAt u = onXAt s := by
    rintro u (rfl | ⟨d, rfl⟩)
    · exact ⟨rfl, rfl, fun _ _ _ => rfl, fun _ => rfl, fun _ => rfl, fun _ _ => rfl, fun _ => rfl, rfl, rfl, rfl⟩
    · exact ⟨rfl, rfl, fun _ _ _ => rfl, fun _ => rfl, fun _ => rfl,
        fun v hv => congrArg seen (getC_modC_other s v (.coach n) (fun _ => d) hv), fun _ => rfl, rfl, rfl, rfl⟩
  obtain ⟨rings, lanes, refusals, mem0, regs0, others0, cons0, pris, vpris, onx⟩ := same (itemTaken_cases s n x)
  generalize itemTaken s n x = u at own rings lanes refusals mem0 regs0 others0 cons0 pris vpris onx
  have fits := room
  unfold waybillRoom at fits
  dsimp only at fits
  rw [Bool.and_eq_true, Bool.and_eq_true, beq_iff_eq] at fits
  obtain ⟨⟨aligned, range⟩, _⟩ := fits
  obtain ⟨mem, regs, others, body, last, handler⟩ := waybillFrame_enters (s := u) (n := n) (x := x) (c0 := coachOf s n)
    (by rw [own, sends, out]) range aligned (by rw [rings, lanes, refusals, ← wbp, ← ring]; exact admitted)
  have from_s : ∀ {t : State} {w : Who} {b m : Nat} {d : DWord}, NewStore u t w b m d → NewStore s t w b m d := fun h => by
    simp only [NewStore, cons0] at h
    exact h
  refine ⟨fun b => (mem b).trans (mem0 b), fun r hr => (regs r hr).trans (regs0 r), fun v hv => (others v hv).trans (others0 v hv), fun k hk => ?_, ?_⟩
  · obtain ⟨first, second⟩ := frame_words (coachOf s n) cause x a hk
    have at_wbp : a = (coachOf s n).wbp.toNat := congrArg BitVec.toNat wbp
    by_cases few : k < 14
    · have h := from_s (body k few)
      rw [first few, ← at_wbp] at h
      exact h
    · have h := from_s (last (k - 14) (by omega))
      rw [← at_wbp, second (by omega), show a + 0x70 + 8 * (k - 14) = a + 8 * k by omega] at h
      exact h
  · rw [handler, own, seen_inHandler _ _ single, pris, vpris, rings, onx]

/-! ### STRONGBOX_ENTRY -/

section
variable {s : State} {x : XItem} (strongbox : svc s = false) (takes : entryAt s 0 = takeBoundary s 0 x)
  (arrived : pendingEntries (coachOf s 0) = [])
include strongbox takes arrived

omit arrived in
theorem exec_strongbox : exec .strongboxEntry s = .next (settle (takeBoundary s 0 x)) := by
  rw [← takes]
  show occurs (if svc s then s else entryAt s 0) = _
  rw [if_neg (by rw [strongbox]; exact Bool.false_ne_true)]
  rfl

omit takes in
theorem takeBoundary_event (event : x.vec = 32) :
    takeBoundary s 0 x = boxEntry s 2 x.vec (itemPri s x) x false (coachOf s 0) := by
  unfold takeBoundary
  rw [strongbox, if_neg Bool.false_ne_true, if_pos event, arrived, event]

omit takes in
theorem takeBoundary_fault (fault : x.vec ≠ 32) (other : x.vec ≠ 15) (free : (sboxOf s 1).occ = false) :
    takeBoundary s 0 x = boxEntry (setCoach s 0 (takeItem (coachOf s 0) x)) 1 x.vec (vpri s x.vec) x false (coachOf s 0) := by
  unfold takeBoundary boxFault
  dsimp only
  rw [strongbox, if_neg Bool.false_ne_true, if_neg fault, Bool.false_and, if_neg Bool.false_ne_true, arrived, free]
  exact if_neg fun both => other both.1

end

theorem sboxOf_entered (s : State) (k : Nat) (b : SBox) (o : List Nat) (n : Nat) (f : Coach → Coach) :
    sboxOf (modC { setSbox s k b with sbOrder := o } (.coach n) f) k = b := (SMap.get_set _ _ _ _ _).trans (if_pos rfl)

/-- A level of the strongbox is entered. -/
theorem boxEntry_enters {s u : State} {x : XItem} (k mask : Nat) (from_s : u = s ∨ u = setCoach s 0 (takeItem (coachOf s 0) x)) :
    let c := coachOf s 0
    let t := settle (boxEntry u k x.vec mask x false c)
    let cause := causeWord x.vec x.vec x.reason x false c.dhead.length
    SameMemory s t ∧ SameRegisters s t ∧ SameOthers s t (.coach 0) ∧
      sboxOf t k = ⟨c.pc, c.status, cause, x.addr, headWords 8 c.dhead, true⟩ ∧ t.sbOrder = k :: s.sbOrder ∧
      (coachOf t 0).pc = u32 (16 * (k + 1)) ∧ (coachOf t 0).dhead = [] ∧ (coachOf t 0).ddepth = 0 ∧
      (coachOf t 0).rhead = c.rhead ∧ bit (coachOf t 0).status 17 = true ∧ fld (coachOf t 0).status 8 8 = mask % 256 ∧
      (coachOf t 0).xcause = cause ∧ (coachOf t 0).xaddr = x.addr ∧ (coachOf t 0).xinfo = x.info := by
  intro c t cause
  obtain ⟨v, hv⟩ : ∃ v, v = boxEntry u k x.vec mask x false c := ⟨_, rfl⟩
  have settled := settled_settle v
  have ht : t = settle v := by rw [hv]
  have frame : SameMemory s v ∧ SameRegisters s v ∧ (∀ w, w ≠ .coach 0 → getC v w = getC s w) ∧ sboxOf v k =
      ⟨c.pc, c.status, cause, x.addr, headWords 8 c.dhead, true⟩ ∧ v.sbOrder = k :: s.sbOrder := by
    rw [hv]
    rcases from_s with rfl | rfl
    · refine ⟨fun _ => rfl, fun _ => rfl, fun w hw => getC_modC_other _ _ _ _ hw, sboxOf_entered _ _ _ _ _ _, rfl⟩
    · refine ⟨fun _ => rfl, fun _ => rfl, fun w hw => (getC_modC_other _ _ _ _ hw).trans ?_, sboxOf_entered _ _ _ _ _ _, rfl⟩
      exact getC_modC_other s w (.coach 0) (fun _ => takeItem (coachOf s 0) x) hw
  have own : ∃ d : Coach, d.rhead = c.rhead ∧ coachOf v 0 = { enterCoach u { d with imprecise := d.imprecise } x.vec mask false d.dsp d.rsp with
      dsp := d.dsp, rsp := d.rsp, rhead := d.rhead, rdepth := d.rdepth, pc := levelPc k
      xcause := cause, xaddr := x.addr, xinfo := x.info } := by
    rw [hv]
    refine ⟨coachOf u 0, ?_, getC_modC_self _ (.coach 0) _⟩
    rcases from_s with rfl | rfl
    · rfl
    · rw [coachOf_setCoach, if_pos rfl]
      rfl
  obtain ⟨mem, regs, others, box, order⟩ := frame
  obtain ⟨d, rhead, own⟩ := own
  obtain ⟨_, _, _, _, _, _, _, _, _, _, _, thread⟩ := settled.coach 0
  rw [← ht, own] at thread
  refine ⟨fun a => ?_, fun r => ?_, fun w hw => ?_, ?_, ?_, ?_, ?_, ?_, ?_, ?_, ?_, ?_, ?_, ?_⟩
  · rw [ht, rdB_settle, mem]
  · rw [ht, getR_settle, regs]
  · rw [ht, seen_settle, others w hw]
  · rw [ht, sboxOf, settled.sbox]
    exact box
  · rw [ht, settled.sbOrder, order]
  · rw [thread, levelPc, Nat.mul_comm]
  · rw [thread]; rfl
  · rw [thread]; rfl
  · rw [thread]; exact rhead
  · rw [thread]
    show bit (setBit (setBit (setFld (setFld (setBit (setBit d.status 17 true) 19 false) 0 2 _) 8 8 mask) 18 _) 16 _) 17 = true
    rw [bit_setBit _ _ (by decide), if_neg (by decide), bit_setBit _ _ (by decide), if_neg (by decide), bit_setFld_of_outside _ _ (by decide),
      bit_setFld_of_outside _ _ (by decide), bit_setBit _ _ (by decide), if_neg (by decide), bit_setBit_self _ _ (by decide)]
  · rw [thread]
    show fld (setBit (setBit (setFld (setFld (setBit (setBit d.status 17 true) 19 false) 0 2 _) 8 8 mask) 18 _) 16 _) 8 8 = mask % 256
    rw [fld_setBit_of_outside _ _ (by decide) (by decide), fld_setBit_of_outside _ _ (by decide) (by decide)]
    exact fld_setFld _ _ (by decide)
  · rw [thread]
  · rw [thread]
  · rw [thread]

/-! ### FAST_ENTRY, QUANTUM_END and TIMER_FIRE -/

theorem fast_entered {s : State} (runs : lsRuns s 0 = true) (ready : fastReady s = true) : let f := getR s aCshFastcfg
    ∃ t, exec .fastEntry s = .next t ∧ t.fastOn = some s.run0 ∧ t.fastPend = false ∧ SameMemory s t ∧ SameRegisters s t ∧
      SameOthers s t .fast ∧
      seen t.fast = (0x10210 :: u32 (fld f 16 8 * 256 + fld f 12 2) :: List.replicate 20 0, [], []) := by
  intro f
  have run : exec .fastEntry s = .next (settle (fastEnter s)) := by
    show occurs (if lsRuns s 0 && fastReady s then fastEnter s else s) = _
    rw [runs, ready]
    rfl
  have settled := settled_settle (fastEnter s)
  refine ⟨_, run, settled.fastOn, settled.fastPend, rdB_settle (fastEnter s), getR_settle (fastEnter s), fun w hw => ?_, ?_⟩
  · refine (seen_settle (fastEnter s) w).trans ?_
    cases w with
    | coach n => rfl
    | fast => exact absurd rfl hw
  · exact (seen_settle (fastEnter s) .fast).trans rfl

theorem fin_beq_zero : ∀ l : Fin 3, (l.val == 0) = (l == 0) := by decide

theorem quantum_ended {s : State} {l : Fin 3} {n : Nat} (runs : lsRuns s l.val = true) (here : runOf s l.val = some n)
    (slow : l = 0 → s.fastOn = none) (quantum : quantumOf s (coachOf s n).qclass ≠ 0)
    (other : ∃ m ∈ s.queue, m ≠ n ∧ selectable s l.val m = true ∧ (coachOf s m).qclass = (coachOf s n).qclass) :
    exec (.quantumEnd l) s = .next (settle (setRun (makeReady s n) l.val none)) := by
  have waiting : s.queue.any (fun m => m != n && selectable s l.val m && (coachOf s m).qclass == (coachOf s n).qclass) = true := by
    obtain ⟨m, queued, differs, can, same⟩ := other
    exact List.any_eq_true.2 ⟨m, queued, by rw [bne_iff_ne.2 differs, can, same, beq_self_eq_true]; rfl⟩
  have calm : (l.val == 0 && s.fastOn.isSome) = false := by
    by_cases zero : l = 0
    · rw [slow zero, Option.isSome_none, Bool.and_false]
    · rw [fin_beq_zero, beq_eq_false_iff_ne.2 zero, Bool.false_and]
  have ends : quantumEnd s l.val = setRun (makeReady s n) l.val none := by
    unfold quantumEnd
    rw [here]
    dsimp only
    rw [calm, beq_eq_false_iff_ne.2 quantum, waiting]
    rfl
  show occurs (if lsRuns s l.val then quantumEnd s l.val else s) = _
  rw [if_pos runs, ends]
  rfl

/-- Coach `n` with its timer disarmed. -/
def disarmed (s : State) (n : Nat) : State := modC s (.coach n) (fun k => { k with timer := none })

theorem coachOf_makeReady (s : State) (n : Nat) : coachOf (makeReady s n) n = { coachOf s n with st := .ready } := by
  have own := getC_modC_self s (.coach n) (fun c => { c with st := .ready })
  exact own

theorem timer_fired {s : State} {b : BitVec 10} {d : DWord} (armed : (coachOf s b.toNat).timer = some d)
    (due : ∃ k, s.mls.tick = some k ∧ d.toNat ≤ k.toNat) (mret : s.mret = []) (mtr : s.mtr = []) : let n := b.toNat
    ∃ t, exec (.timerFire b) s = .next t ∧ SameProgram s t ∧ SameRegisters s t ∧ (coachOf t n).timer = none ∧
      ((coachOf s n).st.live = true → isFastCoach s n = false → (coachOf t n).wake = (coachOf s n).wake ||| 4 ∧
        ((coachOf s n).st = .wait → (coachOf s n).haltReq = false → (coachOf t n).st = .ready ∨ (coachOf t n).st = .run)) := by
  intro n
  obtain ⟨k, tick, past⟩ := due
  have free : heldItem (disarmed s n) 7 4 (.wake (BitVec.ofNat 10 n) wkTIMER) none = none := by
    unfold heldItem channelBusy
    dsimp only
    rw [show (disarmed s n).mret = [] from mret, show (disarmed s n).mtr = [] from mtr]
    rfl
  have run : exec (.timerFire b) s = .next (settle (wake (disarmed s n) n wkTIMER)) := by
    have crosses : sendWake (disarmed s n) 7 n wkTIMER = wake (disarmed s n) n wkTIMER := by rw [sendWake, free, Option.getD_none]
    show execTimerFire b s = _
    unfold execTimerFire
    dsimp only
    rw [armed]
    dsimp only
    rw [tick, Option.any_some, decide_eq_true past, if_pos rfl]
    exact congrArg occurs crosses
  have only := signals_wake (disarmed s n) n wkTIMER
  have own : coachOf (disarmed s n) n = { coachOf s n with timer := none } := getC_modC_self s (.coach n) _
  have program : SameProgram s (disarmed s n) := ⟨fun _ => rfl, fun w => by
    by_cases self : w = .coach n
    · rw [self]
      exact (congrArg seen own).trans rfl
    · rw [disarmed, getC_modC_other _ _ _ _ self]⟩
  refine ⟨_, run, program.trans (only.measures.settle_program), fun a => (getR_settle _ a).trans (only.csr a List.not_mem_nil), ?_, ?_⟩
  · obtain ⟨st, wk, woken⟩ := only.coach n
    rw [((settled_settle (wake (disarmed s n) n wkTIMER)).coach n).get Coach.timer (fun _ _ _ _ _ _ _ _ _ _ _ => rfl), woken, own]
  · intro live slow
    have here : (coachOf (disarmed s n) n).st = (coachOf s n).st := (congrArg Coach.st own).trans rfl
    have woken : coachOf (wake (disarmed s n) n wkTIMER) n = { coachOf s n with
        timer := none, wake := (coachOf s n).wake ||| 4, st := if (coachOf s n).st = .wait then .ready else (coachOf s n).st } := by
      unfold wake
      dsimp only
      rw [here, live, show isFastCoach (disarmed s n) n = false from slow, own, if_pos (by rfl)]
      by_cases waits : (coachOf s n).st = .wait
      · rw [if_pos waits, if_pos waits]
        rw [coachOf_makeReady, coachOf_setCoach, if_pos rfl]
      · rw [if_neg waits, if_neg waits, coachOf_setCoach, if_pos rfl]
    refine ⟨?_, fun waits calm => ?_⟩
    · rw [((settled_settle (wake (disarmed s n) n wkTIMER)).coach n).get Coach.wake (fun _ _ _ _ _ _ _ _ _ _ _ => rfl), woken]
    · have duty := duty_settle (s := wake (disarmed s n) n wkTIMER) (n := n) fun due => by
        have asked := due.2.1
        rw [woken] at asked
        exact Bool.false_ne_true (calm.symm.trans asked)
      rw [woken] at duty
      rcases duty.st with same | ⟨_, on⟩
      · exact .inl (same.trans (if_pos waits))
      · exact on

/-- Settles O41: each entry is the boundary's item taken, and settled. -/
theorem boundaryEntries : Obligations.BoundaryEntries := by
  unfold Obligations.BoundaryEntries
  intro s
  refine ⟨?_, ?_, fast_entered, fun l n runs here slow quantum other => quantum_ended runs here slow quantum other,
    fun b d armed due mret mtr => timer_fired armed due mret mtr⟩
  · intro l n x service runs slow issues held stall drain step pexc window out item single room arrived c a ring cause mask st admitted
    have takes := entryAt_takes runs (by rw [fin_beq_zero, slow]) issues held stall drain step (atBoundary_takes (by rw [service, Bool.not_true, Bool.and_false, Bool.false_and]) pexc window item)
    exact waybill_taken service takes out single room arrived admitted
  · intro x strongbox runs issues held stall drain step pexc l3 window item arrived c enters
    have slow : ((0 : Nat) == 0 && fastReady s) = false := by
      rw [fastReady, strongbox, Bool.and_false, Bool.false_and, Bool.false_and, Bool.false_and, Bool.and_false]
    have takes := entryAt_takes runs slow issues held stall drain step (atBoundary_takes (by rw [l3, Bool.and_false]) pexc window item)
    refine ⟨fun event => ⟨_, exec_strongbox strongbox takes, ?_⟩, fun fault other free => ⟨_, exec_strongbox strongbox takes, ?_⟩⟩
    · rw [takeBoundary_event strongbox arrived event]
      exact boxEntry_enters 2 _ (.inl rfl)
    · rw [takeBoundary_fault strongbox arrived fault other free]
      exact boxEntry_enters 1 _ (.inr rfl)

end Sys2Proof.Machine
end

section
/-! SUPPORT. Blocks of memory that an instruction reads word by word (spec/02 R56 to R58; spec/05 R133; spec/06 R157, R170). -/

namespace Sys2Proof.Machine

/-! ### Parts of an accessible range -/

theorem bankParts_inside {a n b m : Nat} {p : Nat × Nat} (hp : p ∈ bankParts b m) (low : a ≤ b) (high : b + m ≤ a + n) (pos : 0 < m)
    (few : n ≤ 0x10000) (bank : 0x10000000 ≤ a) : ∃ q ∈ bankParts a n, bankOf q.1 = bankOf p.1 := by
  have bounds : b ≤ p.1 ∧ p.1 < b + m := by
    unfold bankParts at hp
    dsimp only at hp
    split at hp
    · rw [List.mem_singleton] at hp
      rw [hp]
      exact ⟨le_refl b, by omega⟩
    · rcases List.mem_cons.1 hp with rfl | hp
      · exact ⟨le_refl b, by omega⟩
      · rw [List.mem_singleton] at hp
        rw [hp]
        exact ⟨by omega, by omega⟩
  unfold bankParts
  dsimp only
  split
  · exact ⟨_, List.mem_singleton_self _, show (a - 0x10000000) / 0x10000 = (p.1 - 0x10000000) / 0x10000 by omega⟩
  · by_cases first : p.1 < (a / 0x10000 + 1) * 0x10000
    · exact ⟨_, List.mem_cons_self, show (a - 0x10000000) / 0x10000 = (p.1 - 0x10000000) / 0x10000 by omega⟩
    · exact ⟨_, List.mem_cons_of_mem _ (List.mem_singleton_self _),
        show ((a / 0x10000 + 1) * 0x10000 - 0x10000000) / 0x10000 = (p.1 - 0x10000000) / 0x10000 by omega⟩

theorem ownerRefusal_inside {s : State} {r : Req} {a n b m : Nat} {k : Access} (h : ownerRefusal s r a n k = none) (low : a ≤ b)
    (high : b + m ≤ a + n) (pos : 0 < m) (few : n ≤ 0x10000) (bank : 0x10000000 ≤ a) : ownerRefusal s r b m k = none := by
  refine List.findSome?_eq_none_iff.2 fun p hp => ?_
  obtain ⟨q, hq, same⟩ := bankParts_inside hp low high pos few bank
  obtain ⟨owned, admits⟩ := ownerRefusal_part h hq
  rw [same] at owned admits
  dsimp only
  rw [if_neg (not_not.2 owned), if_pos admits]

theorem openOver_inside {s : State} {w : Who} {a n b m : Nat} (h : openOver s w a n (fun _ => true) = []) (low : a ≤ b)
    (high : b + m ≤ a + n) (bank : 0x10000000 ≤ a) : openOver s w b m (fun _ => true) = [] := by
  have pa : phys a = a := by rw [phys, if_neg (by omega)]
  have pb : phys b = b := by rw [phys, if_neg (by omega)]
  unfold openOver openOf at h ⊢
  rw [List.map_eq_nil_iff, List.filter_eq_nil_iff] at h ⊢
  intro e he both
  refine h e he ?_
  simp only [overlaps, pa, pb, Bool.and_eq_true, decide_eq_true_eq] at both ⊢
  obtain ⟨issued, ⟨⟨before, after⟩, any⟩, plain⟩ := both
  exact ⟨issued, ⟨⟨by omega, by omega⟩, any⟩, plain⟩

theorem Accessible.inside_of {s : State} {w : Who} {r : Req} {k : Access} {a n b m : Nat} (h : Accessible s w r k a n) (low : a ≤ b)
    (high : b + m ≤ a + n) (pos : 0 < m) (few : n ≤ 0x10000) (open_ : k ≠ .store) : Accessible s w r k b m := by
  have inside := h.inside
  simp only [inBanks, Bool.and_eq_true, decide_eq_true_eq] at inside
  refine ⟨?_, ownerRefusal_inside h.owner low high pos few inside.1, fun p hp => ?_, fun x h1 h2 => h.clean x (by omega) (by omega),
    openOver_inside h.quiet low high inside.1, h.quota, h.free, h.untold, fun store => absurd store open_⟩
  · simp only [inBanks, Bool.and_eq_true, decide_eq_true_eq]
    omega
  · obtain ⟨q, hq, same⟩ := bankParts_inside hp low high pos few inside.1
    rw [← same]
    exact h.power q hq

/-- Changes of a context's registers leave what its accesses meet. -/
theorem Accessible.modC {s : State} {w : Who} {r : Req} {k : Access} {a n : Nat} (h : Accessible s w r k a n) {f : Coach → Coach}
    (told : (f (getC s w)).told = (getC s w).told) : Accessible (modC s w f) w r k a n := by
  obtain ⟨inside, owner, power, clean, quiet, quota, free, untold, unlocked⟩ := h
  refine ⟨inside, by rw [ownerRefusal_modC]; exact owner, fun p hp => ?_, fun b h1 h2 => ?_, ?_, ?_, ?_, ?_, fun store => ?_⟩
  · rw [powerAns_ok_iff]
    have on := (powerAns_ok_iff s _).1 (power p hp)
    cases w <;> exact on
  · have ok := clean b h1 h2
    cases w <;> exact ok
  · rw [openOver, openOf, modC_cons]
    exact quiet
  · rw [entriesHeld, modC_cons, numOf_modC, quotaOf, getR_modC]
    exact quota
  · rw [consOf_modC, numOf_modC]
    exact free
  · rw [getC_modC_self, told, untold]
  · rw [vtlock, getR_modC]
    exact unlocked store

/-! ### A block is read -/

/-- The double words of memory from `a`. -/
def block (s : State) (a n : Nat) : List DWord := (List.range n).map fun k => rd64 s (a + 8 * k)

theorem block_succ (s : State) (a n : Nat) : block s a (n + 1) = rd64 s a :: block s (a + 8) n := by
  unfold block
  rw [List.range_succ_eq_map, List.map_cons, List.map_map]
  refine congrArg₂ _ rfl (List.map_congr_left fun k _ => ?_)
  show rd64 s (a + 8 * (k + 1)) = rd64 s (a + 8 + 8 * k)
  rw [show a + 8 * (k + 1) = a + 8 + 8 * k by omega]

theorem block_of_mem {s t : State} (h : SameMemory s t) (a n : Nat) : block t a n = block s a n :=
  List.map_congr_left fun k _ => by rw [rd64, rdN_of_mem h, rd64]

/-- The core reads a block of bank memory that is accessible to it. -/
theorem bankBytes_accessible {x : Iss} {r : Req} : ∀ (n : Nat) {s : State} {a : Nat}, Accessible s x.who r .load a (8 * n) → n ≤ 0x2000 →
    (getC s x.who).stall = none → ∃ t, bankBytes x r n a s = .ok (block s a n, t) ∧ Reads s t
  | 0, s, a, _, _, _ => ⟨s, rfl, .refl s⟩
  | n + 1, s, a, h, few, idle => by
    obtain ⟨t, load, reads⟩ := bankLoad_accessible (x := x) (a := a) (n := 8) (by decide)
      (h.inside_of (m := 8) (le_refl a) (by omega) (by decide) (by omega) (by decide)) idle
    cases n with
    | zero =>
      refine ⟨t, ?_, reads⟩
      rw [bankBytes, bind_of_ok load, bankBytes, bind_of_ok (pure_eq _ _), pure_eq, block_succ]
      rfl
    | succ n =>
      obtain ⟨u, rest, more⟩ := bankBytes_accessible (n + 1) (reads.accessible
        (h.inside_of (b := a + 8) (m := 8 * (n + 1)) (by omega) (by omega) (by omega) (by omega) (by decide))) (by omega)
        (by rw [reads.getC]; exact idle)
      refine ⟨u, ?_, reads.trans more⟩
      rw [bankBytes, bind_of_ok load, bind_of_ok rest, pure_eq, block_of_mem reads.sameMemory, block_succ s a (n + 1)]
      rfl

/-! ### The words of a block -/

theorem loW_rd64 (s : State) (a : Nat) : loW (rd64 s a) = rd32 s a := by
  have lt := rdN_lt s a 4
  have split := rdN_append s a 4 4
  refine BitVec.eq_of_toNat_eq ?_
  rw [loW, rd64, rd32, u32, BitVec.toNat_setWidth, BitVec.toNat_ofNat, BitVec.toNat_ofNat, split]
  omega

theorem hiW_rd64 (s : State) (a : Nat) : hiW (rd64 s a) = rd32 s (a + 4) := by
  have lt := rdN_lt s a 4
  have lt' := rdN_lt s (a + 4) 4
  have split := rdN_append s a 4 4
  refine BitVec.eq_of_toNat_eq ?_
  rw [hiW, rd64, rd32, u32, BitVec.toNat_setWidth, BitVec.toNat_ushiftRight, BitVec.toNat_ofNat, BitVec.toNat_ofNat, split, Nat.shiftRight_eq_div_pow]
  omega

theorem wordAt_block (s : State) (a : Nat) {n i : Nat} (h : i < 2 * n) : wordAt (block s a n) i = rd32 s (a + 4 * i) := by
  have entry : (block s a n).getD (i / 2) 0 = rd64 s (a + 8 * (i / 2)) := by
    rw [block, List.getD_eq_getElem _ _ (by rw [List.length_map, List.length_range]; omega), List.getElem_map, List.getElem_range]
  unfold wordAt
  rw [entry]
  split
  · rw [loW_rd64, show a + 8 * (i / 2) = a + 4 * i by omega]
  · rw [hiW_rd64, show a + 8 * (i / 2) + 4 = a + 4 * i by omega]

end Sys2Proof.Machine
end

section
/-! SPAWN and KILL (spec/05 R133; spec/03 R94, R95). -/

namespace Sys2Proof.Machine

/-! ### The end of an instruction, for another coach -/

/-- A coach other than the issuer's, off duty and in no queue, or without a halt request, keeps its duty. -/
theorem ends_duty (s : State) (l : LaneUse) (w : Who) (len : Nat) (f : Flow) {t : State} (up : t.up = true) {n : Nat} (other : w ≠ .coach n)
    (calm : (coachOf t n).haltReq = false ∨ n ∉ t.queue) :
    ∃ u, ends s l w len f t = .next u ∧ EndFrame t u w ∧ Duty (coachOf t n) (coachOf u n) ∧
      seen (getC u w) = seen (if f = .seq then advance (getC t w) (getC s w).pc len else getC t w) := by
  obtain ⟨r, hr, frame, own⟩ := ends_frame s l w len f t up
  obtain ⟨u, hu, he⟩ := ends_eq s l w len f up
  have same := Host.Outcome.next.inj (hr.symm.trans he)
  refine ⟨r, hr, frame, ?_, own⟩
  have kept : coachOf (if f = .gone then u else modC u w (afterFlow u (getC s w).pc len f)) n = coachOf t n := by
    have here : coachOf u n = coachOf t n := hu.getC (.coach n)
    split
    · exact here
    · exact (getC_modC_other u (.coach n) w _ other.symm).trans here
  have queue : (if f = .gone then u else modC u w (afterFlow u (getC s w).pc len f)).queue = t.queue := by
    obtain ⟨_, _, rfl⟩ := hu
    split
    · rfl
    · cases w <;> rfl
  rw [same, ← kept]
  refine duty_settle fun due => ?_
  obtain ⟨queued, asked, _, _⟩ := due
  rw [kept] at asked
  rw [queue] at queued
  rcases calm with no | no
  · rw [no] at asked
    exact Bool.false_ne_true asked
  · exact no queued

/-! ### SPAWN -/

/-- Coach `c` as a descriptor of the words `g` loads it (R133). -/
def spawned (g : Nat → Word) (c : Coach) : Coach :=
  { vacated c .ready with
    pc := g 0, status := g 1, dsp := g 2, rsp := g 3, dlim := g 4, rlim := g 5, xdsp := g 6, xrsp := g 7
    wbp := g 8, wblim := g 9, keeper := g 10, ccfg := g 11, a := g 14, b := g 15
    ddepth := 1, rdepth := 0, dhead := [.val (g 13)], lstart := 0, lend := 0, lcount := 0
    xcause := 0, xaddr := 0, xinfo := 0, qclass := classOf { ccfg := g 11 }, qattr := attrOf { ccfg := g 11 } }

/-- State `t` with coach `n` so loaded, and READY. -/
def withSpawned (t : State) (n : Nat) (g : Nat → Word) : State :=
  setR (makeReady (setCoach t n (spawned g (coachOf t n))) n) (aCshParka + 4 * n) (g 12)

theorem vacantCoach_modC (s : State) (w : Who) (f : Coach → Coach) (st : ∀ c, (f c).st = c.st) (c : Nat) :
    vacantCoach (modC s w f) c = vacantCoach s c := by
  have fast : fastHeld (modC s w f) c = fastHeld s c := by
    rw [fastHeld, fastCoach, fastEn, getR_modC]
    cases w <;> rfl
  have live : (coachOf (modC s w f) c).st = (coachOf s c).st := by
    by_cases self : Who.coach c = w
    · rw [← self]
      exact (congrArg Coach.st (getC_modC_self s (.coach c) f)).trans (st _)
    · exact congrArg Coach.st (getC_modC_other s (.coach c) w f self)
  rw [vacantCoach, vacantCoach, fast, live]

theorem reqOf_restacked (s : State) (w : Who) (k n : Nat) : reqOf (modC s w (restack n [])) ⟨w, k⟩ = reqOf s ⟨w, k⟩ := by
  rw [reqOf, numOf_modC, getC_modC_self]
  rfl

theorem popped_twice (s : State) (w : Who) : modC (modC s w (restack 1 [])) w (restack 1 []) = modC s w (restack 2 []) := by
  rw [modC_modC]
  exact modC_congr _ _ _ _ (restack_pop 1 1 [] _)

theorem popped_room {c : Coach} {e f : Entry} (room : c.dhead.length - [e, f].length + 1 ≤ 8) : (restack 2 [] c).dhead.length < 8 := by
  rw [restack_dhead, List.nil_append, List.length_drop]
  exact room

theorem getC_withSpawned_other (t : State) {n : Nat} {w : Who} (g : Nat → Word) (other : w ≠ .coach n) : getC (withSpawned t n g) w = getC t w := by
  have ready := getC_modC_other (setCoach t n (spawned g (coachOf t n))) w (.coach n) (fun c => { c with st := .ready }) other
  have loaded := getC_modC_other t w (.coach n) (fun _ => spawned g (coachOf t n)) other
  exact (getC_setR _ _ _ _).trans ((show getC (makeReady (setCoach t n (spawned g (coachOf t n))) n) w = _ by cases w <;> rfl).trans (ready.trans loaded))

theorem coachOf_withSpawned (t : State) (n : Nat) (g : Nat → Word) :
    coachOf (withSpawned t n g) n = { spawned g (coachOf t n) with st := .ready } := by
  refine (show coachOf (withSpawned t n g) n = coachOf (makeReady (setCoach t n (spawned g (coachOf t n))) n) n from rfl).trans ?_
  rw [coachOf_makeReady, coachOf_setCoach, if_pos rfl]

theorem spawnStatusOk_of (w : Word) (h : w &&& 0xFFFE00C0 = 0) : spawnStatusOk w = true := by
  rw [spawnStatusOk, beq_iff_eq]
  exact h

section
variable {s : State} {l : LaneUse} {w : Who} {v d : Word} (h : Issues s l w 1) (takes : Takes s w [.val v, .val d] [] 1 0)
  (few : v.toNat < 1024) (ring : ringOf (getC s w) ≤ 1)
include h takes few ring

theorem execSpawn_refused (taken : vacantCoach s v.toNat = false) :
    exec (.spawn l) s = ends s l w 1 .seq (modC s w (restack 2 [.val 0])) := by
  have hn : need w 2 1 0 0 s = .ok ((), s) := takes.need
  have hd := top_drop takes
  have room := takes.room
  refine instrLong_ok h ?_ (by decide)
  rw [bind_of_ok hn, bind_of_ok (pop_restack s ⟨w, l.set.val⟩ v _ hd),
    bind_of_ok (pop_restack _ ⟨w, l.set.val⟩ d ((getC s w).dhead.drop 2) (by rw [getC_modC_self, restack_dhead, hd]; rfl)),
    popped_twice, bind_of_ok (coachArg_ok _ few), bind_get]
  rw [if_neg (by rw [getC_modC_self]; exact Nat.not_lt.2 ring), if_pos (by rw [vacantCoach_modC _ _ (restack 2 []) (fun _ => rfl), taken]; rfl),
    bind_of_ok (push_restack _ ⟨w, l.set.val⟩ _ (by
      rw [getC_modC_self]
      exact popped_room room)), modC_modC, pure_eq]
  simp only [restack_push]
  rfl

section
variable (vacant : vacantCoach s v.toNat = true) (aligned : d.toNat % 64 = 0)
  (reach : Accessible s w (reqOf s ⟨w, l.set.val⟩) .load d.toNat 64)
include vacant aligned reach

theorem execSpawn_loads : let g := fun k => rd32 s (d.toNat + 4 * k)
    ringOf (getC s w) ≤ fld (g 1) 0 2 → (bit (g 1) 16 = true → ringOf (getC s w) = 0) → g 1 &&& 0xFFFE00C0 = 0 →
    g 10 &&& 0xFFFFFC00 = 0 → g 11 &&& 0xFFFFFFCC = 0 → (g 12).toNat % 64 = 0 → bankRange (g 12).toNat 192 = true → w ≠ .coach v.toNat →
    ∃ t, Reads (modC s w (restack 2 [])) t ∧
      exec (.spawn l) s = ends s l w 1 .seq (modC (withSpawned t v.toNat (wordAt (block s d.toNat 8))) w (restack 0 [.val 0xFFFFFFFF])) := by
  intro g low root status keeper config park range other
  have hn : need w 2 1 0 0 s = .ok ((), s) := takes.need
  have hd := top_drop takes
  have room := takes.room
  have words : ∀ k, k < 16 → wordAt (block s d.toNat 8) k = g k := fun k hk => wordAt_block s d.toNat hk
  obtain ⟨t, bytes, reads⟩ := bankBytes_accessible (x := ⟨w, l.set.val⟩) 8 (reach.modC (f := restack 2 []) rfl) (by decide)
    (by rw [getC_modC_self]; exact h.notStalled)
  refine ⟨t, reads, instrLong_ok h ?_ (by decide)⟩
  have inside : bankRange d.toNat 64 = true := by rw [bankRange, reach.inside, Bool.true_or]
  rw [bind_of_ok hn, bind_of_ok (pop_restack s ⟨w, l.set.val⟩ v _ hd),
    bind_of_ok (pop_restack _ ⟨w, l.set.val⟩ d ((getC s w).dhead.drop 2) (by rw [getC_modC_self, restack_dhead, hd]; rfl)),
    popped_twice, bind_of_ok (coachArg_ok _ few), bind_get]
  rw [if_neg (by rw [getC_modC_self]; exact Nat.not_lt.2 ring), if_neg (by rw [vacantCoach_modC _ _ (restack 2 []) (fun _ => rfl), vacant]; decide),
    if_neg (by rw [inside]; exact fun bad => bad.elim (fun x => x aligned) (fun x => Bool.noConfusion x)), reqOf_restacked, bind_of_ok bytes,
    block_of_mem (s := s) (t := modC s w (restack 2 [])) (fun a => rdB_modC s w _ a)]
  generalize wordAt (block s d.toNat 8) = G at words
  rw [if_neg (by
    rw [getC_modC_self, words 1 (by decide)]
    exact fun bad => bad.elim (Nat.not_lt.2 low) (fun both => both.2 (root both.1))), if_neg (by
    rw [words 1 (by decide), words 10 (by decide), words 11 (by decide), words 12 (by decide), spawnStatusOk_of _ status, range,
      show g 10 &&& 0xFFFFFC00#32 = 0 from keeper, show g 11 &&& 0xFFFFFFCC#32 = 0 from config, park]
    decide), bind_modify, bind_of_ok (push_restack _ ⟨w, l.set.val⟩ _ (by
      have same : getC (withSpawned t v.toNat G) w = restack 2 [] (getC s w) := by
        rw [getC_withSpawned_other _ _ other, reads.getC, getC_modC_self]
      exact same ▸ popped_room room)), pure_eq]
  rfl

theorem spawn_effects : let n := v.toNat
    let g := fun k => rd32 s (d.toNat + 4 * k)
    w ≠ .coach n → ringOf (getC s w) ≤ fld (g 1) 0 2 → (bit (g 1) 16 = true → ringOf (getC s w) = 0) → g 1 &&& 0xFFFE00C0 = 0 →
    g 10 &&& 0xFFFFFC00 = 0 → g 11 &&& 0xFFFFFFCC = 0 → (g 12).toNat % 64 = 0 → bankRange (g 12).toNat 192 = true →
    ∃ t, exec (.spawn l) s = .next t ∧ ((coachOf t n).st = .ready ∨ (coachOf t n).st = .run) ∧ SameMemory s t ∧
      seen (coachOf t n) = ([g 0, g 1, g 2, g 3, 1, 0, g 4, g 5, g 6, g 7, g 14, g 15, 0, 0, 0, g 8, g 9, g 10, g 11,
        0, 0, 0], [.val (g 13)], []) ∧
      getR t (aCshParka + 4 * n) = g 12 ∧ (∀ a, a ≠ aCshParka + 4 * n → a ≠ aCshPool → getR t a = getR s a) ∧
      seen (getC t w) = seen (advance (restack 2 [.val 0xFFFFFFFF] (getC s w)) (getC s w).pc 1) ∧
      (∀ x, x ≠ w → x ≠ .coach n → seen (getC t x) = seen (getC s x)) := by
  intro n g other low root status keeper config park range
  obtain ⟨r, reads, run⟩ := execSpawn_loads h takes few ring vacant aligned reach low root status keeper config park range other
  have words : ∀ k, k < 16 → wordAt (block s d.toNat 8) k = g k := fun k hk => wordAt_block s d.toNat hk
  generalize wordAt (block s d.toNat 8) = G at words run
  obtain ⟨T, hT⟩ : ∃ T, T = modC (withSpawned r n G) w (restack 0 [.val 0xFFFFFFFF]) := ⟨_, rfl⟩
  rw [← hT] at run
  have up : T.up = true := by
    rw [hT, modC_up]
    exact reads.up.trans ((modC_up s w _).trans h.up)
  have loaded : coachOf T n = { spawned G (coachOf r n) with st := .ready } := by
    rw [hT]
    exact (getC_modC_other _ (.coach n) w _ other.symm).trans (coachOf_withSpawned r n G)
  have issuer : getC T w = restack 2 [.val 0xFFFFFFFF] (getC s w) := by
    rw [hT, getC_modC_self, getC_withSpawned_other _ _ other, reads.getC, getC_modC_self, restack_push]
    rfl
  obtain ⟨u, hu, frame, duty, own⟩ := ends_duty s l w 1 .seq up other (.inl (by rw [loaded]; rfl))
  rw [loaded] at duty
  refine ⟨u, run.trans hu, ?_, fun a => ?_, ?_, ?_, fun a park' pool => ?_, ?_, fun x hw hn => ?_⟩
  · rcases duty.st with same | ⟨_, on⟩
    · exact .inl same
    · exact on
  · rw [frame.mem, hT, rdB_modC]
    exact (reads.sameMemory a).trans (rdB_modC s w _ a)
  · refine (frame.others (.coach n) other.symm).trans ?_
    show seen (coachOf T n) = _
    rw [loaded]
    simp only [seen, regList, spawned, vacated, words 0 (by decide), words 1 (by decide), words 2 (by decide), words 3 (by decide), words 4 (by decide),
      words 5 (by decide), words 6 (by decide), words 7 (by decide), words 8 (by decide), words 9 (by decide), words 10 (by decide), words 11 (by decide),
      words 13 (by decide), words 14 (by decide), words 15 (by decide), List.cons_append, List.nil_append]
  · rw [frame.csr, hT, getR_modC]
    refine (getR_setR _ _ _ _).trans ((if_pos rfl).trans (words 12 (by decide)))
  · rw [frame.csr, hT, getR_modC]
    refine (getR_setR _ _ _ _).trans ((if_neg park').trans ?_)
    exact (reads.csr a pool).trans (getR_modC s w _ a)
  · rw [own, if_pos rfl, issuer]
  · rw [frame.others x hw, hT, getC_modC_other _ _ _ _ hw, getC_withSpawned_other _ _ hn, reads.getC, getC_modC_other _ _ _ _ hw]

end

end

/-! ### A coach loses its thread -/

theorem signals_clearActive (s : State) (n : Nat) : Signals [] [n] s (clearActive s n) := signals_setSrc s n _

theorem signals_refire (s : State) (n : Nat) : Signals (eventRegs n) [n, 7, 27] s (refire s n) := by
  unfold refire
  split
  · exact signals_triggerQuiet s n .refire
  · exact .refl _ _ _

/-- The completion of what a coach holds changes sources, their registers, and wakes. -/
theorem signals_completeAllOf (s : State) (c : Nat) : ∃ l ns, Signals l ns s (completeAllOf s c) := by
  unfold completeAllOf completeSrcs
  dsimp only
  generalize (s.src.filter (fun e => e.2.active && e.2.claimant == c)).map (·.1) = es
  have cleared : Signals (es.flatMap eventRegs) (es ++ [7, 27]) s (es.foldl clearActive s) :=
    signals_foldl (fun e he t => (signals_clearActive t e).mono (List.nil_subset _) (by
      intro x hx
      rw [List.mem_singleton.1 hx]
      exact List.mem_append_left _ he)) s
  have fired : Signals (es.flatMap eventRegs) (es ++ [7, 27]) (es.foldl clearActive s) (es.foldl refire (es.foldl clearActive s)) :=
    signals_foldl (fun e he t => (signals_refire t e).mono (fun x hx => List.mem_flatMap.2 ⟨e, he, hx⟩)
      (List.cons_subset.2 ⟨List.mem_append_left _ he, List.subset_append_right _ _⟩)) _
  have delivered := (signals_deliveries s (es.foldl refire (es.foldl clearActive s)) (es ++ [7, 27])).mono (List.nil_subset (es.flatMap eventRegs))
    (List.Subset.refl _)
  have counted := signals_setR (deliveries s (es.foldl refire (es.foldl clearActive s)) (es ++ [7, 27])) aEvcBadcpl
    (setFld (getR (deliveries s (es.foldl refire (es.foldl clearActive s)) (es ++ [7, 27])) aEvcBadcpl) 16 16 (satAdd (2 ^ 16 - 1)
      (fld (getR (deliveries s (es.foldl refire (es.foldl clearActive s)) (es ++ [7, 27])) aEvcBadcpl) 16 16) es.length))
  exact ⟨aEvcBadcpl :: es.flatMap eventRegs, es ++ [7, 27], (((cleared.trans fired).trans delivered).mono (List.subset_cons_self _ _) (List.Subset.refl _)).trans
    (counted.mono (List.cons_subset_cons _ (List.nil_subset _)) (List.nil_subset _))⟩

theorem vacated_congr (c : Coach) (st : CoachSt) (st' : CoachSt) (wk : BitVec 4) : vacated { c with st := st', wake := wk } st = vacated c st := rfl

/-- What the divider still brings to coach `n` raises nothing. -/
def noDivFault (s : State) (n : Nat) : State :=
  { s with div := s.div.map (fun e => (e.1, e.2.map (fun d => { d with byZero := d.byZero && (d.fast || d.coach != n) }))) }

theorem getC_noDivFault (s : State) (n : Nat) (w : Who) : getC (noDivFault s n) w = getC s w := by cases w <;> rfl

theorem vacate_eq (s : State) (n : Nat) (st : CoachSt) :
    vacate s n st = noDivFault (leave (setCoach (completeAllOf s n) n (vacated (coachOf (completeAllOf s n) n) st)) n st) n := by
  unfold vacate
  generalize completeAllOf s n = u
  dsimp only
  generalize leave (setCoach u n (vacated (coachOf u n) st)) n st = v
  rfl

/-- A coach that loses its thread; the others keep what their programs see. -/
theorem vacate_effects (s : State) (n : Nat) (st : CoachSt) :
    coachOf (vacate s n st) n = vacated (coachOf s n) st ∧ (∀ x, x ≠ .coach n → seen (getC (vacate s n st) x) = seen (getC s x)) ∧
      SameMemory s (vacate s n st) ∧ (vacate s n st).cons = s.cons ∧ (vacate s n st).up = s.up ∧ n ∉ (vacate s n st).queue := by
  rw [vacate_eq]
  obtain ⟨l, ns, completed⟩ := signals_completeAllOf s n
  generalize completeAllOf s n = u at completed
  have program := completed.measures
  obtain ⟨st', wk, same⟩ := completed.coach n
  have loses : vacated (coachOf u n) st = vacated (coachOf s n) st := by rw [same, vacated_congr]
  rw [loses]
  have left := coachOf_leave (setCoach u n (vacated (coachOf s n) st)) n st n
  have others := fun x => seen_leave (setCoach u n (vacated (coachOf s n) st)) n st x
  have gone := not_mem_queue_leave (setCoach u n (vacated (coachOf s n) st)) n st
  have settled := settled_leave (setCoach u n (vacated (coachOf s n) st)) n st
  generalize leave (setCoach u n (vacated (coachOf s n) st)) n st = v at left others gone settled
  refine ⟨?_, fun x hx => ?_, fun a => ?_, settled.cons.trans program.cons, settled.up.trans program.up, gone⟩
  · refine (getC_noDivFault v n (.coach n)).trans (left.trans ?_)
    rw [if_pos rfl, coachOf_setCoach, if_pos rfl]
    rfl
  · rw [getC_noDivFault, others]
    exact (congrArg seen (getC_modC_other u x (.coach n) (fun _ => vacated (coachOf s n) st) hx)).trans (program.sameContexts x)
  · refine Eq.trans ?_ (program.sameMemory a)
    exact congrArg (fun m => SMap.get (unlisted a) m a) settled.mem

/-- Killing a coach takes its thread and its consignments. -/
theorem killCoach_effects (s : State) (n : Nat) :
    coachOf (killCoach s n) n = vacated (coachOf s n) .free ∧ (∀ x, x ≠ .coach n → seen (getC (killCoach s n) x) = seen (getC s x)) ∧
      SameMemory s (killCoach s n) ∧ (killCoach s n).up = s.up ∧ n ∉ (killCoach s n).queue ∧
      ∀ e, (consOf (killCoach s n) e).used = true → (consOf (killCoach s n) e).coach = n → (consOf (killCoach s n) e).orphan = true := by
  have aborted := measures_abortWhere (fun o => o.coach == n) s
  obtain ⟨own, others, mem, cons, up, queue⟩ := vacate_effects (dropCons (abortWhere s (fun o => o.coach == n)) n) n .free
  have same : ∀ u : State, (∀ x, getC (dropCons u n) x = getC u x) ∧ (dropCons u n).up = u.up ∧ (dropCons u n).mem = u.mem :=
    fun u => ⟨fun x => by cases x <;> rfl, rfl, rfl⟩
  have dropped : ∀ (u : State) (e : Nat), (consOf (dropCons u n) e).used = true → (consOf (dropCons u n) e).coach = n →
      (consOf (dropCons u n) e).orphan = true := fun u e used coach => by
    rcases SMap.get_mem ({} : Cons) (dropCons u n).cons e with none | mem
    · rw [consOf, none] at used
      cases used
    · obtain ⟨k, hk, eq⟩ := List.mem_map.1 (List.mem_filter.1 mem).1
      have entry : consOf (dropCons u n) e = if !k.2.used || k.2.coach != n then k.2 else if k.2.done.isSome then { gen := k.2.gen }
          else { k.2 with orphan := true } := (congrArg Prod.snd eq).symm
      rw [entry] at used coach ⊢
      split at used
      · rename_i out
        rw [if_pos out] at coach
        rw [used, coach, bne_self_eq_false] at out
        exact absurd out Bool.false_ne_true
      · split at used
        · cases used
        · rename_i out going
          rw [if_neg out, if_neg going]
  obtain ⟨contexts, up', mem'⟩ := same (abortWhere s (fun o => o.coach == n))
  have orphans := dropped (abortWhere s (fun o => o.coach == n))
  unfold killCoach
  generalize dropCons (abortWhere s (fun o => o.coach == n)) n = u at own others mem cons up queue contexts up' mem' orphans
  refine ⟨?_, fun x hx => ?_, fun a => ?_, up.trans (up'.trans aborted.up), queue, fun e used coach => ?_⟩
  · obtain ⟨st, wk, e⟩ := aborted.coach n
    rw [own, show coachOf u n = coachOf (abortWhere s (fun o => o.coach == n)) n from contexts (.coach n), e, vacated_congr]
  · rw [others x hx, contexts, aborted.sameContexts]
  · rw [mem, rdB, mem', ← rdB, aborted.sameMemory]
  · rw [consOf, cons, ← consOf] at used coach ⊢
    exact orphans e used coach

/-! ### KILL -/

section
variable {s : State} {l : LaneUse} {w : Who} {v : Word} (h : Issues s l w 1) (takes : Takes s w [.val v] [] 0 0) (few : v.toNat < 1024)
include h takes few

/-- The issuer may kill coach `n`. -/
def mayKill (s : State) (w : Who) (n : Nat) : Prop := ringOf (getC s w) ≤ 1 ∨ fld (coachOf s n).keeper 0 10 = numOf s w

omit h takes few in
theorem coachOf_popped_keeper (s : State) (w : Who) (k n : Nat) : (coachOf (modC s w (restack k [])) n).keeper = (coachOf s n).keeper ∧
    (coachOf (modC s w (restack k [])) n).stall = (coachOf s n).stall ∧ (coachOf (modC s w (restack k [])) n).drain = (coachOf s n).drain := by
  by_cases self : Who.coach n = w
  · rw [← self]
    have own : coachOf (modC s (.coach n) (restack k [])) n = restack k [] (coachOf s n) := getC_modC_self s (.coach n) (restack k [])
    rw [own]
    exact ⟨rfl, rfl, rfl⟩
  · have other : coachOf (modC s w (restack k [])) n = coachOf s n := getC_modC_other s (.coach n) w (restack k []) self
    rw [other]
    exact ⟨rfl, rfl, rfl⟩

omit h takes few in
theorem denied_iff (s : State) (w : Who) (k n : Nat) : (1 < ringOf (getC (modC s w (restack 1 [])) w) ∧
    isKeeper (modC s w (restack 1 [])) ⟨w, k⟩ n = false) ↔ ¬ mayKill s w n := by
  rw [getC_modC_self, isKeeper, (coachOf_popped_keeper s w 1 n).1, numOf_modC, mayKill, not_or, Nat.not_le, beq_eq_false_iff_ne]
  rfl

theorem execKill_denied (no : v.toNat = 0 ∨ ¬ mayKill s w v.toNat) : exec (.kill l) s = raises s l w { vec := 9 } := by
  have hn : need w 1 0 0 0 s = .ok ((), s) := takes.need
  refine instrLong_trap h ?_
  rw [bind_of_ok hn, bind_of_ok (pop_restack s ⟨w, l.set.val⟩ v _ (top_drop takes)), bind_of_ok (coachArg_ok _ few), bind_get, if_pos]
  · rfl
  · exact no.imp_right (denied_iff s w _ _).2

theorem execKill_nothing (some : v.toNat ≠ 0) (may : mayKill s w v.toNat) (gone : (vacantCoach s v.toNat || fastHeld s v.toNat) = true) :
    exec (.kill l) s = ends s l w 1 .seq (modC s w (restack 1 [])) := by
  have hn : need w 1 0 0 0 s = .ok ((), s) := takes.need
  have fast : fastHeld (modC s w (restack 1 [])) v.toNat = fastHeld s v.toNat := by
    rw [fastHeld, fastCoach, fastEn, getR_modC]
    cases w <;> rfl
  refine instrLong_ok h ?_ (by decide)
  rw [bind_of_ok hn, bind_of_ok (pop_restack s ⟨w, l.set.val⟩ v _ (top_drop takes)), bind_of_ok (coachArg_ok _ few), bind_get,
    if_neg (fun no => no.elim some (fun denied => (denied_iff s w _ _).1 denied may)),
    if_pos (by rw [vacantCoach_modC _ _ (restack 1 []) (fun _ => rfl), fast]; exact gone), pure_eq]

theorem execKill_kills (some : v.toNat ≠ 0) (may : mayKill s w v.toNat) (there : (vacantCoach s v.toNat || fastHeld s v.toNat) = false)
    (other : w ≠ .coach v.toNat) (stall : (coachOf s v.toNat).stall = none) (drain : (coachOf s v.toNat).drain = false) :
    exec (.kill l) s = ends s l w 1 .seq (killCoach (modC s w (restack 1 [])) v.toNat) := by
  have hn : need w 1 0 0 0 s = .ok ((), s) := takes.need
  have fast : fastHeld (modC s w (restack 1 [])) v.toNat = fastHeld s v.toNat := by
    rw [fastHeld, fastCoach, fastEn, getR_modC]
    cases w <;> rfl
  have reached : awaitTarget v.toNat (modC s w (restack 1 [])) = .ok ((), modC s w (restack 1 [])) := by
    unfold awaitTarget
    rw [bind_get, (coachOf_popped_keeper s w 1 _).2.1, (coachOf_popped_keeper s w 1 _).2.2, stall, drain]
    rfl
  refine instrLong_ok h ?_ (by decide)
  rw [bind_of_ok hn, bind_of_ok (pop_restack s ⟨w, l.set.val⟩ v _ (top_drop takes)), bind_of_ok (coachArg_ok _ few), bind_get,
    if_neg (fun no => no.elim some (fun denied => (denied_iff s w _ _).1 denied may)),
    if_neg (by rw [vacantCoach_modC _ _ (restack 1 []) (fun _ => rfl), fast, there]; exact Bool.false_ne_true), bind_of_ok reached, bind_modify, if_neg other, pure_eq]

end

theorem fastHeld_vacant {s : State} {n : Nat} (gone : (coachOf s n).st = .free ∨ (coachOf s n).st = .parked) :
    (vacantCoach s n || fastHeld s n) = true := by
  have dead : (coachOf s n).st.live = false := by
    rcases gone with e | e
    · rw [e]; rfl
    · rw [e]; rfl
  rw [vacantCoach, dead]
  cases fastHeld s n <;> rfl

theorem live_of {st : CoachSt} (free : st ≠ .free) (parked : st ≠ .parked) : st.live = true := by
  cases st with
  | free => exact absurd rfl free
  | parked => exact absurd rfl parked
  | ready => rfl
  | run => rfl
  | wait => rfl
  | halt => rfl

/-- Settles O27: the descriptor is read and loaded; a killed coach loses its thread. -/
theorem spawnAndKill : Obligations.SpawnAndKill := by
  unfold Obligations.SpawnAndKill
  refine ⟨?_, ?_⟩
  · intro s l w v d h takes few ring n g
    exact ⟨execSpawn_refused h takes few ring, fun vacant other aligned reach low root status keeper config park range =>
      spawn_effects h takes few ring vacant aligned reach other low root status keeper config park range⟩
  · intro s l w v h takes few n may
    refine ⟨execKill_denied h takes few, fun some ok gone => execKill_nothing h takes few some ok (fastHeld_vacant gone), ?_⟩
    intro some ok free parked slow other stall drain
    have there : (vacantCoach s n || fastHeld s n) = false := by
      rw [vacantCoach, live_of free parked, slow]
      rfl
    have run := execKill_kills h takes few some ok there other stall drain
    obtain ⟨own, others, mem, up, queue, orphans⟩ := killCoach_effects (modC s w (restack 1 [])) n
    obtain ⟨u, hu, frame, duty, issuer⟩ := ends_duty s l w 1 .seq (up.trans ((modC_up s w _).trans h.up)) other (.inr queue)
    have target : coachOf (modC s w (restack 1 [])) n = coachOf s n := getC_modC_other s (.coach n) w _ other.symm
    rw [own] at duty
    refine ⟨u, run.trans hu, ?_, fun a => ?_, ?_, ?_, fun x hw hx => ?_, fun e used coach => ?_⟩
    · rcases duty.st with same | ⟨on, _⟩
      · exact same
      · exact absurd on (by rintro (bad | bad) <;> cases bad)
    · rw [frame.mem, mem, rdB_modC]
    · refine (frame.others (.coach n) other.symm).trans ((congrArg seen own).trans ?_)
      rw [target]
      rfl
    · rw [issuer, if_pos rfl]
      exact seen_advance_congr ((others w other).trans (by rw [getC_modC_self])) _ _
    · rw [frame.others x hw, others x hx, getC_modC_other _ _ _ _ hw]
    · rw [consOf, frame.cons, ← consOf] at used coach ⊢
      exact orphans e used coach

end Sys2Proof.Machine
end

section
/-! SUPPORT. Heads that are spilled whole, and returns pushed onto a full head (spec/02 R36, R40; spec/06 R158). -/

namespace Sys2Proof.Machine

/-! ### One entry is spilled -/

/-- Registers that a posted store may change, refused or not. -/
def postRegs : List Nat := poolRegs ++ denyRegs

theorem postRegs_pool : poolRegs ⊆ postRegs := List.subset_append_left _ _
theorem postRegs_deny : denyRegs ⊆ postRegs := List.subset_append_right _ _

/-- State `u` is `s` with the `n` deepest entries of head `k` of `w` spilled. -/
structure Spilled (k : Stk) (n : Nat) (w : Who) (s u : State) : Prop where
  head : headOf k (getC u w) = (headOf k (getC s w)).take ((headOf k (getC s w)).length - n)
  rest : ∀ j, j ≠ k → headOf j (getC u w) = headOf j (getC s w)
  pc : (getC u w).pc = (getC s w).pc
  up : u.up = s.up
  csr : SameRegistersBut postRegs s u

theorem spilled_zero (k : Stk) (w : Who) (s : State) : Spilled k 0 w s s :=
  ⟨by rw [Nat.sub_zero, List.take_length], fun _ _ => rfl, rfl, rfl, fun _ _ => rfl⟩

theorem Spilled.succ {k : Stk} {n : Nat} {w : Who} {s t u : State} (h : Spilled k 1 w s t) (g : Spilled k n w t u) : Spilled k (n + 1) w s u where
  head := by
    rw [g.head, h.head, List.length_take, List.take_take]
    congr 1
    omega
  rest j hj := (g.rest j hj).trans (h.rest j hj)
  pc := g.pc.trans h.pc
  up := g.up.trans h.up
  csr a ha := (g.csr a ha).trans (h.csr a ha)

theorem Posts.spilled {k : Stk} {w : Who} {s t : State} {a : Word} (h : Posts postRegs s t w) :
    Spilled k 1 w s (modC t w (fun c => { setSp k (setHead k c (headOf k c).dropLast) a with shifted := true })) where
  head := by
    obtain ⟨_, _, _, _, own⟩ := h.own
    rw [getC_modC_self, own, ← List.dropLast_eq_take]
    cases k <;> rfl
  rest j hj := by
    obtain ⟨_, _, _, _, own⟩ := h.own
    rw [getC_modC_self, own]
    cases k with
    | d => cases j with
      | d => exact absurd rfl hj
      | r => rfl
    | r => cases j with
      | d => rfl
      | r => exact absurd rfl hj
  pc := by
    obtain ⟨_, _, _, _, own⟩ := h.own
    rw [getC_modC_self, own]
    cases k <;> rfl
  up := (modC_up t w _).trans h.up
  csr r hr := (getR_modC t w _ r).trans (h.csr r hr)

/-- A spill that succeeds. -/
theorem spillOne_spilled {x : Iss} {k : Stk} {s u : State} (some : headOf k (getC s x.who) ≠ []) (h : spillOne x k false s = .ok ((), u)) :
    Spilled k 1 x.who s u := by
  unfold spillOne at h
  rw [bind_get] at h
  dsimp only at h
  cases last : (headOf k (getC s x.who)).getLast? with
  | none => exact absurd (List.getLast?_eq_none_iff.1 last) some
  | some e =>
    rw [last] at h
    cases e with
    | val v =>
      dsimp only at h
      split at h
      · cases h
      · obtain ⟨t, posts, posted, _⟩ := postStore_posts (l := postRegs) (s := s) (x := x) (ring := ringOf (getC s x.who))
          (a := (spOf k (getC s x.who) - 4).toNat) (n := 4) (v := v.toNat) (frame := false) postRegs_pool (by decide) (by decide) (.inr postRegs_deny)
        rw [if_neg Bool.false_ne_true, bind_of_ok posts] at h
        cases h
        exact posted.spilled
    | load e b => cases h
    | div e => cases h

/-! ### A head is spilled whole -/

theorem ok_of_bind {α β : Type} {m : M α} {f : α → M β} {s u : State} {b : β} (h : (m >>= f) s = .ok (b, u)) :
    ∃ a t, m s = .ok (a, t) ∧ f a t = .ok (b, u) := by
  simp only [bind, StateT.bind, Except.bind] at h
  cases hm : m s with
  | error e => rw [hm] at h; cases h
  | ok r =>
    obtain ⟨a, t⟩ := r
    rw [hm] at h
    exact ⟨a, t, rfl, h⟩

theorem spillN_spilled {x : Iss} {k : Stk} : ∀ (n : Nat) {s u : State}, n ≤ (headOf k (getC s x.who)).length →
    spillN x k false n s = .ok ((), u) → Spilled k n x.who s u
  | 0, s, u, _, h => by
    cases h
    exact spilled_zero k x.who s
  | n + 1, s, u, fits, h => by
    rw [spillN] at h
    obtain ⟨_, t, first, rest⟩ := ok_of_bind h
    have one := spillOne_spilled (List.ne_nil_of_length_pos (by omega)) first
    exact one.succ (spillN_spilled n (by rw [one.head, List.length_take]; omega) rest)

theorem spillAll_spilled {x : Iss} {k : Stk} {s u : State} (h : spillAll x k false s = .ok ((), u)) :
    Spilled k (headOf k (getC s x.who)).length x.who s u := by
  unfold spillAll at h
  rw [bind_get] at h
  split at h
  · cases h
  · exact spillN_spilled _ (le_refl _) h

/-- Both heads are spilled. -/
theorem spillBoth_spilled {x : Iss} {s u : State} (h : (do spillAll x .d; spillAll x .r : M Unit) s = .ok ((), u)) :
    (getC u x.who).dhead = [] ∧ (getC u x.who).rhead = [] ∧ (getC u x.who).pc = (getC s x.who).pc ∧ u.up = s.up ∧ SameRegistersBut postRegs s u := by
  obtain ⟨_, t, first, second⟩ := ok_of_bind h
  have operands := spillAll_spilled first
  have returns := spillAll_spilled second
  have noOperands : (getC t x.who).dhead = [] := by
    refine operands.head.trans ?_
    rw [Nat.sub_self, List.take_zero]
  refine ⟨(returns.rest .d (by decide)).trans noOperands, returns.head.trans ?_, returns.pc.trans operands.pc, returns.up.trans operands.up,
    fun a ha => (returns.csr a ha).trans (operands.csr a ha)⟩
  rw [Nat.sub_self, List.take_zero]

/-! ### A context that is written as it stands -/

theorem modC_touched (s : State) (w : Who) (f : Coach → Coach) : modC (modC s w (fun c => c)) w f = modC s w f := modC_modC ..

/-- A spill writes its context, so that it does not matter whether that was written as it stands before. -/
theorem spillOne_touched {x : Iss} {k : Stk} {s u : State} (some : headOf k (getC s x.who) ≠ [])
    (h : spillOne x k false (modC s x.who (fun c => c)) = .ok ((), u)) : spillOne x k false s = .ok ((), u) := by
  have same : getC (modC s x.who (fun c => c)) x.who = getC s x.who := getC_modC_self ..
  have lock : vtlock (modC s x.who (fun c => c)) = vtlock s := by rw [vtlock, getR_modC, vtlock]
  unfold spillOne at h ⊢
  rw [bind_get] at h ⊢
  dsimp only at h ⊢
  rw [same, lock] at h
  cases last : (headOf k (getC s x.who)).getLast? with
  | none => exact absurd (List.getLast?_eq_none_iff.1 last) some
  | some e =>
    rw [last] at h
    cases e with
    | val v =>
      dsimp only at h ⊢
      split at h
      · cases h
      · rename_i range
        rw [if_neg range]
        rw [if_neg Bool.false_ne_true] at h ⊢
        unfold postStore at h ⊢
        rw [bind_modify] at h ⊢
        rw [modC_touched] at h
        exact h
    | load e b => cases h
    | div e => cases h

theorem spillAll_touched {x : Iss} {k : Stk} {s u : State} (h : spillAll x k false (modC s x.who (fun c => c)) = .ok ((), u)) :
    spillAll x k false s = .ok ((), u) ∨ (spillAll x k false s = .ok ((), s) ∧ u = modC s x.who (fun c => c)) := by
  have same : getC (modC s x.who (fun c => c)) x.who = getC s x.who := getC_modC_self ..
  have limit : ∀ c, spillLimit (modC s x.who (fun c => c)) k c = spillLimit s k c := fun c => by
    have regs : getR (modC s x.who (fun c => c)) = getR s := funext fun a => getR_modC ..
    unfold spillLimit onX onXAt xcapOf
    rw [regs]
  unfold spillAll at h ⊢
  rw [bind_get] at h ⊢
  rw [same, limit] at h
  split at h
  · cases h
  · rename_i fits
    rw [if_neg fits]
    cases entries : headOf k (getC s x.who) with
    | nil =>
      rw [entries] at h
      cases h
      exact .inr ⟨rfl, rfl⟩
    | cons e r =>
      rw [entries] at h
      refine .inl ?_
      rw [List.length_cons, spillN] at h ⊢
      obtain ⟨_, t, first, rest⟩ := ok_of_bind h
      rw [bind_of_ok (spillOne_touched (by rw [entries]; exact List.cons_ne_nil _ _) first)]
      exact rest

theorem spillBoth_touched {x : Iss} {s u : State} (h : (do spillAll x .d; spillAll x .r : M Unit) (modC s x.who (fun c => c)) = .ok ((), u)) :
    ∃ v, (do spillAll x .d; spillAll x .r : M Unit) s = .ok ((), v) ∧ ∀ f, modC v x.who f = modC u x.who f := by
  obtain ⟨_, t, first, second⟩ := ok_of_bind h
  rcases spillAll_touched first with ran | ⟨ran, rfl⟩
  · exact ⟨u, (bind_of_ok ran).trans second, fun _ => rfl⟩
  · rcases spillAll_touched second with more | ⟨more, rfl⟩
    · exact ⟨u, (bind_of_ok ran).trans more, fun _ => rfl⟩
    · exact ⟨s, (bind_of_ok ran).trans more, fun f => (modC_touched s x.who f).symm⟩

end Sys2Proof.Machine
end

section
/-! GATE (spec/06 R155 to R158; spec/03 R97). -/

namespace Sys2Proof.Machine

/-! ### A return entry onto a full head -/

/-- A value pushed onto a full return head has the deepest entry stored first. -/
theorem rpush_full {s : State} {x : Iss} {h : List Entry} {v : Word} (n : Word) (three : h.length = 3)
    (head : (getC s x.who).rhead = h ++ [.val v]) (low : 4 ≤ (getC s x.who).rsp.toNat) (range : bankRange ((getC s x.who).rsp.toNat - 4) 4 = true)
    (unlocked : (vtlock s && inVectors ((getC s x.who).rsp.toNat - 4) 4) = false) :
    ∃ t, rpush x n s = .ok ((), modC t x.who (fun c => { c with
        rhead := .val n :: c.rhead.dropLast, rsp := (getC s x.who).rsp - 4, rdepth := c.rdepth + 1, shifted := true })) ∧
      Posts postRegs s t x.who ∧
      Lands s t x.who ⟨(getC s x.who).rsp.toNat - 4, 4, v.zeroExtend 64, ringOf (getC s x.who), x.lane, false⟩ := by
  have at_sp : (spOf .r (getC s x.who) - 4).toNat = (getC s x.who).rsp.toNat - 4 := toNat_sub_four low
  have data : BitVec.ofNat 64 (v.toNat % 256 ^ 4) = v.zeroExtend 64 := by
    have := v.isLt
    apply BitVec.eq_of_toNat_eq
    rw [BitVec.toNat_ofNat, BitVec.toNat_setWidth]
    omega
  obtain ⟨t, posts, posted, lands⟩ := postStore_posts (l := postRegs) (s := s) (x := x) (ring := ringOf (getC s x.who))
    (a := (getC s x.who).rsp.toNat - 4) (n := 4) (v := v.toNat) (frame := false) postRegs_pool (by decide) (by decide) (.inr postRegs_deny)
  rw [data] at lands
  refine ⟨t, ?_, posted, lands⟩
  have full : (headOf .r (getC s x.who)).length = Stk.r.cap := by
    simp only [headOf, head, List.length_append, List.length_singleton, three, Stk.cap]
  have last : (headOf .r (getC s x.who)).getLast? = some (.val v) := by
    simp only [headOf, head, List.getLast?_append, List.getLast?_singleton, Option.some_or]
  have spill : spillOne x .r false s = .ok ((), modC t x.who (fun c => { c with
      rhead := c.rhead.dropLast, rsp := (getC s x.who).rsp - 4, shifted := true })) := by
    unfold spillOne
    rw [bind_get]
    simp only [last]
    rw [at_sp, range, unlocked, if_neg (by decide), if_neg Bool.false_ne_true, bind_of_ok posts]
    rfl
  unfold rpush pushE
  rw [bind_get, if_pos full, bind_of_ok spill]
  show Except.ok ((), modC (modC t x.who _) x.who _) = _
  rw [modC_modC]
  rfl

/-! ### A gate entry is read -/

theorem lane_unver (l : Fin 3) : decide (l ≠ 0) = (l.val != 0) := by
  revert l
  decide

/-- The entry is read, and the issuer at most written as it stands. -/
theorem gateEntry_reads {s : State} {l : LaneUse} {w : Who} {a : Nat}
    (reach : regionN a 16 = some .rom ∨ Accessible s w ⟨numOf s w, 0, decide (l.set ≠ 0)⟩ .load a 16) :
    ∃ t, gateEntry ⟨w, l.set.val⟩ a s = .ok (block s a 2, t) ∧ (t = s ∨ t = modC s w (fun c => c)) := by
  by_cases rom : regionN a 16 = some .rom
  · refine ⟨s, ?_, .inl rfl⟩
    unfold gateEntry
    rw [bind_get]
    dsimp only
    rw [if_pos rom, pure_eq]
    rfl
  · have access := reach.resolve_left rom
    have inside := access.inside
    simp only [inBanks, Bool.and_eq_true, decide_eq_true_eq] at inside
    have read : ∀ b, b = a ∨ b = a + 8 → bankAccess s ⟨numOf s w, 0, l.set.val != 0⟩ (phys b) 8 none = (s, .ok (rdN s b 8)) := fun b hb => by
      have part := access.inside_of (b := b) (m := 8) (by omega) (by omega) (by decide) (by decide) (by decide)
      rw [phys, if_neg (by omega), ← lane_unver]
      exact bankAccess_read (by decide) part.owner part.power part.clean
    have range : bankRange a 16 = true := by rw [bankRange, access.inside, Bool.true_or]
    have clear : awaitOver ⟨w, l.set.val⟩ a 16 s = .ok ((), s) := by
      unfold awaitOver
      rw [bind_get, awaitCons, access.quiet]
      rfl
    have fate : ownFate s w = none := by
      simp [ownFate, toldOf, access.untold, SMap.get]
    have done : ownDone s w = modC s w (fun c => c) := modC_congr _ _ _ _ (told_of_nil access.untold)
    refine ⟨ownDone s w, ?_, .inr done⟩
    unfold gateEntry
    rw [bind_get]
    dsimp only [Iss.unver]
    rw [if_neg rom, range, if_neg (by decide), bind_of_ok clear, fate]
    dsimp only
    rw [read a (.inl rfl)]
    dsimp only
    rw [read (a + 8) (.inr rfl)]
    rfl

/-! ### What a context that is written as it stands keeps -/

section
variable {s t : State} {w : Who} (h : t = s ∨ t = modC s w (fun c => c))
include h

theorem touched_getC : getC t w = getC s w := by
  rcases h with rfl | rfl
  · rfl
  · exact getC_modC_self ..

theorem touched_getR (a : Nat) : getR t a = getR s a := by
  rcases h with rfl | rfl
  · rfl
  · exact getR_modC ..

theorem touched_modC (f : Coach → Coach) : modC t w f = modC s w f := by
  rcases h with rfl | rfl
  · rfl
  · exact modC_touched s w f

theorem touched_up : t.up = s.up := by
  rcases h with rfl | rfl
  · rfl
  · exact modC_up ..

theorem touched_headOnly : headOnly t w = headOnly s w := by
  rw [headOnly, svc, touched_getR h, headOnly, svc]

theorem touched_takes {es rs : List Entry} {o ro : Nat} (k : Takes s w es rs o ro) : Takes t w es rs o ro := by
  obtain ⟨top, rtop, deep, room, rroom⟩ := k
  refine ⟨?_, ?_, ?_, ?_, ?_⟩
  · rw [touched_getC h]; exact top
  · rw [touched_getC h]; exact rtop
  · rw [touched_getC h, touched_headOnly h]; exact deep
  · rw [touched_getC h]; exact room
  · rw [touched_getC h]; exact rroom

theorem touched_switches (k : Nat) : switches t ⟨w, k⟩ = switches s ⟨w, k⟩ := by
  have regs : getR t = getR s := funext (touched_getR h)
  unfold switches onX onXAt xcapOf svc
  dsimp only
  rw [touched_getC h, regs]

end

/-! ### The entry of a routine -/

/-- What GATE does once its entry, of the words `g`, has been read and admits the caller. -/
def enterRoutine (x : Iss) (g : Nat → Word) : M Flow := do
  let t ← get
  let sw := bit (g 1) 30 && switches t x
  (if sw then switchStacks x (fld (g 1) 24 3) else need x.who 0 0 0 2)
  let ret ← nextOf x 3
  let u ← get
  rpush x (setBit (getC u x.who).status 6 sw)
  rpush x ret
  modI x (fun c => { c with status := setFld c.status 0 2 (fld (g 1) 8 2) })
  goTo x (g 0)

/-- The two halves of GATE's operand: the number of its entry, and what must be 0. -/
theorem gate_number (i : BitVec 16) : fld (i.zeroExtend 32) 0 10 = i.toNat % 1024 ∧ fld (i.zeroExtend 32) 10 6 = i.toNat / 1024 := by
  have := i.isLt
  simp only [fld, BitVec.toNat_setWidth]
  omega

section
variable {s : State} {l : LaneUse} {w : Who} {i : BitVec 16} (h : Issues s l w 3)
include h

theorem execGate_reserved (large : 1024 ≤ i.toNat) : exec (.gate l i) s = raises s l w { vec := 1, reason := 6 } := by
  refine instrLong_trap h ?_
  rw [bind_get, if_pos (by rw [(gate_number i).2]; omega)]
  rfl

theorem execGate_beyond (small : i.toNat < 1024) (many : fld (getR s aRngGatecnt) 0 11 ≤ i.toNat % 1024) :
    exec (.gate l i) s = raises s l w { vec := 8, reason := 1 } := by
  refine instrLong_trap h ?_
  rw [bind_get, if_neg (by rw [(gate_number i).2]; omega), if_pos (by rw [(gate_number i).1]; exact many)]
  rfl

section
variable (small : i.toNat < 1024) (few : i.toNat % 1024 < fld (getR s aRngGatecnt) 0 11)
  (reach : regionN ((getR s aRngGatebase).toNat + 16 * (i.toNat % 1024)) 16 = some .rom ∨
    Accessible s w ⟨numOf s w, 0, decide (l.set ≠ 0)⟩ .load ((getR s aRngGatebase).toNat + 16 * (i.toNat % 1024)) 16)
include small few reach

/-- The entry admits its caller. -/
theorem execGate_enters {g : Nat → Word} (words : ∀ k, g k = rd32 s ((getR s aRngGatebase).toNat + 16 * (i.toNat % 1024) + 4 * k))
    (present : bit (g 1) 31 = true) (reserved : g 1 &&& 0x38F0FCFF = 0) (check : g 3 = g 0 ^^^ g 1 ^^^ g 2 ^^^ 0x6A7E0000 ^^^ u32 (i.toNat % 1024))
    (admits : bit (g 1) (16 + ringOf (getC s w)) = true) (ring : fld (g 1) 8 2 ≤ ringOf (getC s w)) :
    ∃ t, (t = s ∨ t = modC s w (fun c => c)) ∧
      ∀ T, enterRoutine ⟨w, l.set.val⟩ g t = .ok (.jump, T) → exec (.gate l i) s = ends s l w 3 .jump T := by
  obtain ⟨t, read, touched⟩ := gateEntry_reads (l := l) reach
  refine ⟨t, touched, fun T runs => instrLong_ok h ?_ (by decide)⟩
  have same : ∀ k, k < 4 → wordAt (block s ((getR s aRngGatebase).toNat + 16 * (i.toNat % 1024)) 2) k = g k := fun k hk => by
    rw [wordAt_block s _ (by omega), words]
  generalize hG : wordAt (block s ((getR s aRngGatebase).toNat + 16 * (i.toNat % 1024)) 2) = G at same
  have checked : G 3 = gateCheck G (i.toNat % 1024) := by
    rw [gateCheck, same 0 (by decide), same 1 (by decide), same 2 (by decide), same 3 (by decide)]
    exact check
  have run : enterRoutine ⟨w, l.set.val⟩ G t = .ok (.jump, T) := by
    rw [← runs]
    unfold enterRoutine
    rw [same 0 (by decide), same 1 (by decide)]
  rw [bind_get, (gate_number i).1, (gate_number i).2, if_neg (by omega), if_neg (Nat.not_le.2 few), bind_of_ok read, hG, same 1 (by decide), present,
    show g 1 &&& attrReserved = 0 from reserved, if_neg (by decide), if_neg (not_not.2 checked), admits, if_neg (by decide), if_neg (Nat.not_lt.2 ring)]
  unfold enterRoutine at run
  rw [same 1 (by decide)] at run
  exact run

end

end

/-! ### Without a stack switch -/

/-- The link of a gate lies on the return stack; control is in the routine's ring. -/
def gated (ret st : Word) (ring : Nat) (pc : Word) (d : Coach) : Coach :=
  { rerack 0 [.val ret, .val (setBit st 6 false)] d with status := setFld st 0 2 ring, pc := pc }

theorem enterRoutine_plain {t : State} {w : Who} {k : Nat} {g : Nat → Word} (calm : (bit (g 1) 30 && switches t ⟨w, k⟩) = false)
    (takes : Takes t w [] [] 0 2) : enterRoutine ⟨w, k⟩ g t =
      .ok (.jump, modC t w (gated ((getC t w).pc + 3) (getC t w).status (fld (g 1) 8 2) (g 0))) := by
  have fits : need w 0 0 0 2 t = .ok ((), t) := takes.need
  have room := takes.rroom
  simp only [List.length_nil] at room
  unfold enterRoutine
  rw [bind_get, calm, if_neg Bool.false_ne_true, bind_of_ok fits, bind_of_ok (show nextOf ⟨w, k⟩ 3 t = .ok ((getC t w).pc + u32 3, t) from rfl), bind_get,
    bind_of_ok (rpush_rerack t ⟨w, k⟩ _ (by show (getC t w).rhead.length < 4; omega)),
    bind_of_ok (rpush_rerack _ ⟨w, k⟩ _ (by
      rw [getC_modC_self, rerack_rhead, List.drop_zero, List.length_append, List.length_singleton]
      show 1 + (getC t w).rhead.length < 4
      omega)), bind_modI]
  show Except.ok (Flow.jump, modC (modC (modC (modC t w _) w _) w _) w _) = _
  rw [modC_modC, modC_modC, modC_modC]
  refine congrArg (fun T => Except.ok (Flow.jump, T)) (modC_congr _ _ _ _ ?_)
  simp only [gated, rerack, u32, List.drop_zero, List.length_cons, List.length_nil, BitVec.ofNat_eq_ofNat, BitVec.sub_zero,
    Nat.zero_add, List.cons_append, List.nil_append, Coach.mk.injEq, true_and, and_true]
  rw [BitVec.add_assoc]
  rfl

/-! ### With a stack switch -/

/-- The caller's stack registers lie on the return stack, its arguments on the operand stack, both on the exception stacks. -/
def onException (args : List Word) (k d : Coach) : Coach :=
  { d with
    dsp := k.xdsp, rsp := k.xrsp, ddepth := u32 args.length, rdepth := 4, dhead := args.map .val
    rhead := [.val k.rdepth, .val k.rsp, .val k.ddepth, .val k.dsp] }

/-- The arguments are popped, and both heads spilled, from a state that differs at most in how its issuer is written. -/
theorem popped_spilled {s t u : State} {w : Who} {k : Nat} {args : List Word} (touched : t = s ∨ t = modC s w (fun c => c))
    (takes : Takes s w (args.map .val) [] 0 0)
    (spills : (do spillAll ⟨w, k⟩ .d; spillAll ⟨w, k⟩ .r : M Unit) (modC s w (restack args.length [])) = .ok ((), u)) :
    ∃ t' v, popN ⟨w, k⟩ args.length t = .ok (args, t') ∧ (do spillAll ⟨w, k⟩ .d; spillAll ⟨w, k⟩ .r : M Unit) t' = .ok ((), v) ∧
      ∀ f, modC v w f = modC u w f := by
  have head := top_drop (touched_takes touched takes)
  rw [List.length_map] at head
  cases args with
  | nil =>
    have same : modC s w (restack 0 []) = modC s w (fun c => c) := modC_congr _ _ _ _ (restack_nothing _)
    rw [List.length_nil, same] at spills
    rcases touched with rfl | rfl
    · obtain ⟨v, ran, eq⟩ := spillBoth_touched (x := ⟨w, k⟩) spills
      exact ⟨t, v, rfl, ran, eq⟩
    · exact ⟨_, u, rfl, spills, fun _ => rfl⟩
  | cons a r =>
    refine ⟨_, u, popN_vals ⟨w, k⟩ (a :: r) t _ (List.cons_ne_nil _ _) head, ?_, fun _ => rfl⟩
    rw [← spills]
    refine congrArg _ ((touched_modC touched _).trans (modC_congr _ _ _ _ ?_))
    rw [touched_getC touched]
    simp [restack, u32]

theorem fits_operands {z : State} {w : Who} {n : Nat} (only : headOnly z w = false) (none : (getC z w).dhead = []) (few : n < 8) :
    stackFits z w .d 0 n = true := by
  have enough : 0 - 0 + n - 8 = 0 := by omega
  simp only [stackFits, only, spillsFor, headOf, none, Stk.cap, List.length_nil, enough]
  simp

theorem fits_returns {z : State} {w : Who} (only : headOnly z w = false) (none : (getC z w).rhead = []) (top : (getC z w).rsp = (getC z w).xrsp)
    (window : 2 ≤ xcapOf z .r) (low : 8 ≤ (getC z w).xrsp.toNat) : stackFits z w .r 0 6 = true := by
  have on : onX z .r (getC z w) = true := by
    simp only [onX, onXAt, xspOf, spOf, top, Bool.and_eq_true, decide_eq_true_eq]
    omega
  have below : spillLimit z .r (getC z w) + 4 * 2 ≤ (getC z w).rsp.toNat + 4 * (0 - 0) := by
    rw [spillLimit, if_pos on, top, xspOf]
    omega
  simp only [stackFits, only, spillsFor, headOf, none, Stk.cap, List.length_nil, spOf]
  simpa using below

theorem rpush_onto {z : State} {w : Who} {k : Nat} {F : Coach → Coach} (v : Word) (room : (F (getC z w)).rhead.length < 4) :
    rpush ⟨w, k⟩ v (modC z w F) = .ok ((), modC z w (fun c => rerack 0 [.val v] (F c))) := by
  refine (rpush_rerack (modC z w F) ⟨w, k⟩ v (by
    show (getC (modC z w F) w).rhead.length < 4
    rw [getC_modC_self]
    exact room)).trans ?_
  rw [modC_modC]

theorem pushAll_onto {z : State} {w : Who} {k : Nat} (args : List Word) (F : Coach → Coach) (none : (F (getC z w)).dhead = []) (few : args.length ≤ 8) :
    pushAll ⟨w, k⟩ args (modC z w F) = .ok ((), modC z w (fun c => { F c with dhead := args.map .val, ddepth := (F c).ddepth + u32 args.length })) := by
  cases args with
  | nil =>
    refine congrArg (fun T => Except.ok ((), T)) (modC_congr _ _ _ _ ?_)
    have same : (F (getC z w)).ddepth + u32 0 = (F (getC z w)).ddepth := BitVec.add_zero _
    rw [List.map_nil, ← none, List.length_nil, same]
  | cons a r =>
    refine (pushAll_room ⟨w, k⟩ (a :: r) (modC z w F) (List.cons_ne_nil _ _) (by
      show (getC (modC z w F) w).dhead.length + _ ≤ 8
      rw [getC_modC_self, none, List.length_nil]
      omega)).trans ?_
    refine congrArg (fun T => Except.ok ((), T)) ((modC_modC ..).trans (modC_congr _ _ _ _ ?_))
    rw [none, List.append_nil]

theorem switchStacks_ok {s t u : State} {w : Who} {k : Nat} {args : List Word} (touched : t = s ∨ t = modC s w (fun c => c))
    (takes : Takes s w (args.map .val) [] 0 0) (few : args.length < 8)
    (spills : (do spillAll ⟨w, k⟩ .d; spillAll ⟨w, k⟩ .r : M Unit) (modC s w (restack args.length [])) = .ok ((), u))
    (deep : headOnly u w = false) (window : 2 ≤ xcapOf u .r) (low : 8 ≤ (getC u w).xrsp.toNat) :
    switchStacks ⟨w, k⟩ args.length t = .ok ((), modC u w (onException args (getC u w))) := by
  obtain ⟨t', v, pops, ran, eq⟩ := popped_spilled touched takes spills
  obtain ⟨_, m, first, second⟩ := ok_of_bind ran
  obtain ⟨noOperands, noReturns, _, _, _⟩ := spillBoth_spilled spills
  replace noOperands : (getC u w).dhead = [] := noOperands
  replace noReturns : (getC u w).rhead = [] := noReturns
  have same : getC v w = getC u w := by
    have self := congrArg (fun z => getC z w) (eq (fun c => c))
    simp only [getC_modC_self] at self
    exact self
  have fits : need w args.length 0 0 0 t = .ok ((), t) := by
    have all := (touched_takes touched takes).need
    rw [List.length_map] at all
    exact all
  obtain ⟨z, hz⟩ : ∃ z, z = modC u w (fun d => { d with dsp := d.xdsp, rsp := d.xrsp, ddepth := 0, rdepth := 0 }) := ⟨_, rfl⟩
  have onStack : getC z w = { getC u w with dsp := (getC u w).xdsp, rsp := (getC u w).xrsp, ddepth := 0, rdepth := 0 } := by
    rw [hz, getC_modC_self]
  have room : need w 0 args.length 0 6 z = .ok ((), z) := by
    have only : headOnly z w = false := by
      rw [hz, headOnly, svc, getR_modC]
      exact deep
    have cap : xcapOf z .r = xcapOf u .r := by rw [hz]; exact congrArg (fun v => fld v 16 16) (getR_modC u w _ aRngXcap)
    exact need_ok z w 0 args.length 0 6 (fits_operands only (by rw [onStack]; exact noOperands) few)
      (fits_returns only (by rw [onStack]; exact noReturns) (by rw [onStack]) (by rw [cap]; exact window) (by rw [onStack]; exact low))
  unfold switchStacks
  rw [bind_of_ok fits, bind_of_ok pops, bind_of_ok first, bind_of_ok second, bind_get, bind_modI, eq, ← hz, bind_of_ok room, same]
  have start : z = modC z w (fun c => c) := by rw [hz, modC_modC]
  have first := rpush_onto (z := z) (w := w) (k := k) (F := fun c => c) (getC u w).dsp (by rw [onStack, noReturns]; decide)
  have second := rpush_onto (z := z) (w := w) (k := k) (F := rerack 0 [.val (getC u w).dsp]) (getC u w).ddepth (by rw [onStack, rerack_rhead, noReturns]; simp)
  have third := rpush_onto (z := z) (w := w) (k := k) (F := fun c => rerack 0 [.val (getC u w).ddepth] (rerack 0 [.val (getC u w).dsp] c)) (getC u w).rsp
    (by rw [onStack, rerack_rhead, rerack_rhead, noReturns]; simp)
  have fourth := rpush_onto (z := z) (w := w) (k := k) (F := fun c => rerack 0 [.val (getC u w).rsp] (rerack 0 [.val (getC u w).ddepth]
    (rerack 0 [.val (getC u w).dsp] c))) (getC u w).rdepth (by rw [onStack, rerack_rhead, rerack_rhead, rerack_rhead, noReturns]; simp)
  rw [← start] at first
  rw [bind_of_ok first, bind_of_ok second, bind_of_ok third, bind_of_ok fourth, pushAll_onto args _ (by rw [onStack]; exact noOperands) (by omega)]
  refine congrArg (fun T => Except.ok ((), T)) ?_
  rw [hz, modC_modC]
  refine modC_congr _ _ _ _ ?_
  simp [onException, rerack, u32, noReturns]

/-! ### The link goes below the saved registers -/

/-- What has landed stays so in a state with the same entries, to which the issuer still owes as much. -/
theorem Lands.onwards {s t u : State} {w : Who} {p : Posted} (h : Lands s t w p) (cons : ∀ e, consOf u e = consOf t e)
    (out : (getC u w).out = (getC t w).out) : Lands s u w p :=
  h.elim (fun waits => .inl (out ▸ waits)) fun ⟨e, free, held⟩ => .inr ⟨e, free, by rw [cons]; exact held⟩

theorem Lands.through {l : List Nat} {s t u : State} {w : Who} {p : Posted} (h : Lands s t w p)
    (free : ∀ e, (consOf t e).used = false → (consOf s e).used = false) (posts : Posts l t u w) : Lands s u w p := by
  rcases h with waits | ⟨e, was, held⟩
  · exact (posts.pend p waits).imp_right fun ⟨e, now, held⟩ => ⟨e, free e now, held⟩
  · obtain ⟨g, same⟩ := posts.kept e held.used
    exact .inr ⟨e, was, same ▸ held.tag g⟩

theorem Lands.since {s t u : State} {w : Who} {p : Posted} (h : Lands t u w p) (free : ∀ e, (consOf t e).used = false → (consOf s e).used = false) :
    Lands s u w p := h.imp_right fun ⟨e, was, held⟩ => ⟨e, free e was, held⟩

theorem Posts.free {l : List Nat} {s t : State} {w : Who} (h : Posts l s t w) {e : Nat} (now : (consOf t e).used = false) : (consOf s e).used = false := by
  by_contra used
  obtain ⟨g, same⟩ := h.kept e (by simpa using used)
  rw [same] at now
  exact used now

theorem storable_words {u : State} {l : LaneUse} {w : Who} {a : Nat} (h : Storable u l w a 8) {b : Nat} (low : a ≤ b) (high : b + 4 ≤ a + 8) :
    bankRange b 4 = true ∧ (vtlock u && inVectors b 4) = false := by
  obtain ⟨inside, _, unlocked⟩ := h
  simp only [inBanks, Bool.and_eq_true, decide_eq_true_eq] at inside
  have pa : phys a = a := by rw [phys, if_neg (by omega)]
  have pb : phys b = b := by rw [phys, if_neg (by omega)]
  refine ⟨?_, ?_⟩
  · have part : inBanks b 4 = true := by
      simp only [inBanks, Bool.and_eq_true, decide_eq_true_eq]
      omega
    rw [bankRange, part, Bool.true_or]
  · cases locked : vtlock u with
    | false => rfl
    | true =>
      rw [locked, Bool.true_and] at unlocked
      rw [Bool.true_and]
      refine Bool.eq_false_iff.2 fun touches => Bool.eq_false_iff.1 unlocked ?_
      simp only [inVectors, pa, pb, Bool.and_eq_true, decide_eq_true_eq] at touches ⊢
      omega

/-- The context in the routine: its arguments, the link above the caller's registers, and the routine's ring. -/
def inRoutine (args : List Word) (ret : Word) (ring : Nat) (pc : Word) (k d : Coach) : Coach :=
  { d with
    pc := pc, status := setFld k.status 0 2 ring, dsp := k.xdsp, rsp := k.xrsp - 8, ddepth := u32 args.length, rdepth := 6
    dhead := args.map .val, rhead := [.val ret, .val (setBit k.status 6 true), .val k.rdepth, .val k.rsp] }

/-- The link is pushed, with the caller's deepest registers stored below it. -/
theorem link_pushed {u : State} {l : LaneUse} {w : Who} {args : List Word} {k : Coach} (here : getC u w = k) (ret : Word) (ring : Nat) (pc : Word)
    (low : 8 ≤ k.xrsp.toNat) (storable : Storable u l w (k.xrsp.toNat - 8) 8) :
    ∃ T, (do
        rpush ⟨w, l.set.val⟩ (setBit k.status 6 true)
        rpush ⟨w, l.set.val⟩ ret
        modI ⟨w, l.set.val⟩ (fun c => { c with status := setFld c.status 0 2 ring })
        goTo ⟨w, l.set.val⟩ pc : M Flow) (modC u w (onException args k)) = .ok (.jump, T) ∧
      SameMemory u T ∧ T.up = u.up ∧
      (∃ d, getC T w = inRoutine args ret ring pc k d) ∧
      (∃ r b, Lands u T w ⟨k.xrsp.toNat - 4, 4, k.dsp.zeroExtend 64, r, l.set.val, b⟩) ∧
      (∃ r b, Lands u T w ⟨k.xrsp.toNat - 8, 4, k.ddepth.zeroExtend 64, r, l.set.val, b⟩) := by
  obtain ⟨S, hS⟩ : ∃ S, S = modC u w (onException args k) := ⟨_, rfl⟩
  have own : getC S w = onException args k k := by rw [hS, getC_modC_self, here]
  have sp : (getC S w).rsp.toNat = k.xrsp.toNat := congrArg (fun c => (Coach.rsp c).toNat) own
  have lock : vtlock S = vtlock u := by rw [hS, vtlock, getR_modC, vtlock]
  obtain ⟨range4, unlocked4⟩ := storable_words storable (b := k.xrsp.toNat - 4) (by omega) (by omega)
  obtain ⟨range8, unlocked8⟩ := storable_words storable (b := k.xrsp.toNat - 8) (by omega) (by omega)
  obtain ⟨t1, push1, posts1, lands1⟩ := rpush_full (s := S) (x := ⟨w, l.set.val⟩) (h := [.val k.rdepth, .val k.rsp, .val k.ddepth]) (v := k.dsp)
    (setBit k.status 6 true) rfl (congrArg Coach.rhead own) (by rw [sp]; omega) (by rw [sp]; exact range4) (by rw [sp, lock]; exact unlocked4)
  replace push1 : rpush ⟨w, l.set.val⟩ (setBit k.status 6 true) S = .ok ((), modC t1 w (fun c => { c with
      rhead := .val (setBit k.status 6 true) :: c.rhead.dropLast, rsp := (getC S w).rsp - 4, rdepth := c.rdepth + 1, shifted := true })) := push1
  obtain ⟨o1, h1, st1, wt1, own1⟩ := posts1.own
  obtain ⟨S1, hS1⟩ : ∃ S1, S1 = modC t1 w (fun c => { c with
    rhead := .val (setBit k.status 6 true) :: c.rhead.dropLast, rsp := (getC S w).rsp - 4, rdepth := c.rdepth + 1, shifted := true }) := ⟨_, rfl⟩
  have ownS1 : getC S1 w = { onException args k k with
      out := o1, held := h1, step := st1, waited := wt1, rhead := [.val (setBit k.status 6 true), .val k.rdepth, .val k.rsp, .val k.ddepth]
      rsp := k.xrsp - 4, rdepth := 5, shifted := true } := by
    rw [hS1, getC_modC_self, own1, own]
    rfl
  have sp1 : (getC S1 w).rsp.toNat = k.xrsp.toNat - 4 := (congrArg (fun c => (Coach.rsp c).toNat) ownS1).trans (toNat_sub_four (by omega))
  have lock1 : vtlock S1 = vtlock S := by
    rw [hS1, vtlock, getR_modC, posts1.csr aRngLock (by decide), vtlock]
  obtain ⟨t2, push2, posts2, lands2⟩ := rpush_full (s := S1) (x := ⟨w, l.set.val⟩)
    (h := [.val (setBit k.status 6 true), .val k.rdepth, .val k.rsp]) (v := k.ddepth) ret rfl (congrArg Coach.rhead ownS1) (by rw [sp1]; omega)
    (by rw [sp1, show k.xrsp.toNat - 4 - 4 = k.xrsp.toNat - 8 by omega]; exact range8)
    (by rw [sp1, lock1, lock, show k.xrsp.toNat - 4 - 4 = k.xrsp.toNat - 8 by omega]; exact unlocked8)
  rw [sp1, show k.xrsp.toNat - 4 - 4 = k.xrsp.toNat - 8 by omega] at lands2
  rw [sp] at lands1
  replace push2 : rpush ⟨w, l.set.val⟩ ret S1 = .ok ((), modC t2 w (fun c => { c with
      rhead := .val ret :: c.rhead.dropLast, rsp := (getC S1 w).rsp - 4, rdepth := c.rdepth + 1, shifted := true })) := push2
  obtain ⟨o2, h2, st2, wt2, own2⟩ := posts2.own
  have link : k.xrsp - 4 - 4 = k.xrsp - 8 := by bv_omega
  obtain ⟨F, hF⟩ : ∃ F : Coach → Coach, F = fun c => { c with
    rhead := .val ret :: c.rhead.dropLast, rsp := (getC S1 w).rsp - 4, rdepth := c.rdepth + 1, shifted := true
    status := setFld c.status 0 2 ring, pc := pc } := ⟨_, rfl⟩
  have freeS : ∀ e, (consOf S e).used = false → (consOf u e).used = false := fun e h => by rw [hS, consOf_modC] at h; exact h
  have freeS1 : ∀ e, (consOf S1 e).used = false → (consOf u e).used = false := fun e h => by
    rw [hS1, consOf_modC] at h
    exact freeS e (posts1.free h)
  have consT : ∀ e, consOf (modC t2 w F) e = consOf t2 e := fun e => consOf_modC ..
  have outT : (getC (modC t2 w F) w).out = (getC t2 w).out := by rw [getC_modC_self, hF]
  have outS1 : (getC S1 w).out = (getC t1 w).out := by rw [hS1, getC_modC_self]
  refine ⟨modC t2 w F, ?_, fun a => ?_, ?_, ⟨{ getC t2 w with shifted := true }, ?_⟩, ⟨ringOf (getC S w), false, ?_⟩, ⟨ringOf (getC S1 w), false, ?_⟩⟩
  · rw [← hS, bind_of_ok push1, ← hS1, bind_of_ok push2, bind_modI]
    show Except.ok (Flow.jump, modC (modC (modC t2 w _) w _) w _) = _
    rw [modC_modC, modC_modC, hF]
  · rw [rdB_modC, posts2.sameMemory, hS1, rdB_modC, posts1.sameMemory, hS, rdB_modC]
  · rw [modC_up, posts2.up, hS1, modC_up, posts1.up, hS, modC_up]
  · rw [getC_modC_self, hF, own2, ownS1]
    dsimp only
    rw [link]
    rfl
  · have settled := lands1.onwards (u := S1) (fun e => by rw [hS1, consOf_modC]) outS1
    exact ((settled.since freeS).through freeS1 posts2).onwards consT outT
  · exact (lands2.since freeS1).onwards consT outT

/-- GATE through an entry that switches stacks, once it has pushed its link. -/
theorem enterRoutine_switched {s t u : State} {l : LaneUse} {w : Who} {g : Nat → Word} {args : List Word} {k : Coach}
    (touched : t = s ∨ t = modC s w (fun c => c)) (asks : bit (g 1) 30 = true) (off : switches s ⟨w, l.set.val⟩ = true)
    (count : args.length = fld (g 1) 24 3) (takes : Takes s w (args.map .val) [] 0 0)
    (spills : (do spillAll ⟨w, l.set.val⟩ .d; spillAll ⟨w, l.set.val⟩ .r : M Unit) (modC s w (restack args.length [])) = .ok ((), u))
    (here : getC u w = k) (window : 2 ≤ xcapOf u .r) (low : 8 ≤ k.xrsp.toNat) (storable : Storable u l w (k.xrsp.toNat - 8) 8) :
    ∃ T, enterRoutine ⟨w, l.set.val⟩ g t = .ok (.jump, T) ∧ SameMemory u T ∧ T.up = u.up ∧
      (∃ d, getC T w = inRoutine args ((getC s w).pc + 3) (fld (g 1) 8 2) (g 0) k d) ∧
      (∃ r b, Lands u T w ⟨k.xrsp.toNat - 4, 4, k.dsp.zeroExtend 64, r, l.set.val, b⟩) ∧
      (∃ r b, Lands u T w ⟨k.xrsp.toNat - 8, 4, k.ddepth.zeroExtend 64, r, l.set.val, b⟩) := by
  have few : args.length < 8 := by
    rw [count, fld]
    exact Nat.mod_lt _ (by decide)
  obtain ⟨_, _, samePc, _, csr⟩ := spillBoth_spilled spills
  have service : svc u = svc s := by
    rw [svc, csr aRngCtl (by decide), getR_modC, svc]
  have deep : headOnly u w = false := by
    simp only [switches, Bool.and_eq_true, bne_iff_ne] at off
    obtain ⟨⟨⟨on, coach⟩, _⟩, _⟩ := off
    rw [headOnly, service, on, Bool.not_true, Bool.or_false, beq_eq_false_iff_ne]
    exact coach
  have next : (getC (modC u w (onException args k)) w).pc + u32 3 = (getC s w).pc + 3 := by
    rw [getC_modC_self]
    have kept : (getC u w).pc = (getC s w).pc := by
      rw [samePc, getC_modC_self]
      rfl
    exact congrArg (fun p : Word => p + 3) kept
  have status : (getC (modC u w (onException args k)) w).status = k.status := by
    rw [getC_modC_self, ← here]
    rfl
  obtain ⟨T, run, rest⟩ := link_pushed here ((getC s w).pc + 3) (fld (g 1) 8 2) (g 0) low storable
  refine ⟨T, ?_, rest⟩
  have switched := switchStacks_ok touched takes few spills deep window (by rw [here]; exact low)
  rw [here] at switched
  unfold enterRoutine
  rw [bind_get, asks, touched_switches touched, off, Bool.and_self, if_pos rfl, ← count, bind_of_ok switched,
    bind_of_ok (show nextOf ⟨w, l.set.val⟩ 3 (modC u w (onException args k)) = .ok (_, _) from rfl), bind_get, status, next]
  exact run

/-- The clause of GATE with a stack switch. -/
theorem ends_inRoutine {s u T : State} {l : LaneUse} {w : Who} {args : List Word} {k : Coach} {ret pc : Word} {ring len : Nat}
    (mem : SameMemory u T) (up : T.up = true) (own : ∃ d, getC T w = inRoutine args ret ring pc k d)
    (deep : ∃ r b, Lands u T w ⟨k.xrsp.toNat - 4, 4, k.dsp.zeroExtend 64, r, l.set.val, b⟩)
    (deeper : ∃ r b, Lands u T w ⟨k.xrsp.toNat - 8, 4, k.ddepth.zeroExtend 64, r, l.set.val, b⟩) :
    ∃ t, ends s l w len .jump T = .next t ∧ SameMemory u t ∧
      NewStore u t w (k.xrsp.toNat - 4) 4 (k.dsp.zeroExtend 64) ∧ NewStore u t w (k.xrsp.toNat - 8) 4 (k.ddepth.zeroExtend 64) ∧
      ∃ d, getC t w = inRoutine args ret ring pc k d := by
  obtain ⟨t, run, frame, thread⟩ := ends_thread s l w len .jump T up
  have sent : (getC t w).out = (getC T w).out := by rw [thread.out, afterFlow_out]
  obtain ⟨_, _, low⟩ := deep
  obtain ⟨_, _, lower⟩ := deeper
  refine ⟨t, run, fun a => (frame.mem a).trans (mem a), newStore_of_lands low frame.cons sent, newStore_of_lands lower frame.cons sent, ?_⟩
  obtain ⟨d, hd⟩ := own
  obtain ⟨_, _, _, _, _, _, _, _, _, _, _, eq⟩ := thread
  rw [hd] at eq
  exact ⟨getC t w, by rw [eq]; rfl⟩

/-- Settles O30: the entry is read and admits its caller; the link lies on the return stack, where the entry switches stacks
above the caller's registers. -/
theorem gateEntry_enters : Obligations.GateEntry := by
  unfold Obligations.GateEntry
  intro s l w i up issues c n a g ret
  refine ⟨execGate_reserved issues, execGate_beyond issues, fun small few reach present reserved check admits ring => ?_⟩
  obtain ⟨t, touched, enters⟩ := execGate_enters issues small few reach (g := g) (fun _ => rfl) present reserved check admits ring
  refine ⟨fun calm takes => ?_, fun args u asks off count takes spills => ?_⟩
  · have still : (bit (g 1) 30 && switches t ⟨w, l.set.val⟩) = false := by
      rw [touched_switches touched, Bool.and_eq_false_iff]
      exact calm
    have runs := enterRoutine_plain (g := g) still (touched_takes touched takes)
    rw [touched_modC touched, touched_getC touched] at runs
    exact enters _ runs
  · intro k x window low storable
    obtain ⟨T, runs, mem, same, own, deep, deeper⟩ := enterRoutine_switched touched asks off count takes spills rfl window low storable
    obtain ⟨_, _, _, kept, _⟩ := spillBoth_spilled spills
    obtain ⟨v, run, memory, store, lower, d, eq⟩ := ends_inRoutine (s := s) (len := 3) mem (by rw [same, kept, modC_up, up]) own deep deeper
    refine ⟨v, (enters T runs).trans run, memory, store, lower, ?_⟩
    rw [eq]
    exact ⟨rfl, rfl, rfl, rfl, rfl, rfl, rfl, rfl⟩

end Sys2Proof.Machine
end

section
/-! SUPPORT. Stores to the banks that the core makes within an instruction (spec/02 R38, R57; spec/11 R283, R294). -/

namespace Sys2Proof.Machine

/-! ### Bytes put in a bank -/

/-- State `t` is `s` with the low `n` bytes of `v` at `a`, but for the spare and for draws; no word of it has a new error. -/
structure BytesPut (a n v : Nat) (s t : State) : Prop where
  rest : ∃ m e d, t = { s with mem := m, ecc := e, draws := d }
  clean : ∀ b, eccAt s b = 0 → eccAt t b = 0
  inside : rdN t a n = v % 256 ^ n
  outside : ∀ b, b < spareBase → b < a ∨ a + n ≤ b → rdB t b = rdB s b

theorem rdN_congr {s t : State} : ∀ (n a : Nat), (∀ b, a ≤ b → b < a + n → rdB t b = rdB s b) → rdN t a n = rdN s a n
  | 0, _, _ => rfl
  | n + 1, a, h => by
    rw [rdN, rdN, h a (le_refl a) (by omega), rdN_congr n (a + 1) fun b low high => h b (by omega) (by omega)]

/-- Two parts of a store, one after the other. -/
theorem BytesPut.append {a m n v : Nat} {s t u : State} (h : BytesPut a m v s t) (g : BytesPut (a + m) n (v / 256 ^ m) t u)
    (high : a + m ≤ spareBase) : BytesPut a (m + n) v s u where
  rest := by
    obtain ⟨_, _, _, rfl⟩ := h.rest
    obtain ⟨_, _, _, rfl⟩ := g.rest
    exact ⟨_, _, _, rfl⟩
  clean b hb := g.clean b (h.clean b hb)
  inside := by
    have kept : rdN u a m = rdN t a m := rdN_congr m a fun b _ below => g.outside b (by omega) (.inl below)
    rw [rdN_append, kept, h.inside, g.inside, pow_add, Nat.mod_mul]
    ring
  outside b low out := (g.outside b low (by omega)).trans (h.outside b low (by omega))

theorem cleanWords_rest (ws : List Nat) (s : State) :
    (∃ e, cleanWords s ws = { s with ecc := e }) ∧ ∀ b, eccAt s b = 0 → eccAt (cleanWords s ws) b = 0 := by
  have marked : ∀ (t : State) (x b : Nat), eccAt t b = 0 → eccAt (setEcc t x 0) b = 0 := fun t x b h => by
    rw [eccAt_setEcc]
    split
    · rfl
    · exact h
  induction ws generalizing s with
  | nil => exact ⟨⟨s.ecc, rfl⟩, fun _ h => h⟩
  | cons x r ih =>
    unfold cleanWords at ih ⊢
    rw [List.foldl_cons]
    dsimp only
    split
    · obtain ⟨⟨e, he⟩, clean⟩ := ih (setEcc (setEcc s x 0) (spareBase + x % 0x10000) 0)
      exact ⟨⟨e, he⟩, fun b hb => clean b (marked _ _ b (marked _ _ b hb))⟩
    · obtain ⟨⟨e, he⟩, clean⟩ := ih (setEcc s x 0)
      exact ⟨⟨e, he⟩, fun b hb => clean b (marked _ _ b hb)⟩

theorem bytesPut_wrN (s : State) (a n v : Nat) : BytesPut a n v s (wrN s a n v) := by
  obtain ⟨m, e⟩ := wrN_rest s a n v
  refine ⟨⟨m, s.ecc, s.draws, e⟩, fun b hb => ?_, rdN_wrN s a n v, fun b _ out => rdB_wrN_other s a n v b out⟩
  rw [e]
  exact hb

/-- What goes to the spare alone leaves the banks. -/
theorem BytesPut.spare {a n v : Nat} {s t u : State} (h : BytesPut a n v s t) (rest : ∃ m d, u = { t with mem := m, draws := d })
    (same : ∀ b, b < spareBase → rdB u b = rdB t b) (high : a + n ≤ spareBase) : BytesPut a n v s u where
  rest := by
    obtain ⟨_, _, _, rfl⟩ := h.rest
    obtain ⟨_, _, rfl⟩ := rest
    exact ⟨_, _, _, rfl⟩
  clean b hb := by
    have kept := h.clean b hb
    obtain ⟨_, _, rfl⟩ := rest
    exact kept
  inside := (rdN_congr n a fun b _ below => same b (by omega)).trans h.inside
  outside b low out := (same b low).trans (h.outside b low out)

theorem bytesPut_bankPut {s : State} {a n v : Nat} (high : a + n ≤ spareBase) : BytesPut a n v s (bankPut s a n v) := by
  have put := bytesPut_wrN s a n v
  unfold bankPut
  dsimp only
  split
  · generalize wrN s a n v = t at put
    unfold spareWrite
    split
    · obtain ⟨m, e⟩ := wrN_rest t (spareBase + a % 0x10000) n v
      exact put.spare ⟨m, t.draws, e⟩ (fun b low => rdB_wrN_other t _ _ _ b (.inl (by omega))) high
    · obtain ⟨m, e⟩ := wrN_rest (freeD t).2 (spareBase + a % 0x10000) n (freeD t).1.toNat
      exact put.spare ⟨m, t.draws + 1, e⟩ (fun b low => rdB_wrN_other (freeD t).2 _ _ _ b (.inl (by omega))) high
  · exact put

/-- A store to clean words of one bank. -/
theorem bankWrite_clean {s : State} {a n : Nat} (v : Nat) (high : a + n ≤ spareBase) (clean : ∀ x ∈ wordsOf a n, eccAt s x = 0) :
    ∃ t, bankWrite s a n v = (t, 0) ∧ BytesPut a n v s t := by
  have put := bytesPut_bankPut (s := s) (v := v) high
  obtain ⟨⟨e, he⟩, kept⟩ := cleanWords_rest (wordsOf a n) (bankPut s a n v)
  refine ⟨cleanWords (bankPut s a n v) (wordsOf a n), ?_, ?_⟩
  · unfold bankWrite
    dsimp only
    rw [checkWords_clean (ws := partialWords a n (wordsOf a n)) fun x hx => clean x (List.mem_filter.1 hx).1]
    rfl
  · obtain ⟨m, e', d, rest⟩ := put.rest
    refine ⟨⟨m, e, d, by rw [he, rest]⟩, fun b hb => kept b (put.clean b hb), ?_, fun b low out => ?_⟩
    · exact (rdN_of_mem (fun b => rdB_congr (by rw [he]) b) a n).trans put.inside
    · rw [he]
      exact put.outside b low out

/-- A part of a store in one bank, of which the bytes before `off` are stored. -/
theorem performParts_write {s : State} {r : Req} {live : Bool} {v a n off acc : Nat} (rest : List (Nat × Nat)) (high : a + n ≤ spareBase)
    (power : powerFor s live (bankOf a) = .ok) (clean : ∀ x ∈ wordsOf a n, eccAt s x = 0) :
    ∃ t, performParts r live (some v) ((a, n) :: rest) off acc s = performParts r live (some v) rest (off + n) acc t ∧
      BytesPut a n (v / 256 ^ off) s t := by
  obtain ⟨t, write, put⟩ := bankWrite_clean (v / 256 ^ off) high clean
  refine ⟨t, ?_, put⟩
  rw [performParts, power]
  dsimp only
  rw [write]
  exact if_pos rfl

/-- An admitted store to clean words of powered banks. -/
theorem bankPerform_write {s : State} {r : Req} {live : Bool} {a n : Nat} (v : Nat) (pos : 0 < n) (high : a + n ≤ spareBase)
    (power : ∀ p ∈ bankParts a n, powerFor s live (bankOf p.1) = .ok) (clean : ∀ b, b < a + n → a < b + 8 → eccAt s b = 0) :
    ∃ t, bankPerform s r live a n (some v) = (t, .ok 0) ∧ BytesPut a n v s t := by
  have words : ∀ b m, a ≤ b → b + m ≤ a + n → 0 < m → ∀ x ∈ wordsOf b m, eccAt s x = 0 := fun b m low up some x hx => by
    have := touched_of_mem_wordsOf some hx
    exact clean x (by omega) (by omega)
  have ready : (bankParts a n).find? (fun p => powerFor s live (bankOf p.1) == .waits) = none := by
    rw [List.find?_eq_none]
    intro p hp
    rw [power p hp]
    decide
  unfold bankPerform
  simp only [ready]
  rcases bankParts_cases a n with parts | ⟨m, some, few, parts⟩
  · rw [parts] at power ⊢
    obtain ⟨t, first, put⟩ := performParts_write (r := r) (live := live) (v := v) (a := a) (n := n) (off := 0) (acc := 0) [] high (power (a, n) List.mem_cons_self)
      (words a n (le_refl a) (le_refl _) pos)
    rw [pow_zero, Nat.div_one] at put
    exact ⟨t, first.trans (by rw [performParts]), put⟩
  · rw [parts] at power ⊢
    obtain ⟨t, first, put⟩ := performParts_write (r := r) (live := live) (v := v) (a := a) (n := m) (off := 0) (acc := 0) [(a + m, n - m)] (by omega) (power (a, m) List.mem_cons_self)
      (words a m (le_refl a) (by omega) some)
    have same : ∀ b, powerFor t live b = powerFor s live b := fun b => by
      obtain ⟨_, _, _, rfl⟩ := put.rest
      rfl
    obtain ⟨u, second, more⟩ := performParts_write (s := t) (r := r) (live := live) (v := v) (a := a + m) (n := n - m) (off := 0 + m) (acc := 0) [] (by omega)
      ((same _).trans (power (a + m, n - m) (List.mem_cons_of_mem _ List.mem_cons_self)))
      (fun x hx => put.clean x (words (a + m) (n - m) (by omega) (by omega) (by omega) x hx))
    rw [pow_zero, Nat.div_one] at put
    rw [Nat.zero_add] at more
    have whole := put.append more (by omega)
    rw [show m + (n - m) = n by omega] at whole
    exact ⟨u, (first.trans second).trans (by rw [performParts]), whole⟩

theorem bankAccess_write {s : State} {r : Req} {a n : Nat} (v : Nat) (pos : 0 < n) (high : a + n ≤ spareBase) (owner : ownerRefusal s r a n .store = none)
    (power : ∀ p ∈ bankParts a n, powerAns s (bankOf p.1) = .ok) (clean : ∀ b, b < a + n → a < b + 8 → eccAt s b = 0) :
    ∃ t, bankAccess s r a n (some v) = (t, .ok 0) ∧ BytesPut a n v s t := by
  unfold bankAccess accessOf
  simp only [Option.isSome_some, if_true, owner]
  exact bankPerform_write v pos high power clean

/-! ### A store within an instruction -/

/-- State `t` is `s` with the low `n` bytes of `v` stored at `a` by the core, in an entry that is free again. -/
def Stored (a n v : Nat) (s t : State) : Prop := ∃ u, BytesPut a n v s u ∧ Reads u t

theorem BytesPut.same {a n v : Nat} {s t : State} (h : BytesPut a n v s t) :
    (∀ w, getC t w = getC s w) ∧ (∀ r, getR t r = getR s r) ∧ t.up = s.up ∧ t.cons = s.cons ∧ ∀ b, bankN t b = bankN s b := by
  obtain ⟨_, _, _, rfl⟩ := h.rest
  exact ⟨fun w => by cases w <;> rfl, fun _ => rfl, rfl, rfl, fun _ => rfl⟩

theorem BytesPut.accessible {a n v : Nat} {s t : State} (h : BytesPut a n v s t) {w : Who} {r : Req} {k : Access} {b m : Nat}
    (g : Accessible s w r k b m) : Accessible t w r k b m := by
  have clean := h.clean
  obtain ⟨_, _, _, rfl⟩ := h.rest
  obtain ⟨inside, owner, power, good, quiet, quota, free, untold, unlocked⟩ := g
  refine ⟨inside, owner, fun p hp => (powerAns_ok_iff _ _).2 ((powerAns_ok_iff s _).1 (power p hp)), fun x low high => clean x (good x low high),
    quiet, ?_, ?_, ?_, unlocked⟩
  · cases w <;> exact quota
  · cases w <;> exact free
  · cases w <;> exact untold

section
variable {a n v : Nat} {s t : State} (h : Stored a n v s t)
include h

theorem Stored.getC (w : Who) : getC t w = Machine.getC s w := by
  obtain ⟨u, put, reads⟩ := h
  exact (reads.getC w).trans (put.same.1 w)

theorem Stored.up : t.up = s.up := by
  obtain ⟨u, put, reads⟩ := h
  exact reads.up.trans put.same.2.2.1

theorem Stored.accessible {w : Who} {r : Req} {k : Access} {b m : Nat} (g : Accessible s w r k b m) : Accessible t w r k b m := by
  obtain ⟨u, put, reads⟩ := h
  exact reads.accessible (put.accessible g)

theorem Stored.inside : rdN t a n = v % 256 ^ n := by
  obtain ⟨u, put, reads⟩ := h
  exact (rdN_of_mem reads.sameMemory a n).trans put.inside

theorem Stored.outside {b : Nat} (low : b < spareBase) (out : b < a ∨ a + n ≤ b) : rdB t b = rdB s b := by
  obtain ⟨u, put, reads⟩ := h
  exact (reads.sameMemory b).trans (put.outside b low out)

end

theorem Accessible.part {s : State} {w : Who} {r : Req} {k : Access} {a n b m : Nat} (h : Accessible s w r k a n) (low : a ≤ b)
    (high : b + m ≤ a + n) (pos : 0 < m) (few : n ≤ 0x10000) : Accessible s w r k b m := by
  have bank := h.inside
  simp only [inBanks, Bool.and_eq_true, decide_eq_true_eq] at bank
  have pa : phys a = a := by rw [phys, if_neg (by omega)]
  have pb : phys b = b := by rw [phys, if_neg (by omega)]
  refine ⟨?_, ownerRefusal_inside h.owner low high pos few bank.1, fun p hp => ?_, fun x h1 h2 => h.clean x (by omega) (by omega),
    openOver_inside h.quiet low high bank.1, h.quota, h.free, h.untold, fun store => ?_⟩
  · simp only [inBanks, Bool.and_eq_true, decide_eq_true_eq]
    omega
  · obtain ⟨q, hq, same⟩ := bankParts_inside hp low high pos few bank.1
    rw [← same]
    exact h.power q hq
  · have unlocked := h.unlocked store
    cases locked : vtlock s with
    | false => rfl
    | true =>
      rw [locked, Bool.true_and] at unlocked
      rw [Bool.true_and]
      refine Bool.eq_false_iff.2 fun touches => Bool.eq_false_iff.1 unlocked ?_
      simp only [inVectors, pa, pb, Bool.and_eq_true, decide_eq_true_eq] at touches ⊢
      omega

/-- The core stores to bank memory that is accessible to it. -/
theorem bankStore_accessible {s : State} {x : Iss} {r : Req} {a n : Nat} (v : Nat) (pos : 0 < n) (h : Accessible s x.who r .store a n)
    (idle : (getC s x.who).stall = none) : ∃ t, bankStore x r a n v s = .ok ((), t) ∧ Stored a n v s t := by
  have bank := h.inside
  simp only [inBanks, Bool.and_eq_true, decide_eq_true_eq] at bank
  have high : a + n ≤ spareBase := by unfold spareBase; omega
  have here : phys a = a := by rw [phys, if_neg (by omega)]
  have fate : ownFate s x.who = none := by simp [ownFate, toldOf, h.untold, SMap.get]
  have unlocked := h.unlocked rfl
  have lock : ∀ k, vtlock (allocateAt s (numOf s x.who) k) = vtlock s := fun k => by
    obtain ⟨p, pool⟩ := notePool_eq { setCons s (numOf s x.who) { k with
      used := true, gen := ((consOf s (numOf s x.who)).gen + 1) % 65536, order := s.order } with order := s.order + 1 }
    rw [allocateAt, pool, vtlock, getR_setR, if_neg (by decide)]
    rfl
  have clear : awaitOver x a n s = .ok ((), s) := by
    unfold awaitOver
    rw [bind_get, awaitCons, h.quiet]
    rfl
  obtain ⟨K, hK⟩ : ∃ K : Cons, K = { coach := numOf s x.who, fast := x.who == .fast, kind := .store, addr := a, size := n, unver := x.unver,
                                     lset := x.lane } := ⟨_, rfl⟩
  obtain ⟨u1, write, put1⟩ := bankAccess_write (s := allocateAt s (numOf s x.who) K) (r := r) v pos high h.owner
    (fun p hp => (powerAns_ok_iff _ _).2 ((powerAns_ok_iff s _).1 (h.power p hp))) h.clean
  obtain ⟨m, e, d, rest⟩ := put1.rest
  obtain ⟨u, hu⟩ : ∃ u : State, u = { s with mem := m, ecc := e, draws := d } := ⟨_, rfl⟩
  have put : BytesPut a n v s u := by
    refine ⟨⟨m, e, d, hu⟩, fun b hb => ?_, ?_, fun b low out => ?_⟩
    · have kept := put1.clean b hb
      rw [rest] at kept
      rw [hu]
      exact kept
    · exact (rdN_of_mem (fun b => rdB_congr (by rw [rest, hu]) b) a n).trans put1.inside
    · have kept := put1.outside b low out
      rw [rest] at kept
      rw [hu]
      exact kept
  have lifted : u1 = allocateAt u (numOf s x.who) K := by rw [rest, hu]; rfl
  obtain ⟨p, g, freed⟩ := freeCons_allocateAt u (numOf s x.who) K
  obtain ⟨same, _, _, cons, _⟩ := put.same
  have once := reads_heldOnce (s := u) p g (e := numOf s x.who) (by rw [consOf, cons]; exact h.free)
  have done : ownAccess x (numOf s x.who) a n (some v) (fun t => if vtlock t && inVectors a n then (t, .fail 3 0) else bankAccess t r (phys a) n (some v)) s =
      (ownDone (heldOnce u (numOf s x.who) p g) x.who, .ok 0) := by
    unfold ownAccess
    dsimp only
    rw [fate]
    dsimp only
    rw [Option.isSome_some, if_pos rfl, ← hK, if_neg (by
      rw [lock, unlocked]
      exact Bool.false_ne_true), here, write]
    dsimp only
    rw [lifted, freed]
  refine ⟨ownDone (heldOnce u (numOf s x.who) p g) x.who, ?_, u, put, once.trans (reads_modC ?_ (by rw [once.getC, same]; exact idle))⟩
  · have run : ownRun x a n (some v) .bank (fun t => if vtlock t && inVectors a n then (t, .fail 3 0) else bankAccess t r (phys a) n (some v)) s =
        .ok (0, ownDone (heldOnce u (numOf s x.who) p g) x.who) := by
      unfold ownRun
      rw [bind_get, bind_of_ok (chooseEntry_own h.quota h.free)]
      simp only [done]
      rfl
    unfold bankStore
    rw [bind_of_ok clear, bind_of_ok run]
    rfl
  · rw [once.getC, same]
    exact told_of_nil h.untold

/-! ### A block is stored -/

/-- State `t` is `s` with the double words `ds` stored from `a`. -/
structure Filed (a : Nat) (ds : List DWord) (s t : State) : Prop where
  getC : ∀ w, getC t w = getC s w
  up : t.up = s.up
  words : ∀ k, k < ds.length → rd64 t (a + 8 * k) = ds.getD k 0
  outside : ∀ b, b < spareBase → b < a ∨ a + 8 * ds.length ≤ b → rdB t b = rdB s b

theorem imageStores_filed {x : Iss} {r : Req} : ∀ (ds : List DWord) {s : State} {a : Nat}, ds.length ≤ 0x2000 →
    (ds ≠ [] → Accessible s x.who r .store a (8 * ds.length)) → (getC s x.who).stall = none → a + 8 * ds.length ≤ spareBase →
    ∃ t, imageStores x r a ds s = .ok ((), t) ∧ Filed a ds s t
  | [], s, a, _, _, _, _ => ⟨s, rfl, fun _ => rfl, rfl, fun _ h => absurd h (Nat.not_lt_zero _), fun _ _ _ => rfl⟩
  | d :: ds, s, a, few, reach, idle, high => by
    rw [List.length_cons] at few high
    have all := reach (List.cons_ne_nil _ _)
    rw [List.length_cons] at all
    obtain ⟨t, store, stored⟩ := bankStore_accessible (x := x) d.toNat (by decide)
      (all.part (m := 8) (le_refl a) (by omega) (by decide) (by omega)) idle
    obtain ⟨u, rest, filed⟩ := imageStores_filed (x := x) (r := r) ds (s := t) (a := a + 8) (by omega)
      (fun some => stored.accessible (all.part (by omega) (by omega) (by have := List.length_pos_iff.2 some; omega) (by omega)))
      (by rw [stored.getC]; exact idle) (by omega)
    refine ⟨u, ?_, fun w => (filed.getC w).trans (stored.getC w), filed.up.trans stored.up, fun k hk => ?_, fun b low out => ?_⟩
    · rw [imageStores, bind_of_ok store]
      exact rest
    · cases k with
      | zero =>
        have kept : rdN u a 8 = rdN t a 8 := rdN_congr 8 a fun b _ below => filed.outside b (by omega) (.inl below)
        rw [Nat.mul_zero, Nat.add_zero, rd64, kept, stored.inside, Nat.mod_eq_of_lt (show d.toNat < 256 ^ 8 from d.isLt), BitVec.ofNat_toNat, BitVec.setWidth_eq]
        rfl
      | succ k =>
        have tail := filed.words k (by rw [List.length_cons] at hk; omega)
        rw [show a + 8 * (k + 1) = a + 8 + 8 * k by omega, tail]
        rfl
    · rw [List.length_cons] at out
      exact (filed.outside b low (by omega)).trans (stored.outside low (by omega))

end Sys2Proof.Machine
end

section
/-! SUPPORT. A coach is parked: its heads and its image are written (spec/02 R56, R57; spec/03 R96). -/

namespace Sys2Proof.Machine

/-! ### What stores of the core leave in the contexts -/

/-- From `s` to `t` the core has stored for `w`: `w` stays in its ring and unstalled, and the others keep what their programs see. -/
structure Flushed (w : Who) (s t : State) : Prop where
  ring : ringOf (getC t w) = ringOf (getC s w)
  stall : (getC t w).stall = (getC s w).stall
  others : ∀ v, v ≠ w → seen (getC t v) = seen (getC s v)
  up : t.up = s.up

theorem Flushed.refl (w : Who) (s : State) : Flushed w s s := ⟨rfl, rfl, fun _ _ => rfl, rfl⟩

theorem Flushed.trans {w : Who} {s t u : State} (h : Flushed w s t) (g : Flushed w t u) : Flushed w s u :=
  ⟨g.ring.trans h.ring, g.stall.trans h.stall, fun v hv => (g.others v hv).trans (h.others v hv), g.up.trans h.up⟩

theorem flushed_of_getC {w : Who} {s t : State} (h : ∀ v, getC t v = getC s v) (up : t.up = s.up) : Flushed w s t :=
  ⟨by rw [h], by rw [h], fun v _ => by rw [h], up⟩

theorem flushed_modC (s : State) (w : Who) {f : Coach → Coach} (status : (f (getC s w)).status = (getC s w).status)
    (stall : (f (getC s w)).stall = (getC s w).stall) : Flushed w s (modC s w f) :=
  ⟨by rw [getC_modC_self, ringOf, status, ringOf], by rw [getC_modC_self, stall], fun v hv => by rw [getC_modC_other _ _ _ _ hv], modC_up ..⟩

theorem Served.flushed {s t : State} (h : Served s t) (w : Who) : Flushed w s t := by
  have same : ∀ v, ∃ st wk, getC t v = { getC s v with st := st, wake := wk } := fun v => by
    cases v with
    | coach n => exact h.coach n
    | fast =>
      obtain ⟨_, _, _, _, _, _, _, _, _, _, _, _, _, e⟩ := h.rest
      exact ⟨(getC s .fast).st, (getC s .fast).wake, by rw [e]; rfl⟩
  have up : t.up = s.up := by
    obtain ⟨_, _, _, _, _, _, _, _, _, _, _, _, _, e⟩ := h.rest
    rw [e]
  obtain ⟨_, _, own⟩ := same w
  refine ⟨by rw [own]; rfl, by rw [own], fun v _ => ?_, up⟩
  obtain ⟨_, _, e⟩ := same v
  rw [e]
  rfl

theorem served_bankAccess (s : State) (r : Req) (a n : Nat) (w : Option Nat) : Served s (bankAccess s r a n w).1 := by
  unfold bankAccess
  split
  · exact served_recordDeny _ _ _ _ _ _
  · exact served_bankPerform _ _ _ _ _ _

theorem chooseEntry_state {n : Nat} {b : Bool} {s t : State} {e : Nat} (h : chooseEntry n b s = .ok (e, t)) : t = s := by
  unfold chooseEntry at h
  rw [bind_get] at h
  by_cases limit : quotaOf s n ≤ entriesHeld s n
  · rw [if_pos limit] at h
    split_ifs at h
    · cases h
    · cases h
    · cases h
  · rw [if_neg limit] at h
    cases found : poolEntry s with
    | some p =>
      rw [found] at h
      split_ifs at h
      · cases h
      · exact (Prod.mk.inj (Except.ok.inj h)).2.symm
      · exact (Prod.mk.inj (Except.ok.inj h)).2.symm
    | none =>
      rw [found] at h
      split_ifs at h
      · cases h
      · exact (Prod.mk.inj (Except.ok.inj h)).2.symm
      · cases h

theorem awaitOver_state {x : Iss} {a n : Nat} {s t : State} (h : awaitOver x a n s = .ok ((), t)) : t = s := by
  unfold awaitOver awaitCons at h
  rw [bind_get] at h
  split at h
  · cases h
    rfl
  · cases h

/-- An access that the core makes, and its unit does not give up. -/
theorem ownAccess_flushed {x : Iss} {e a n : Nat} {w : Option Nat} {run : State → State × Ans} {s : State} (served : ∀ u, Served u (run u).1)
    (fate : ownFate s x.who = none) : Flushed x.who s (ownAccess x e a n w run s).1 := by
  unfold ownAccess
  dsimp only
  rw [fate]
  dsimp only
  generalize ({ coach := numOf s x.who, fast := x.who == .fast, kind := if w.isSome then .store else .load false
                addr := a, size := n, unver := x.unver, lset := x.lane } : Cons) = k
  exact (((flushed_of_getC (getC_allocateAt s e k) rfl).trans ((served _).flushed x.who)).trans
    (flushed_of_getC (fun v => getC_freeCons e v) rfl)).trans (flushed_modC _ _ rfl rfl)

theorem ownAccess_fate {x : Iss} {e a n : Nat} {w : Option Nat} {run : State → State × Ans} {s : State} {f : BitVec 3 × (State → State)}
    (fate : ownFate s x.who = some f) : (ownAccess x e a n w run s).2 = .fail f.1 0 := by
  unfold ownAccess
  dsimp only
  rw [fate]

/-- An access of the core that succeeds. -/
theorem ownRun_flushed {x : Iss} {a n d : Nat} {w : Option Nat} {wait : Nat → Hold} {run : State → State × Ans} {s t : State}
    (served : ∀ u, Served u (run u).1) (h : ownRun x a n w wait run s = .ok (d, t)) : Flushed x.who s t := by
  unfold ownRun at h
  rw [bind_get] at h
  obtain ⟨e, s2, entry, h⟩ := ok_of_bind h
  rw [chooseEntry_state entry] at h
  dsimp only at h
  cases fate : ownFate s x.who with
  | some f =>
    rw [ownAccess_fate fate] at h
    cases h
  | none =>
    have made := ownAccess_flushed (e := e) (a := a) (n := n) (w := w) served fate
    generalize ownAccess x e a n w run s = r at h made
    obtain ⟨u, answer⟩ := r
    cases answer with
    | ok d =>
      cases h
      exact made
    | fail st i => cases h
    | waits b => cases h

/-- A store of the core that succeeds. -/
theorem bankStore_flushed {x : Iss} {r : Req} {a n v : Nat} {s t : State} (h : bankStore x r a n v s = .ok ((), t)) : Flushed x.who s t := by
  unfold bankStore at h
  obtain ⟨_, s1, clear, h⟩ := ok_of_bind h
  rw [awaitOver_state clear] at h
  obtain ⟨_, t1, made, last⟩ := ok_of_bind h
  cases last
  refine ownRun_flushed (fun u => ?_) made
  split
  · exact served_refl u
  · exact served_bankAccess _ _ _ _ _

/-! ### The heads are spilled -/

theorem spillOne_flushed {x : Iss} {k : Stk} {s u : State} (h : spillOne x k true s = .ok ((), u)) : Flushed x.who s u := by
  unfold spillOne at h
  rw [bind_get] at h
  dsimp only at h
  cases last : (headOf k (getC s x.who)).getLast? with
  | none =>
    rw [last] at h
    cases h
    exact .refl _ _
  | some e =>
    rw [last] at h
    cases e with
    | val v =>
      dsimp only at h
      split at h
      · cases h
      · rw [if_pos rfl] at h
        obtain ⟨_, t, store, ended⟩ := ok_of_bind h
        cases ended
        refine (bankStore_flushed store).trans (flushed_modC _ _ ?_ ?_)
        · cases k <;> rfl
        · cases k <;> rfl
    | load e b => cases h
    | div e => cases h

theorem spillN_flushed {x : Iss} {k : Stk} : ∀ (n : Nat) {s u : State}, spillN x k true n s = .ok ((), u) → Flushed x.who s u
  | 0, s, u, h => by
    cases h
    exact .refl _ _
  | n + 1, s, u, h => by
    rw [spillN] at h
    obtain ⟨_, t, first, rest⟩ := ok_of_bind h
    exact (spillOne_flushed first).trans (spillN_flushed n rest)

theorem spillAll_flushed {x : Iss} {k : Stk} {s u : State} (h : spillAll x k true s = .ok ((), u)) : Flushed x.who s u := by
  unfold spillAll at h
  rw [bind_get] at h
  split at h
  · cases h
  · exact spillN_flushed _ h

theorem spillBoth_flushed {x : Iss} {s u : State} (h : (do spillAll x .d true; spillAll x .r true : M Unit) s = .ok ((), u)) :
    Flushed x.who s u := by
  obtain ⟨_, t, first, second⟩ := ok_of_bind h
  exact (spillAll_flushed first).trans (spillAll_flushed second)

/-! ### The image -/

theorem length_imageWords (s : State) (n a : Nat) : (imageWords s n a).length = 47 := by
  unfold imageWords
  simp only [List.length_append, List.length_cons, List.length_nil, List.length_replicate]

theorem length_parkImage (s : State) (n a : Nat) : (parkImage s n a).length = 48 := by
  unfold parkImage
  dsimp only
  rw [List.length_append, length_imageWords]
  rfl

theorem mkD_words (hi lo : Word) : loW (mkD hi lo) = lo ∧ hiW (mkD hi lo) = hi := by
  constructor
  · refine BitVec.eq_of_getLsbD_eq fun i hi => ?_
    simp [loW, mkD, hi]
  · refine BitVec.eq_of_getLsbD_eq fun i hi => ?_
    simp [hiW, mkD, hi, show 32 + i < 64 by omega, show ¬ 32 + i < 32 by omega]

/-- Words stored in pairs read as they were. -/
theorem Filed.word {a : Nat} {ws : List Word} {s t : State} (h : Filed a (pairUp ws) s t) {j : Nat} (even : ws.length % 2 = 0) (hj : j < ws.length) :
    rd32 t (a + 4 * j) = ws.getD j 0 := by
  have len := length_pairUp ws
  have pair := h.words (j / 2) (by omega)
  rw [pairUp_getD ws (j / 2) (by omega)] at pair
  by_cases low : j % 2 = 0
  · rw [show a + 4 * j = a + 8 * (j / 2) by omega, ← loW_rd64, pair, (mkD_words _ _).1, show 2 * (j / 2) = j by omega]
  · rw [show a + 4 * j = a + 8 * (j / 2) + 4 by omega, ← hiW_rd64, pair, (mkD_words _ _).2, show 2 * (j / 2) + 1 = j by omega]

/-! ### A park -/

/-- The operand of a coach that parks itself is replaced by true. -/
def flagOperand (y : Iss) (flagged : Bool) : M Unit :=
  if flagged then do
    let _ ← pop y
    push y (flag true)
  else pure ()

section
variable {S X u : State} {n k a : Nat} {flagged : Bool}
  (operand : flagOperand ⟨.coach n, k⟩ flagged (modC (dropTickets S n) (.coach n) (fun c => { c with out := [] })) = .ok ((), X))
  (spills : (do spillAll ⟨.coach n, k⟩ .d true; spillAll ⟨.coach n, k⟩ .r true : M Unit) X = .ok ((), u))
  (reach : Accessible u (.coach n) (reqOf u ⟨.coach n, k⟩) .store a 192) (idle : (coachOf u n).stall = none)
include operand spills reach idle

theorem parkStores_filed (out : (coachOf S n).out = []) :
    ∃ t, parkStores ⟨.coach n, k⟩ n flagged a S = .ok ((), t) ∧ Filed a (pairUp (parkImage u n a)) u t := by
  have bank := reach.inside
  simp only [inBanks, Bool.and_eq_true, decide_eq_true_eq] at bank
  have len : (pairUp (parkImage u n a)).length = 24 := by rw [length_pairUp, length_parkImage]
  obtain ⟨t, stores, filed⟩ := imageStores_filed (x := ⟨.coach n, k⟩) (r := reqOf u ⟨.coach n, k⟩) (pairUp (parkImage u n a)) (s := u) (a := a)
    (by rw [len]; decide) (fun _ => by rw [len]; exact reach) idle (by rw [len, spareBase]; omega)
  obtain ⟨_, v, first, second⟩ := ok_of_bind spills
  have flushed : flushStores ⟨.coach n, k⟩ (coachOf (dropTickets S n) n).out (dropTickets S n) =
      .ok ((), modC (dropTickets S n) (.coach n) (fun c => { c with out := [] })) := by
    rw [show coachOf (dropTickets S n) n = coachOf S n from rfl, out]
    rfl
  refine ⟨t, ?_, filed⟩
  unfold parkStores
  rw [bind_modify, bind_get, bind_of_ok flushed]
  unfold flagOperand at operand
  rw [bind_of_ok operand, bind_of_ok first, bind_of_ok second, bind_get, bind_get]
  exact stores

/-- A coach with nothing in progress, and no failure, is parked. -/
theorem parkRun_parks (drained : openOf S (.coach n) (fun _ => true) = []) (undivided : ∀ e ∈ S.div, ∀ d, e.2 = some d → d.coach ≠ n)
    (calm : parkFailure S n = none) (out : (coachOf S n).out = []) (here : a = (getR S (aCshParka + 4 * n)).toNat) :
    ∃ t, parkRun n k flagged S = .ok (.parked, vacate (parkMoves t n a) n .parked) ∧ Filed a (pairUp (parkImage u n a)) u t := by
  obtain ⟨t, stores, filed⟩ := parkStores_filed operand spills reach idle out
  have drain : parkDrain n S = .ok ((), S) := by
    unfold parkDrain
    rw [bind_get, drained]
    generalize found : S.div.find? _ = r
    cases r with
    | none => rfl
    | some e =>
      obtain ⟨i, e⟩ := e
      have holds := List.find?_some found
      cases e with
      | none => exact absurd holds Bool.false_ne_true
      | some d =>
        have other := undivided (i, some d) (List.mem_of_find?_eq_some found) d rfl
        simp [other] at holds
  have range : bankRange a 192 = true := by rw [bankRange, reach.inside, Bool.true_or]
  refine ⟨t, ?_, filed⟩
  unfold parkRun
  rw [bind_of_ok drain, bind_get, ← here, calm]
  dsimp only
  rw [range, if_neg (by decide), stores]
  rfl

end

end Sys2Proof.Machine
end

section
/-! PARK and PARKC (spec/03 R96; spec/02 R56, R57). -/

namespace Sys2Proof.Machine

/-! ### What a change of a context leaves -/

theorem parkFailure_modC (s : State) (w : Who) {f : Coach → Coach} (n : Nat) (pexc : ∀ c, (f c).pexc = c.pexc)
    (imprecise : ∀ c, (f c).imprecise = c.imprecise) : parkFailure (modC s w f) n = parkFailure s n := by
  have same : (coachOf (modC s w f) n).pexc = (coachOf s n).pexc ∧ (coachOf (modC s w f) n).imprecise = (coachOf s n).imprecise := by
    by_cases self : Who.coach n = w
    · subst self
      have own : coachOf (modC s (.coach n) f) n = f (coachOf s n) := getC_modC_self s (.coach n) f
      rw [own]
      exact ⟨pexc _, imprecise _⟩
    · have other : coachOf (modC s w f) n = coachOf s n := getC_modC_other s (.coach n) w f self
      rw [other]
      exact ⟨rfl, rfl⟩
  unfold parkFailure failedTicket
  rw [same.1, same.2, modC_cons]

theorem openOf_modC (s : State) (w : Who) (f : Coach → Coach) (v : Who) (p : Cons → Bool) : openOf (modC s w f) v p = openOf s v p := by
  rw [openOf, modC_cons, openOf]

theorem getC_dropTickets (s : State) (n : Nat) (w : Who) : getC (dropTickets s n) w = getC s w := by cases w <;> rfl
theorem getC_parkMoves (s : State) (n a : Nat) (w : Who) : getC (parkMoves s n a) w = getC s w := by cases w <;> rfl

/-- What advancing past an instruction leaves of a context. -/
theorem advance_keeps (c : Coach) (pc : Word) (len : Nat) : (advance c pc len).pexc = c.pexc ∧ (advance c pc len).imprecise = c.imprecise ∧
    (advance c pc len).out = c.out ∧ (advance c pc len).stall = c.stall ∧ (advance c pc len).dhead = c.dhead ∧ ringOf (advance c pc len) = ringOf c := by
  unfold advance
  split
  · split
    · exact ⟨rfl, rfl, rfl, rfl, rfl, fld_setBit_of_outside c.status (i := 19) (lo := 0) (n := 2) false (by decide) (by decide)⟩
    · exact ⟨rfl, rfl, rfl, rfl, rfl, rfl⟩
  · exact ⟨rfl, rfl, rfl, rfl, rfl, rfl⟩

/-! ### The parked coach -/

/-- What the park of coach `n` leaves in its state `R`, from that in which its heads are spilled. -/
structure IsParked (n a : Nat) (u R : State) : Prop where
  st : (coachOf R n).st = .parked
  image : ∀ j, j < 48 → rd32 R (a + 4 * j) = (parkImage u n a).getD j 0
  outside : ∀ b, b < spareBase → b < a ∨ a + 192 ≤ b → rdB R b = rdB u b

theorem isParked_of {n a : Nat} {u t R : State} (filed : Filed a (pairUp (parkImage u n a)) u t) (mem : SameMemory (vacate (parkMoves t n a) n .parked) R)
    (st : (coachOf R n).st = .parked) : IsParked n a u R := by
  have kept : ∀ b, rdB R b = rdB t b := fun b => by
    obtain ⟨_, _, vacated, _, _, _⟩ := vacate_effects (parkMoves t n a) n .parked
    exact (mem b).trans ((vacated b).trans rfl)
  have len : (pairUp (parkImage u n a)).length = 24 := by rw [length_pairUp, length_parkImage]
  refine ⟨st, fun j hj => ?_, fun b low out => ?_⟩
  · rw [← filed.word (by rw [length_parkImage]) (by rw [length_parkImage]; exact hj), rd32, rd32, rdN_of_mem kept]
  · rw [kept, filed.outside b low (by rw [len]; exact out)]

/-- A coach that has parked itself. -/
theorem ends_parked (s : State) (l : LaneUse) {n a : Nat} {u t : State} (filed : Filed a (pairUp (parkImage u n a)) u t) (up : t.up = true) :
    ∃ R, ends s l (.coach n) 1 .gone (vacate (parkMoves t n a) n .parked) = .next R ∧ IsParked n a u R := by
  obtain ⟨own, _, _, _, same, out⟩ := vacate_effects (parkMoves t n a) n .parked
  obtain ⟨R, run, frame, _⟩ := ends_frame s l (.coach n) 1 .gone (vacate (parkMoves t n a) n .parked) (same.trans up)
  obtain ⟨v, caches, eq⟩ := ends_eq s l (.coach n) 1 .gone (same.trans up)
  have settled := Host.Outcome.next.inj (run.symm.trans eq)
  rw [if_pos rfl] at settled
  refine ⟨R, run, isParked_of filed frame.mem ?_⟩
  have here : coachOf v n = vacated (coachOf (parkMoves t n a) n) .parked := (caches.getC (.coach n)).trans own
  rw [settled]
  refine settle_st_of_off (by rw [here]; rfl) ?_ ?_
  · rintro (bad | bad) <;> cases bad
  · obtain ⟨_, _, rfl⟩ := caches
    exact out

/-! ### The park itself -/

section
variable {s u : State} {n k a : Nat} (here : a = (getR s (aCshParka + 4 * n)).toNat) (drained : openOf s (.coach n) (fun _ => true) = [])
  (undivided : ∀ e ∈ s.div, ∀ d, e.2 = some d → d.coach ≠ n) (calm : parkFailure s n = none) (out : (coachOf s n).out = [])
  (reach : Accessible u (.coach n) ⟨n, ringOf (coachOf s n), decide (k ≠ 0)⟩ .store a 192) (idle : (coachOf s n).stall = none)
include here drained undivided calm out reach idle

/-- The park of a coach from the state in which its instruction has advanced it, or another's has not. -/
theorem parkRun_from {w : Who} {g f : Coach → Coach} {flagged : Bool} (pexc : ∀ c, (g c).pexc = c.pexc)
    (imprecise : ∀ c, (g c).imprecise = c.imprecise) (posted : ∀ c, (g c).out = c.out)
    (ring : ∀ c, ringOf (g c) = ringOf c ∧ ringOf (f c) = ringOf c) (stalls : ∀ c, (g c).stall = c.stall ∧ (f c).stall = c.stall)
    (operand : flagOperand ⟨.coach n, k⟩ flagged (modC (dropTickets (modC s w g) n) (.coach n) (fun c => { c with out := [] })) =
      .ok ((), modC (dropTickets (modC s w g) n) (.coach n) (fun c => f { c with out := [] })))
    (spills : (do spillAll ⟨.coach n, k⟩ .d true; spillAll ⟨.coach n, k⟩ .r true : M Unit)
      (modC (dropTickets (modC s w g) n) (.coach n) (fun c => f { c with out := [] })) = .ok ((), u)) :
    ∃ t, parkRun n k flagged (modC s w g) = .ok (.parked, vacate (parkMoves t n a) n .parked) ∧ Filed a (pairUp (parkImage u n a)) u t ∧
      t.up = s.up ∧ ∀ v, v ≠ .coach n → seen (getC t v) = seen (getC (modC s w g) v) := by
  have flushed := spillBoth_flushed spills
  obtain ⟨ringKept, stallKept, others, up⟩ := flushed
  have start : ∃ c, (c = g (coachOf s n) ∨ c = coachOf s n) ∧ coachOf (modC s w g) n = c := by
    by_cases self : Who.coach n = w
    · subst self
      exact ⟨_, .inl rfl, getC_modC_self s (.coach n) g⟩
    · exact ⟨_, .inr rfl, getC_modC_other s (.coach n) w g self⟩
  obtain ⟨c, cases, start⟩ := start
  have base : getC (dropTickets (modC s w g) n) (.coach n) = c := (getC_dropTickets _ _ _).trans start
  have sameRing : ringOf (getC u (.coach n)) = ringOf (coachOf s n) := by
    rw [ringKept, getC_modC_self, base, (ring _).2]
    rcases cases with rfl | rfl
    · exact (ring _).1
    · rfl
  have sameStall : (coachOf u n).stall = none := by
    refine stallKept.trans ?_
    rw [getC_modC_self, base, (stalls _).2]
    rcases cases with rfl | rfl
    · exact ((stalls _).1).trans idle
    · exact idle
  have request : reqOf u ⟨.coach n, k⟩ = ⟨n, ringOf (coachOf s n), decide (k ≠ 0)⟩ := by
    rw [reqOf, sameRing, Iss.unver]
    refine congrArg (Req.mk n (ringOf (coachOf s n))) ?_
    by_cases zero : k = 0
    · simp [zero]
    · simp [zero]
  obtain ⟨t, run, filed⟩ := parkRun_parks operand spills (a := a) (by rw [request]; exact reach) sameStall ((openOf_modC ..).trans drained)
    (by rw [show (modC s w g).div = s.div by cases w <;> rfl]; exact undivided) ((parkFailure_modC s w n pexc imprecise).trans calm)
    (by
      rw [start]
      rcases cases with rfl | rfl
      · exact (posted _).trans out
      · exact out)
    (by rw [getR_modC]; exact here)
  refine ⟨t, run, filed, ?_, fun v hv => ?_⟩
  · rw [filed.up, up, modC_up]
    exact modC_up s w g
  · rw [filed.getC, others v hv, getC_modC_other _ _ _ _ hv, getC_dropTickets]

end

/-! ### PARK, and PARKC of the coach itself -/

theorem parkSelf_parks {s T : State} {n k : Nat} {flagged : Bool}
    (run : parkRun n k flagged (modC s (.coach n) (fun c => advance c c.pc 1)) = .ok (.parked, T)) :
    parkSelf ⟨.coach n, k⟩ n flagged s = .ok (.gone, T) := by
  unfold parkSelf
  rw [bind_get, bind_modI, bind_of_ok run]
  rfl

theorem advance_operand {c : Coach} {v : Word} {r : List Entry} (h : c.dhead = .val v :: r) (room : c.dhead.length - 1 + 1 ≤ 8) {S : State} {n k : Nat}
    (own : getC S (.coach n) = advance c c.pc 1) :
    flagOperand ⟨.coach n, k⟩ true (modC S (.coach n) (fun c => { c with out := [] })) =
      .ok ((), modC S (.coach n) (fun c => restack 1 [.val 0xFFFFFFFF] { c with out := [] })) := by
  have head : (getC (modC S (.coach n) (fun c => { c with out := [] })) (.coach n)).dhead = .val v :: r := by
    rw [getC_modC_self, own]
    obtain ⟨_, _, _, _, kept, _⟩ := advance_keeps c c.pc 1
    exact kept.trans h
  unfold flagOperand
  rw [if_pos rfl, bind_of_ok (pop_restack _ ⟨.coach n, k⟩ v r head), push_restack _ ⟨.coach n, k⟩ _ (by
    rw [getC_modC_self, restack_dhead, head, List.nil_append, List.drop_succ_cons, List.drop_zero]
    rw [h, List.length_cons] at room
    omega), modC_modC, modC_modC]
  refine congrArg (fun t => Except.ok ((), t)) (modC_congr _ _ _ _ ?_)
  exact restack_push 1 [] _ _

/-- What a coach needs to be parked, with its image at `a` and its heads spilled in state `u`. -/
structure Parks (s u : State) (n k a : Nat) : Prop where
  here : a = (getR s (aCshParka + 4 * n)).toNat
  drained : openOf s (.coach n) (fun _ => true) = []
  undivided : ∀ e ∈ s.div, ∀ d, e.2 = some d → d.coach ≠ n
  calm : parkFailure s n = none
  out : (coachOf s n).out = []
  reach : Accessible u (.coach n) ⟨n, ringOf (coachOf s n), decide (k ≠ 0)⟩ .store a 192

section
variable {s u : State} {l : LaneUse} {n a : Nat} (h : Parks s u n l.set.val a) (issues : Issues s l (.coach n) 1)
include h issues

/-- A coach that parks itself goes on after its instruction when it is unparked. -/
theorem parkRun_self {f : Coach → Coach} {flagged : Bool} (ring : ∀ c, ringOf (f c) = ringOf c) (stall : ∀ c, (f c).stall = c.stall)
    (operand : flagOperand ⟨.coach n, l.set.val⟩ flagged (modC (dropTickets (modC s (.coach n) (fun c => advance c c.pc 1)) n) (.coach n)
      (fun c => { c with out := [] })) =
      .ok ((), modC (dropTickets (modC s (.coach n) (fun c => advance c c.pc 1)) n) (.coach n) (fun c => f { c with out := [] })))
    (spills : (do spillAll ⟨.coach n, l.set.val⟩ .d true; spillAll ⟨.coach n, l.set.val⟩ .r true : M Unit)
      (modC (dropTickets (modC s (.coach n) (fun c => advance c c.pc 1)) n) (.coach n) (fun c => f { c with out := [] })) = .ok ((), u)) :
    ∃ t, parkRun n l.set.val flagged (modC s (.coach n) (fun c => advance c c.pc 1)) = .ok (.parked, vacate (parkMoves t n a) n .parked) ∧
      Filed a (pairUp (parkImage u n a)) u t ∧ t.up = true := by
  obtain ⟨t, run, filed, up, _⟩ := parkRun_from h.here h.drained h.undivided h.calm h.out h.reach issues.notStalled
    (g := fun c => advance c c.pc 1) (f := f) (w := .coach n)
    (fun c => (advance_keeps c c.pc 1).1) (fun c => (advance_keeps c c.pc 1).2.1) (fun c => (advance_keeps c c.pc 1).2.2.1)
    (fun c => ⟨(advance_keeps c c.pc 1).2.2.2.2.2, ring c⟩) (fun c => ⟨(advance_keeps c c.pc 1).2.2.2.1, stall c⟩) operand spills
  exact ⟨t, run, filed, up.trans issues.up⟩

theorem execPark_parks (some : n ≠ 0)
    (spills : (do spillAll ⟨.coach n, l.set.val⟩ .d true; spillAll ⟨.coach n, l.set.val⟩ .r true : M Unit)
      (modC (dropTickets (modC s (.coach n) (fun c => advance c c.pc 1)) n) (.coach n) (fun c => { c with out := [] })) = .ok ((), u)) :
    ∃ R, exec (.park l) s = .next R ∧ IsParked n a u R := by
  obtain ⟨t, run, filed, up⟩ := parkRun_self h issues (f := id) (flagged := false) (fun _ => rfl) (fun _ => rfl) rfl spills
  obtain ⟨R, ending, parked⟩ := ends_parked s l filed up
  refine ⟨R, ?_, parked⟩
  rw [← ending]
  refine instrLong_ok issues ?_ (by decide)
  dsimp only
  rw [if_neg some]
  exact parkSelf_parks run

end

/-! ### PARKC -/

/-- The issuer may park coach `n`. -/
def mayPark (s : State) (w : Who) (n : Nat) : Prop := ringOf (getC s w) = 0 ∨ fld (coachOf s n).keeper 0 10 = numOf s w

theorem getC_id (s : State) (w v : Who) : getC (modC s w id) v = getC s v := by
  by_cases self : v = w
  · rw [self, getC_modC_self]
    rfl
  · exact getC_modC_other s v w id self

section
variable {s : State} {l : LaneUse} {w : Who} {n : Nat} (issues : Issues s l w 1) (takes : Takes s w [.val (u32 n)] [] 1 0) (few : n < 1024) (some : n ≠ 0)
  (may : mayPark s w n) (live : (coachOf s n).st.live = true) (slow : fastHeld s n = false)
include issues takes few some may live slow

/-- PARKC of a coach that holds a thread comes to the park. -/
theorem execParkc_reaches {f : Flow} {T : State} (done : f ≠ .stay)
    (self : w = .coach n → issued ⟨w, l.set.val⟩ (parkSelf ⟨w, l.set.val⟩ n true) (modC s w id) = .ok (f, T))
    (other : w ≠ .coach n → (do
        awaitTarget n
        let t ← get
        let r ← stopping n (parkRun n (laneOfCoach t n) false)
        match r with
        | .parked => do
          let _ ← popN ⟨w, l.set.val⟩ 1
          push ⟨w, l.set.val⟩ (flag true)
          pure .seq
        | .fails f => do
          modify (fun u => takeFailure u n f)
          let _ ← popN ⟨w, l.set.val⟩ 1
          push ⟨w, l.set.val⟩ (flag false)
          pure .seq : M Flow) (modC s w id) = .ok (f, T)) : exec (.parkc l) s = ends s l w 1 f T := by
  have fits : need w 1 1 0 0 s = .ok ((), s) := takes.need
  have value : (u32 n).toNat = n := by
    rw [u32, BitVec.toNat_ofNat]
    omega
  have peeked : peekN ⟨w, l.set.val⟩ 1 s = .ok ([u32 n], modC s w id) := peekN_vals s ⟨w, l.set.val⟩ [u32 n] (List.cons_ne_nil _ _) takes (Nat.le_refl 1)
  have arg : coachArg (u32 n) (modC s w id) = .ok (n, modC s w id) := by
    have ok := coachArg_ok (v := u32 n) (modC s w id) (by rw [value]; exact few)
    rw [value] at ok
    exact ok
  have keeper : isKeeper (modC s w id) ⟨w, l.set.val⟩ n = (fld (coachOf s n).keeper 0 10 == numOf s w) := by
    rw [isKeeper, numOf_modC, show coachOf (modC s w id) n = coachOf s n from getC_id s w (.coach n)]
  have fast : fastHeld (modC s w id) n = false := by
    rw [fastHeld, fastCoach, fastEn, getR_modC] at *
    cases w <;> exact slow
  have vacant : vacantCoach (modC s w id) n = false := by
    rw [vacantCoach_modC s w id (fun _ => rfl), vacantCoach, live]
    rfl
  refine instrLong_ok issues ?_ done
  rw [bind_of_ok fits, bind_of_ok peeked, List.getD_cons_zero, bind_of_ok arg, bind_get]
  dsimp only
  rw [getC_id, keeper, if_neg (by
    rintro (zero | ⟨ring, kept⟩)
    · exact some zero
    · rcases may with yes | yes
      · exact ring yes
      · rw [yes, beq_self_eq_true] at kept
        exact Bool.noConfusion kept), vacant, fast, if_neg (by decide)]
  split
  · rename_i own
    exact self own
  · rename_i own
    exact other own

/-- PARKC of the coach itself. -/
theorem execParkc_self {u : State} {a : Nat} (own : w = .coach n) (h : Parks s u n l.set.val a)
    (spills : (do spillAll ⟨.coach n, l.set.val⟩ .d true; spillAll ⟨.coach n, l.set.val⟩ .r true : M Unit)
      (modC (dropTickets (modC s (.coach n) (fun c => advance c c.pc 1)) n) (.coach n) (fun c => restack 1 [.val 0xFFFFFFFF] { c with out := [] })) =
        .ok ((), u)) :
    ∃ R, exec (.parkc l) s = .next R ∧ IsParked n a u R := by
  subst own
  have room := takes.room
  obtain ⟨t, run, filed, up⟩ := parkRun_self h issues (f := restack 1 [.val 0xFFFFFFFF]) (flagged := true) (fun _ => rfl) (fun _ => rfl)
    (advance_operand (c := coachOf s n) (top_drop takes) room ((getC_dropTickets _ _ _).trans (getC_modC_self ..))) spills
  obtain ⟨R, ending, parked⟩ := ends_parked s l filed up
  refine ⟨R, ?_, parked⟩
  rw [← ending]
  refine execParkc_reaches issues takes few some may live slow (by decide) (fun _ => ?_) (fun other => absurd rfl other)
  have started : modC (modC s (.coach n) id) (.coach n) (fun c => advance c c.pc 1) = modC s (.coach n) (fun c => advance c c.pc 1) := modC_modC ..
  rw [← started] at run
  unfold issued
  rw [parkSelf_parks run]

/-- PARKC of another coach, at a boundary. -/
theorem execParkc_other {u : State} {a : Nat} (other : w ≠ .coach n) (stall : (coachOf s n).stall = none) (drain : (coachOf s n).drain = false)
    (h : Parks s u n (laneOfCoach s n) a)
    (spills : (do spillAll ⟨.coach n, laneOfCoach s n⟩ .d true; spillAll ⟨.coach n, laneOfCoach s n⟩ .r true : M Unit)
      (modC (dropTickets (modC s w id) n) (.coach n) (fun c => { c with out := [] })) = .ok ((), u)) :
    ∃ R, exec (.parkc l) s = .next R ∧ IsParked n a u R := by
  obtain ⟨t, run, filed, up, others⟩ := parkRun_from h.here h.drained h.undivided h.calm h.out h.reach stall (g := id) (f := id) (flagged := false) (w := w)
    (fun _ => rfl) (fun _ => rfl) (fun _ => rfl) (fun _ => ⟨rfl, rfl⟩) (fun _ => ⟨rfl, rfl⟩) rfl spills
  obtain ⟨own, kept, _, _, same, out⟩ := vacate_effects (parkMoves t n a) n .parked
  obtain ⟨T, hT⟩ : ∃ T, T = vacate (parkMoves t n a) n .parked := ⟨_, rfl⟩
  have head : (getC T w).dhead = .val (u32 n) :: (getC s w).dhead.drop 1 := by
    have seenSame : seen (getC T w) = seen (getC s w) := by
      rw [hT, kept w other, getC_parkMoves, others w other, getC_id]
    have heads := congrArg (fun x => x.2.1) seenSame
    exact heads.trans (top_drop takes)
  have room := takes.room
  have lane : laneOfCoach (modC s w id) n = laneOfCoach s n := by cases w <;> rfl
  have coach : coachOf (modC s w id) n = coachOf s n := getC_id s w (.coach n)
  have reached : awaitTarget n (modC s w id) = .ok ((), modC s w id) := by
    unfold awaitTarget
    rw [bind_get, coach, stall, drain]
    rfl
  have stopped : stopping n (parkRun n (laneOfCoach (modC s w id) n) false) (modC s w id) = .ok (.parked, T) := by
    unfold stopping
    rw [lane, run, hT]
  have popped : popN ⟨w, l.set.val⟩ 1 T = .ok ([u32 n], modC T w (fun c => { c with dhead := (getC s w).dhead.drop 1, ddepth := c.ddepth - u32 1 })) :=
    popN_vals ⟨w, l.set.val⟩ [u32 n] T _ (List.cons_ne_nil _ _) head
  obtain ⟨T1, hT1⟩ : ∃ T1, T1 = modC T w (fun c => { c with dhead := (getC s w).dhead.drop 1, ddepth := c.ddepth - u32 1 }) := ⟨_, rfl⟩
  rw [← hT1] at popped
  have pushed : push ⟨w, l.set.val⟩ (flag true) T1 = .ok ((), modC T1 w (restack 0 [.val (flag true)])) := push_restack T1 ⟨w, l.set.val⟩ _ (by
    rw [hT1, getC_modC_self]
    have := congrArg List.length (top_drop takes)
    simp only [List.length_append, List.length_singleton] at this room
    show ((getC s w).dhead.drop 1).length < 8
    omega)
  obtain ⟨T2, hT2⟩ : ∃ T2, T2 = modC T1 w (restack 0 [.val (flag true)]) := ⟨_, rfl⟩
  rw [← hT2] at pushed
  have target : coachOf T2 n = vacated (coachOf (parkMoves t n a) n) .parked := by
    rw [hT2, hT1]
    refine (getC_modC_other _ (.coach n) w _ other.symm).trans ((getC_modC_other _ (.coach n) w _ other.symm).trans ?_)
    rw [hT]
    exact own
  have queue : T2.queue = T.queue := by
    rw [hT2, hT1]
    cases w <;> rfl
  obtain ⟨R, ending, frame, duty, _⟩ := ends_duty s l w 1 .seq (t := T2) (by
    rw [hT2, modC_up, hT1, modC_up, hT]
    exact same.trans (up.trans issues.up)) other (.inr (by rw [queue, hT]; exact out))
  rw [target] at duty
  refine ⟨R, ?_, isParked_of filed (fun b => ?_) ?_⟩
  · rw [← ending]
    refine execParkc_reaches issues takes few some may live slow (by decide) (fun self => absurd self other) (fun _ => ?_)
    rw [bind_of_ok reached, bind_get, bind_of_ok stopped]
    dsimp only
    rw [bind_of_ok popped, bind_of_ok pushed]
    rfl
  · rw [frame.mem, hT2, rdB_modC, hT1, rdB_modC, hT]
  · rcases duty.st with same | ⟨on, _⟩
    · exact same
    · exact absurd on (by rintro (bad | bad) <;> cases bad)

end

end Sys2Proof.Machine
end

section
/-! UNPARK (spec/02 R58; spec/03 R96). -/

namespace Sys2Proof.Machine

/-! ### The loaded coach -/

/-- Coach `c` as the image of the double words `ds` at `a` loads it in state `t`. -/
def loadedImage (t : State) (ds : List DWord) (a : Nat) (c : Coach) : Coach :=
  let g := wordAt ds
  { restoreFrame (vacated c .ready) ds with
    dlim := g 32, rlim := g 33, xdsp := g 34, xrsp := g 35, wbp := g 36, wblim := g 37, keeper := g 38, ccfg := g 39
    moves := (t.moves.filter (fun e => e.1 = a)).map (·.2)
    xcause := 0, xaddr := 0, xinfo := 0, qclass := classOf { ccfg := g 39 }, qattr := attrOf { ccfg := g 39 } }

/-- State `t` with coach `n` so loaded, READY, and its timer armed as it was. -/
def withImage (t : State) (n : Nat) (ds : List DWord) (a : Word) : State :=
  armTimer (setR (makeReady (setCoach t n (loadedImage t ds a.toNat (coachOf t n))) n) (aCshParka + 4 * n) a) n
    (mkD (wordAt ds 43) (wordAt ds 42))

/-- A change of a coach's timer and wake word alone. -/
def OfTimer (f : Coach → Coach) : Prop := ∀ c, ∃ tm wk, f c = { c with timer := tm, wake := wk }

/-- Arming the timer of a READY coach. -/
theorem armTimer_ready {s : State} {n : Nat} (d : DWord) (ready : (coachOf s n).st = .ready) :
    ∃ f, OfTimer f ∧ armTimer s n d = modC s (.coach n) f := by
  unfold armTimer
  split
  · exact ⟨_, fun c => ⟨none, c.wake, rfl⟩, rfl⟩
  · split
    · have own : coachOf (modC s (.coach n) (fun c => { c with timer := none })) n = { coachOf s n with timer := none } :=
        getC_modC_self s (.coach n) (fun c => { c with timer := none })
      unfold wake
      dsimp only
      split
      · rw [own, if_neg (by rw [ready]; decide)]
        refine ⟨fun c => { c with timer := none, wake := (coachOf s n).wake ||| wkTIMER }, fun c => ⟨_, _, rfl⟩, ?_⟩
        exact (modC_modC s (.coach n) (fun c => { c with timer := none }) (fun _ => { coachOf s n with
          timer := none, wake := (coachOf s n).wake ||| wkTIMER })).trans rfl
      · exact ⟨_, fun c => ⟨none, c.wake, rfl⟩, rfl⟩
    · exact ⟨_, fun c => ⟨some d, c.wake, rfl⟩, rfl⟩

/-- What loading an image changes. -/
structure Loads (n : Nat) (ds : List DWord) (a : Word) (t u : State) : Prop where
  own : ∃ tm wk, coachOf u n = { loadedImage t ds a.toNat (coachOf t n) with st := .ready, timer := tm, wake := wk }
  others : ∀ v, v ≠ .coach n → getC u v = getC t v
  mem : SameMemory t u
  cons : u.cons = t.cons
  up : u.up = t.up
  park : getR u (aCshParka + 4 * n) = a

theorem loads_withImage (t : State) (n : Nat) (ds : List DWord) (a : Word) : Loads n ds a t (withImage t n ds a) := by
  obtain ⟨u, hu⟩ : ∃ u, u = setR (makeReady (setCoach t n (loadedImage t ds a.toNat (coachOf t n))) n) (aCshParka + 4 * n) a := ⟨_, rfl⟩
  have own : coachOf u n = { loadedImage t ds a.toNat (coachOf t n) with st := .ready } := by
    rw [hu]
    refine (show coachOf (setR (makeReady _ n) _ a) n = coachOf (makeReady _ n) n from rfl).trans ?_
    rw [coachOf_makeReady, coachOf_setCoach, if_pos rfl]
  have others : ∀ v, v ≠ .coach n → getC u v = getC t v := fun v hv => by
    rw [hu]
    have ready := getC_modC_other (setCoach t n (loadedImage t ds a.toNat (coachOf t n))) v (.coach n) (fun c => { c with st := .ready }) hv
    have loaded := getC_modC_other t v (.coach n) (fun _ => loadedImage t ds a.toNat (coachOf t n)) hv
    exact (getC_setR _ _ _ _).trans ((show getC (makeReady _ n) v = _ by cases v <;> rfl).trans (ready.trans loaded))
  have rest : u.mem = t.mem ∧ u.cons = t.cons ∧ u.up = t.up := by
    rw [hu]
    exact ⟨rfl, rfl, rfl⟩
  obtain ⟨mem, cons, up⟩ := rest
  obtain ⟨f, timer, armed⟩ := armTimer_ready (s := u) (n := n) (mkD (wordAt ds 43) (wordAt ds 42)) (by rw [own])
  have made : withImage t n ds a = modC u (.coach n) f := by rw [withImage, ← hu, armed]
  rw [made]
  obtain ⟨tm, wk, change⟩ := timer (coachOf u n)
  refine ⟨⟨tm, wk, ?_⟩, fun v hv => ?_, fun b => ?_, ?_, ?_, ?_⟩
  · refine (getC_modC_self u (.coach n) f).trans (change.trans ?_)
    rw [own]
  · rw [getC_modC_other _ _ _ _ hv, others v hv]
  · rw [rdB_modC]
    exact rdB_congr mem b
  · rw [modC_cons, cons]
  · rw [modC_up, up]
  · rw [getR_modC, hu, getR_setR, if_pos rfl]

/-! ### UNPARK -/

theorem seen_loadedImage (t : State) {ds : List DWord} {g : Nat → Word} (words : ∀ k, k < 48 → wordAt ds k = g k) (a : Nat) (c : Coach)
    (fits : fld (g 11) 0 4 ≤ 8 ∧ fld (g 11) 8 4 ≤ 4) (st : CoachSt) (tm : Option DWord) (wk : BitVec 4) :
    seen { loadedImage t ds a c with st := st, timer := tm, wake := wk } =
      ([g 0, setBit (g 1) 18 false, g 2, g 3, g 4, g 5, g 32, g 33, g 34, g 35, g 6, g 7, g 8, g 9,
        g 10, g 36, g 37, g 38, g 39, 0, 0, 0], (List.range (fld (g 11) 0 4)).map (fun i => .val (g (12 + i))),
        (List.range (fld (g 11) 8 4)).map (fun i => .val (g (20 + i)))) := by
  obtain ⟨operands, returns⟩ := fits
  have operandHead : (List.range (fld (g 11) 0 4)).map (fun i => Entry.val (wordAt ds (12 + i))) =
      (List.range (fld (g 11) 0 4)).map (fun i => .val (g (12 + i))) :=
    List.map_congr_left fun i hi => by rw [words _ (by have := List.mem_range.1 hi; omega)]
  have returnHead : (List.range (fld (g 11) 8 4)).map (fun i => Entry.val (wordAt ds (20 + i))) =
      (List.range (fld (g 11) 8 4)).map (fun i => .val (g (20 + i))) :=
    List.map_congr_left fun i hi => by rw [words _ (by have := List.mem_range.1 hi; omega)]
  simp only [seen, regList, loadedImage, restoreFrame, syncImprc, setStatusBit, vacated, List.isEmpty_nil, Bool.not_true, words 0 (by decide), words 1 (by decide),
    words 2 (by decide), words 3 (by decide), words 4 (by decide), words 5 (by decide), words 6 (by decide), words 7 (by decide),
    words 8 (by decide), words 9 (by decide), words 10 (by decide), words 11 (by decide), words 32 (by decide), words 33 (by decide),
    words 34 (by decide), words 35 (by decide), words 36 (by decide), words 37 (by decide), words 38 (by decide), words 39 (by decide),
    operandHead, returnHead, List.cons_append, List.nil_append]

theorem imageOk_heads {ds : List DWord} {g : Nat → Word} (words : ∀ k, k < 48 → wordAt ds k = g k) (ok : imageOk ds = true) :
    fld (g 11) 0 4 ≤ 8 ∧ fld (g 11) 8 4 ≤ 4 := by
  simp only [imageOk, Bool.and_eq_true] at ok
  obtain ⟨⟨⟨_, heads⟩, _⟩, _⟩ := ok
  rw [words 11 (by decide)] at heads
  simp only [headsOk, Bool.and_eq_true, decide_eq_true_eq] at heads
  obtain ⟨⟨⟨⟨_, few⟩, _⟩, fewer⟩, _⟩ := heads
  exact ⟨few, fewer⟩

section
variable {s : State} {l : LaneUse} {w : Who} {a v : Word} (h : Issues s l w 1) (takes : Takes s w [.val v, .val a] [] 0 0)
  (few : v.toNat < 1024) (vacant : vacantCoach s v.toNat = true) (aligned : a.toNat % 64 = 0)
  (reach : Accessible s w (reqOf s ⟨w, l.set.val⟩) .load a.toNat 192) (ok : imageOk (block s a.toNat 24) = true)
  (keeper : 1 < ringOf (getC s w) → fld (wordAt (block s a.toNat 24) 38) 0 10 = numOf s w)
  (origin : ringOf (getC s w) ≠ 0 → fld (wordAt (block s a.toNat 24) 40) 0 10 = v.toNat)
include h takes few vacant aligned reach ok keeper origin

/-- UNPARK loads the image, and stores a new ORIGIN. -/
theorem execUnpark_loads : ∃ t, Reads (modC s w (restack 2 [])) t ∧ ∀ T,
    (if fld (wordAt (block s a.toNat 24) 40) 0 10 = v.toNat then pure ()
      else postStore ⟨w, l.set.val⟩ (ringOf (getC s w)) (a.toNat + 0xA0) 4 (0x10000 + v.toNat) : M Unit) (withImage t v.toNat (block s a.toNat 24) a) =
        .ok ((), T) → exec (.unpark l) s = ends s l w 1 .seq T := by
  have hn : need w 2 0 0 0 s = .ok ((), s) := takes.need
  have hd := top_drop takes
  obtain ⟨t, bytes, reads⟩ := bankBytes_accessible (x := ⟨w, l.set.val⟩) 24 (reach.modC (f := restack 2 []) rfl) (by decide)
    (by rw [getC_modC_self]; exact h.notStalled)
  refine ⟨t, reads, fun T ends => instrLong_ok h ?_ (by decide)⟩
  have inside : bankRange a.toNat 192 = true := by rw [bankRange, reach.inside, Bool.true_or]
  have ring : ringOf (getC (modC s w (restack 2 [])) w) = ringOf (getC s w) := by
    rw [getC_modC_self]
    rfl
  rw [bind_of_ok hn, bind_of_ok (pop_restack s ⟨w, l.set.val⟩ v _ hd),
    bind_of_ok (pop_restack _ ⟨w, l.set.val⟩ a ((getC s w).dhead.drop 2) (by rw [getC_modC_self, restack_dhead, hd]; rfl)),
    popped_twice, bind_of_ok (coachArg_ok _ few), bind_get]
  dsimp only
  rw [if_neg (by rw [inside]; exact fun bad => bad.elim (fun x => x aligned) (fun x => Bool.noConfusion x)), reqOf_restacked, bind_of_ok bytes,
    block_of_mem (s := s) (t := modC s w (restack 2 [])) (fun b => rdB_modC s w _ b), ok, ring, numOf_modC,
    vacantCoach_modC _ _ (restack 2 []) (fun _ => rfl), vacant, if_neg (by decide), if_neg (fun bad => bad.2 (keeper bad.1)), if_neg (by
      simp only [Bool.not_true, Bool.false_or, Bool.and_eq_true, bne_iff_ne]
      exact fun bad => bad.1 (origin bad.2)), bind_modify]
  change (if fld (wordAt (block s a.toNat 24) 40) 0 10 = v.toNat then pure Flow.seq else do
      postStore ⟨w, l.set.val⟩ (ringOf (getC s w)) (a.toNat + 0xA0) 4 (0x10000 + v.toNat)
      pure Flow.seq : M Flow) (withImage t v.toNat (block s a.toNat 24) a) = _
  by_cases same : fld (wordAt (block s a.toNat 24) 40) 0 10 = v.toNat
  · rw [if_pos same] at ends ⊢
    cases ends
    rfl
  · rw [if_neg same] at ends ⊢
    rw [bind_of_ok ends]
    rfl

theorem unpark_effects (other : w ≠ .coach v.toNat) : let g := fun k => rd32 s (a.toNat + 4 * k)
    ∃ t, exec (.unpark l) s = .next t ∧ (coachOf t v.toNat).st.live = true ∧ SameMemory s t ∧
      getR t (aCshParka + 4 * v.toNat) = a ∧
      (fld (g 40) 0 10 ≠ v.toNat → NewStore s t w (a.toNat + 0xA0) 4 (BitVec.ofNat 64 (0x10000 + v.toNat))) ∧
      seen (coachOf t v.toNat) = ([g 0, setBit (g 1) 18 false, g 2, g 3, g 4, g 5, g 32, g 33, g 34, g 35, g 6, g 7, g 8, g 9,
        g 10, g 36, g 37, g 38, g 39, 0, 0, 0], (List.range (fld (g 11) 0 4)).map (fun i => .val (g (12 + i))),
        (List.range (fld (g 11) 8 4)).map (fun i => .val (g (20 + i)))) := by
  intro g
  obtain ⟨r, reads, runs⟩ := execUnpark_loads h takes few vacant aligned reach ok keeper origin
  have words : ∀ k, k < 48 → wordAt (block s a.toNat 24) k = g k := fun k hk => wordAt_block s a.toNat hk
  obtain ⟨own, others, mem, cons, up, park⟩ := loads_withImage r v.toNat (block s a.toNat 24) a
  obtain ⟨W, hW⟩ : ∃ W, W = withImage r v.toNat (block s a.toNat 24) a := ⟨_, rfl⟩
  rw [← hW] at own others mem cons up park runs
  have posted : ∃ T, (if fld (wordAt (block s a.toNat 24) 40) 0 10 = v.toNat then pure ()
      else postStore ⟨w, l.set.val⟩ (ringOf (getC s w)) (a.toNat + 0xA0) 4 (0x10000 + v.toNat) : M Unit) W = .ok ((), T) ∧ Posts postRegs W T w ∧
      (fld (wordAt (block s a.toNat 24) 40) 0 10 ≠ v.toNat → Lands W T w ⟨a.toNat + 0xA0, 4, BitVec.ofNat 64 (0x10000 + v.toNat), ringOf (getC s w), l.set.val, false⟩) := by
    by_cases same : fld (wordAt (block s a.toNat 24) 40) 0 10 = v.toNat
    · rw [if_pos same]
      exact ⟨W, rfl, .refl _ _ _, fun no => absurd same no⟩
    · rw [if_neg same]
      obtain ⟨T, post, posts, lands⟩ := postStore_posts (l := postRegs) (s := W) (x := ⟨w, l.set.val⟩) (ring := ringOf (getC s w))
        (a := a.toNat + 0xA0) (n := 4) (v := 0x10000 + v.toNat) (frame := false) postRegs_pool (by decide) (by decide) (.inr postRegs_deny)
      rw [Nat.mod_eq_of_lt (by omega)] at lands
      exact ⟨T, post, posts, fun _ => lands⟩
  obtain ⟨T, post, posts, lands⟩ := posted
  obtain ⟨tm, wk, own⟩ := own
  have target : coachOf T v.toNat = coachOf W v.toNat := posts.others (.coach v.toNat) other.symm
  obtain ⟨R, run, frame, duty, _⟩ := ends_duty s l w 1 .seq (t := T) (by
    rw [posts.up, up, reads.up, modC_up]
    exact h.up) other (.inl (by rw [target, own]; rfl))
  have free : ∀ e, (consOf W e).used = false → (consOf s e).used = false := fun e now => by
    by_contra used
    have kept := reads.kept e (by rw [consOf_modC]; simpa using used)
    rw [consOf, cons, ← consOf, kept, consOf_modC] at now
    exact used now
  rw [target, own] at duty
  refine ⟨R, (runs T post).trans run, ?_, fun b => ?_, ?_, fun differs => ?_, ?_⟩
  · rcases duty.st with same | ⟨_, on⟩
    · rw [same]
      rfl
    · rcases on with on | on
      · rw [on]
        rfl
      · rw [on]
        rfl
  · rw [frame.mem, posts.sameMemory, mem, reads.sameMemory, rdB_modC]
  · rw [frame.csr, posts.csr _ (by
      simp only [postRegs, poolRegs, denyRegs, aCshParka, aCshPool, aCshPoolwait, aBnkDeny, aBnkDenylast, List.mem_append, List.mem_cons, List.not_mem_nil, or_false]
      omega), park]
  · rw [← words 40 (by decide)] at differs
    have sent : (getC R w).out = (getC T w).out := by
      obtain ⟨u, run', _, thread⟩ := ends_thread s l w 1 .seq T (by
        rw [posts.up, up, reads.up, modC_up]
        exact h.up)
      have same := Host.Outcome.next.inj (run.symm.trans run')
      rw [same, thread.out, afterFlow_out]
    exact newStore_of_lands ((lands differs).since free) frame.cons sent
  · refine (frame.others (.coach v.toNat) other.symm).trans ?_
    show seen (coachOf T v.toNat) = _
    rw [target, own]
    exact seen_loadedImage r words a.toNat _ (imageOk_heads words ok) .ready tm wk

end

/-- Settles O29: a park writes the image of the spilled coach; UNPARK loads what such an image holds. -/
theorem parkAndUnpark : Obligations.ParkAndUnpark := by
  unfold Obligations.ParkAndUnpark
  refine ⟨?_, ?_⟩
  · intro s s1 u l n k w i f c on how issues some drained out undivided calm spills a reach
    have finish : (∃ R, exec i s = .next R ∧ IsParked n a u R) → ∃ t, exec i s = .next t ∧ (coachOf t n).st = .parked ∧
        (∀ j, j < 48 → rd32 t (a + 4 * j) = (parkImage u n a).getD j 0) ∧ (∀ b, b < spareBase → b < a ∨ a + 192 ≤ b → rdB t b = rdB u b) :=
      fun ⟨R, run, st, image, outside⟩ => ⟨R, run, st, image, outside⟩
    refine finish ?_
    have parks : Parks s u n k a := ⟨rfl, drained, undivided, calm, out, reach⟩
    rcases how with ⟨rfl, rfl, rfl, rfl, rfl⟩ | ⟨rfl, few, takes, may, live, slow, ⟨other, stall, drain, rfl, rfl, rfl⟩ | ⟨rfl, rfl, rfl, rfl⟩⟩
    · exact execPark_parks parks issues some spills
    · exact execParkc_other issues takes few some may live slow other stall drain parks spills
    · exact execParkc_self issues takes few some may live slow rfl parks spills
  · intro s l w a v h takes few vacant other aligned reach g r ok keeper origin
    have words : ∀ k, k < 48 → wordAt (block s a.toNat 24) k = g k := fun k hk => wordAt_block s a.toNat hk
    exact unpark_effects h takes few vacant aligned reach ok (by rw [words 38 (by decide)]; exact keeper) (by rw [words 40 (by decide)]; exact origin) other

end Sys2Proof.Machine
end

section
/-! REFUTATION. The failed response of a register access in strongbox mode under HOLD restarts the core at L0 (spec/06 R183), and
the restart performs what the other coaches stall for: a read of EVC_FAULT among it clears the count of the difference that it
should leave (`Obligations.EventController`). -/

namespace Sys2Proof.Machine

/-- The stall of a coach that reads register `a`. -/
def readingStall (a : Nat) : Stall := { pops := 0, push := [], len := 1, op := some (.read a) }

/-- Coach 0, in strongbox mode with HOLD set, stalls for a read of EVC_SPUR, and coach 1 for one of EVC_FAULT. -/
def bothReading : State := { State.reset with
  up := true
  coach := [(0, { status := 0x00010000#32, stall := some (readingStall aEvcSpur) }), (1, { stall := some (readingStall aEvcFault) })] }

/-- The restart that the failed response causes performs coach 1's read, which clears the count. -/
theorem copyDifference_cleared : getR (copyDifference bothReading (.response 0)) aEvcFault = 0 := by decide +kernel

/-- The count of the difference is at least 1. -/
theorem noted_ne_zero : u32 (satAdd 65535 (fld (getR bothReading aEvcFault) 16 16) 1 * 2 ^ 16) ≠ 0 := by decide +kernel

/-- Refutes O42: the restart after the failed response performs another coach's read of EVC_FAULT, which clears the count. -/
theorem not_eventController : ¬ Obligations.EventController := by
  unfold Obligations.EventController
  rintro ⟨-, registers⟩
  obtain ⟨-, -, -, copies⟩ := registers bothReading 0 0 0
  obtain ⟨-, -, -, response⟩ := copies rfl
  obtain ⟨t, ran, -, noted⟩ := response aEvcSpur (readingStall aEvcSpur) (by decide) (by decide) (by decide +kernel) rfl rfl rfl rfl
  obtain rfl : settle (copyDifference bothReading (.response 0)) = t := Host.Outcome.next.inj ran
  rw [getR_settle, copyDifference_cleared] at noted
  exact noted_ne_zero noted.symm

end Sys2Proof.Machine
end

section
/-! REFUTATION. The entry of a store whose response an exhausted crossing lost is free again, and the next store that waits for an
entry takes it at once (spec/02 R143; `Obligations.Crossings`). -/

namespace Sys2Proof.Machine

/-- An open store of coach 0. -/
def lostStore : Cons := { used := true, gen := 1, kind := .store, addr := 0x10000404, size := 4 }

/-- Coach 0 has a store in its entry, whose response meets the third failure of its crossing, and a second that waits for an
entry. -/
def lostWhilePosting : State := { overfull 0x10001000 [] with
  coach := [(0, { overfullCoach 0x10001000 [] with out := [⟨0x10000800, 4, 0, 0, 0, false⟩] })]
  cons := [(0, lostStore)]
  mret := [⟨7, 4, .open_ 0 false, 2, 0, false, none⟩] }

/-- The waiting store takes the entry. -/
theorem mortarRetry_retakes : (consOf (mortarRetry lostWhilePosting 7 4 (.open_ 0 false) true) 0).used = true := by decide +kernel

/-- No context of that state stalls. -/
theorem lostWhilePosting_unstalled (w : Who) : (getC lostWhilePosting w).stall = none := by
  cases w with
  | fast => rfl
  | coach n =>
    show (SMap.get {} lostWhilePosting.coach n).stall = none
    by_cases own : 0 = n
    · subst own
      rfl
    · simp only [lostWhilePosting, SMap.get, if_neg own]

/-- Refutes O60: once the response of the store in entry 0 is lost, the coach's next store has that entry. -/
theorem not_crossings : ¬ Obligations.Crossings := by
  unfold Obligations.Crossings
  intro h
  obtain ⟨-, -, -, -, -, -, exhausted⟩ := h lostWhilePosting 7 4 (.open_ 0 false) rfl
  obtain ⟨-, -, response, -⟩ := exhausted (.inr ⟨_, rfl, rfl, rfl⟩)
    ⟨by decide +kernel, fun j mem => absurd mem List.not_mem_nil, fun k mem => by rw [List.mem_singleton.1 mem]; rfl⟩
  obtain ⟨t, ran, freed, -⟩ := response 0 rfl rfl rfl rfl rfl rfl (by decide +kernel) rfl rfl lostWhilePosting_unstalled
  obtain rfl : settle (mortarRetry lostWhilePosting 7 4 (.open_ 0 false) true) = t := Host.Outcome.next.inj ran
  have taken := mortarRetry_retakes
  rw [consOf_settle] at freed
  rw [show consOf _ 0 = _ from freed] at taken
  cases taken

end Sys2Proof.Machine
end

section
/-! REFUTATION. A halt request of coach 0 that is pending as the boot ROM's steps after an L0 restart end takes effect at once: coach
0 is halted, and asked no more (spec/05 R129; spec/15 R368; `Obligations.ResetAndStartUp`). -/

namespace Sys2Proof.Machine

/-! ### What a boot header rests on -/

section
variable {s t : State} (mem : t.mem = s.mem) (ecc : t.ecc = s.ecc) (fli : t.fli = s.fli)
include mem

theorem bytesAt_of_mem (n a : Nat) : bytesAt t a n = bytesAt s a n := by
  induction n generalizing a with
  | zero => rfl
  | succ n ih => rw [bytesAt, bytesAt, rdB_congr mem, ih]

theorem memNat_of_mem (a n : Nat) : memNat t a n = memNat s a n := by rw [memNat, bytesAt_of_mem mem, memNat]

theorem bootWord_of_mem (h off : Nat) : bootWord t h off = bootWord s h off := rdN_of_mem (fun b => rdB_congr mem b) _ _

include ecc in
theorem bootKey_congr (life : lifecycle t = lifecycle s) : bootKey t = bootKey s := by
  have clean : ∀ a n, steleClean t a n = steleClean s a n := fun a n => by rw [steleClean, ecc, steleClean]
  have record : ∀ a n, rdN t a n = rdN s a n := rdN_of_mem fun b => rdB_congr mem b
  unfold bootKey
  simp only [life, memNat_of_mem mem, bytesAt_of_mem mem, clean, record]

include fli in
theorem headerShape_congr (h : Nat) : headerShape t h = headerShape s h := by
  have size : flashBytes t = flashBytes s := by rw [flashBytes, fli, flashBytes]
  unfold headerShape
  simp only [bootWord_of_mem mem, size]

include ecc fli in
theorem headerValid_congr (life : lifecycle t = lifecycle s) (h : Nat) : headerValid t h = headerValid s h := by
  have reads : ∀ a n, flashReads t a n = flashReads s a n := fun a n => by
    rw [flashReads, ecc, erasedSectors, fli, flashReads, erasedSectors]
  unfold headerValid headerFields
  rw [headerShape_congr mem fli, bootWord_of_mem mem, reads, bootKey_congr mem ecc life, bytesAt_of_mem mem, bytesAt_of_mem mem,
    memNat_of_mem mem, memNat_of_mem mem]

include ecc fli in
/-- The boot headers of a state are those of another with the same memory, check bits, flash state and lifecycle. -/
theorem bootHeader_congr (life : lifecycle t = lifecycle s) : bootHeader t = bootHeader s := by
  have size : flashBytes t = flashBytes s := by rw [flashBytes, fli, flashBytes]
  unfold bootHeader
  simp only [headerValid_congr mem ecc fli life, bootWord_of_mem mem, size]

end

/-! ### The steps after an L0 restart -/

/-- The `n` low bytes of `v`, from address `a`. -/
def placed (a n v : Nat) : SMap Byte := (List.range n).map fun i => (a + i, BitVec.ofNat 8 (v / 256 ^ i))

/-- The hash of the header and the image below. -/
def imageHash : Nat := 0x317af9b340586915f0e665af2bd8efba08300e24e780ba2f56fc6d17ca0ad470c36b5d0654de685130e88fa780f21335

/-- The key whose sum with the generator has the hash as its first coordinate: its check of a signature (hash, hash) has both
scalars 1. -/
def imageKey : Nat × Nat := (0xf7f46f74ed88d56ccb518bc78ea39825efc4bfb957183e30ec3bf441f86daf27c8d0a4261f28cb66b6eabf55e8de14b4,
  0x3bbc51bdc06064aa3df316629dc9c6e85bcc5368358de62a64de98e0be5faad1e5c8db7cae34a52b883ab6bdd02cbe5)

/-- The state in which the boot ROM's steps are due, with a halt request of coach 0: the key in the ROM, and a signed header for an
image of one word. -/
def askedToHalt : State := { State.reset with
  up := true
  pwr := { boot := true }
  coach := [(0, { haltReq := true })]
  mem := placed 0xFF00 48 imageKey.1 ++ placed 0xFF30 48 imageKey.2
    ++ placed 0x30000000 0x20 0x10000000010001000100010000000000800000000544f4f42
    ++ placed 0x30000020 48 imageHash ++ placed 0x30000050 48 imageHash ++ placed 0x30000100 8 1 }

/-- That state as the boot ROM looks for its image. -/
def rebooting : State := setGcause (setGcause (modPwr askedToHalt (fun p => { p with boot := false })) 28 1 1) 27 1 0

/-- That state with the image in its place. -/
def reloaded : State := copyWords rebooting (0x30000000 + 0x100) (bootWord rebooting 0x30000000 0xC) (bootWord rebooting 0x30000000 8 / 8)

/-! ### Its header -/

theorem askedToHalt_hash : sha384Nat (bytesAt askedToHalt 0x30000000 0x20 ++ bytesAt askedToHalt 0x30000100 8) = imageHash := by
  decide +kernel

theorem askedToHalt_key : bootKey askedToHalt = some (imageKey.1, imageKey.2) := by decide +kernel

theorem askedToHalt_signature : ecdsaOk curveP384 imageHash imageHash imageHash imageKey.1 imageKey.2 = true := by decide +kernel

theorem askedToHalt_fields : headerFields askedToHalt 0x30000000 = true ∧ headerFields askedToHalt 0x30020000 = false ∧
    bootWord askedToHalt 0x30000000 8 = 8 ∧ memNat askedToHalt 0x30000020 48 = imageHash ∧
    memNat askedToHalt 0x30000050 48 = imageHash ∧ flashBase + flashBytes askedToHalt / 2 = 0x30020000 := by decide +kernel

theorem bootHeader_askedToHalt : bootHeader askedToHalt = some 0x30000000 := by
  obtain ⟨fields, bare, length, r, s, second⟩ := askedToHalt_fields
  have valid : headerValid askedToHalt flashBase = true := by
    unfold headerValid flashBase
    rw [fields, askedToHalt_key, length, r, s, askedToHalt_hash, Bool.true_and]
    exact askedToHalt_signature
  have invalid : headerValid askedToHalt 0x30020000 = false := by
    unfold headerValid
    rw [bare]
    rfl
  unfold bootHeader
  dsimp only
  simp only [second, valid, invalid]
  rfl

theorem rebooting_life : lifecycle rebooting = lifecycle askedToHalt := by decide +kernel

theorem bootHeader_rebooting : bootHeader rebooting = some 0x30000000 := by
  have same : bootHeader rebooting = bootHeader askedToHalt := by
    have life := rebooting_life
    unfold rebooting at life ⊢
    generalize askedToHalt = s at life ⊢
    exact bootHeader_congr rfl rfl rfl life
  exact same.trans bootHeader_askedToHalt

theorem askedToHalt_banks (n : Nat) : (bankN askedToHalt n).own = .owned ∧
    coreAdmits (bankN askedToHalt n).owner ⟨0, 0, false⟩ .store = true ∧ (bankN askedToHalt n).pwr = 0 := by
  have fresh : bankN askedToHalt n = {} := rfl
  rw [fresh]
  decide +kernel

/-! ### The restart -/

/-- The image has no vendor patch, and nothing is found as its header is read. -/
theorem rebooting_plain : lifecycle rebooting = 0 ∧ bootWord rebooting 0x30000000 0x14 = 0 ∧ rebooting.ecc = [] := by decide +kernel

/-- Reads of flash without errors find nothing. -/
theorem readHeader_clean {s : State} (clean : s.ecc = []) (h : Nat) : readHeader s h = s := by
  have read : ∀ a n, readFlash s a n = s := fun a n => by
    unfold readFlash
    rw [clean]
    rfl
  unfold readHeader
  dsimp only
  rw [read, read]
  exact ite_self s

theorem release_reloads (x : StartUp) (cmp : x.cmp = none) (ports : x.ports = []) :
    release askedToHalt x = makeReady (modC reloaded (.coach 0) (fun c => { c with pc := u32 (bootWord rebooting 0x30000000 0x10) })) 0 := by
  obtain ⟨virgin, unpatched, clean⟩ := rebooting_plain
  have restarted : release askedToHalt x = bootImage rebooting := by
    have tested : comparatorTest rebooting x = rebooting := by
      unfold comparatorTest
      rw [cmp, ports]
      rfl
    have on : rebooting.lnc.set ≠ .failstop := by decide
    unfold release
    rw [if_pos (show askedToHalt.up = true from rfl), if_pos (show askedToHalt.pwr.boot = true from rfl)]
    show (let s1 := comparatorTest rebooting x
      let s2 := if x.ports.isEmpty then s1 else reformLanes s1
      if x.cmp.isSome then bootFail s2 1 else if s2.lnc.set = .failstop then bootFail s2 2 else bootImage s2) = _
    dsimp only
    rw [tested, ports, cmp]
    exact (if_neg Bool.false_ne_true).trans (if_neg on)
  have image : readHeader (readHeader rebooting flashBase) (flashBase + flashBytes rebooting / 2) = rebooting := by
    rw [readHeader_clean clean, readHeader_clean clean]
  rw [restarted]
  unfold bootImage
  rw [if_neg (by rw [virgin]; decide), if_pos virgin, image]
  dsimp only
  rw [bootHeader_rebooting]
  dsimp only
  rw [unpatched, bootPatch, if_pos rfl]
  rfl

/-- The copy of the image leaves the halt request. -/
theorem reloaded_asked : (coachOf reloaded 0).haltReq = true ∧ (coachOf reloaded 0).stall = none ∧ (coachOf reloaded 0).drain = false := by
  decide +kernel

/-- Refutes O53: coach 0 is halted, with no request pending, and so neither READY nor in RUN. -/
theorem not_resetAndStartUp : ¬ Obligations.ResetAndStartUp := by
  unfold Obligations.ResetAndStartUp
  intro h
  obtain ⟨-, -, -, -, -, -, -, -, restart⟩ := h askedToHalt 0 ⟨0, 15, [], none, []⟩
  obtain ⟨t, ran, -, -, entered, -⟩ := restart rfl rfl rfl rfl (by decide) (by decide +kernel) 0x30000000 bootHeader_askedToHalt
    fun n _ => askedToHalt_banks n
  obtain rfl : settle (release askedToHalt ⟨0, 15, [], none, []⟩) = t := Host.Outcome.next.inj ran
  rw [release_reloads _ rfl rfl] at entered
  obtain ⟨asked, unstalled, undrained⟩ := reloaded_asked
  generalize reloaded = u at entered asked unstalled undrained
  have ready := fun v : State => coachOf_makeReady v 0
  have entry : coachOf (modC u (.coach 0) (fun c => { c with pc := u32 (bootWord rebooting 0x30000000 0x10) })) 0 =
      { coachOf u 0 with pc := u32 (bootWord rebooting 0x30000000 0x10) } := getC_modC_self u (.coach 0) _
  generalize modC u (.coach 0) (fun c => { c with pc := u32 (bootWord rebooting 0x30000000 0x10) }) = v at entered entry
  have due : HaltDue (makeReady v 0) 0 := by
    refine ⟨List.mem_append_right _ (List.mem_singleton.2 rfl), ?_, ?_, ?_⟩
    · rw [ready, entry]
      exact asked
    · rw [ready, entry]
      exact unstalled
    · rw [ready, entry]
      exact undrained
  have duty := halted_settle due
  have halt : (coachOf (settle (makeReady v 0)) 0).st = .halt := duty.off fun h => h.elim (nomatch ·) (nomatch ·)
  have running := entered duty.haltReq
  rw [halt] at running
  exact running.elim (nomatch ·) (nomatch ·)

end Sys2Proof.Machine
end
